-- ==== Sys2Proof/Word.lean ====
section
/-! DEFINITION. The plain words of the block: bytes, and the sparse table that holds registers of one kind, tiles,
pages and bytes of memory. -/

namespace Sys2Proof

/-- Eight bits: the unit of every memory, file, packet and link of the module (R7). -/
abbrev Byte := BitVec 8

/-- A sparse table: entries by number, numbers strictly rising. What an unlisted number holds is said by the reader of
the table (`Table.getD`). -/
abbrev Table (α : Type) := List (Nat × α)

end Sys2Proof
end

