-- ==== Sys2Proof/Machine/Types.lean ====
section
/-! DEFINITION. The names and records that commands carry and that the state holds: formats, statuses, events, packet
headers, the arguments of the commands of Table 16.7, and the outcomes that event rows bring from outside. -/

namespace Sys2Proof

/-! ## Formats (Table 4.1) -/

/-- The element formats of Table 4.1. -/
inductive Fmt | e4m3 | e5m2 | e3m2 | e2m1 | int8 | bf16 | fp32 | w40
  deriving DecidableEq, Repr

/-- The parts of a binary floating-point format: exponent bits, fraction bits, bias, and whether the top exponent is
kept for infinity and NaN (Table 4.2). -/
structure FloatFmt where
  ebits : Nat
  fbits : Nat
  bias  : Nat
  deriving DecidableEq, Repr

/-- The class of a value or of a sum (R82). -/
inductive Cls | fin | pinf | ninf | nan
  deriving DecidableEq, Repr

/-- An exact dyadic number m × 2^e. -/
structure Dy where
  m : Int
  e : Int
  deriving DecidableEq, Repr

/-- A value: finite and exact, an infinity, or NaN. -/
inductive Val
  | fin (d : Dy)
  | inf (neg : Bool)
  | nan
  deriving DecidableEq, Repr

/-- Rounding of a long-sum add (R86): to nearest with ties to even, or stochastic with a 32-bit random value (R87). -/
inductive Rnd
  | rne
  | sr (r : BitVec 32)
  deriving DecidableEq, Repr

/-! ## Statuses and events -/

/-- Status codes (Table 16.8). -/
inductive Status
  | ok | deferred | busy | badOpcode | version | auth | noBib | quota | bounds | notHome | format | dataLost | fault
  deriving DecidableEq, Repr, Inhabited

/-- Event arguments (Table 17.6), one constructor per event of Table 16.9. -/
inductive EvArg
  | holdLong (causes : BitVec 8) (us : BitVec 32)
  | lateLift (stream : BitVec 12) (item : BitVec 24) (slackNs : BitVec 32)
  | overflowSkip (step : BitVec 48) (sources : BitVec 16) (skips : BitVec 8) (limit : Bool)
  | sweepDiverge (group : BitVec 15) (product : Bool) (high : BitVec 11) (low : BitVec 11)
  | lockerSpill (die : BitVec 2) (tier : BitVec 2)
  | streamHalt (stream : BitVec 12) (item : BitVec 24) (va : BitVec 48)
  | streamUnwind (stream : BitVec 12) (other : BitVec 12) (first : BitVec 24) (count : BitVec 24)
  | lodgeUe (lun : BitVec 29) (t2 : Bool) (bibs : List (BitVec 12))
  | linkRetry (port : BitVec 4) (seq : BitVec 12)
  | bypass (module : BitVec 11) (rail : Bool) (dim : BitVec 2) (old new : BitVec 3) (reason : BitVec 4)
  | forerunnerIn (job : BitVec 64) (rank lost fore : BitVec 11) (step : BitVec 48)
  | spread (job : BitVec 64) (dim : BitVec 2) (planes : BitVec 16) (m1 : BitVec 11)
  | buddySharedFeed (job : BitVec 64) (dim : BitVec 2) (off : BitVec 3) (pairs : BitVec 12)
  | counterSat (id inst : BitVec 16)
  | courseViolation (status : BitVec 8) (courseId : BitVec 64) (segment : BitVec 20) (use : BitVec 24)
      (detail : BitVec 128)
  | keyRotate (link : Bool) (phase : BitVec 2) (gen : BitVec 32) (job : BitVec 64)
  | conservation (balance : BitVec 3) (at_ : BitVec 15) (diff : BitVec 32)
  | repair (part : BitVec 4) (inst : BitVec 12) (detail : BitVec 64)
  deriving DecidableEq, Repr

/-- An event on its way to hub 0's sideband edge: everything of Table 17.5 that its source knows. -/
structure Event where
  bib     : BitVec 12 := 0
  slot    : BitVec 8 := 0xFF
  src     : BitVec 4 := 0
  srcInst : BitVec 12 := 0
  arg     : EvArg
  deriving DecidableEq, Repr

/-- An entry of the event log (Table 17.5). -/
structure LogEntry where
  ts    : BitVec 64
  epoch : BitVec 16
  index : BitVec 48
  ev    : Event
  deriving DecidableEq, Repr

/-! ## Command packets -/

/-- The path a packet came by (Table 16.1). -/
inductive Path | host | eth (port : Fin 2) | i3c
  deriving DecidableEq, Repr

/-- The command header of Table 16.2, with the path it came by. `argRsv` says whether a reserved bit of the arguments is
nonzero (check 6 of Table 16.3); the spec gives no byte layout of the arguments. -/
structure Hdr where
  path      : Path := .eth 0
  pver      : BitVec 8 := 1
  opcode    : BitVec 16 := 0
  bib       : BitVec 12 := 0
  slot      : BitVec 8 := 0
  rsvHigh   : BitVec 4 := 0
  argLen    : BitVec 16 := 0
  tag       : BitVec 32 := 0
  oseq      : BitVec 64 := 0
  boots     : BitVec 32 := 0
  jobId     : BitVec 64 := 0
  rdone     : BitVec 32 := 0
  signReply : Bool := false
  role      : BitVec 2 := 0
  rsvLow    : BitVec 221 := 0
  argRsv    : Bool := false
  deriving DecidableEq, Repr

/-- Header of a sealed block (Table 14.7) with the verdict of its AES-256-GCM tag under the bib's host key (R306). -/
structure Seal where
  dir   : Bool
  bib   : BitVec 12
  len   : BitVec 12
  seq   : BitVec 64
  rsv   : BitVec 167
  tagOk : Bool
  deriving DecidableEq, Repr

/-- What a service Ethernet datagram carries (Table 16.1): a tenant's sealed block, or an operator packet with the verdict
of its ML-DSA-87 signature under the operator key (R338). -/
inductive Datagram
  | sealed (s : Seal) (h : Hdr)
  | operator (h : Hdr) (sigOk : Bool)
  deriving DecidableEq, Repr

/-- The results a reply can carry. Results whose bytes the spec does not lay out are named, with their content: a quote with
its alias certificate (by digest) and, for a bib, the encapsulation key (R314); `kept` is a kept reply that REPLIES
returns (R338); `lost` is what ST_DATA_LOST names: a tensor and its tile or, of the locker, its unit and micro-batch (R142, R194), and `lostPage` a page (Table 9.12). -/
inductive Result
  | none
  | identity (version : BitVec 8) (record : BitVec 1024)
  | quote (body : BitVec 3584) (sig : BitVec 37016) (alias_ : BitVec 512) (ek : Option (BitVec 12544))
  | entries (es : List LogEntry)
  | counters (snap : BitVec 8) (recs : List (BitVec 128))
  | kept (opcode : BitVec 16) (slot : BitVec 8) (status : Status) (final : Bool) (tag : BitVec 32) (event : BitVec 16)
      (ts : BitVec 64) (epoch : BitVec 16) (signed : Bool) (r : Result)
  | cert (body : BitVec 1536) (sig : BitVec 37016)
  | distances (d : List Nat)
  | testStat (w : BitVec 64)
  | bytes (b : List Byte)
  | sharedPairs (ps : List (Nat × Nat))
  | grant (s : Nat)
  | lost (tensor : BitVec 32) (unit : BitVec 40) (mb : BitVec 8)
  | lostPage (page : BitVec 27)
  deriving DecidableEq, Repr

/-- A reply (Table 16.4): the fields that differ from reply to reply. -/
structure Reply where
  path   : Path
  opcode : BitVec 16
  bib    : BitVec 12
  slot   : BitVec 8
  status : Status
  final  : Bool
  tag    : BitVec 32
  event  : BitVec 16
  ts     : BitVec 64
  epoch  : BitVec 16
  signed : Bool
  result : Result
  deriving DecidableEq, Repr

/-! ## Arguments of commands -/

/-- The rw fields of the bib record (Table 14.1), as ADMIT and QUOTA carry them. -/
structure BibArgs where
  prio       : BitVec 2 := 0
  sMin       : BitVec 7 := 1
  courses    : BitVec 9 := 0
  carves     : BitVec 9 := 0
  streams    : BitVec 13 := 0
  liftShare  : BitVec 8 := 0xFF
  vf         : BitVec 6 := 0
  t2Quota    : BitVec 18 := 0
  t1Quota3   : BitVec 13 := 0
  t1Quota2   : BitVec 13 := 0
  t1Quota1   : BitVec 13 := 0
  t1Quota0   : BitVec 13 := 0
  ptRoot     : BitVec 27 := 0
  hostBase   : BitVec 52 := 0
  hostBlocks : BitVec 21 := 0
  tenant     : BitVec 32 := 0
  deriving DecidableEq, Repr

/-- A wrapped link key (R303, Table 14.6): its header, the encrypted key, and the verdict of its tag under KW. -/
structure WrappedKey where
  wver  : BitVec 8
  bib   : BitVec 12
  jobId : BitVec 64
  epoch : Bool
  nonce : BitVec 96
  rsv   : BitVec 75
  ct    : BitVec 256
  tagOk : Bool
  deriving DecidableEq, Repr

/-- One page range of MAP: pages, the frames they take, and the rights (R189, R190). Page i takes the frame at
`frame + i` 2 MiB units of the tier's offset. -/
structure MapArgs where
  map    : Bool
  owner  : BitVec 12
  page   : BitVec 27
  count  : Nat
  tier   : BitVec 3
  frame  : BitVec 29
  wr     : Bool
  prot   : Bool
  shared : List (BitVec 12)
  deriving DecidableEq, Repr

/-- A member of a job: rank's module, its bib, and its four feed identities (R279, R321). -/
structure Member where
  module : BitVec 11
  bib    : BitVec 12
  feeds  : List (BitVec 32)
  deriving DecidableEq, Repr

/-- A mirror entry (Table 13.8). -/
structure Mirror where
  tensor : BitVec 24
  ox     : Int
  oy     : Int
  oz     : Int
  rail   : Bool
  act    : BitVec 2
  deriving DecidableEq, Repr

/-- The job configuration command (Table 16.7): job record, member table in rank order, mirror table, recovery policy,
FORCE, fixed intervals, forerunner reservations. -/
structure JobArgs where
  jobId   : BitVec 64
  jxm     : BitVec 4
  jym     : BitVec 4
  jzm     : BitVec 3
  jxc     : BitVec 4
  jyc     : BitVec 4
  jzc     : BitVec 3
  bib     : BitVec 12
  jtag    : BitVec 16
  members : List Member
  mirrors : List Mirror
  policy  : Bool
  force   : Bool
  fixedNb : Option (BitVec 13)
  fixedNl : Option (BitVec 22)
  fores   : List (BitVec 11)
  deriving DecidableEq, Repr

/-- Where PUT and GET move data: a bib virtual address or a lodge object (Table 16.7). -/
inductive Place
  | va (a : BitVec 48)
  | object (id : Nat)
  deriving DecidableEq, Repr

/-- What OBJECT does (Table 16.7). -/
inductive ObjAct | create | commit | delete
  deriving DecidableEq, Repr

/-- A firmware image as the verifier sees it (Table 14.12, R316): header fields, and the verdicts of the signature and of
the payload digest. `keyOk` says that the key's hash matches its fuse and its revocation fuse is not blown. -/
structure Image where
  kind    : BitVec 8
  magicOk : Bool
  iver    : BitVec 8
  arch    : BitVec 8
  rsvZero : Bool
  svn     : BitVec 8
  version : BitVec 64
  digest  : BitVec 512
  keyOk   : Bool
  sigOk   : Bool
  digestOk : Bool
  deriving DecidableEq, Repr

/-! ## Outcomes brought by event rows -/

/-- The rails of Table 18.3 in their order. -/
inductive Rail | vaux | vflash | vphy | vdram | vcore
  deriving DecidableEq, Repr

/-- The readings of one 1 ms window (R34, R37, R387, R389): per Rink die beat rate and junction, the highest set point
that satisfies R26 as the controller finds it, supplies, and coolant. -/
structure Readings where
  rate   : List (BitVec 16)
  tj     : List (BitVec 8)
  ceil   : BitVec 8
  pin    : BitVec 16
  iinA   : BitVec 16
  iinB   : BitVec 16
  vinA   : BitVec 16
  vinB   : BitVec 16
  tIn    : BitVec 8
  tOut   : BitVec 8
  deriving DecidableEq, Repr

/-- What a tick token can reach (R29): the units that enforce durations. -/
inductive TickUnit
  | gate (n : BitVec 15)
  | lift
  | sideband
  | poller
  deriving DecidableEq, Repr

/-- Why a carve fault is detected (R62, R63): a residue mismatch, an uncorrectable SRAM or hop-buffer error, a course
violation with its status, or a fault in a part that the whole station shares. -/
inductive FaultKind
  | residue
  | sram
  | violation (st : Status)
  | shared
  deriving DecidableEq, Repr

/-- A part lost beyond repair (R20). -/
inductive LostPart | rinkDie | nearTier | stackBase | hub | join
  deriving DecidableEq, Repr

/-- Virtual-channel slot of a frame (Table 13.2). -/
structure SlotRef where
  vc     : BitVec 3
  stream : BitVec 12
  data   : List Byte
  deriving DecidableEq, Repr

/-- Message open header (Table 13.7). -/
structure MsgOpen where
  stream : BitVec 12
  dst    : BitVec 11
  src    : BitVec 11
  kind   : BitVec 2
  jtag   : BitVec 16
  epoch  : Bool
  dbib   : BitVec 12
  va     : BitVec 48
  bytes  : BitVec 24
  term   : BitVec 32
  mseq   : BitVec 48
  rnd    : Bool
  seed   : BitVec 4
  rsv    : BitVec 34
  deriving DecidableEq, Repr

/-- The MSG item of a frame (MTYPE of Table 13.2). -/
inductive Msg
  | none
  | open_ (m : MsgOpen)
  | close (stream : BitVec 12) (tag : BitVec 128)
  | control (jtag : BitVec 16) (gate : BitVec 13) (epoch : BitVec 8) (value : Bool) (abort : Bool)
  | capability (w : BitVec 256)
  deriving DecidableEq, Repr

/-- A frame (Table 13.2). -/
structure Frame where
  ftype : BitVec 4
  seq   : BitVec 12
  ack   : BitVec 12
  nak   : Bool
  cr    : List (BitVec 3 × BitVec 13)
  slots : List SlotRef
  msg   : Msg
  deriving DecidableEq, Repr

/-- Capability message of a neighbour and its lanes (Table 13.4, R271). -/
structure Capability where
  slvMin : BitVec 8
  slvMax : BitVec 8
  arch   : BitVec 8
  module : BitVec 11
  rail   : Bool
  dim    : BitVec 2
  dir    : Bool
  sysid  : BitVec 64
  deriving DecidableEq, Repr

/-- A patch in a collective chunk (Table 13.9): an operand of a reduce-scatter, with this module's own contribution as the base engine
reads it, the operation (0 add, 1 max, 2 min), TERM and rounding, and whether the stage is the last; or an all-gather's patch. -/
inductive Chunk
  | reduce (op : BitVec 2) (vals own : List (BitVec 40)) (term : BitVec 32) (sr : Bool) (seed : BitVec 4) (last : Bool)
  | gather (codes : List (BitVec 16)) (scale : BitVec 8)
  deriving DecidableEq, Repr

/-- A lodge unit's place: channel, die, block group, wordline, page (Table 11.3). -/
structure LodgePlace where
  ch  : BitVec 4
  die : BitVec 4
  blk : BitVec 11
  wl  : BitVec 9
  pg  : BitVec 2
  deriving DecidableEq, Repr

/-- The tag of a lodge unit (Table 11.4). -/
structure UnitTag where
  cls   : BitVec 4
  epoch : Bool
  prot  : Bool
  bib   : BitVec 12
  lun   : BitVec 29
  seq   : BitVec 64
  deriving DecidableEq, Repr

/-- What a line that reports uncorrectable belongs to (Table 12 of R202): a committed page, the service partition with or
without a second copy, a tile, or other page data. -/
inductive LineOwner
  | backedPage (bib : BitVec 12) (page : BitVec 27)
  | service (secondCopy : Bool)
  | tile (bib : BitVec 12) (tensor : BitVec 24) (tile : BitVec 40)
  | page (bib : BitVec 12) (page : BitVec 27)
  deriving DecidableEq, Repr

/-- Where a tile move goes or comes from: a system address without its module number: tier code and offset (R188). -/
structure HomeAddr where
  tier : BitVec 3
  off  : BitVec 50
  deriving DecidableEq, Repr

/-- A tile's name: owning bib, tensor, tile index (Table 9.5). -/
structure TileId where
  bib    : BitVec 12
  tensor : BitVec 24
  tile   : BitVec 40
  deriving DecidableEq, Repr

/-- A top-k candidate (Table 7.4). -/
structure Cand where
  list  : BitVec 24
  dist  : BitVec 40
  index : BitVec 40
  deriving DecidableEq, Repr

/-- What a self-test found (Table 17.9, R67, R374). -/
structure TestOutcome where
  pass  : Bool
  part  : BitVec 4
  row   : BitVec 9
  col   : BitVec 7
  qtr   : BitVec 2
  deriving DecidableEq, Repr

/-- Post-unit functions whose result is stated only within an accuracy (Table 6.3). -/
inductive PostUnary
  | exp2 | log2 | recip | rsqrt | sqrt | tanh | sigmoid | gelu | silu | dTanh | dSigmoid | dGelu | dSilu
  deriving DecidableEq, Repr

/-- How an add, a multiply or a fused multiply-add of a post-unit rounds: RNE or SR, to W40 or FP32 (Table 6.3). -/
structure PuRnd where
  sr   : Bool := false
  fp32 : Bool := false
  deriving DecidableEq, Repr

/-- What a post-unit lane computes for one element (Table 6.3, R126 to R133), in W40: `x` the result in the lane; `elem` the element of
the same token and column of another tile of the bib; `feature` the element of that column in a tile's row 0; `row` a row reduction's
value for the token, of a running maximum and sum the maximum, or the sum when `sum` is set; `held` a value held in station SRAM;
`plane` the element's value in a sign, mask or index plane that has been read from the locker; `le` 1 or 0 by comparison; `sel`
the first value where the condition is not 0, else the second; `causal` 0 where the column's position is after the token's. -/
inductive PuExpr
  | x
  | const (c : BitVec 40)
  | elem (tensor : BitVec 24) (tile : BitVec 40)
  | feature (tensor : BitVec 24) (tile : BitVec 40)
  | row (id : BitVec 8) (sum : Bool)
  | held (id : BitVec 8)
  | plane (tensor : BitVec 32) (unit : BitVec 24) (mb : BitVec 8)
  | un (op : PostUnary) (a : PuExpr)
  | add (r : PuRnd) (a b : PuExpr)
  | mul (r : PuRnd) (a b : PuExpr)
  | fma (r : PuRnd) (a b c : PuExpr)
  | max (a b : PuExpr)
  | min (a b : PuExpr)
  | le (a b : PuExpr)
  | sel (c a b : PuExpr)
  | causal (a : PuExpr)
  | drop (d : BitVec 32) (tensor : BitVec 24) (mb : BitVec 8) (a : PuExpr)
  deriving DecidableEq, Repr

/-- A step of a post-unit on a result: the lane's value is replaced, held in station SRAM in FP32 (R130, R131), contributed to
a row reduction by sum or by running maximum and sum (R129), or written into a sign, mask or index plane of a kind of Table 6.5. -/
inductive PostFn
  | set (e : PuExpr)
  | hold (id : BitVec 8) (e : PuExpr)
  | reduce (id : BitVec 8) (runMax : Bool) (e : PuExpr)
  | keep (kind : BitVec 4) (tensor : BitVec 32) (unit : BitVec 24) (e : PuExpr)
  deriving DecidableEq, Repr

/-- Where a finished long sum goes: nowhere yet, to the output, or as one add with its TERM into a T2 sum (R121, R156). -/
inductive LastAdd
  | no
  | write
  | toSum (term : BitVec 32)
  deriving DecidableEq, Repr

/-- What the spec says a use names or holds and Table 8.6 gives no field for: the steps of its post-units, whether its long-sum adds
are the last, the first column of the tiles that the carve's first lane takes (R52, R59), and a plane output's channel pitch in
8-byte units, first pixel and first channel (R151), and whether the use's output is the loss (R105). -/
structure UseExtra where
  post  : List PostFn := []
  last  : LastAdd := .no
  col   : BitVec 8 := 0
  pitch : BitVec 10 := 0
  pixel : BitVec 24 := 0
  chan  : BitVec 12 := 0
  loss  : Bool := false
  deriving DecidableEq, Repr

/-- What a base engine adds into a sum tile: the finished partial that post-units hold for it (R121), or a W40 tile of the bib, such as
the buffer of R144, with its TERM and rounding. -/
inductive AddSrc
  | finished
  | tile (t : TileId) (term : BitVec 32) (sr : Bool) (seed : BitVec 4)
  deriving DecidableEq, Repr

/-- What a base engine does with lines: gather, scatter, or scatter that adds rows of 64 W40 values (R144, R200). -/
inductive GatherDir | gather | scatter | scatterAdd
  deriving DecidableEq, Repr

end Sys2Proof
end

