-- ==== Sys2Proof/Syntax.lean ====
section
/-! DEFINITION. The commands of the block: one constructor per row of spec/opcode_table.json, in the table's order. The table
gives no fields; the operands are what the spec says a row carries in: a packet header and arguments, the unit a row
names, measured values, and verdicts of outside parties and of the cryptographic checks. Stations are physical (p = 26 ×
die + position), quarters 0 to 3, gates module gate numbers, `slot` a course slot. -/

namespace Sys2Proof

inductive Instr
  -- command packets (Table 16.7): the header and the arguments
  | hello (c : Hdr) (low high : BitVec 8)
  | identity (c : Hdr)
  | quote (c : Hdr) (nonce : BitVec 256) (tries : Nat)
  | events (c : Hdr) (first : BitVec 48) (count : Nat)
  | counters (c : Hdr) (names : List (BitVec 16))
  | replies (c : Hdr) (tag : BitVec 32)
  | opkey (c : Hdr) (key : BitVec 20736)
  | admitBib (c : Hdr) (a : BibArgs)
  | keys (c : Hdr) (ct : BitVec 12544) (links : List WrappedKey)
  | quota (c : Hdr) (a : BibArgs)
  | seeds (c : Hdr) (set : List (BitVec 64))
  | keyrot (c : Hdr)
  | resume (c : Hdr)
  | release (c : Hdr) (nonce : BitVec 256)
  | map (c : Hdr) (a : MapArgs)
  | load (c : Hdr) (va : BitVec 48) (len : BitVec 32) (digestOk : Bool)
  | unload (c : Hdr)
  | run (c : Hdr) (steps : BitVec 48) (inputSeq : BitVec 64)
  | cancel (c : Hdr)
  | freeze (c : Hdr) (table : List Bool)
  | consts (c : Hdr) (prog : BitVec 4) (ks : List (BitVec 40))
  | limit (c : Hdr) (lim : BitVec 16)
  | jobConfig (c : Hdr) (a : JobArgs)
  | jobEnd (c : Hdr)
  | secure (c : Hdr) (setIntervals : Bool) (nb : BitVec 13) (nl : BitVec 22)
  | swap (c : Hdr) (rank : BitVec 11) (module : BitVec 11)
  | regrow (c : Hdr) (fores : List (BitVec 11))
  | put (c : Hdr) (dst : Place) (data : List Byte)
  | get (c : Hdr) (src : Place) (len : Nat)
  | object (c : Hdr) (act : ObjAct) (id : Nat) (kind : BitVec 8)
  | sysmap (c : Hdr) (dx dy dz : BitVec 5) (sysid : BitVec 64) (x y : BitVec 4) (z : BitVec 3)
  | join (c : Hdr) (rail : Fin 2) (dim : BitVec 2) (on : Bool)
  | drain (c : Hdr) (port : BitVec 4) (on : Bool)
  | rink (c : Hdr) (cfg : BitVec 4)
  | vcore (c : Hdr) (target : BitVec 8)
  | withdraw (c : Hdr) (stn : BitVec 7) (on : Bool)
  | selftest (c : Hdr) (unit : BitVec 4) (inst : BitVec 12)
  | calibrate (c : Hdr) (unit : BitVec 4) (inst : BitVec 12)
  | reset (c : Hdr) (force : Bool)
  | fwStage (c : Hdr) (images : List Image)
  | fwActivate (c : Hdr)
  | fwSlot (c : Hdr) (slotB : Bool)
  | svnAdvance (c : Hdr) (min : BitVec 8)
  -- paths, registers
  | hostPollTimer (bib : BitVec 12)
  | commandBlockRead (bib : BitVec 12) (sl : Seal) (h : Hdr)
  | ethDatagramRx (port : Fin 2) (d : Datagram)
  | i3cPacketRx (h : Hdr)
  | replyPost (bib : BitVec 12)
  | hostBarWrite (fn : Fin 64)
  | hostBlockRx (bib : BitVec 12) (sl : Seal) (cmd : Option Hdr)
  | perstAssert
  | registerWrite (off : BitVec 32) (val : BitVec 128)
  | rcFieldRead (off : BitVec 32)
  | vcoreTargetWrite (target : BitVec 8)
  | rinkCfgRequestWrite (cfg : BitVec 4)
  | stnWithdrawWrite (stn : Fin 104) (on : Bool)
  | holdPauseWrite (slot : BitVec 8) (on : Bool)
  | liftStreamCancel (strm : BitVec 12)
  | pfStartWrite
  | slPortDrainWrite (port : Fin 12) (on : Bool)
  | slPatternStart (port : Fin 12)
  | bypJoinWrite (rail : Fin 2) (dim : Fin 3) (on : Bool)
  | clipWrite (slot : BitVec 8) (clip : BitVec 32)
  | scaleRecordWrite (slot : BitVec 8) (group : BitVec 14) (hBase srate : BitVec 4) (sweep policy : BitVec 2) (fmt : BitVec 4)
  -- feeds, rails, pins, time base
  | feedPresent (b : Bool) (vin : BitVec 16)
  | feedLost (b : Bool) (vin : BitVec 16)
  | bothFeedsLost
  | pwrEnAssert (lowUs : Nat)
  | pwrEnNegate
  | railInRegulation (rail : Rail) (idA idB : Option (BitVec 32 × BitVec 32))
  | railStartTimeout (rail : Rail)
  | railRegulationLoss (rail : Rail)
  | holdupExpiry
  | resetNNegate (sinceGoodUs : Nat)
  | resetNAssert
  | chassisAlert (level : Bool)
  | thermalTrip (rinkTj hubTj stackTj nearTj tOut : BitVec 8)
  | tripLatchClear
  | timestampWrap
  | tickToken
  | tickArrival (u : TickUnit)
  | beatMonitorWindow (r : Readings)
  | vcoreSlewStep
  | holdDutyPieceEnd
  | heartbeatToggle
  | heartbeatLoss
  | serviceCoreHang (core : Fin 16) (wholeRow : Bool)
  -- carve scheduler, sequencer, gates
  | carveGrant (slot : BitVec 8)
  | carveWaitTimeout (slot : BitVec 8)
  | runEnd (slot : BitVec 8)
  | segmentStart (slot : BitVec 8) (seg : BitVec 20) (work : List Nat)
  | segmentFinish (slot : BitVec 8) (seg : BitVec 20)
  | stepEndToken (slot : BitVec 8)
  | useStart (slot : BitVec 8) (seg : BitVec 20) (use : BitVec 24) (off : BitVec 7) (pass : BitVec 20) (x : UseExtra)
  | useFinish (slot : BitVec 8) (off : BitVec 7)
  | gateSignal (gate : BitVec 15) (epoch : BitVec 8)
  | gateWait (gate : BitVec 15) (epoch : BitVec 8) (slot : BitVec 8)
  | gateWatchdogTrip (gate : BitVec 15)
  -- stations
  | operandRelease (stn : Fin 104) (q : Fin 4) (tap : Fin 260)
  | anchorForm (stn : Fin 104) (q : Fin 4) (tp : BitVec 5)
  | cellFire (stn : Fin 104) (row col : Fin 260)
  | weightLoadHandshake (stn : Fin 104) (q : Fin 4)
  | loadComplete (stn : Fin 104) (q : Fin 4)
  | swapMarkerRelease (stn : Fin 104) (q : Fin 4) (tap : Fin 260)
  | drainRound (stn : Fin 104) (q : Fin 4) (lane : BitVec 8)
  | postunitAccept (stn : Fin 104) (q : Fin 4) (lane : BitVec 8)
  | longSumAdd (stn : Fin 104) (q : Fin 4) (lane : BitVec 8)
  | rowReductionAdd (stn : Fin 104) (q : Fin 4) (id : BitVec 8) (term : BitVec 32) (last : Bool)
  | hopTransfer (stn next : Fin 104) (q : Fin 4)
  | tileInject (die : Fin 4) (stn : Fin 104) (q : Fin 4)
  | tileRetire (stn : Fin 104) (q : Fin 4)
  | carveFaultDetect (stn : Fin 104) (q : Fin 4) (kind : FaultKind)
  | carveDrainDone (stn : Fin 104) (q : Fin 4)
  | carveClearDone (stn : Fin 104) (q : Fin 4)
  | quarterCheckDone (stn : Fin 104) (q : Fin 4) (pass : Bool)
  | rinkReconfigure
  | stationWithdrawn (stn : Fin 104)
  -- holds
  | holdRaise (slot : BitVec 8) (cause : Fin 7)
  | holdStopped (slot : BitVec 8)
  | holdDrained (slot : BitVec 8)
  | holdClear (slot : BitVec 8) (cause : Fin 7)
  | holdLongTimeout (slot : BitVec 8)
  -- near tiers, stacks, base engines
  | ntRefreshSlot (die : Fin 4)
  | ntBandChange (die : Fin 4) (tj : BitVec 8)
  | ntBurstLead (die : Fin 4)
  | ntBurstEnd (die : Fin 4)
  | stackServiceSlot (stack : Fin 8)
  | stackTestSlot (stack : Fin 8) (last : Bool)
  | stackVerifyScrub (stack : Fin 8) (line : Nat) (corrected : Option (BitVec 4))
  | stackLineUe (stack : Fin 8) (line : Nat) (owner : LineOwner)
  | stackDieMark (stack : Fin 8) (die : BitVec 4) (line : Nat)
  | baseW40Add (t : TileId) (slot : BitVec 8) (src : AddSrc)
  | baseGatherScatter (dir : GatherDir) (bib : BitVec 12) (lines : List (BitVec 48 × BitVec 48))
  | topkInsert (stack : Fin 8) (bib : BitVec 12) (cand : Cand)
  | baseZeroFill (tile : Option TileId) (home : HomeAddr) (bytes : Nat)
  | baseVerify (stack : Fin 8) (lines : List Nat) (bad : List Nat)
  | headerOperation (t : TileId) (slot : BitVec 8) (seg : BitVec 20) (write : Bool) (fmt : BitVec 4) (home : HomeAddr) (hcrc : BitVec 32)
  | translationWalkDone (bib : BitVec 12) (page : BitVec 27) (slot : BitVec 8) (write : Bool) (strm : Option (BitVec 12))
  | pageMove (bib : BitVec 12) (page : BitVec 27) (tier : BitVec 3) (frame : BitVec 29)
  -- moves, locker
  | moveRequest (id : Nat) (t : TileId) (dst : HomeAddr) (mover : Fin 16)
  | moveHeaderSet (id : Nat)
  | moveDataDone (id : Nat)
  | moveCommit (id : Nat)
  | moveRelease (id : Nat)
  | moveFailure (id : Nat) (atSource : Bool)
  | lockerEntryWrite (slot : BitVec 8) (seg : BitVec 20) (die : Fin 4) (kind fmt : BitVec 4) (reads : BitVec 2) (tensor : BitVec 32) (unit : BitVec 24) (mb : BitVec 8)
  | lockerEntryRead (slot : BitVec 8) (die : Fin 4) (tensor : BitVec 32) (unit : BitVec 24) (mb : BitVec 8) (readable : Bool)
  -- the lift
  | streamOpen (slot : BitVec 8) (decl : BitVec 20) (strm : BitVec 12)
  | streamClose (strm : BitVec 12)
  | liftIssue (strm : BitVec 12) (dst : HomeAddr) (mover : Fin 16)
  | itemRead (strm : BitVec 12) (item : BitVec 24)
  | itemLate (strm : BitVec 12) (item : BitVec 24)
  | streamHalt (strm : BitVec 12) (item : BitVec 24) (va : BitVec 48)
  | streamResume (strm : BitVec 12)
  | streamUnwind (strm other : BitVec 12)
  | mxConvert (strm : BitVec 12) (item : BitVec 24) (scales : List (BitVec 8)) (elems : List (BitVec 8))
  -- step verdict
  | localVerdictForm (slot : BitVec 8)
  | verdictRoundRx (slot : BitVec 8) (plus : Bool) (overflow : Bool)
  | stepCommit (slot : BitVec 8)
  | stepSkip (slot : BitVec 8)
  | scaleGateBoundary (slot : BitVec 8)
  -- update pipelines
  | gradientPatchArrival (pipe : Fin 12) (slot : BitVec 8) (binding : BitVec 12) (patch : BitVec 40) (grad : List (BitVec 40))
  | stateStageRead (pipe : Fin 12) (slot : BitVec 8) (binding : BitVec 12) (patch : BitVec 40)
  | updateProgramEnd (pipe : Fin 12) (group : BitVec 15)
  | slotBCommit (pipe : Fin 12) (onward : List (Fin 12))
  | clipArm (slot : BitVec 8) (clip : BitVec 32)
  -- Septyth Link
  | slFrameTx (port : Fin 12)
  | slFrameRx (port : Fin 12) (symbolErrors : List Nat) (crcOk : Bool) (f : Frame)
  | slRetrain (port : Fin 12) (failed : Bool)
  | slPortDown (port : Fin 12)
  | slTrainDone (port : Fin 12) (neighbour : Bool) (cap : Capability) (good : BitVec 8) (fibreNs : BitVec 12)
  | slLinkLoss (port : Fin 12)
  | slMessageOpen (port : Fin 12) (m : MsgOpen)
  | slMessageCommit (port : Fin 12) (stream : BitVec 12) (tag : BitVec 128) (tagOk : Bool)
  | slAbortRx (port : Fin 12) (stream : BitVec 12)
  | slControlRx (port : Fin 12) (jtag : BitVec 16) (gate : BitVec 13) (epoch : BitVec 8) (value : Bool)
  | collectiveChunkRx (port : Fin 12) (slot : BitVec 8) (binding : BitVec 12) (patch : BitVec 40) (c : Chunk) (onward : List (Fin 12))
  | patternTestEnd (port : Fin 12) (errors : List Nat)
  | ringDrainComplete (rail : Fin 2) (dim : Fin 3)
  | bypassToLoop (rail : Fin 2) (dim : Fin 3)
  | bypassOpenStart (rail : Fin 2) (dim : Fin 3)
  | bypassOpeningDone (rail : Fin 2) (dim : Fin 3)
  | bypassJoined (rail : Fin 2) (dim : Fin 3)
  | bypassTrainTimeout (rail : Fin 2) (dim : Fin 3)
  | bypassDriveLoss (rail : Fin 2) (dim : Fin 3)
  | bypassClosingDone (rail : Fin 2) (dim : Fin 3)
  | switchStuckCheck (rail : Fin 2) (dim : Fin 3)
  -- keys and scrub
  | linkKeyRotate (job : BitVec 8)
  | keyRotateTimer (bib : BitVec 12)
  | keySweepItem (bib : BitVec 12) (stack : Fin 9)
  | keyRetire (bib : BitVec 12)
  | kemPairReady (bib : BitVec 12)
  | scrubPagesDone (bib : BitVec 12) (badFrames : List (BitVec 50))
  | scrubComplete (bib : BitVec 12)
  -- the lodge
  | lodgeUnitReadDone (place : LodgePlace) (ok : Bool)
  | lodgeStripeProgrammed (blk : BitVec 11) (wl : BitVec 9) (die : BitVec 4) (failedCh : Option (BitVec 4)) (units : List (LodgePlace × UnitTag × Option LodgePlace))
  | lodgeEraseDone (ch die : BitVec 4) (blk : BitVec 11) (ok : Bool)
  | lodgeWearLevelTimer (ch die : BitVec 4) (low high : BitVec 11)
  | lodgeRetentionScan (ch die : BitVec 4) (blk : BitVec 11) (worst : Nat) (ageDays : Nat)
  | lodgeDieDead (ch die : BitVec 4)
  | lodgeChannelLost (ch : BitVec 4)
  | lodgePageRebuild (bib : BitVec 12) (page : BitVec 27) (lun : BitVec 29) (fromT2 : Bool) (waiting : List (BitVec 8))
  | lodgePeerFetchDone (bib : BitVec 12) (page : BitVec 27) (ok : Bool)
  | pageInRequest (bib : BitVec 12) (page : BitVec 27) (lun : BitVec 29) (frame : BitVec 29)
  | commitRecordProgrammed (id : Nat) (copy : Fin 2) (ok : Bool)
  | lodgeStart
  -- securing and recovery
  | buddyCopyComplete (job : BitVec 8) (rank : BitVec 11) (step : BitVec 64) (kind : Fin 4)
  | memberLost (job : BitVec 8) (rank : BitVec 11)
  | recoveryPlan (job : BitVec 8) (step : Option (BitVec 64)) (fore : Option (BitVec 11))
  | forerunnerEntryStep (job : BitVec 8) (row : Fin 11)
  | recoveryResume (job : BitVec 8)
  | spreadPath (job : BitVec 8) (dim : Option (Fin 3)) (planes : BitVec 16) (m : BitVec 12)
  -- photo finish, log, tests
  | pfMarkerArrive (unit : Fin 14)
  | pfMarkerReturn
  | pfCopyDone
  | pfPeriodicTimer
  | eventLogEntry
  | logFlushTimer
  | selftestStart (unit : BitVec 4) (inst : BitVec 12)
  | selftestDone (unit : BitVec 4) (inst : BitVec 12) (o : TestOutcome)
  -- start-up and live update
  | bootRomStart
  | bootLoaderVerified
  | bootMemoryTrained
  | bootMemoryZeroed
  | bootImagesVerified
  | zilunzorRunning
  | startupSelftestDone (failed : List (Fin 104 × TestOutcome)) (lost : Option (LostPart × BitVec 12))
  | lodgeReady
  | loopbackTrained
  | moduleReady
  | trialBootTimeout
  | liveUpdateImageRead
  | liveUpdatePauseDone
  | liveUpdateHandover (refused : Bool)
  | liveUpdateHealthy
  | liveUpdateRevert
  -- JTAG, flash channels
  | jtagIdcode
  | jtagBypass
  | jtagSamplePreload (pins : BitVec 64)
  | jtagExtest (pins : BitVec 64)
  | jtagChallenge
  | jtagToken (magicOk : Bool) (tver : BitVec 8) (serial : BitVec 64) (challenge : BitVec 128) (scope : BitVec 8) (rsvZero sigOk : Bool)
  | onfiZqCalibration (ch : Fin 16)
  deriving DecidableEq, Repr

end Sys2Proof
end

