-- ==== Sys2Proof/Decode.lean ====
section
/-! DEFINITION. The decoder of table words. No row of spec/opcode_table.json gives its command bits: commands come in
packets, whose argument layouts the spec does not give, or as events. -/

namespace Sys2Proof

/-- The command a word of table bits spells: none, since no row of the table gives bits. -/
def decodeTableWord (_nbits _w : Nat) : Option Instr := none

end Sys2Proof
end

