-- ==== Sys2Proof/Config.lean ====
section
/-! DEFINITION. What one module fixes and what the spec leaves open: fuse contents, results of the named cryptographic
algorithms, and free values. Every constant here is opaque: nothing can be proved of its value. -/

namespace Sys2Proof.Config

/-- Free values: the `n`-th value the spec leaves open in a run, `w` bits wide (log entry 5). -/
opaque free (w n : Nat) : BitVec w

/-- Open values of data: of the `w`-bit value that is formed from some operands, a fixed function of them (R23, R90; log entry 5). -/
opaque dataFree (w : Nat) (from_ : List Nat) : BitVec w

/-- A status the spec leaves open: the `n`-th free value of a run, as a status code (log entry 5). -/
opaque openStatus (n : Nat) : Status

/-- A function of Table 6.3 or 12.5: a fixed function of its input's bits with an FP32 result, known only within its accuracy
(R128, R250). -/
opaque post (op : PostUnary) (x : BitVec 40) : BitVec 32

/-- The scale byte of a bib's plane that no scale group has written (log entry 49). -/
opaque planeScale (bib : BitVec 12) (va : Nat) : BitVec 8

/-- BCR of Table 12.5: 1 / (1 − a^STEP), known only within 1 ulp. -/
opaque bcr (a : BitVec 40) (step : BitVec 48) : BitVec 32

/-- SERIAL of the identity record (Table 16.10): fuses. -/
opaque serial : BitVec 64

/-- SHA3-512 of a firmware image's header and payload (R313), by the header fields the model keeps and the payload digest. -/
opaque imageHash (kind svn : BitVec 8) (version : BitVec 64) (digest : BitVec 512) : BitVec 512

/-- SHA3-512 of a byte string. -/
opaque sha3 (bs : List Byte) : BitVec 512

/-- SHA3-512 of the DevID public key (Table 14.11): the key pair comes from the fused UDS. -/
opaque devIdHash : BitVec 512

/-- ML-DSA-87 signature by the alias key of a boot: the key comes from UDS, BOOT_M, SVN and the label, "TEST" while test
access is unlocked (R299, R313). -/
opaque aliasSign (bootM : BitVec 512) (svn : BitVec 8) (test : Bool) (body : Nat) : BitVec 37016

/-- The alias certificate of a boot, by its digest (R313). -/
opaque aliasCert (bootM : BitVec 512) (svn : BitVec 8) (test : Bool) : BitVec 512

/-- The two halves of an ML-KEM-1024 pair made from fresh random bits (R300). -/
opaque kemEk (rnd : BitVec 256) : BitVec 12544

/-- K_E: ML-KEM-1024 decapsulation, implicit rejection included. -/
opaque decap (dk : BitVec 256) (ct : BitVec 12544) : BitVec 256

/-- KDF(K_E, "HOST", BIB) and KDF(K_E, "WRAP", BIB) (Table 14.4). -/
opaque hostKey (ke : BitVec 256) (bib : BitVec 12) : BitVec 256
opaque wrapKey (ke : BitVec 256) (bib : BitVec 12) : BitVec 256

/-- KDF512(K_E, "XTS", n): the data key of generation n. -/
opaque dataKey (ke : BitVec 256) (gen : BitVec 32) : BitVec 512

/-- AES-256-GCM decryption of a wrapped link key under KW. -/
opaque unwrap (kw : BitVec 256) (nonce : BitVec 96) (ct : BitVec 256) : BitVec 256

/-- KDF(L_e, "NEXT", JOB_ID): the next link key (R310). -/
opaque nextKey (k : BitVec 256) (job : BitVec 64) : BitVec 256

/-- AES-256-GCM of a message's payload under a link key: the ciphertext and the 128-bit tag (R281). -/
opaque gcmSeal (key : BitVec 256) (nonce : BitVec 96) (aad : BitVec 256) (data : List Byte) : List Byte × BitVec 128

/-- AES-256-GCM decryption of a message's payload. -/
opaque gcmOpen (key : BitVec 256) (nonce : BitVec 96) (data : List Byte) : List Byte

end Sys2Proof.Config
end

