-- ==== Sys2Proof/Machine/Bits.lean ====
section
/-! DEFINITION. Bit fields of integers, little-endian records (R7), counts of set bits, and the CRC-32C of headers. -/

namespace Sys2Proof

/-- Bits lo + len − 1 to lo of `n`. -/
def bits (n lo len : Nat) : Nat := n / 2 ^ lo % 2 ^ len

/-- Bit `i` of `n`. -/
def bitAt (n i : Nat) : Bool := n / 2 ^ i % 2 = 1

/-- `n` with bits lo + len − 1 to lo holding `v`. -/
def setBits (n lo len v : Nat) : Nat := n - bits n lo len * 2 ^ lo + v % 2 ^ len * 2 ^ lo

/-- The integer of a little-endian byte string (R7). -/
def leNat : List Byte → Nat
  | [] => 0
  | b :: bs => b.toNat + 256 * leNat bs

/-- The `k` low bytes of `n`, least significant first (R7). -/
def leBytes : Nat → Nat → List Byte
  | 0, _ => []
  | k + 1, n => BitVec.ofNat 8 n :: leBytes k (n / 256)

/-- Two's-complement reading of the low `w` bits of `n`. -/
def signed (w n : Nat) : Int := if n % 2 ^ w < 2 ^ (w - 1) then (n % 2 ^ w : Int) else (n % 2 ^ w : Int) - 2 ^ w

/-- The count of set bits among the low `w` bits of `n`. -/
def popcount : Nat → Nat → Nat
  | 0, _ => 0
  | w + 1, n => n % 2 + popcount w (n / 2)

/-- Numbers of the set bits among the low `w` bits of `n`, from `i` up. -/
def setBitsFrom : Nat → Nat → Nat → List Nat
  | 0, _, _ => []
  | w + 1, i, n => if n % 2 = 1 then i :: setBitsFrom w (i + 1) (n / 2) else setBitsFrom w (i + 1) (n / 2)

/-- The bit vector with exactly the listed bits set. -/
def maskOf (w : Nat) : List Nat → BitVec w
  | [] => 0
  | i :: is => BitVec.ofNat w (2 ^ i) ||| maskOf w is

/-- One bit of the reflected CRC-32C. -/
def crcBit (c : BitVec 32) : BitVec 32 :=
  if c.getLsbD 0 then (c >>> 1) ^^^ 0x82F63B78 else c >>> 1

/-- One byte of the reflected CRC-32C. -/
def crcByte (c : BitVec 32) (b : Byte) : BitVec 32 :=
  crcBit (crcBit (crcBit (crcBit (crcBit (crcBit (crcBit (crcBit (c ^^^ b.setWidth 32))))))))

/-- CRC-32C of a byte string. PRESUMED: the spec names the code and gives no polynomial; this is the Castagnoli
polynomial, reflected, preset and final complement of ones (log entry 9). -/
def crc32c (bs : List Byte) : BitVec 32 := ~~~ (bs.foldl crcByte 0xFFFFFFFF)

end Sys2Proof
end

