-- ==== Sys2Proof/Machine/StateParts.lean ====
section
/-! DEFINITION. The parts of the state: one structure per register or record of the spec's field maps, and one per unit
that keeps state. A field's default is its value at module reset: the Reset column of its map where the spec gives one. -/

namespace Sys2Proof.Machine

/-! ## Time base and power (chapters 2 and 18) -/

/-- The module time base, and by how many nanoseconds of timestamp it is past the last tick token (R28). -/
structure Clock where
  ts    : BitVec 64 := 0
  epoch : BitVec 16 := 0
  ahead : Nat := 0
  deriving DecidableEq, Repr

/-- FEED_f (Table 18.2) and the feed's two identities (R382). -/
structure Feed where
  present : Bool := true
  lost    : Bool := false
  idOk    : Bool := false
  vin     : BitVec 16 := 0
  iin     : BitVec 16 := 0
  iinMax  : BitVec 16 := 0
  circuit : BitVec 32 := 0
  source  : BitVec 32 := 0
  deriving DecidableEq, Repr

/-- How far the power-on sequence of Table 18.3 has come, or why the rails are off. -/
inductive SeqStage
  /-- Every rail off; PWR_EN must rise under R384 to start. -/
  | dark
  /-- Waiting for the named rail (rows S3 to S6). -/
  | rising (r : Rail)
  /-- S7 reached: PWR_GOOD asserted. -/
  | good
  /-- Rails off but VAUX and the flash hold-up (R383, R390, R397). -/
  | holdup
  /-- The thermal-trip latch is set and VAUX stays in regulation (R390). -/
  | tripped
  deriving DecidableEq, Repr

/-- MOD_PWR (Table 18.2a). -/
structure ModPwr where
  pin    : BitVec 16 := 0
  pinMax : BitVec 16 := 0
  tIn    : BitVec 8 := 0
  tOut   : BitVec 8 := 0
  deriving DecidableEq, Repr

/-- Feeds, rails, sideband pins (Table 18.8) and the trip latch. `reset` is the module's internal reset. -/
structure Power where
  feedA         : Feed := {}
  feedB         : Feed := {}
  modPwr        : ModPwr := {}
  stage         : SeqStage := .good
  pwrEn         : Bool := true
  pwrGood       : Bool := true
  resetN        : Bool := false
  reset         : Bool := true
  thermAlertN   : Bool := true
  thermTripN    : Bool := true
  chassisAlertN : Bool := true
  phyUp         : Bool := false
  perst         : Bool := false
  pcieUp        : Bool := true
  deriving DecidableEq, Repr

/-- BEAT_MON_k (Table 2.4). -/
structure BeatMon where
  rate    : BitVec 16 := 0
  tj      : BitVec 8 := 0
  rateMin : BitVec 16 := 0xFFFF
  deriving DecidableEq, Repr

/-- VCORE_CTL (Table 2.3), the three throttle limits of R396 (none = released), the ceiling's set point, the rail's
present set point on its slew, the hold duty in percent, and whether ACTUAL has stood at 0x00 for a window. -/
structure Vcore where
  target   : BitVec 8 := 0x20
  actual   : BitVec 8 := 0x20
  cause    : BitVec 4 := 0
  ceiling  : Bool := false
  rail     : BitVec 8 := 0x20
  limJ     : Option (BitVec 8) := none
  limF     : Option (BitVec 8) := none
  limC     : Option (BitVec 8) := none
  ceil     : BitVec 8 := 0x30
  duty     : Nat := 0
  piece    : Option Nat := none
  atFloor  : Bool := false
  mons     : Table BeatMon := []
  deriving DecidableEq, Repr

/-! ## The Rink (chapter 3) -/

/-- RINK_CFG (Table 3.5). -/
structure RinkCfg where
  reject  : Bool := false
  busy    : Bool := false
  active  : BitVec 4 := 1
  request : BitVec 4 := 1
  deriving DecidableEq, Repr

/-- STN_CTL_p (Table 3.6). -/
structure Stn where
  width    : BitVec 2 := 0
  withdraw : Bool := false
  wdDone   : Bool := false
  fault    : BitVec 4 := 0
  clearing : BitVec 4 := 0
  bib3     : BitVec 12 := 0
  bib2     : BitVec 12 := 0
  bib1     : BitVec 12 := 0
  bib0     : BitVec 12 := 0
  deriving DecidableEq, Repr

/-- STN_MAP_d (Table 3.10); the default is a die with no failed station (R66). -/
structure StnMap where
  failed : BitVec 26 := 0
  active : BitVec 26 := 0x1FFEFFF
  deriving DecidableEq, Repr

/-- STN_ROWMAP_p (Table 3.8); the default is unrepaired. -/
structure RowMap where
  field : BitVec 4 := 0
  pad3  : BitVec 9 := 0x103
  pad2  : BitVec 9 := 0x102
  pad1  : BitVec 9 := 0x101
  pad0  : BitVec 9 := 0x100
  deriving DecidableEq, Repr

/-- STN_COLMAP_p (Table 3.9); the default is unrepaired. -/
structure ColMap where
  field : BitVec 4 := 0
  pq3   : BitVec 7 := 64
  pq2   : BitVec 7 := 64
  pq1   : BitVec 7 := 64
  pq0   : BitVec 7 := 64
  deriving DecidableEq, Repr

/-- The Rink registers; quarters (4p + q) draining after a fault (C4), cleared and under check (C6); whether the module
has failed under R20 or R333; the last switch of field repairs. -/
structure Rink where
  cfg      : RinkCfg := {}
  maps     : Table StnMap := []
  stn      : Table Stn := []
  rows     : Table RowMap := []
  cols     : Table ColMap := []
  draining : List Nat := []
  clearing : List Nat := []
  checking : List Nat := []
  failed   : Bool := false
  deriving DecidableEq, Repr

/-! ## Arrays, feeders, drains, lanes, hops (chapters 3, 4, 6, 7) -/

/-- An operand element on an operand path: its code, patch scale, format, token, whether it is void (R149, R153), and the
swap marker (R51). -/
structure Operand where
  code  : BitVec 16
  scale : BitVec 8
  token : Nat
  void  : Bool
  swap  : Bool
  deriving DecidableEq, Repr

/-- One sum of a sum path (R77, R82): a fixed-point value whose least bit weighs 2^(anchor − floor), and its class. -/
structure Lane where
  val    : Int
  anchor : Int
  cls    : Cls
  deriving DecidableEq, Repr

/-- What a sum path carries for one token: one lane, or two in SB4 (R81). -/
structure PSum where
  token : Nat
  lanes : List Lane
  deriving DecidableEq, Repr

/-- A cell (chapter 3, "The cell"): front and back weights with their patch scales and the number of the load they came with, the
operand and the partial sum waiting at its inputs, on the paths of the orientation in use. -/
structure Cell where
  frontW : BitVec 16 := 0
  backW  : BitVec 16 := 0
  frontS : BitVec 8 := 0
  backS  : BitVec 8 := 0
  frontG : Nat := 0
  backG  : Nat := 0
  op     : Option Operand := none
  sum    : Option PSum := none
  deriving DecidableEq, Repr

/-- Where a lapping tile's elements come from at a station: the tile's home or a plane, read transposed or not (R119, R153,
R154); the hop from the station before; or the queues, when it is injected again (R60). -/
inductive LapSrc
  | tile (trans : Bool)
  | plane (desc : Nat) (scale : BitVec 8) (trans : Bool)
  | stream
  | carried (l : List (Nat × Operand))
  deriving DecidableEq, Repr

/-- A tile that laps a Rink (R53): the course slot, its name and format, the station visits left, where its elements come from, whether
it is a tile read plain, the first column it streams along the sum, and what arrives at its head (R75, R78): the scale of each patch, or in BF16 the exponent of each element, none for what is void. -/
structure LapTile where
  slot   : BitVec 8
  tile   : TileId
  visits : Nat
  fmt    : Fmt
  src    : LapSrc
  plain  : Bool
  col    : Nat
  head   : List (List (Option (BitVec 8)))
  deriving DecidableEq, Repr

/-- A threshold that a lane has loaded, with the sense and number of its list (R156). -/
structure Thresh where
  thresh : BitVec 40
  sense  : Bool
  list   : BitVec 24
  deriving DecidableEq, Repr

/-- A use on a station's carve (Table 8.6 read at its start): its ordinal on the carve, the load it needs, the run offset of the
station, stationary tile, output tile, the scale P_out, the common scale of a distance mode; what Table 8.6 has no field for
(`x`), its convolution descriptor, the thresholds its lanes loaded, the places of its patches and of itself among those of its
group in the step (R111), the tile that laps through it, the product check's patch row and reference (R110), results accepted and
results added into a plane so far. -/
structure UseCfg where
  slot   : BitVec 8
  seg    : Nat
  use    : Nat
  off    : Nat
  pass   : Nat
  ord    : Nat
  gen    : Nat
  mode   : BitVec 4
  trans  : Bool
  opT    : Bool
  swap   : Bool
  visits : Nat
  opFmt  : Fmt
  stFmt  : Fmt
  outFmt : Fmt
  kUse   : Nat
  route  : Nat
  acc    : Nat
  sr     : Bool
  seed   : Nat
  group  : Nat
  pOut   : BitVec 8
  pc     : BitVec 8
  term   : BitVec 32
  tensor : BitVec 24
  st     : TileId
  out    : TileId
  index  : BitVec 40
  recompute : Bool
  step   : Nat
  x      : UseExtra
  conv   : Option Nat
  thresh : List (Option Thresh)
  patch0 : Nat
  useOrd : Nat
  lap    : Option LapTile := none
  ref    : Option (Nat × List (BitVec 40)) := none
  accepted : Nat := 0
  added  : Nat := 0
  deriving DecidableEq, Repr

/-- A feeder: of a carve, the next token of each entry tap, taps that the present swap marker has entered, swaps of uses begun; of
a quarter's load path, rows written, whether the load-complete token has come, loads begun. `uses` counts the uses begun. -/
structure Feeder where
  released : Table Nat := []
  entered  : Nat := 0
  uses     : Nat := 0
  gens     : Nat := 0
  loadRows : Nat := 0
  loadDone : Bool := false
  loads    : Nat := 0
  deriving DecidableEq, Repr

/-- A rounded drain result on its way to a post-unit lane (R83, R84). -/
structure DrainOut where
  token  : Nat
  code   : Nat
  fmt    : Fmt
  deriving DecidableEq, Repr

/-- A post-unit lane: the next token it accepts (R48), the result it holds for a long sum. -/
structure PostLane where
  next   : Nat := 0
  result : Option DrainOut := none
  deriving DecidableEq, Repr

/-- A long sum in a post-unit: its W40 value and the adds applied (R86, R89). -/
structure LongSum where
  val   : BitVec 40 := 0
  terms : Nat := 0
  deriving DecidableEq, Repr

/-- A check of an output patch in progress (R110): values seen, Σ v², Σ (d − v)², whether a v was not finite, a d
infinite, an element saturated or overflowed. -/
structure PatchAcc where
  n    : Nat := 0
  vv   : Dy := { m := 0, e := 0 }
  ee   : Dy := { m := 0, e := 0 }
  badV : Bool := false
  infD : Bool := false
  ovf  : Bool := false
  deriving DecidableEq, Repr

/-- A reduction tile (R129): partials collected, the W40 value per token, the running sum per token beside a maximum, and whether
it has collected its last partial and goes round as a result tile. -/
structure RedTile where
  terms : Nat := 0
  vals  : List (BitVec 40) := []
  sums  : List (BitVec 40) := []
  whole : Bool := false
  deriving DecidableEq, Repr

/-- A finished partial of a sum tile (R121): the slot, TERM and rounding of its add, its elements by row × 256 + column. -/
structure Partial where
  slot : BitVec 8
  term : BitVec 32
  sr   : Bool
  seed : BitVec 4
  vals : Table (BitVec 40) := []
  deriving DecidableEq, Repr

/-- The arithmetic units. Cells by (260 p + row) × 260 + column; uses (oldest first), feeders and hop buffers by carve, 4 p + lowest
quarter; retire queues, anchors, patch checks, product checks and row contributions by use, ord × 512 + carve, and a place within
it; drains and lanes by carve × 256 + lane; long sums by output, lane and token; reduction tiles by slot, segment, pass and number;
values held in station SRAM by carve, number, token and lane; planes being written by slot, tensor and unit; finished partials by
tile; inject queues by die; candidates forwarded and not yet inserted. -/
structure Arr where
  cells    : Table Cell := []
  uses     : Table (List UseCfg) := []
  feeders  : Table Feeder := []
  anchors  : Table (List Int) := []
  drainIn  : Table PSum := []
  drainOut : Table (List DrainOut) := []
  lanes    : Table PostLane := []
  sums     : Table LongSum := []
  patches  : Table PatchAcc := []
  products : Table PatchAcc := []
  hops     : Table (List (Nat × Operand × LapTile)) := []
  retire   : Table (List (Nat × Operand × LapTile)) := []
  inject   : Table (List (LapTile × Nat)) := []
  rows     : Table (Table (BitVec 40)) := []
  red      : Table RedTile := []
  held     : Table (BitVec 32) := []
  planes   : Table (Table Nat) := []
  partials : Table Partial := []
  cands    : List (BitVec 12 × Cand) := []
  deriving DecidableEq, Repr

/-! ## Courses, gates, holds, scale tables (chapters 5 and 8) -/

/-- A resident course (R160 to R173): the file's records as the integers R7 makes of them, the patches applied in
`segs` and `uses`, the gate map, the header bases (R192), the job's module count at load (R250). -/
structure Course where
  bib      : BitVec 12
  hdr      : Nat
  segs     : List Nat
  uses     : List Nat
  streams  : List Nat
  blocks   : List Nat
  convs    : List Nat
  patches  : List Nat
  conflicts : List Nat
  tensors  : List Nat
  gates    : List Nat
  lists    : List Nat
  locker   : List Nat
  stages   : List Nat
  progs    : List (List Nat)
  consts   : List (List Nat)
  binds    : List Nat
  gateMap  : List Nat
  hdrBase  : List Nat
  dist     : List Nat := []
  digest   : Nat
  members  : Nat
  deriving DecidableEq, Repr

/-- Scale record (Table 5.1). HIST lists its eight entries, newest first. -/
structure ScaleRec where
  clean   : BitVec 16 := 0
  scale   : BitVec 8 := 0
  obs     : BitVec 8 := 0
  hist    : List (BitVec 8) := [0, 0, 0, 0, 0, 0, 0, 0]
  h       : BitVec 4 := 0
  hBase   : BitVec 4 := 0
  srate   : BitVec 4 := 0
  sweep   : BitVec 2 := 0
  policy  : BitVec 2 := 0
  fmt     : BitVec 4 := 1
  nanSeen : Bool := false
  ovr     : Bool := false
  deriving DecidableEq, Repr

/-- A write of the rw fields of a scale record that waits for the step's end (R99). -/
structure ScaleWrite where
  slot   : BitVec 8
  group  : Nat
  hBase  : BitVec 4
  srate  : BitVec 4
  sweep  : BitVec 2
  policy : BitVec 2
  fmt    : BitVec 4
  deriving DecidableEq, Repr

/-- A sweep window (R112): samples, exceeding HIGH and LOW. -/
structure SweepWin where
  n    : Nat := 0
  high : Nat := 0
  low  : Nat := 0
  deriving DecidableEq, Repr

/-- A segment that has started and not finished (R165): its place in token order, the stations it started with, and the uses
begun and finished on each by station offset, and the locker work units it allocated per die (R122); the step it belongs to, and for
each scale group the uses and output patches of the step before it in token order (R111). -/
structure LiveSeg where
  ord   : Nat
  s     : Nat
  step  : Nat := 0
  bases : Table (Nat × Nat) := []
  work  : List Nat := []
  begun : Table Nat := []
  done  : Table Nat := []
  deriving DecidableEq, Repr

/-- A course domain: the running course of a slot (R161). `run` lists the physical stations in run order, `quarter` and `w`
the carve on each. `pc` is the next segment in token order, `ord` the segments started so far, `begun` the passes of the
table begun; `loops` holds the returns left of entered loops, `passes` and `finishes` the starts and finishes of each
segment, `usePass` the passes of each use by use × 128 + station, `ends` the places in token order of finished STEP_END
segments whose token is due; `tokens` counts step-end tokens issued whose step is not decided; `stepNo` counts the STEP_END
segments started and `tokenNo` the tokens issued; `ords` holds the uses and patches of each scale group so far in the step. -/
structure Domain where
  bib      : BitVec 12
  running  : Bool := false
  suspended : Bool := false
  s        : Nat := 0
  run      : List Nat := []
  quarter  : Nat := 0
  w        : Nat := 4
  pc       : Nat := 0
  ord      : Nat := 0
  begun    : Nat := 0
  live     : Table LiveSeg := []
  loops    : Table Nat := []
  passes   : Table Nat := []
  finishes : Table Nat := []
  usePass  : Table Nat := []
  ends     : List Nat := []
  tokens   : Nat := 0
  stepNo   : Nat := 0
  tokenNo  : Nat := 0
  ords     : Table (Nat × Nat) := []
  boundary : Nat := 0
  steps    : Nat := 0
  stepsDone : Nat := 0
  inputSeq : BitVec 64 := 0
  skips    : Nat := 0
  unwinds  : Nat := 0
  lost     : Bool := false
  runHdr   : Hdr := {}
  deriving DecidableEq, Repr

/-- Gate record (Table 8.14), with the declared watchdog window, the ticks it has counted for EPOCH and for EPOCH + 1, the epochs waited on, and the
terms of audit balance 2 (Table 15.7). -/
structure Gate where
  bib     : BitVec 12 := 0
  scope   : Bool := false
  state   : BitVec 2 := 0
  epoch   : BitVec 8 := 0
  target  : BitVec 16 := 0
  count   : BitVec 16 := 0
  next    : BitVec 9 := 0
  wd      : BitVec 10 := 0
  ticks   : Nat := 0
  ticksNext : Nat := 0
  waits   : List (BitVec 8 × BitVec 8) := []
  counted : Nat := 0
  done    : Nat := 0
  dropped : Nat := 0
  deriving DecidableEq, Repr

/-- HOLD_STAT_c (Table 8.17), with how far the hold has come (H2, H3 of Table 8.15), whether this hold's EV_HOLD_LONG has
been recorded. -/
structure Hold where
  pause   : Bool := false
  cause   : BitVec 8 := 0
  limit   : BitVec 16 := 0x000A
  current : BitVec 32 := 0
  stopped : Bool := false
  drained : Bool := false
  marked  : Bool := false
  deriving DecidableEq, Repr

/-- A run request that waits for a carve grant, with the tick tokens it has waited (R29, R296). -/
structure RunReq where
  slot   : BitVec 8
  bib    : BitVec 12
  prio   : BitVec 2
  waited : Bool
  ticks  : Nat := 0
  deriving DecidableEq, Repr

/-- The exchange of one epoch of a job-scope gate (R106, R181): whether the module's own completion or verdict is formed, the
verdict accumulated, flag sources that reported overflow, first copies taken per port, verdict messages not yet taken,
rounds sent, whether every round is done. -/
structure Verdict where
  formed   : Bool := false
  overflow : Bool := false
  sources  : Nat := 0
  got      : Table Nat := []
  inbox    : List (Nat × Bool) := []
  sent     : Nat := 0
  ready    : Bool := false
  deriving DecidableEq, Repr

/-- A sample of the sweep that its window has not collected: the step and ordinal that place it (R112). -/
structure SweepSample where
  slot     : BitVec 8
  group    : Nat
  product  : Bool
  step     : Nat
  ordinal  : Nat
  exceeded : Bool
  high     : Bool
  deriving DecidableEq, Repr

/-- Courses by slot, domains by slot, gates by module gate number, holds by slot, scale records by bib × 16384 + group,
sweep windows by (bib × 16384 + group) × 2 + check, samples to be collected, divergence marks of the step, exchanges by
gate × 256 + epoch, signals issued that have not reached their gate. -/
structure Crs where
  courses  : Table Course := []
  domains  : Table Domain := []
  gates    : Table Gate := []
  holds    : Table Hold := []
  scales   : Table ScaleRec := []
  writes   : List ScaleWrite := []
  sweeps   : Table SweepWin := []
  samples  : List SweepSample := []
  diverged : List Nat := []
  verdicts : Table Verdict := []
  requests : List RunReq := []
  signals  : List (Nat × BitVec 8) := []
  deriving DecidableEq, Repr

/-! ## Memory tiers (chapter 9) -/

/-- Page table entry (Table 9.2). -/
structure Pte where
  epoch : Bool := false
  prot  : Bool := false
  hdr   : Bool := false
  wr    : Bool := false
  shr   : Bool := false
  tier  : BitVec 3 := 0
  frame : BitVec 29 := 0
  state : BitVec 2 := 0
  deriving DecidableEq, Repr

/-- Tile header (Table 9.5); HCRC is the CRC of the other bits and is not kept apart. -/
structure TileHdr where
  hver    : BitVec 8 := 1
  fmt     : BitVec 4 := 1
  trans   : Bool := false
  poison  : Bool := false
  nonfin  : Bool := false
  epoch   : Bool := false
  prot    : Bool := false
  state   : BitVec 2 := 0
  id      : TileId := { bib := 0, tensor := 0, tile := 0 }
  home    : HomeAddr := { tier := 0, off := 0 }
  prev    : HomeAddr := { tier := 0, off := 0 }
  terms   : BitVec 32 := 0
  wslot   : BitVec 8 := 0
  wseg    : BitVec 20 := 0
  wact    : Bool := false
  version : BitVec 32 := 0
  deriving DecidableEq, Repr

/-- A move in progress (Table 9.6): M1 accepted, M2 header set, M4 data arrived, M5 committed. -/
inductive MovePhase | accepted | moving | arrived | committed
  deriving DecidableEq, Repr

/-- A move: its tile, destination, source, phase and mover; the stream and item it serves and why it is a return (0 it is not,
1 after use, 2 cancelled, 3 unwound, 4 restaged); whether it has been reissued, and whether its stream was cancelled. -/
structure Move where
  tile      : Nat
  src       : HomeAddr
  dst       : HomeAddr
  phase     : MovePhase
  mover     : Nat
  strm      : Option Nat := none
  item      : Nat := 0
  ret       : Nat := 0
  epoch     : Bool := false
  reissued  : Bool := false
  cancelled : Bool := false
  deriving DecidableEq, Repr

/-- NT_STAT_d (Table 9.9), the base-refresh slot of R198, and the cause-1 lead in progress. -/
structure NearTier where
  tj    : BitVec 8 := 0
  tjMax : BitVec 8 := 0
  band  : BitVec 2 := 0
  burst : Bool := false
  slot  : Fin 10 := 0
  due   : Bool := false
  since : Nat := 0
  deriving DecidableEq, Repr

/-- STK_ECC_s (Table 9.13), the lines on which each DRAM die was corrected (R201), the next line to verify, poisoned lines,
calibrations made, test slots used and whether the last has run, whether the interface runs staged PHY firmware (R358). -/
structure Stack where
  marked : Bool := false
  mdie   : BitVec 4 := 0
  second : Bool := false
  ldie   : BitVec 4 := 0
  lines  : List (Nat × Nat) := []
  verify : Nat := 0
  poison : List Nat := []
  calibs : Nat := 0
  tests  : Nat := 0
  tested : Bool := false
  phyNew : Bool := false
  deriving DecidableEq, Repr

/-- A top-k list (Table 7.5) with its entries (distance, index) in list order. -/
structure TopList where
  bib     : BitVec 12
  k       : BitVec 11
  sense   : Bool
  thresh  : BitVec 40
  nanDrop : BitVec 16 := 0
  entries : List (BitVec 40 × BitVec 40) := []
  deriving DecidableEq, Repr

/-- Slots that a hub or Rink die counts in a tier (R197): reserved and released so far, held now. -/
structure SlotCount where
  reserved : Nat := 0
  released : Nat := 0
  held     : Nat := 0
  deriving DecidableEq, Repr

/-- The memory system. Bytes by tier code × 2^50 + offset; an unlisted byte reads 0. Page table entries by
bib × 2^27 + page; headers by tile key; moves by number; lists by bib × 2^24 + list; the scale byte of a plane (R151)
by bib × 2^48 + address; items per bib, epoch and stack. -/
structure Mem where
  bytes  : Table Byte := []
  ptes   : Table Pte := []
  cached : List Nat := []
  hdrs   : Table TileHdr := []
  moves  : Table Move := []
  slots  : Table SlotCount := []
  begun  : Table Nat := []
  ended  : Table Nat := []
  near   : Table NearTier := []
  stks   : Table Stack := []
  lists  : Table TopList := []
  planes : Table Byte := []
  items  : Table Nat := []
  owners : Table (BitVec 12) := []
  deriving DecidableEq, Repr

/-! ## The locker (chapter 6) -/

/-- A locker entry record (Table 6.6) with the die and slot that hold it, the spill page it lies in or moves to, the step that wrote it,
and what it keeps: the bytes of the tile or plane. -/
structure LkrEntry where
  kind   : BitVec 4
  tier   : BitVec 2
  reads  : BitVec 2
  bib    : BitVec 12
  tensor : BitVec 32
  unit   : BitVec 24
  mb     : BitVec 8
  home   : BitVec 34
  slot   : BitVec 8
  die    : Nat
  size   : Nat
  page   : Nat := 0
  seq    : Nat
  dst    : BitVec 2 := 0
  step   : Nat := 0
  data   : List Byte := []
  deriving DecidableEq, Repr

/-- The locker: entries in SEQ order, the next SEQ, units reserved per die and kind, spill marks of the step (slot × 4 + tier), units
reserved and returned so far per die, T2 pages that an operator has added for a slot (R139); what has been read for a slot, by entry;
shadow bands by tile × 32 + patch row (R110). -/
structure Locker where
  entries : List LkrEntry := []
  next    : Nat := 0
  keepRsv : Table Nat := []
  workRsv : Table Nat := []
  marks   : List Nat := []
  reserved : Table Nat := []
  returned : Table Nat := []
  extraT2 : Table Nat := []
  readOut : Table (List Byte) := []
  shadows : Table (Table (BitVec 40)) := []
  deriving DecidableEq, Repr

/-! ## The lift (chapter 10) -/

/-- An item of an open stream: the home it came from and the one it goes to, whether committed, reads made, and why it is to
return (0 it is not, 1 after use, 2 cancelled, 3 unwound, 4 restaged). -/
structure LiftItem where
  src       : HomeAddr
  dst       : HomeAddr
  committed : Bool := false
  reads     : Nat := 0
  ret       : Nat := 0
  deriving DecidableEq, Repr

/-- LIFT_STRM_n (Table 10.7), with the items the stream holds, the time it opened, the time its
domain has been held since (R213), its late items (R216), the finishes of its CLOSE segment at opening, and the items past NEXT that need no further issue. -/
structure Strm where
  bib     : BitVec 12 := 0
  slot    : BitVec 8 := 0
  decl    : BitVec 20 := 0
  state   : BitVec 3 := 0
  cls     : BitVec 2 := 0
  held    : BitVec 18 := 0
  cap     : Bool := false
  next    : BitVec 24 := 0
  done    : BitVec 24 := 0
  unwinds : BitVec 8 := 0
  items   : Table LiftItem := []
  tOpen   : BitVec 64 := 0
  heldNs  : Nat := 0
  late    : List Nat := []
  fin0    : Nat := 0
  ahead   : List Nat := []
  deriving DecidableEq, Repr

/-- Streams by slot number, the reservation of stream slots by course slot, ticks the present wait cycle has lasted. -/
structure Lift where
  strm     : Table Strm := []
  reserved : Table Nat := []
  cycle    : Table Nat := []
  deriving DecidableEq, Repr

/-! ## The lodge (chapter 11) -/

/-- State of a block group. -/
inductive GrpState | free | open_ | closed | retired | bad
  deriving DecidableEq, Repr

/-- A block group: state, erase count, reads since erase, units written, whether a refresh is due, whether its last erase ended
a refresh, whether its reads have called for a sample. -/
structure Grp where
  state    : GrpState := .free
  erases   : Nat := 0
  reads    : Nat := 30000
  written  : Nat := 0
  refresh  : Bool := false
  fresh    : Bool := false
  sample   : Bool := false
  deriving DecidableEq, Repr

/-- An object of the lodge (R241 to R243): owner, kind of Table 15.2, job, step, commit sequence, copies of its record programmed;
the bytes put into it and, once its commit has begun, the first of its logical units: extents, then the manifest; whether a
unit of it is lost beyond recovery. -/
structure LObj where
  bib    : BitVec 12
  kind   : Nat
  job    : BitVec 64 := 0
  step   : BitVec 64 := 0
  cseq   : BitVec 64 := 0
  copies : Nat := 0
  bytes  : List Byte := []
  first  : Option Nat := none
  lost   : Bool := false
  deriving DecidableEq, Repr

/-- A page being read or rebuilt (R237): the unit, domains that wait, whether it is being rebuilt, peers tried, whether its contents
have been recovered. -/
structure PageOp where
  lun     : Nat
  waiting : List (BitVec 8)
  rebuild : Bool
  peers   : Nat := 0
  ready   : Bool := false
  deriving DecidableEq, Repr

/-- LODGE_STAT (Table 11.12). -/
structure LodgeStat where
  state   : BitVec 3 := 0
  rebuild : BitVec 7 := 0
  free    : BitVec 7 := 0
  wear    : BitVec 7 := 0
  lost    : Bool := false
  lostCh  : BitVec 4 := 0
  snapAge : BitVec 16 := 0
  deriving DecidableEq, Repr

/-- LODGE_CH_c (Table 11.13). -/
structure LodgeCh where
  dead  : BitVec 16 := 0
  grown : BitVec 16 := 0
  peMax : BitVec 16 := 0
  peMin : BitVec 16 := 0
  deriving DecidableEq, Repr

/-- The lodge. `map` holds the VALID entries of Table 11.3 by logical unit; `tags` the tags of programmed units by place;
`backed` the first logical unit of the committed copy of a T2 page, by page; `replicas` the modules that hold one, by logical page;
`progBytes` the bytes programmed since the last map snapshot; `toBuild` the units a failure left to rebuild. -/
structure Lodge where
  map      : Table LodgePlace := []
  tags     : Table UnitTag := []
  ladder   : Table Nat := []
  seq      : BitVec 64 := 0
  cseq     : BitVec 64 := 0
  grps     : Table Grp := []
  objs     : Table LObj := []
  pages    : Table PageOp := []
  backed   : Table Nat := []
  replicas : Table (List (BitVec 11)) := []
  stat     : LodgeStat := {}
  chs      : Table LodgeCh := []
  logA     : BitVec 4 := 0
  logB     : BitVec 4 := 8
  started  : Bool := false
  flushed  : BitVec 48 := 0
  progBytes : Nat := 0
  toBuild  : Nat := 0
  zq       : Table Nat := []
  deriving DecidableEq, Repr

/-! ## Parameter update (chapter 12) -/

/-- UPD_SLOT_c (Table 12.9). -/
structure UpdSlot where
  clip      : BitVec 32 := 0x3F800000
  clipEn    : Bool := false
  clipArmed : Bool := false
  curState  : Bool := false
  curWc     : Bool := false
  phase     : BitVec 2 := 0
  pin1      : BitVec 4 := 0
  pin0      : BitVec 4 := 0
  step      : BitVec 48 := 0
  updated   : BitVec 32 := 0
  deriving DecidableEq, Repr

/-- A patch in a lane group: the state it has read and the results of its program (Table 12.8). -/
structure LanePatch where
  slot    : BitVec 8
  binding : Nat
  patch   : Nat
  master  : List Nat
  s1      : List Nat
  s2      : List Nat
  frozen  : Bool
  wc      : List Nat := []
  wcScale : BitVec 8 := 0
  ended   : Bool := false
  deriving DecidableEq, Repr

/-- The update pipelines: registers, update maps (patches updated in the step), staged state, lane groups, norm
accumulators by slot × 12 + pipeline (in units of 2^-149), freeze tables in force and pending, pending constants. `staged` lists
per pipeline the slot, binding and patch; `emitted` lists per slot the patches complete in the writing buffer; `sums` holds the
module sums of squares that Zilunzor has taken (R262). -/
structure Upd where
  slots      : Table UpdSlot := []
  map        : Table (List (Nat × Nat)) := []
  emitted    : Table (List (Nat × Nat)) := []
  staged     : Table (List (BitVec 8 × Nat × Nat)) := []
  sums       : Table Nat := []
  lanes      : Table (List LanePatch) := []
  norm       : Table Nat := []
  freeze     : Table (List Bool) := []
  freezeNext : Table (List Bool) := []
  constsNext : List (BitVec 8 × Nat × List Nat) := []
  nonfin     : List (BitVec 8 × Nat) := []
  deriving DecidableEq, Repr

/-! ## Septyth Link (chapter 13) -/

/-- A slot that waits for an output, with the receive buffer and virtual channel it still holds when it is being forwarded (R268). -/
structure TxSlot where
  slot : SlotRef
  buf  : Option (Nat × Nat) := none
  deriving DecidableEq, Repr

/-- SL_PORT_n (Table 13.11), why the last training failed (REASON codes of Table 13.12), whether staged PHY firmware runs (R358),
and the port's frame state: next SEQ to send, last SEQ received in order, whether it waits for a resend and owes a NAK, frames not
yet acknowledged and those to be resent, receive slots occupied per VC, slots outstanding at the peer per VC, credits to return
and those the peer holds, slots and messages waiting to be sent, streams open on the input, streams open on the output (0 the
module's own, else 1 + input port × 4096 + input stream), failed retrains in a row, and the last frame sent. -/
structure SlPort where
  state    : BitVec 3 := 0
  ver      : BitVec 3 := 0
  drain    : Bool := false
  pattern  : Bool := false
  lanes    : BitVec 8 := 0
  peer     : BitVec 11 := 0
  run      : BitVec 8 := 0
  fibreNs  : BitVec 12 := 0
  trained  : Bool := false
  fail     : BitVec 4 := 0
  phyNew   : Bool := false
  txSeq    : BitVec 12 := 0
  rxSeq    : BitVec 12 := 0xFFF
  nakWait  : Bool := false
  nakDue   : Bool := false
  retry    : List Frame := []
  resend   : List Frame := []
  rxVc     : List Nat := [0, 0, 0, 0, 0]
  sentVc   : List Nat := [0, 0, 0, 0, 0]
  owed     : List (BitVec 3 × BitVec 13) := []
  given    : Nat := 1024
  txq      : List TxSlot := []
  msgq     : List Msg := []
  ins      : Table MsgOpen := []
  outs     : Table Nat := []
  retrains : Nat := 0
  out      : Option Frame := none
  deriving DecidableEq, Repr

/-- States of a bypass switch (Table 13.5). -/
inductive SwState | bypass | loop | opening | train | joined | closing
  deriving DecidableEq, Repr

/-- BYP_rd (Table 13.12) and the hub's hold signal of R273. -/
structure Byp where
  state  : SwState := .bypass
  join   : Bool := false
  reason : BitVec 4 := 0
  open_  : Bool := false
  peerP  : BitVec 11 := 0
  peerM  : BitVec 11 := 0
  hold   : Bool := false
  deriving DecidableEq, Repr

/-- The system map (R277). -/
structure SysMap where
  dx    : BitVec 5
  dy    : BitVec 5
  dz    : BitVec 5
  sysid : BitVec 64
  x     : BitVec 4
  y     : BitVec 4
  z     : BitVec 3
  deriving DecidableEq, Repr

/-- A job record (Table 13.6), with its member and mirror tables, recovery policy and configuration (R279, R283, R318), and the modules
that have entered as forerunners (R328). -/
structure Job where
  args   : JobArgs
  entered : List (BitVec 11) := []
  rank   : BitVec 11
  kepoch : Bool := false
  rotating : Bool := false
  oldLive : Bool := false
  mseq   : BitVec 48 := 0
  deriving DecidableEq, Repr

/-- A write, add, candidate or collective patch that waits to be sent as a message (R280, R283, R287): KIND in `act`, with the
TERM and rounding of an add. -/
structure OutMsg where
  bib    : BitVec 12
  act    : BitVec 2
  dst    : BitVec 11
  rail   : Bool
  va     : BitVec 48
  data   : List Byte
  term   : BitVec 32 := 0
  sr     : Bool := false
  seed   : BitVec 4 := 0
  deriving DecidableEq, Repr

/-- A message being received (R282): its header, the bytes that have arrived in reserved space, and whether it is relayed whole for
an entered forerunner (R328). -/
structure RxMsg where
  hdr   : MsgOpen
  data  : List Byte
  relay : Bool := false
  deriving DecidableEq, Repr

/-- The link: ports, switches (3 × rail + dimension), heartbeat at the sideband edge, system map, places known bypassed (6 × module +
3 × rail + dimension), job records, messages in reception by port × 4096 + stream, where forwarded streams leave (output port ×
4096 + stream), drained rings, deferred joins and pattern tests, delivered gradient patches, messages to be sent. -/
structure Link where
  ports    : Table SlPort := []
  byps     : Table Byp := []
  heartbeat : Bool := false
  toggle   : Bool := false
  quiet    : Nat := 0
  sysmap   : Option SysMap := none
  away     : List Nat := []
  jobs     : Table Job := []
  rx       : Table RxMsg := []
  fwd      : Table Nat := []
  drained  : List Nat := []
  waitJoin : List Nat := []
  waitPat  : List Nat := []
  chunks   : Table (Nat × List (BitVec 40)) := []
  outgoing : List OutMsg := []
  deriving DecidableEq, Repr

/-! ## Bibs and keys (chapter 14) -/

/-- States of a bib (Table 14.2). -/
inductive BibState | free | admitted | running | suspended | clearing
  deriving DecidableEq, Repr

/-- Bib record (Table 14.1) and the suspension's status. -/
structure Bib where
  state    : BibState := .free
  curEpoch : Bool := false
  rotating : Bool := false
  args     : BibArgs := {}
  why      : Status := .ok
  t2Used   : Nat := 0
  t1Used   : List Nat := [0, 0, 0, 0]
  deriving DecidableEq, Repr

/-- A bib's keys in hub 0's key store (Table 14.4): whether a KEM pair is being generated (B1 to B2 of Table 14.5), the KEM pair, K_E, the two data-key slots with the generation of the
newest, whether an automatic rotation waits for a retirement (R308), host key and wrap key. -/
structure BibKeys where
  kemDue : Bool := false
  ek     : Option (BitVec 12544) := none
  dk     : Option (BitVec 256) := none
  ke     : Option (BitVec 256) := none
  data0  : Option (BitVec 512) := none
  data1  : Option (BitVec 512) := none
  gen    : BitVec 32 := 0
  due    : Bool := false
  host   : Option (BitVec 256) := none
  kw     : Option (BitVec 256) := none
  deriving DecidableEq, Repr

/-- The host window's replay record (R307): H and the SEQs from H − 4096 to H − 1 accepted; the module's own SEQ. -/
structure Replay where
  h     : Nat := 0
  seen  : List Nat := []
  txSeq : BitVec 64 := 0
  deriving DecidableEq, Repr

/-- A scrub in progress (Table 14.9): the nonce, whether Z4 is done, what the certificate counts. -/
structure Scrub where
  nonce   : BitVec 256
  pages   : Bool := false
  t2Pages : Nat := 0
  t1Pages : Nat := 0
  carves  : Nat := 0
  crypto  : Nat := 0
  plain   : Nat := 0
  pass    : Bool := true
  hdr     : Hdr := {}
  deriving DecidableEq, Repr

/-- Bib records, keys, seeds in force and pending, replay records, scrubs, link keys by job × 2 + epoch. -/
structure Bibs where
  recs      : Table Bib := []
  keys      : Table BibKeys := []
  seeds     : Table (List (BitVec 64)) := []
  seedsNext : Table (List (BitVec 64)) := []
  replay    : Table Replay := []
  scrubs    : Table Scrub := []
  linkKeys  : Table (BitVec 256) := []
  deriving DecidableEq, Repr

/-! ## Commands and boot (chapter 16) -/

/-- Command and reply rings of a bib (R343), the ticks since its last poll, and the ticks since a command was taken from it as
far as 10 ms (R344). -/
structure Ring where
  next   : Nat := 0
  kept   : Table Nat := []
  rdone  : BitVec 32 := 0
  posted : BitVec 32 := 0
  ring   : List Reply := []
  asked  : Bool := false
  ticks  : Nat := 0
  idle   : Nat := 10000
  deriving DecidableEq, Repr

/-- A command that waits: it has replied ST_DEFERRED, or its commit is in progress (R243, R341). -/
inductive Waiting
  | join (i : Nat) | pattern (port : Nat) | rink | withdraw (p : Nat) | svn (n : BitVec 8) | update | selftest (unit : BitVec 4) (inst : BitVec 12)
  | calibrate (unit : BitVec 4) (inst : BitVec 12) | run (slot : BitVec 8) | release (bib : BitVec 12)
  | secure (job : BitVec 64) | object (id : Nat)
  deriving DecidableEq, Repr

/-- Command intake: packets taken in and not yet started, commands that wait, replies formed and not yet posted, kept
replies (R338), rings, the operator key, the highest OSEQ accepted, Ethernet buffers in use per port, whether intake is paused,
whether a command block has been read in this microsecond (R344), the value that the last register read returned to Zilunzor (R8), and the status that its last write of a scale record returned (R99). -/
structure Cmd where
  intake   : List Hdr := []
  waiting  : List (Waiting × Hdr) := []
  outbox   : List Reply := []
  sent     : List Reply := []
  kept     : Table (List Reply) := []
  rings    : Table Ring := []
  opkey    : Option (BitVec 20736) := none
  oseq     : Option (BitVec 64) := none
  ethUsed  : Table Nat := []
  paused   : Bool := false
  polled   : Bool := false
  readBack : BitVec 128 := 0
  writeStatus : Status := .ok
  deriving DecidableEq, Repr

/-- Boot control record (Table 16.11a); `valid` says that its MAGIC and CRC agree. -/
structure BootRec where
  active : Bool := false
  try_   : Bool := false
  tries  : BitVec 4 := 0
  validB : Bool := true
  validA : Bool := true
  bseq   : BitVec 64 := 0
  boots  : BitVec 32 := 0
  deriving DecidableEq, Repr

/-- BOOT_STAT (Table 16.12a). -/
structure BootStat where
  stage   : BitVec 3 := 0
  slot    : Bool := false
  trial   : Bool := false
  refused : BitVec 3 := 0
  refSlot : Bool := false
  update  : BitVec 3 := 0
  deriving DecidableEq, Repr

/-- The rows of Table 16.12 that a boot has reached (B2 to B11). -/
inductive BootRow | b1 | b2 | b3 | b4 | b5 | b6 | b7 | b8 | b9 | b10 | b11
  deriving DecidableEq, Repr

/-- Boot flash (R351, R352), boot progress, measurements, identity parts that a boot sets, live update; the core that
holds another core's duties, and whether a whole row of cores has failed (R349). -/
structure Boot where
  rec0    : Option BootRec := none
  rec1    : Option BootRec := none
  cur     : BootRec := {}
  images  : Table Image := []
  stat    : BootStat := {}
  rows    : List BootRow := []
  ready   : Bool := false
  locked  : Bool := false
  bootM   : BitVec 512 := 0
  zilM    : BitVec 512 := 0
  zilVer  : BitVec 64 := 0
  ldrVer  : BitVec 64 := 0
  oldZilM : BitVec 512 := 0
  oldZilVer : BitVec 64 := 0
  svn     : BitVec 8 := 0
  trialUp : Bool := false
  phyNew  : Bool := false
  duty    : Table Nat := []
  rowLost : Bool := false
  deriving DecidableEq, Repr

/-! ## Counters, snapshots, log, tests (chapter 17) -/

/-- A counter (R360). -/
structure Counter where
  ovf   : Bool := false
  value : BitVec 48 := 0
  deriving DecidableEq, Repr

/-- PF_CTL (Table 17.4), the units that have latched (R365), what they have latched, the two shadow images, and a START
that waits (R367). -/
structure PhotoFinish where
  busy    : Bool := false
  done    : Bool := false
  buf     : Bool := false
  snap    : BitVec 8 := 0
  tepoch  : BitVec 16 := 0
  tsLow   : BitVec 32 := 0
  taking  : BitVec 8 := 0
  latched : List Nat := []
  back    : Bool := false
  cut     : Table Counter := []
  shadow0 : Table Counter := []
  shadow1 : Table Counter := []
  lastTs  : Option (BitVec 64) := none
  again   : Bool := false
  askers  : List (Hdr × List (BitVec 16)) := []
  deriving DecidableEq, Repr

/-- The event log (R368, R370): events on their way to the sideband edge, entries held before B7, the ring by
INDEX mod 1,048,576, the next INDEX, and the places in the ring whose entry EVENTS has returned. -/
structure EventLog where
  flight   : List Event := []
  held     : List LogEntry := []
  up       : Bool := false
  ring     : Table LogEntry := []
  next     : BitVec 48 := 0
  returned : List Nat := []
  deriving DecidableEq, Repr

/-- TEST_STAT (Table 17.9). -/
structure TestStat where
  unit  : BitVec 4 := 0
  inst  : BitVec 12 := 0
  state : BitVec 3 := 0
  part  : BitVec 4 := 0
  row   : BitVec 9 := 0
  col   : BitVec 7 := 0
  qtr   : BitVec 2 := 0
  deriving DecidableEq, Repr

/-- Instructions of the JTAG port (R378). -/
inductive JtagIr | idcode | bypass | sample | extest | challenge | token
  deriving DecidableEq, Repr

/-- Self-tests waiting and running (unit code × 4096 + instance), stations withdrawn by a test, the
JTAG port, the CHALLENGE of this boot, an accepted token's scope, whether test access is unlocked. -/
structure Test where
  stat      : TestStat := {}
  waiting   : List Nat := []
  running   : List Nat := []
  second    : List Nat := []
  byTest    : List Nat := []
  startup   : Bool := false
  ir        : JtagIr := .idcode
  dr        : BitVec 128 := 0
  challenge : BitVec 128 := 0
  nextScope : Option (BitVec 8) := none
  unlocked  : Option (BitVec 8) := none
  pins      : BitVec 64 := 0
  deriving DecidableEq, Repr

/-! ## Securing and audit (chapter 15) -/

/-- What a secured copy of this module's own rank holds (Table 15.2): slot A's blocks by binding and patch, the scale records by
group, the seed set, and the step record's STEP, CLIP, CLIP_EN and INPUT_SEQ. -/
structure SecBody where
  slot     : BitVec 8
  blocks   : List (Nat × Nat × List (List Byte))
  scales   : List (Nat × ScaleRec)
  seeds    : List (BitVec 64)
  step     : BitVec 48
  clip     : BitVec 32
  clipEn   : Bool
  inputSeq : BitVec 64
  deriving DecidableEq, Repr

/-- A secured copy that this module holds: whose rank, which step, of what kind (0 local, 1 buddy, 2 checkpoint,
3 replica), whether complete (R320), and what it holds when the rank is the module's own. -/
structure SecCopy where
  job  : BitVec 64
  rank : BitVec 11
  step : BitVec 64
  kind : Nat
  done : Bool
  body : Option SecBody := none
  deriving DecidableEq, Repr

/-- SEC_STAT_j (Table 15.9), the buddy offset (dimension and steps, R321), the recovery record (R325) with the last row of Table 15.5
reached, resumes in a row at one step for one cause (R318), a securing asked for or due at the first commit after a resume
(R324), the step whose copies are kept until then, a swap or a regrowth that waits for a commit, the dimensions with the module count
in which the course cannot take the spread path (R177). -/
structure SecStat where
  state    : BitVec 4 := 0
  forced   : Bool := false
  coord    : Bool := false
  nb       : BitVec 13 := 0
  nl       : BitVec 22 := 0
  failRank : BitVec 11 := 0
  buddyAge : BitVec 32 := 0
  lodgeAge : BitVec 32 := 0
  buddy    : Option (Nat × Int) := none
  failed   : List (BitVec 11) := []
  step     : Option (BitVec 64) := none
  fore     : Option (BitVec 11) := none
  row      : Nat := 0
  resumes  : Nat := 0
  lastWhy  : Status := .ok
  lastStep : BitVec 48 := 0
  secureNow : Bool := false
  after    : Bool := false
  keep     : Option (BitVec 64) := none
  swap     : Option (BitVec 11 × BitVec 11) := none
  lostModule : BitVec 11 := 0
  regrow   : List (BitVec 11) := []
  barred   : List (Nat × Nat) := []
  deriving DecidableEq, Repr

/-- AUDIT_STAT (Table 15.8). -/
structure AuditStat where
  failed : BitVec 7 := 0
  last   : BitVec 3 := 0
  diff   : BitVec 32 := 0
  at_    : BitVec 15 := 0
  deriving DecidableEq, Repr

/-- Securing: copies held, SEC_STAT by job, the audit register. -/
structure Sec where
  copies : List SecCopy := []
  stats  : Table SecStat := []
  audit  : AuditStat := {}
  deriving DecidableEq, Repr

end Sys2Proof.Machine
end

