-- ==== Sys2Proof/Machine/State.lean ====
section
/-! DEFINITION. The state of the block, the reasons a step can stop, and the state after reset. -/

namespace Sys2Proof.Machine

/-- Reasons for a stop with a fault. The spec stops no command: every failure it names is a status, an event, a
suspension or a loss of power, and each is a next state. Nothing raises a fault; the type has no constructor. -/
inductive Fault
  deriving DecidableEq, Repr

/-- Reasons for a refusal. -/
inductive Refusal
  /-- Raised by an arm of `exec` whose command has no meaning yet. Safe: the machine stops. -/
  | notModelled (mnemonic : String)
  deriving DecidableEq, Repr

/-- The whole module: one field per unit, the model's own free-value counter, and the queue of waiting commands. -/
structure State where
  clk     : Clock := {}
  pwr     : Power := {}
  vc      : Vcore := {}
  rink    : Rink := {}
  arr     : Arr := {}
  crs     : Crs := {}
  mem     : Mem := {}
  lkr     : Locker := {}
  lift    : Lift := {}
  lodge   : Lodge := {}
  upd     : Upd := {}
  sl      : Link := {}
  bibs    : Bibs := {}
  cmd     : Cmd := {}
  boot    : Boot := {}
  /-- Counters by identifier × 65,536 + instance (R360, Table 17.1). -/
  ctr     : Table Counter := []
  pf      : PhotoFinish := {}
  log     : EventLog := {}
  test    : Test := {}
  sec     : Sec := {}
  /-- The model's own: how many free values the run has used (log entry 5). -/
  freeCtr : Nat := 0
  /-- Commands that wait, first in, first out. -/
  pending : List Instr := []
  deriving DecidableEq, Repr

/-- The module right after the power-on sequence has reached S7 of Table 18.3, with RESET_N asserted: every register at
its Reset column, no command waiting (log entry 1). -/
def State.reset : State := {}

/-- The outcome type of the block. -/
abbrev Out := Host.Outcome State Fault Refusal

end Sys2Proof.Machine
end

