-- ==== Sys2Proof/Machine/Table.lean ====
section
/-! DEFINITION. Reading and writing the sparse tables that hold the module's numbered registers, tiles, pages and bytes. -/

namespace Sys2Proof

/-- The entry that number `k` lists, if it lists one. -/
def Table.lookup {α : Type} : Table α → Nat → Option α
  | [], _ => none
  | (j, a) :: t, k => if j = k then some a else Table.lookup t k

/-- What number `k` holds; an unlisted number holds `d`. -/
def Table.read {α : Type} (d : α) (t : Table α) (k : Nat) : α := (t.lookup k).getD d

/-- Whether number `k` is listed. -/
def Table.has {α : Type} (t : Table α) (k : Nat) : Bool := (t.lookup k).isSome

/-- The table without number `k`. -/
def Table.remove {α : Type} : Table α → Nat → Table α
  | [], _ => []
  | (j, a) :: t, k => if j = k then Table.remove t k else (j, a) :: Table.remove t k

/-- The table with `a` listed at number `k`, numbers kept rising. -/
def Table.insert {α : Type} : Table α → Nat → α → Table α
  | [], k, a => [(k, a)]
  | (j, b) :: t, k, a =>
    if k < j then (k, a) :: (j, b) :: t
    else if k = j then (k, a) :: t
    else (j, b) :: Table.insert t k a

/-- The table in which `k` holds `a`: nothing is listed where `a` is what an unlisted number holds. -/
def Table.write {α : Type} [DecidableEq α] (d : α) (t : Table α) (k : Nat) (a : α) : Table α :=
  if a = d then t.remove k else t.insert k a

/-- Entries whose number and content satisfy `p`. -/
def Table.keep {α : Type} (p : Nat → α → Bool) : Table α → Table α
  | [] => []
  | (j, a) :: t => if p j a then (j, a) :: Table.keep p t else Table.keep p t

/-- The table with `f` applied to every listed content. -/
def Table.each {α β : Type} (f : Nat → α → β) : Table α → Table β
  | [] => []
  | (j, a) :: t => (j, f j a) :: Table.each f t

/-- Whether some listed entry satisfies `p`. -/
def Table.any {α : Type} (p : Nat → α → Bool) : Table α → Bool
  | [] => false
  | (j, a) :: t => p j a || Table.any p t

/-- Numbers strictly above `lo` and strictly rising. -/
def Table.risingFrom {α : Type} : Nat → Table α → Bool
  | _, [] => true
  | lo, (j, _) :: t => decide (lo < j) && Table.risingFrom j t

/-- Numbers strictly rising. -/
def Table.rising {α : Type} : Table α → Bool
  | [] => true
  | (j, _) :: t => Table.risingFrom j t

/-- The canonical form: numbers strictly rising and no entry equal to what an unlisted number holds. -/
def Table.canonical {α : Type} [DecidableEq α] (d : α) (t : Table α) : Bool :=
  t.rising && t.all (fun e => decide (e.2 ≠ d))

end Sys2Proof
end

