-- ==== Sys2Proof/Machine/Ops.lean ====
section
/-! DEFINITION. The named operations every command is written over: counters, events, replies, acceptance of packets, bib
records, holds, stations, memory. -/

namespace Sys2Proof.Machine

/-! ## Events of the module's own units -/

/-- Whether the rails are in regulation and module reset is negated: the module's units act (R384, R392; log entry 6). -/
def State.up (s : State) : Bool := s.pwr.pwrGood && !s.pwr.reset

/-- An event of a unit of the module: nothing happens while the module is dark or in reset (log entry 6). -/
def State.event (s : State) (f : State → State) : Out := .next (if s.up then f s else s)

/-! ## Free values -/

/-- The next free value of `w` bits. -/
def State.freeVal (s : State) (w : Nat) : BitVec w := Config.free w s.freeCtr

/-- The state after a free value has been used. -/
def State.used (s : State) : State := { s with freeCtr := s.freeCtr + 1 }

/-! ## Events (R368 to R370, Table 16.9) -/

/-- The event code of an argument (Table 16.9). -/
def evCode : EvArg → Nat
  | .holdLong .. => 0x0001
  | .lateLift .. => 0x0002
  | .overflowSkip .. => 0x0003
  | .sweepDiverge .. => 0x0004
  | .lockerSpill .. => 0x0005
  | .streamHalt .. => 0x0006
  | .streamUnwind .. => 0x0007
  | .lodgeUe .. => 0x0008
  | .linkRetry .. => 0x0009
  | .bypass .. => 0x000A
  | .forerunnerIn .. => 0x000B
  | .spread .. => 0x000C
  | .buddySharedFeed .. => 0x000D
  | .counterSat .. => 0x000E
  | .courseViolation .. => 0x000F
  | .keyRotate .. => 0x0010
  | .conservation .. => 0x0011
  | .repair .. => 0x0012

/-- Status values (Table 16.8). -/
def statusCode : Status → Nat
  | .ok => 0x00
  | .deferred => 0x01
  | .busy => 0x02
  | .badOpcode => 0x03
  | .version => 0x04
  | .auth => 0x05
  | .noBib => 0x06
  | .quota => 0x07
  | .bounds => 0x08
  | .notHome => 0x09
  | .format => 0x0A
  | .dataLost => 0x0B
  | .fault => 0x0C

/-- An event sets out for hub 0's sideband edge (R368). -/
def State.raise (s : State) (e : Event) : State := { s with log.flight := s.log.flight ++ [e] }

/-! ## Counters (R360, Table 17.2) -/

/-- The number of counter `id` of instance `inst`. -/
def ctrKey (id inst : Nat) : Nat := id * 65536 + inst

/-- A counter after `n` increments summed in one handshake (R360): it stops at 2^48 − 1 with OVF set. -/
def Counter.plus (c : Counter) (n : Nat) : Counter :=
  if c.ovf then c
  else if c.value.toNat + n < 2 ^ 48 then { c with value := BitVec.ofNat 48 (c.value.toNat + n) }
  else { ovf := true, value := BitVec.ofNat 48 (2 ^ 48 - 1) }

/-- The counter of `id` and `inst`. -/
def State.counter (s : State) (id inst : Nat) : Counter := s.ctr.read {} (ctrKey id inst)

/-- EV_COUNTER_SAT of counter `id`, instance `inst`: the source is the unit whose counter it is (log entry 10). -/
def satEvent (id inst : Nat) : Event :=
  let hi := id / 256
  { bib := if hi = 0x0B || (0x0701 ≤ id && id ≤ 0x0704) then BitVec.ofNat 12 inst else 0
    slot := if hi = 0x08 || hi = 0x09 || hi = 0x0A then BitVec.ofNat 8 inst else 0xFF
    src := if hi = 2 then 1 else if hi = 3 then 2 else if id = 0x0403 then 4 else if hi = 4 then 3
      else if hi = 5 then 5 else if hi = 6 then 6 else 0
    srcInst := if hi = 2 || hi = 4 || hi = 5 then BitVec.ofNat 12 inst
      else if hi = 3 then BitVec.ofNat 12 (inst / 4) else 0
    arg := .counterSat (BitVec.ofNat 16 id) (BitVec.ofNat 16 inst) }

/-- `n` increments of a counter in one handshake; EV_COUNTER_SAT once, when it saturates (R360). -/
def State.count (s : State) (id inst n : Nat) : State :=
  let c := s.counter id inst
  let c' := c.plus n
  let s' := { s with ctr := s.ctr.write {} (ctrKey id inst) c' }
  if c'.ovf && !c.ovf then s'.raise (satEvent id inst) else s'

/-- Whether a counter identifier's instances are bibs (Table 17.2). -/
def bibCounter (id : Nat) : Bool := id = 0x0B00 || (0x0701 ≤ id && id ≤ 0x0704)

/-- Whether a counter identifier's instances are domains (Table 17.2). -/
def domainCounter (id : Nat) : Bool := id / 256 = 0x08 || id / 256 = 0x09 || id / 256 = 0x0A

/-- Counters of the scope that starts are reset, with OVF cleared (R361). -/
def State.clearCounters (s : State) (p : Nat → Nat → Bool) : State :=
  { s with ctr := s.ctr.keep (fun k _ => !p (k / 65536) (k % 65536)) }

/-! ## Replies (R341) -/

/-- Where replies of a packet are kept: number 4,096 for the operator, else the bib's (R338). -/
def keptKey (c : Hdr) : Nat := if c.role = 1 then 4096 else c.bib.toNat

/-- The reply to packet `c`, stamped with the time it is formed (Table 16.4). -/
def State.mkReply (s : State) (c : Hdr) (st : Status) (final : Bool) (ev : Nat) (r : Result) : Reply :=
  { path := c.path, opcode := c.opcode, bib := c.bib, slot := c.slot, status := st, final := final, tag := c.tag
    event := BitVec.ofNat 16 ev, ts := s.clk.ts, epoch := s.clk.epoch
    signed := c.signReply && c.role = 1, result := r }

/-- The last 64 of a list (R338). -/
def last64 {α : Type} (l : List α) : List α := l.drop (l.length - 64)

/-- A reply is formed: a host reply waits for its ring slot (R343), any other leaves on the path of its packet. Replies
of the operator and of bibs are kept, the last 64 of each (R338). -/
def State.replyAs (s : State) (c : Hdr) (st : Status) (final : Bool) (ev : Nat) (r : Result) : State :=
  let rep := s.mkReply c st final ev r
  let s1 := match c.path with
    | .host => { s with cmd.outbox := s.cmd.outbox ++ [rep] }
    | _ => { s with cmd.sent := s.cmd.sent ++ [rep] }
  if c.role = 2 || c.tag = 0xFFFFFFFF then s1
  else { s1 with cmd.kept := s1.cmd.kept.insert (keptKey c) (last64 ((s1.cmd.kept.read [] (keptKey c)) ++ [rep])) }

/-- The FINAL reply of a command. -/
def State.reply (s : State) (c : Hdr) (st : Status) : State := s.replyAs c st true 0 .none

/-- The FINAL reply ST_OK with a result. -/
def State.replyWith (s : State) (c : Hdr) (r : Result) : State := s.replyAs c .ok true 0 r

/-- ST_DEFERRED with FINAL = 0; the command waits (R341). -/
def State.defer (s : State) (c : Hdr) (w : Waiting) : State :=
  let s1 := s.replyAs c .deferred false 0 .none
  { s1 with cmd.waiting := s1.cmd.waiting ++ [(w, c)] }

/-- Every command waiting as `w` completes with status `st` and result `r`. -/
def State.complete (s : State) (w : Waiting) (st : Status) (r : Result) : State :=
  let done := s.cmd.waiting.filter (fun e => decide (e.1 = w))
  let s1 := { s with cmd.waiting := s.cmd.waiting.filter (fun e => decide (e.1 ≠ w)) }
  done.foldl (fun t e => t.replyAs e.2 st true 0 r) s1

/-! ## Bib records (Table 14.1) -/

/-- The record of a bib. -/
def State.bib (s : State) (b : BitVec 12) : Bib := s.bibs.recs.read {} b.toNat

/-- The record of a bib is written. -/
def State.setBib (s : State) (b : BitVec 12) (r : Bib) : State :=
  { s with bibs.recs := s.bibs.recs.write {} b.toNat r }

/-- The keys of a bib. -/
def State.keysOf (s : State) (b : BitVec 12) : BibKeys := s.bibs.keys.read {} b.toNat

/-- The keys of a bib are written. -/
def State.setKeys (s : State) (b : BitVec 12) (k : BibKeys) : State :=
  { s with bibs.keys := s.bibs.keys.write {} b.toNat k }

/-! ## Courses, domains, holds, gates -/

/-- The course resident in a slot. -/
def State.course (s : State) (c : Nat) : Option Course := s.crs.courses.lookup c

/-- The course of a slot is written. -/
def State.setCourse (s : State) (c : Nat) (k : Course) : State :=
  { s with crs.courses := s.crs.courses.insert c k }

/-- What a command does to the course of its slot: an empty slot is out of bounds, another bib's course is not its own (Table 16.8). -/
def State.onCourse (s : State) (c : Hdr) (f : Course → State) : State :=
  match s.course c.slot.toNat with
  | none => s.reply c .bounds
  | some k => if k.bib = c.bib then f k else s.reply c .notHome

/-- The domain of a slot. -/
def State.domain (s : State) (c : Nat) : Option Domain := s.crs.domains.lookup c

/-- The domain of a slot is written. -/
def State.setDomain (s : State) (c : Nat) (d : Domain) : State :=
  { s with crs.domains := s.crs.domains.insert c d }

/-- HOLD_STAT of a slot. -/
def State.hold (s : State) (c : Nat) : Hold := s.crs.holds.read {} c

/-- HOLD_STAT of a slot is written. -/
def State.setHold (s : State) (c : Nat) (h : Hold) : State :=
  { s with crs.holds := s.crs.holds.write {} c h }

/-- A gate's record. -/
def State.gate (s : State) (n : Nat) : Gate := s.crs.gates.read {} n

/-- A gate's record is written. -/
def State.setGate (s : State) (n : Nat) (g : Gate) : State :=
  { s with crs.gates := s.crs.gates.write {} n g }

/-- Whether a domain is held (R184). -/
def State.held (s : State) (c : Nat) : Bool := (s.hold c).cause ≠ 0

/-- Bit `n` of a cause mask. -/
def causeBit (n : Nat) : BitVec 8 := BitVec.ofNat 8 (2 ^ n)

/-- H1: cause `n` is raised for a domain; a cause raised while the domain is held joins that hold (R184, R185). HOLDS
counts holds begun. -/
def State.raiseHold (s : State) (c n : Nat) : State :=
  let h := s.hold c
  let s1 := s.setHold c { h with cause := h.cause ||| causeBit n }
  if h.cause = 0 then s1.count 0x0807 c 1 else s1

/-- H4 and H5: cause `n` clears; with the last cause the hold ends and the domain resumes (R184, R185). -/
def State.clearHold (s : State) (c n : Nat) : State :=
  let h := s.hold c
  let m := h.cause &&& ~~~ causeBit n
  if m = 0 then s.setHold c { h with cause := 0, current := 0, stopped := false, drained := false, marked := false }
  else s.setHold c { h with cause := m }

/-- Slots whose domain is running. -/
def State.runningSlots (s : State) : List Nat :=
  (s.crs.domains.filter (fun e => e.2.running)).map (·.1)

/-- Slots of a bib whose domain is running. -/
def State.runningOf (s : State) (b : BitVec 12) : List Nat :=
  (s.crs.domains.filter (fun e => e.2.running && e.2.bib = b)).map (·.1)

/-- Fold an operation of the state over a list. -/
def State.each {α : Type} (s : State) (l : List α) (f : State → α → State) : State := l.foldl f s

/-- A bib's locker entries are freed, its work area is given up and its spill pages return to its quotas (R142). -/
def State.freeLocker (s : State) (b : BitVec 12) : State :=
  { s with lkr.entries := s.lkr.entries.filter (fun e => e.bib ≠ b)
           crs.domains := s.crs.domains.each (fun _ d =>
             if d.bib = b then { d with live := d.live.each (fun _ l => { l with work := [] }) } else d) }

/-- The running bib of state 2 becomes suspended with a status: its domains stop, and each of its RUNs gets a reply with
FINAL = 0, the status and the event (R62 C3, R293, R348); its locker entries are freed (R142). A bib in another state is left as it is (Table 14.2). -/
def State.suspend (s : State) (b : BitVec 12) (why : Status) (ev : Nat) : State :=
  let r := s.bib b
  if r.state = .running then
    let slots := s.runningOf b
    let s1 := (s.setBib b { r with state := .suspended, why := why }).freeLocker b
    s1.each slots (fun t c =>
      match t.domain c with
      | some d => (t.setDomain c { d with suspended := true }).replyAs d.runHdr why false ev .none
      | none => t)
  else s

/-! ## Stations -/

/-- STN_CTL of a physical station. -/
def State.stn (s : State) (p : Nat) : Stn := s.rink.stn.read {} p

/-- STN_CTL of a physical station is written. -/
def State.setStn (s : State) (p : Nat) (r : Stn) : State := { s with rink.stn := s.rink.stn.write {} p r }

/-- BIBq of Table 3.6. -/
def Stn.bibOf (r : Stn) (q : Nat) : BitVec 12 :=
  match q with
  | 0 => r.bib0
  | 1 => r.bib1
  | 2 => r.bib2
  | _ => r.bib3

/-- BIBq is written. -/
def Stn.bind (r : Stn) (q : Nat) (b : BitVec 12) : Stn :=
  match q with
  | 0 => { r with bib0 := b }
  | 1 => { r with bib1 := b }
  | 2 => { r with bib2 := b }
  | _ => { r with bib3 := b }

/-- The width w of a carve from the WIDTH code (R59): 4, 2 or 1 quarters. -/
def carveWidth (code : Nat) : Nat := if code = 0 then 4 else if code = 1 then 2 else 1

/-- The lowest quarter of the group that quarter `q` belongs to, for carves of width `w` (R59). -/
def groupOf (w q : Nat) : Nat := q / w * w

/-- The quarters of the carve that holds quarter `q` of station `p`. -/
def State.carveQuarters (s : State) (p q : Nat) : List Nat :=
  let w := carveWidth (s.stn p).width.toNat
  (List.range w).map (fun i => groupOf w q + i)

/-- The running domain that holds quarter `q` of station `p`, with its slot. -/
def State.ownerOf (s : State) (p q : Nat) : Option (Nat × Domain) :=
  s.crs.domains.find? (fun e => e.2.running && e.2.run.contains p && decide (e.2.quarter ≤ q ∧ q < e.2.quarter + e.2.w))

/-- STN_MAP of a die. -/
def State.stnMap (s : State) (d : Nat) : StnMap := s.rink.maps.read {} d

/-- Whether a physical station is active (R66). -/
def State.active (s : State) (p : Nat) : Bool := (s.stnMap (p / 26)).active.getLsbD (p % 26)

/-- The logical number of a position on its die: active positions in ascending order (R66). -/
def State.logicalOn (s : State) (p : Nat) : Nat := popcount (p % 26) (s.stnMap (p / 26)).active.toNat

/-- The module station number: 24 × die + logical station (R58, R59). -/
def State.moduleStn (s : State) (p : Nat) : Nat := 24 * (p / 26) + s.logicalOn p

/-! ## Memory (R188) -/

/-- The number of a byte: tier code and offset. -/
def byteKey (tier off : Nat) : Nat := tier * 2 ^ 50 + off

/-- The byte at a number; an unlisted byte reads 0 (log entry 3). -/
def State.byte (s : State) (k : Nat) : Byte := s.mem.bytes.read 0 k

/-- A byte is stored. -/
def State.setByte (s : State) (k : Nat) (b : Byte) : State := { s with mem.bytes := s.mem.bytes.write 0 k b }

/-- `n` bytes from a number up. -/
def State.bytesAt (s : State) : Nat → Nat → List Byte
  | _, 0 => []
  | k, n + 1 => s.byte k :: State.bytesAt s (k + 1) n

/-- Bytes are stored from a number up. -/
def State.setBytes (s : State) : Nat → List Byte → State
  | _, [] => s
  | k, b :: bs => State.setBytes (s.setByte k b) (k + 1) bs

/-- The bytes from `lo` to `lo + n − 1` become zero. -/
def State.zeroBytes (s : State) (lo n : Nat) : State :=
  { s with mem.bytes := s.mem.bytes.keep (fun k _ => decide (k < lo ∨ lo + n ≤ k)) }

/-! ## Acceptance of packets (R336, R340, Table 16.3) -/

/-- Roles permitted for an opcode (Table 16.7): 0 tenant, 1 operator, 2 chassis controller; none for an undefined one. -/
def opRoles (op : Nat) : List (BitVec 2) :=
  match op with
  | 0x0001 => [0, 1, 2] | 0x0002 => [0, 1, 2] | 0x0003 => [0, 1] | 0x0004 => [1] | 0x0005 => [0, 1] | 0x0006 => [0, 1]
  | 0x0007 => [2]
  | 0x0101 => [1] | 0x0102 => [0] | 0x0103 => [1] | 0x0104 => [0] | 0x0105 => [0, 1] | 0x0106 => [1] | 0x0107 => [0, 1]
  | 0x0108 => [1]
  | 0x0201 => [0] | 0x0202 => [0] | 0x0203 => [0] | 0x0204 => [0, 1] | 0x0205 => [1] | 0x0206 => [1] | 0x0207 => [1]
  | 0x0301 => [1] | 0x0302 => [1] | 0x0303 => [1] | 0x0304 => [1] | 0x0305 => [1]
  | 0x0401 => [0] | 0x0402 => [0] | 0x0403 => [0, 1]
  | 0x0501 => [1] | 0x0502 => [1] | 0x0503 => [1] | 0x0504 => [1] | 0x0505 => [1] | 0x0506 => [1] | 0x0507 => [1]
  | 0x0508 => [1] | 0x0509 => [1, 2]
  | 0x0601 => [1, 2] | 0x0602 => [1] | 0x0603 => [1] | 0x0604 => [1]
  | _ => []

/-- Whether an opcode acts on a bib, so that bib 0x000 is refused for it (R293, Table 16.8). -/
def opNeedsBib (op : Nat) : Bool := op / 256 = 1 && op ≠ 0x0108 || op / 256 = 2

/-- Roles accepted on a path (Table 16.1). -/
def pathTakes : Path → BitVec 2 → Bool
  | .host, r => r = 0
  | .eth _, r => r = 0 || r = 1
  | .i3c, r => r = 2

/-- Whether Zilunzor runs (B7 of Table 16.12). -/
def State.zilUp (s : State) : Bool := s.boot.rows.contains .b7

/-- Whether a packet by this path is taken now: host and Ethernet from B11, the sideband while Zilunzor runs; in the
recovery stage only HELLO, IDENTITY, FW_STAGE and RESET over I3C (R354, R355). -/
def State.serves (s : State) (op : Nat) (p : Path) : Bool :=
  if s.boot.stat.stage = 7 then decide (p = .i3c) && [0x0001, 0x0002, 0x0601, 0x0509].contains op
  else match p with
    | .i3c => s.zilUp
    | _ => s.boot.ready

/-- Check 5 of Table 16.3: whether the bib's state accepts the opcode (R293, Table 14.2). -/
def State.bibCheck (s : State) (op : Nat) (role : BitVec 2) (b : BitVec 12) : Option Status :=
  if b = 0 then (if opNeedsBib op || role = 0 then some .noBib else none)
  else match (s.bib b).state with
    | .free => if op = 0x0101 then none else some .noBib
    | .clearing => some .busy
    | .suspended => if op = 0x0101 || op = 0x0203 then some .busy else none
    | .admitted => if op = 0x0101 || op = 0x0106 then some .busy else none
    | .running => if op = 0x0101 || op = 0x0106 || op = 0x0203 then some .busy else none

/-- Most argument bytes of a packet (R337). -/
def argMax (p : Path) (role : BitVec 2) : Nat :=
  match p with
  | .host => 3984
  | .i3c => 11648
  | .eth _ => if role = 0 then 3984 else 11648

/-- The first failure among checks 1 and 3 to 7 of Table 16.3 that the header alone decides, in the table's order. -/
def State.firstFailure (s : State) (op : Nat) (c : Hdr) : Option Status :=
  if c.pver ≠ 1 then some .version
  else if opRoles op = [] then some .badOpcode
  else if !(opRoles op).contains c.role then some .auth
  else if op = 0x0601 && c.role = 2 && s.boot.stat.stage ≠ 7 then some .auth
  else match s.bibCheck op c.role c.bib with
    | some st => some st
    | none =>
      if c.rsvHigh ≠ 0 || c.rsvLow ≠ 0 || c.argRsv || c.tag = 0xFFFFFFFF then some .version
      else if argMax c.path c.role < c.argLen.toNat then some .bounds
      else none

/-- Receive buffers in use at an Ethernet port (R345). -/
def State.ethUsed (s : State) (p : Nat) : Nat := s.cmd.ethUsed.read 0 p

/-- A packet leaves the intake as its command starts; an Ethernet packet's buffer is posted again (R345). -/
def State.leaveIntake (s : State) (c : Hdr) : State :=
  if s.cmd.intake.contains c then
    let t : State := { s with cmd.intake := s.cmd.intake.erase c }
    match c.path with
    | .eth p => { t with cmd.ethUsed := t.cmd.ethUsed.write 0 p.val (t.ethUsed p.val - 1) }
    | _ => t
  else s

/-- A command row: the packet `c` of opcode `op` leaves the intake, is checked (R336, R340), and has its effect `k`, or its
refusal is the reply. A packet that no unit takes in the present stage changes nothing. -/
def State.command (s : State) (op : Nat) (c : Hdr) (k : State → Hdr → State) : Out :=
  let c := { c with opcode := BitVec.ofNat 16 op }
  if !s.serves op c.path then .next s
  else
    let s := s.leaveIntake c
    if !pathTakes c.path c.role then .next (s.count 0x0705 0 1)
    else match s.firstFailure op c with
      | some st => .next (s.reply c st)
      | none => .next (k s c)

end Sys2Proof.Machine
end

