-- ==== Sys2Proof/Machine/CourseRec.lean ====
section
/-! DEFINITION. The fields of a course file's records, read from the integers R7 makes of them (Tables 8.1, 8.4 to 8.7, 8.9,
8.13, 10.1, 10.2), and tile addresses. -/

namespace Sys2Proof.Machine

/-- No gate: the local number 0x1FFF. -/
def noGate : Nat := 0x1FFF

/-! ## Course header (Table 8.1) -/

def chCourseId (h : Nat) : Nat := bits h 368 64
def chSections (h : Nat) : Nat := bits h 362 6
def chSDecl (h : Nat) : Nat := bits h 355 7
def chWidth (h : Nat) : Nat := bits h 353 2
def chKind (h : Nat) : Nat := bits h 351 2
def chReplay (h : Nat) : Bool := bitAt h 350
def chGates (h : Nat) : Nat := bits h 337 13
def chScaleRecs (h : Nat) : Nat := bits h 322 15
def chSegments (h : Nat) : Nat := bits h 302 20
def chStepEnd (h : Nat) : Nat := bits h 282 20
def chVerdict (h : Nat) : Nat := bits h 269 13
def chScaleGate (h : Nat) : Nat := bits h 256 13
def chSeedMask (h : Nat) : Nat := bits h 240 16
def chTensors (h : Nat) : Nat := bits h 216 24

/-! ## Tensor records (Table 8.4) -/

def tnVa (r : Nat) : Nat := bits r 80 48
def tnRows (r : Nat) : Nat := bits r 60 20
def tnCols (r : Nat) : Nat := bits r 40 20
def tnFmt (r : Nat) : Nat := bits r 36 4
def tnLayout (r : Nat) : Nat := bits r 34 2
def tnWr (r : Nat) : Bool := bitAt r 33

/-! ## Segment descriptors (Table 8.5) -/

def sgRecompute (r : Nat) : Bool := bitAt r 251
def sgStepEnd (r : Nat) : Bool := bitAt r 250
def sgPatchPoint (r : Nat) : Bool := bitAt r 249
def sgFence (r : Nat) : Bool := bitAt r 248
def sgS (r : Nat) : Nat := bits r 241 7
def sgFirst (r : Nat) : Nat := bits r 234 7
def sgRepeat (r : Nat) : Nat := bits r 214 20
def sgLoopTo (r : Nat) : Nat := bits r 194 20
def sgLoopN (r : Nat) : Nat := bits r 174 20
def sgUseFirst (r : Nat) : Nat := bits r 150 24
def sgUseCount (r : Nat) : Nat := bits r 130 20
def sgWaitA (r : Nat) : Nat := bits r 117 13
def sgWaitB (r : Nat) : Nat := bits r 104 13
def sgSigA (r : Nat) : Nat := bits r 91 13
def sgSigB (r : Nat) : Nat := bits r 78 13
def sgConfFirst (r : Nat) : Nat := bits r 58 20
def sgConfCount (r : Nat) : Nat := bits r 46 12
def sgStrmFirst (r : Nat) : Nat := bits r 26 20
def sgStrmCount (r : Nat) : Nat := bits r 18 8
def sgSram (r : Nat) : Nat := bits r 5 13

/-! ## Use records (Table 8.6) -/

def usMode (r : Nat) : Nat := bits r 508 4
def usOrient (r : Nat) : Nat := bits r 506 2
def usOpT (r : Nat) : Bool := bitAt r 505
def usSwap (r : Nat) : Bool := bitAt r 504
def usStn (r : Nat) : Nat := bits r 497 7
def usVisits (r : Nat) : Nat := bits r 490 7
def usOpFmt (r : Nat) : Nat := bits r 486 4
def usStFmt (r : Nat) : Nat := bits r 482 4
def usOutFmt (r : Nat) : Nat := bits r 478 4
def usRoute (r : Nat) : Nat := bits r 476 2
def usAcc (r : Nat) : Nat := bits r 474 2
def usRnd (r : Nat) : Bool := bitAt r 473
def usSeed (r : Nat) : Nat := bits r 469 4
def usK (r : Nat) : Nat := bits r 461 8 + 1
def usGroup (r : Nat) : Nat := bits r 446 15
def usWait (r : Nat) : Nat := bits r 433 13
def usSig (r : Nat) : Nat := bits r 420 13
def usConv (r : Nat) : Nat := bits r 400 20
def usOpTensor (r : Nat) : Nat := bits r 376 24
def usOpBase (r : Nat) : Nat := bits r 352 24
def usOpDs (r : Nat) : Int := signed 16 (bits r 336 16)
def usOpDi (r : Nat) : Int := signed 16 (bits r 320 16)
def usStTensor (r : Nat) : Nat := bits r 296 24
def usStBase (r : Nat) : Nat := bits r 272 24
def usStDs (r : Nat) : Int := signed 16 (bits r 256 16)
def usStDi (r : Nat) : Int := signed 16 (bits r 240 16)
def usOutTensor (r : Nat) : Nat := bits r 216 24
def usOutBase (r : Nat) : Nat := bits r 192 24
def usOutDs (r : Nat) : Int := signed 16 (bits r 176 16)
def usOutDi (r : Nat) : Int := signed 16 (bits r 160 16)
def usTermBase (r : Nat) : Nat := bits r 140 20
def usTermDi (r : Nat) : Nat := bits r 132 8
def usIndexBase (r : Nat) : Nat := bits r 92 40

/-- A tile reference: base + ds × s + di × i (R167). -/
def tileRef (base : Nat) (ds di : Int) (s i : Nat) : Int := base + ds * s + di * i

/-! ## Gate declarations (Table 8.13) -/

def gdScope (r : Nat) : Bool := bitAt r 31
def gdWd (r : Nat) : Nat := bits r 21 10
def gdTarget (r : Nat) : Nat := bits r 5 16

/-! ## Patch records (Table 8.9) -/

def paKind (r : Nat) : Nat := bits r 124 4
def paTarget (r : Nat) : Nat := bits r 116 8
def paRecord (r : Nat) : Nat := bits r 92 24
def paBit (r : Nat) : Nat := bits r 83 9
def paWidth (r : Nat) : Nat := bits r 77 6
def paA (r : Nat) : Int := signed 24 (bits r 53 24)
def paB (r : Nat) : Int := signed 16 (bits r 37 16)
def paC (r : Nat) : Nat := bits r 13 24

/-! ## Stream declarations and block-list entries (Tables 10.1, 10.2) -/

def stDispose (r : Nat) : Nat := bits r 250 2
def stDest (r : Nat) : Nat := bits r 248 2
def stMxFmt (r : Nat) : Nat := bits r 244 4
def stAxis (r : Nat) : Bool := bitAt r 243
def stMxDir (r : Nat) : Bool := bitAt r 242
def stLast (r : Nat) : Nat := bits r 234 8
def stTensor (r : Nat) : Nat := bits r 210 24
def stBlFirst (r : Nat) : Nat := bits r 186 24
def stBlCount (r : Nat) : Nat := bits r 174 12
def stClose (r : Nat) : Nat := bits r 154 20
def stResMin (r : Nat) : Nat := bits r 136 18
def stResMax (r : Nat) : Nat := bits r 118 18
def stDue0 (r : Nat) : Nat := bits r 86 32
def stDueStep (r : Nat) : Nat := bits r 66 20
def stDestDie (r : Nat) : Nat := bits r 64 2
def stStnDiv (r : Nat) : Nat := bits r 44 20
def stStnMod (r : Nat) : Nat := bits r 24 20

def blFirst (r : Nat) : Nat := bits r 24 40
def blCount (r : Nat) : Nat := bits r 12 12
def blStep (r : Nat) : Nat := bits r 0 12

/-- The tiles of a block list, entry by entry (Table 10.2). -/
def blockTiles : List Nat → List Nat
  | [] => []
  | r :: rs => (List.range (blCount r)).map (fun i => blFirst r + i * blStep r) ++ blockTiles rs

/-! ## Convolution descriptors (Table 7.2) and the element a generator addresses (R153) -/

def cvInH (r : Nat) : Nat := bits r 176 13
def cvInW (r : Nat) : Nat := bits r 163 13
def cvOutW (r : Nat) : Nat := bits r 150 13
def cvP0 (r : Nat) : Nat := bits r 126 24
def cvCp (r : Nat) : Nat := bits r 116 10
def cvCOff (r : Nat) : Nat := bits r 104 12
def cvCCnt (r : Nat) : Nat := bits r 95 9
def cvTaps (r : Nat) : Nat := bits r 86 9
def cvTap0 (r : Nat) : Nat := bits r 78 8
def cvKw (r : Nat) : Nat := bits r 68 5
def cvSh (r : Nat) : Nat := bits r 65 3 + 1
def cvSw (r : Nat) : Nat := bits r 62 3 + 1
def cvDh (r : Nat) : Nat := bits r 59 3 + 1
def cvDw (r : Nat) : Nat := bits r 56 3 + 1
def cvPt (r : Nat) : Nat := bits r 52 4
def cvPl (r : Nat) : Nat := bits r 48 4
def cvPlane (r : Nat) : Nat := bits r 0 48

/-- Bytes of a descriptor's plane (R151). -/
def cvBytes (d : Nat) : Nat := cvInH d * cvInW d * (8 * cvCp d)

/-- The byte of element `r` of token `t` in the plane, for elements of `eb` bytes; none where the element is void (R153). -/
def convByte (d eb t r : Nat) : Option Nat :=
  if cvTaps d * cvCCnt d ≤ r then none
  else
    let p := cvP0 d + t
    let tap := cvTap0 d + r / cvCCnt d
    let iy : Int := (p / cvOutW d * cvSh d + tap / cvKw d * cvDh d : Nat) - (cvPt d : Int)
    let ix : Int := (p % cvOutW d * cvSw d + tap % cvKw d * cvDw d : Nat) - (cvPl d : Int)
    if iy < 0 ∨ (cvInH d : Int) ≤ iy ∨ ix < 0 ∨ (cvInW d : Int) ≤ ix then none
    else some ((iy.toNat * cvInW d + ix.toNat) * (8 * cvCp d) + (cvCOff d + r % cvCCnt d) * eb)

/-! ## Records of a course by index -/

def Course.seg (k : Course) (i : Nat) : Nat := k.segs.getD i 0
def Course.use (k : Course) (i : Nat) : Nat := k.uses.getD i 0
def Course.tensor (k : Course) (i : Nat) : Nat := k.tensors.getD i 0
def Course.stream (k : Course) (i : Nat) : Nat := k.streams.getD i 0

/-- The module gate of a local gate (R173). -/
def Course.gateNo (k : Course) (g : Nat) : Option Nat := if g = noGate then none else k.gateMap[g]?

/-- The tiles a stream declaration names: all its block list, or from the second entry on when DEST = 3 (R206, R212). -/
def Course.items (k : Course) (decl : Nat) : List Nat :=
  let r := k.stream decl
  let l := (k.blocks.drop (stBlFirst r)).take (stBlCount r)
  blockTiles (if stDest r = 3 then l.drop 1 else l)

/-! ## Formats (Table 4.1) -/

/-- The format of a code; codes 0x0 and 0x9 to 0xF are reserved (R70). -/
def fmtOf : Nat → Option Fmt
  | 1 => some .e4m3
  | 2 => some .e5m2
  | 3 => some .e3m2
  | 4 => some .e2m1
  | 5 => some .int8
  | 6 => some .bf16
  | 7 => some .fp32
  | 8 => some .w40
  | _ => none

/-- The code of a format. -/
def fmtCode : Fmt → Nat
  | .e4m3 => 1
  | .e5m2 => 2
  | .e3m2 => 3
  | .e2m1 => 4
  | .int8 => 5
  | .bf16 => 6
  | .fp32 => 7
  | .w40 => 8

/-- Bits of an element. -/
def elemBits : Fmt → Nat
  | .e4m3 => 8
  | .e5m2 => 8
  | .e3m2 => 6
  | .e2m1 => 4
  | .int8 => 8
  | .bf16 => 16
  | .fp32 => 32
  | .w40 => 40

/-- Whether a format has a scale area. -/
def hasScale : Fmt → Bool
  | .bf16 => false
  | .fp32 => false
  | .w40 => false
  | _ => true

/-- Bytes of an 8 × 8 patch. -/
def patchBytes (f : Fmt) : Nat := 8 * elemBits f

/-- Bytes of a tile: 1,024 patches and the scale area (Table 4.1). -/
def tileBytes (f : Fmt) : Nat := 1024 * patchBytes f + (if hasScale f then 1024 else 0)

/-- Bytes of a tile of a format code; 0 for a reserved code. -/
def tileBytesOf (code : Nat) : Nat :=
  match fmtOf code with
  | some f => tileBytes f
  | none => 0

/-- The virtual address of a tile's backing place (R164). -/
def tileVa (tensorRec idx : Nat) : Nat := tnVa tensorRec + idx * tileBytesOf (tnFmt tensorRec)

/-- The number of a tile in the table of headers. -/
def tileKey (t : TileId) : Nat := (t.bib.toNat * 2 ^ 24 + t.tensor.toNat) * 2 ^ 40 + t.tile.toNat

/-- The name of tile `idx` of tensor `n` of a course's bib. -/
def tileOf (b : BitVec 12) (n idx : Nat) : TileId := { bib := b, tensor := BitVec.ofNat 24 n, tile := BitVec.ofNat 40 idx }

end Sys2Proof.Machine
end

