-- ==== Sys2Proof/Machine/Operands.lean ====
section
/-! DEFINITION. Elements: decoding and encoding of the formats, exact dyadic arithmetic, the single rounding of a drain, W40
adds, the randomness function, and tile images (R71 to R76, R83 to R88). -/

namespace Sys2Proof

open Sys2Proof.Machine

/-! ## Exact values -/

/-- Zero. -/
def Dy.zero : Dy := { m := 0, e := 0 }

/-- Both numbers over the lesser exponent. -/
def Dy.align (a b : Dy) : Int × Int × Int :=
  let e := min a.e b.e
  (a.m * 2 ^ (a.e - e).toNat, b.m * 2 ^ (b.e - e).toNat, e)

def Dy.add (a b : Dy) : Dy := let (x, y, e) := a.align b; { m := x + y, e := e }

def Dy.mul (a b : Dy) : Dy := { m := a.m * b.m, e := a.e + b.e }

def Dy.neg (a : Dy) : Dy := { a with m := -a.m }

def Dy.sub (a b : Dy) : Dy := a.add b.neg

/-- Whether a < b. -/
def Dy.lt (a b : Dy) : Bool := let (x, y, _) := a.align b; decide (x < y)

/-- a × 2^k. -/
def Dy.shift (a : Dy) (k : Int) : Dy := { a with e := a.e + k }

/-- floor(log2 |a|) of a nonzero number. -/
def Dy.log2 (a : Dy) : Int := (a.m.natAbs.log2 : Int) + a.e

/-! ## Floating-point formats (Table 4.2) -/

def e4m3 : FloatFmt := { ebits := 4, fbits := 3, bias := 7 }
def e5m2 : FloatFmt := { ebits := 5, fbits := 2, bias := 15 }
def e3m2 : FloatFmt := { ebits := 3, fbits := 2, bias := 3 }
def e2m1 : FloatFmt := { ebits := 2, fbits := 1, bias := 1 }
def e2m3 : FloatFmt := { ebits := 2, fbits := 3, bias := 1 }
def bf16 : FloatFmt := { ebits := 8, fbits := 7, bias := 127 }
def fp32 : FloatFmt := { ebits := 8, fbits := 23, bias := 127 }
def w40 : FloatFmt := { ebits := 8, fbits := 31, bias := 127 }
def master : FloatFmt := { ebits := 8, fbits := 39, bias := 127 }

/-- The sign bit's place. -/
def FloatFmt.signBit (f : FloatFmt) : Nat := f.ebits + f.fbits

/-- The least weight of the format: that of its subnormals. -/
def FloatFmt.gmin (f : FloatFmt) : Int := 1 - (f.bias : Int) - f.fbits

/-- The finite value of a magnitude code (R71). -/
def FloatFmt.mag (f : FloatFmt) (c : Nat) : Dy :=
  let e := c / 2 ^ f.fbits
  if e = 0 then { m := c % 2 ^ f.fbits, e := f.gmin } else { m := 2 ^ f.fbits + c % 2 ^ f.fbits, e := f.gmin + (e - 1 : Nat) }

/-- A finite value from a sign and a magnitude code. -/
def FloatFmt.fin (f : FloatFmt) (neg : Bool) (c : Nat) : Val :=
  let d := f.mag c
  .fin (if neg then d.neg else d)

/-- A code of a format whose top exponent holds infinities and NaNs (E5M2, BF16, FP32, W40, master). -/
def FloatFmt.ieee (f : FloatFmt) (code : Nat) : Val :=
  let neg := bitAt code f.signBit
  let c := code % 2 ^ f.signBit
  if c / 2 ^ f.fbits = 2 ^ f.ebits - 1 then (if c % 2 ^ f.fbits = 0 then .inf neg else .nan) else f.fin neg c

/-- The value of an element's code (R71, R72). -/
def decodeElem (f : Fmt) (code : Nat) : Val :=
  match f with
  | .e4m3 => if code % 128 = 127 then .nan else e4m3.fin (bitAt code 7) (code % 128)
  | .e5m2 => e5m2.ieee (code % 256)
  | .e3m2 => e3m2.fin (bitAt code 5) (code % 32)
  | .e2m1 => e2m1.fin (bitAt code 3) (code % 8)
  | .int8 => .fin { m := signed 8 code, e := 0 }
  | .bf16 => bf16.ieee (code % 2 ^ 16)
  | .fp32 => fp32.ieee (code % 2 ^ 32)
  | .w40 => w40.ieee (code % 2 ^ 40)

/-! ## Rounding -/

/-- |m| × 2^(e − g) to an integer, by a rounding (R83, R87). SR adds the value r below 2^32 to the first 32 discarded bits. -/
def roundAt (rnd : Rnd) (m : Nat) (e g : Int) : Nat :=
  if g ≤ e then m * 2 ^ (e - g).toNat
  else
    let d := 2 ^ (g - e).toNat
    let q := m / d
    let r := m % d
    match rnd with
    | .rne => if d < 2 * r ∨ (2 * r = d ∧ q % 2 = 1) then q + 1 else q
    | .sr x => if 2 ^ 32 ≤ 2 ^ 32 * r / d + x.toNat then q + 1 else q

/-- The magnitude code of m × 2^e rounded to a format's grid; codes above the largest finite one are overflows. -/
def FloatFmt.round (f : FloatFmt) (rnd : Rnd) (m : Nat) (e : Int) : Nat :=
  if m = 0 then 0
  else
    let g := max ((m.log2 : Int) + e - f.fbits) f.gmin
    (g - f.gmin).toNat * 2 ^ f.fbits + roundAt rnd m e g

/-- The largest finite magnitude code of a format with infinities. -/
def FloatFmt.top (f : FloatFmt) : Nat := (2 ^ f.ebits - 1) * 2 ^ f.fbits - 1

/-- The code of an infinity. -/
def FloatFmt.infCode (f : FloatFmt) (neg : Bool) : Nat := (2 ^ f.ebits - 1) * 2 ^ f.fbits + neg.toNat * 2 ^ f.signBit

/-- The canonical NaN of a format with infinities (Table 4.2). -/
def FloatFmt.nanCode (f : FloatFmt) : Nat := (2 ^ f.ebits - 1) * 2 ^ f.fbits + 2 ^ (f.fbits - 1)

/-- A value in a format with infinities, and whether the result is not finite. A zero result is +0, a nonzero value that
rounds to zero keeps its sign (R73). -/
def FloatFmt.encode (f : FloatFmt) (rnd : Rnd) (v : Val) : Nat × Bool :=
  match v with
  | .nan => (f.nanCode, true)
  | .inf neg => (f.infCode neg, true)
  | .fin d =>
    if d.m = 0 then (0, false)
    else
      let neg := decide (d.m < 0)
      let c := f.round rnd d.m.natAbs d.e
      if f.top < c then (f.infCode neg, true) else (c + neg.toNat * 2 ^ f.signBit, false)

/-- A drain result in its output format with scale P (R83), and whether Table 4.6 marks it (R84). -/
def drainEncode (f : Fmt) (p : Nat) (v : Val) : Nat × Bool :=
  let scaled : Val := match v with
    | .fin d => if hasScale f then .fin (d.shift (127 - (p : Int))) else .fin d
    | x => x
  let sat (f : FloatFmt) (top nan : Nat) (infSat : Bool) : Nat × Bool :=
    match scaled with
    | .nan => (nan, true)
    | .inf neg => if infSat then (top + neg.toNat * 2 ^ f.signBit, true) else (nan, true)
    | .fin d =>
      if d.m = 0 then (0, false)
      else
        let s := (decide (d.m < 0)).toNat * 2 ^ f.signBit
        let c := f.round .rne d.m.natAbs d.e
        if top < c then (top + s, true) else (c + s, false)
  match f with
  | .e4m3 => sat e4m3 0x7E 0x7F false
  | .e3m2 => sat e3m2 0x1F 0x1F true
  | .e2m1 => sat e2m1 0x7 0x7 true
  | .e5m2 => e5m2.encode .rne scaled
  | .int8 => match scaled with
    | .nan => (127, true)
    | .inf neg => (if neg then 128 else 127, true)
    | .fin d =>
      let n := roundAt .rne d.m.natAbs d.e 0
      if d.m < 0 then (if 128 < n then (128, true) else ((256 - n) % 256, false))
      else if 127 < n then (127, true) else (n, false)
  | .bf16 => bf16.encode .rne scaled
  | .fp32 => fp32.encode .rne scaled
  | .w40 => w40.encode .rne scaled

/-! ## Adds of values (R82, R86) -/

/-- The exact sum of two values. -/
def Val.add (a b : Val) : Val :=
  match a, b with
  | .nan, _ => .nan
  | _, .nan => .nan
  | .inf x, .inf y => if x = y then .inf x else .nan
  | .inf x, _ => .inf x
  | _, .inf y => .inf y
  | .fin x, .fin y => .fin (x.add y)

/-- The exact product of two values. -/
def Val.mul (a b : Val) : Val :=
  match a, b with
  | .nan, _ => .nan
  | _, .nan => .nan
  | .inf x, .inf y => .inf (x != y)
  | .inf x, .fin d => if d.m = 0 then .nan else .inf (x != decide (d.m < 0))
  | .fin d, .inf y => if d.m = 0 then .nan else .inf (y != decide (d.m < 0))
  | .fin x, .fin y => .fin (x.mul y)

/-- Whether a value is not finite. -/
def Val.bad : Val → Bool
  | .fin _ => false
  | _ => true

/-- A finite value; zero for another. -/
def Val.dy : Val → Dy
  | .fin d => d
  | _ => Dy.zero

/-- The value of a W40 element. -/
def w40Val (x : BitVec 40) : Val := w40.ieee x.toNat

/-- A long-sum add: formed exactly and rounded once; and whether the result is not finite (R86, R87). -/
def addW40 (rnd : Rnd) (a b : BitVec 40) : BitVec 40 × Bool :=
  let (c, bad) := w40.encode rnd ((w40Val a).add (w40Val b))
  (BitVec.ofNat 40 c, bad)

/-- W40 to FP32 (R72). -/
def narrow (x : BitVec 40) : BitVec 32 := BitVec.ofNat 32 (fp32.encode .rne (w40Val x)).1

/-- A value in W40, rounded to nearest. -/
def toW40 (v : Val) : BitVec 40 := BitVec.ofNat 40 (w40.encode .rne v).1

/-- FP32 to W40, exactly (R72). -/
def widen (x : BitVec 32) : BitVec 40 := x.setWidth 40 <<< 8

/-! ## Randomness (R88) -/

/-- mix of R88. -/
def mix (x : BitVec 64) : BitVec 64 :=
  let a := (x ^^^ (x >>> 30)) * 0xBF58476D1CE4E5B9
  let b := (a ^^^ (a >>> 27)) * 0x94D049BB133111EB
  b ^^^ (b >>> 31)

/-- rand32 of R88. -/
def rand32 (seed : BitVec 64) (tensor : BitVec 32) (element : BitVec 40) (term : BitVec 32) : BitVec 32 :=
  let x := seed ^^^ (tensor.setWidth 64 * 0x9E3779B97F4A7C15) ^^^ (element.setWidth 64 * 0xC2B2AE3D27D4EB4F)
    ^^^ (term.setWidth 64 * 0x165667B19E3779F9)
  (mix (mix x) >>> 32).setWidth 32

/-! ## Order of W40 values (R157) -/

/-- The place of a W40 value in ascending order: −∞ first, +∞ last; zeros are equal. -/
def w40Rank (x : BitVec 40) : Int :=
  let m : Int := (x.toNat % 2 ^ 39 : Nat)
  if bitAt x.toNat 39 then -m else m

/-- Whether a W40 value is NaN. -/
def isNan (x : BitVec 40) : Bool := decide (w40.infCode false < x.toNat % 2 ^ 39)

/-- 2^32 / (2^32 − d) rounded once to FP32, in W40 (R126). -/
def keepFactor (d : BitVec 32) : BitVec 40 :=
  let n : Nat := 2 ^ 32 - d.toNat
  let m : Nat := 2 * (2 ^ 96 / n) + (if 2 ^ 96 % n = 0 then 0 else 1)
  widen (BitVec.ofNat 32 (fp32.encode .rne (.fin { m := m, e := -65 })).1)

/-- A W40 value as a result: the canonical NaN for a NaN, +0 for a zero (R73). -/
def canon40 (x : BitVec 40) : BitVec 40 := toW40 (w40Val x)

/-- Maximum and minimum (Table 6.3): of a NaN the canonical NaN. -/
def max40 (x y : BitVec 40) : BitVec 40 := canon40 (if isNan x then x else if isNan y ∨ w40Rank x < w40Rank y then y else x)
def min40 (x y : BitVec 40) : BitVec 40 := canon40 (if isNan x then x else if isNan y ∨ w40Rank y < w40Rank x then y else x)

/-- A function of Table 6.3 that is known within its accuracy: of a canonical operand, to FP32, a NaN result canonical. -/
def unary40 (op : PostUnary) (x : BitVec 40) : BitVec 40 :=
  let y := widen (Config.post op (canon40 x))
  if isNan y then canon40 y else y

/-- The lane-group sum (Table 6.3): neighbours are added pairwise, RNE at every add. -/
def pairSums : List (BitVec 40) → List (BitVec 40)
  | a :: b :: l => (addW40 .rne a b).1 :: pairSums l
  | l => l

/-- The sum of up to 256 values by the fixed pairwise tree. -/
def treeSum (l : List (BitVec 40)) : BitVec 40 :=
  ((List.range 8).foldl (fun l _ => pairSums l) ((l ++ List.replicate 256 0).take 256)).headD 0

/-- Whether a W40 value is infinite or NaN. -/
def isNonfinite (x : BitVec 40) : Bool := decide (w40.infCode false ≤ x.toNat % 2 ^ 39)

end Sys2Proof

namespace Sys2Proof.Machine

/-! ## Tile images (R75) -/

/-- The byte of the scale of the patch that holds element (r, c). -/
def scaleByteOf (r c : Nat) : Nat := 32 * (r / 8) + c / 8

/-- The first bit of element (r, c) in a tile image. -/
def elemBit (f : Fmt) (r c : Nat) : Nat :=
  8 * (if hasScale f then 1024 else 0) + (32 * (r / 8) + c / 8) * (8 * patchBytes f) + (8 * (r % 8) + c % 8) * elemBits f

/-- The code of element (r, c) of the tile image at byte number `k`. -/
def State.elemAt (s : State) (k : Nat) (f : Fmt) (r c : Nat) : Nat :=
  let b := elemBit f r c
  bits (leNat (s.bytesAt (k + b / 8) 6)) (b % 8) (elemBits f)

/-- Element (r, c) of the tile image at byte number `k` is written. -/
def State.setElem (s : State) (k : Nat) (f : Fmt) (r c code : Nat) : State :=
  let b := elemBit f r c
  let n := (b % 8 + elemBits f + 7) / 8
  s.setBytes (k + b / 8) (leBytes n (setBits (leNat (s.bytesAt (k + b / 8) n)) (b % 8) (elemBits f) code))

end Sys2Proof.Machine
end

