-- ==== Sys2Proof/Machine/Flags.lean ====
section
/-! DEFINITION. Scale control and the sweep: what converters observe, which groups are flagged, how records update at a step's
end, and the sweep's windows (R98 to R104, R110 to R113). -/

namespace Sys2Proof.Machine

/-! ## Scale records (R98, R99) -/

/-- The number of a group's record in its bib's scale table (R98). -/
def groupKey (b : BitVec 12) (group : Nat) : Nat := b.toNat * 16384 + group

/-- The number of a group of the bib whose course a slot holds; bib 0's for an empty slot. -/
def State.scaleNo (s : State) (slot group : Nat) : Nat := groupKey ((s.course slot).elim 0 (·.bib)) group

/-- The scale record of a group of a slot's bib. -/
def State.scaleRec (s : State) (slot group : Nat) : Option ScaleRec := s.crs.scales.lookup (s.scaleNo slot group)

/-- The scale record of a group of a slot's bib is written. -/
def State.setScale (s : State) (slot group : Nat) (r : ScaleRec) : State :=
  { s with crs.scales := s.crs.scales.insert (s.scaleNo slot group) r }

/-- emax of a format code (Table 5.2). -/
def emaxOf (fmt : Nat) : Nat :=
  match fmt with
  | 1 => 8
  | 2 => 15
  | 3 => 4
  | 4 => 2
  | _ => 6

/-! ## Observation (R100, R103) -/

/-- OBS after a converter is about to round `v`: floor(log2 |v|) + 127 of a finite nonzero value, clamped to 0x01 to 0xFE, if
that is larger (R100). -/
def ScaleRec.observe (r : ScaleRec) (v : Val) : ScaleRec :=
  match v with
  | .fin d =>
    if d.m = 0 then r
    else
      let x := (min (max (d.log2 + 127) 1) 254).toNat
      if r.obs.toNat < x then { r with obs := BitVec.ofNat 8 x } else r
  | _ => r

/-- NANSEEN and OVER after a result: a sum of class NaN or a NaN written sets NANSEEN, a marked result sets OVER (Table 5.1). -/
def ScaleRec.mark (r : ScaleRec) (v : Val) (marked : Bool) : ScaleRec :=
  let nan := match v with
    | .nan => true
    | .inf _ => decide (r.fmt = 1)
    | .fin _ => false
  { r with nanSeen := r.nanSeen || nan, ovr := r.ovr || marked }

/-- A converter of a group rounds `v` with a result that Table 4.6 marks or not. -/
def State.observe (s : State) (slot group : Nat) (v : Val) (marked : Bool) : State :=
  match s.scaleRec slot group with
  | some r => s.setScale slot group ((r.observe v).mark v marked)
  | none => s

/-! ## The update rule (R102, R104) -/

/-- Whether a group is flagged for the step (R102, R103). -/
def ScaleRec.flagged (r : ScaleRec) (diverged : Bool) : Bool :=
  (r.policy = 0 && r.ovr) || r.nanSeen || (r.sweep = 2 && diverged)

/-- The maximum of the nonempty entries of HIST. -/
def histMax (h : List (BitVec 8)) : Option Nat :=
  match h.filter (fun x => x ≠ 0) with
  | [] => none
  | l => some (l.foldl (fun m x => max m x.toNat) 0)

/-- Biased scale clamped to 0x00 to 0xFE, and whether it was clamped. -/
def clampScale (x : Int) : BitVec 8 × Bool :=
  if x < 0 then (0, true) else if 254 < x then (254, true) else (BitVec.ofInt 8 x, false)

/-- The clean-step branch of R102. -/
def ScaleRec.clean_ (r : ScaleRec) : ScaleRec :=
  let old := histMax r.hist
  let hist := if r.obs ≠ 0 then r.obs :: r.hist.take 7 else r.hist
  let h := match old, histMax hist with
    | some a, some b => if a < b then max r.hBase.toNat (r.h.toNat - (b - a)) else r.h.toNat
    | _, _ => r.h.toNat
  let clean := if h ≠ r.h.toNat then 0 else min (r.clean.toNat + 1) 0xFFFF
  if 128 ≤ clean ∧ r.hBase.toNat < h then { r with hist := hist, h := BitVec.ofNat 4 (h - 1), clean := 0 }
  else { r with hist := hist, h := BitVec.ofNat 4 h, clean := BitVec.ofNat 16 clean }

/-- The flagged branch of R102, and whether its scale was clamped. -/
def ScaleRec.raised (r : ScaleRec) : ScaleRec × Bool :=
  let rise := match histMax r.hist with
    | some m => if r.obs ≠ 0 then max 1 (r.obs.toNat - m) else 1
    | none => 1
  let r' := { r with h := BitVec.ofNat 4 (min 15 (r.h.toNat + rise)), clean := 0 }
  match histMax r.hist with
  | some _ => (r', false)
  | none => ({ r' with scale := BitVec.ofNat 8 (min (r.scale.toNat + rise) 254) }, decide (254 < r.scale.toNat + rise))

/-- R102 for one record: the step clean or skipped, the group flagged or not; and whether SCALE was clamped (R104). -/
def ScaleRec.update (r : ScaleRec) (clean flagged : Bool) : ScaleRec × Bool :=
  let (r1, c1) := if clean then (r.clean_, false) else if flagged then r.raised else (r, false)
  let (sc, c2) := match histMax r1.hist with
    | some m => clampScale ((m : Int) - emaxOf r1.fmt.toNat + r1.h.toNat)
    | none => (r1.scale, false)
  ({ r1 with scale := sc, obs := 0, nanSeen := false, ovr := false }, c1 || c2)

/-- A write of the rw fields takes effect: H is raised to a higher H_BASE, which restarts CLEAN (R99). -/
def ScaleRec.take (r : ScaleRec) (w : ScaleWrite) : ScaleRec :=
  let r1 := { r with hBase := w.hBase, srate := w.srate, sweep := w.sweep, policy := w.policy, fmt := w.fmt }
  if r.h.toNat < w.hBase.toNat then { r1 with h := w.hBase, clean := 0 } else r1

/-- Groups of the scale table of a slot's bib. -/
def State.groupsIn (s : State) (slot : Nat) : List Nat :=
  (s.crs.scales.filter (fun e => decide (e.1 / 16384 = ((s.course slot).elim 0 (·.bib)).toNat))).map (fun e => e.1 % 16384)

/-- Whether a group's window became divergent in the step. -/
def State.divergedIn (s : State) (slot group : Nat) : Bool := s.crs.diverged.contains (s.scaleNo slot group)

/-- Groups of a slot's bib that are flagged for the step. -/
def State.flaggedIn (s : State) (slot : Nat) : List Nat :=
  (s.groupsIn slot).filter (fun g => (s.scaleRec slot g).any (fun r => r.flagged (s.divergedIn slot g)))

/-- The step's end for every scale record of a slot's bib: flagging under the values in force, then ordered writes, then R102; the
step's marks start afresh (R99, R102). `clean` says whether the step is clean for a group; clamps count. -/
def State.endScales (s : State) (slot : Nat) (clean : Nat → Bool) : State :=
  let t := s.each (s.groupsIn slot) (fun t g =>
    match t.scaleRec slot g with
    | some r =>
      let f := r.flagged (s.divergedIn slot g)
      let r1 := (s.crs.writes.filter (fun w => decide (s.scaleNo w.slot.toNat w.group = s.scaleNo slot g))).foldl ScaleRec.take r
      let (r2, clamped) := r1.update (clean g) f
      let u := t.setScale slot g r2
      if clamped then u.count 0x0B00 ((s.course slot).elim 0 (fun k => k.bib.toNat)) 1 else u
    | none => t)
  let b := s.scaleNo slot 0 / 16384
  { t with crs.writes := t.crs.writes.filter (fun w => s.scaleNo w.slot.toNat 0 / 16384 ≠ b)
           crs.diverged := t.crs.diverged.filter (fun k => k / 16384 ≠ b) }

/-- SCALE_RECORD_WRITE: Zilunzor writes the rw fields of a record. CLAMP with E5M2 is refused with ST_FORMAT, which Zilunzor gets back;
reserved codes change nothing. While a course of the bib runs, the write takes effect at the next step's end (R99, R101). DESIGN CHOICE:
while none runs it takes effect at once, which the spec does not say (log entry 41). -/
def execScaleRecordWrite (slot : BitVec 8) (group : BitVec 14) (hBase srate : BitVec 4) (sweep policy : BitVec 2) (fmt : BitVec 4)
    (s : State) : Out :=
  s.event fun s =>
    if (s.scaleRec slot.toNat group.toNat).isNone || 12 < srate.toNat || sweep = 3 || 1 < policy.toNat || fmt = 0 || 5 < fmt.toNat then s
    else if policy = 1 ∧ fmt = 2 then { s with cmd.writeStatus := .format }
    else
      let s := { s with cmd.writeStatus := .ok }
      let w : ScaleWrite := { slot := slot, group := group.toNat, hBase := hBase, srate := srate, sweep := sweep, policy := policy, fmt := fmt }
      if s.crs.domains.any (fun _ d => d.running && d.bib = (s.course slot.toNat).elim 0 (·.bib)) then { s with crs.writes := s.crs.writes ++ [w] }
      else match s.scaleRec slot.toNat group.toNat with
        | some r => s.setScale slot.toNat group.toNat (r.take w)
        | none => s

/-! ## The sweep (R110 to R113) -/

/-- The tolerance of a format code is 2^−t (Table 5.4). -/
def sweepTol (fmt : Nat) : Nat :=
  match fmt with
  | 1 => 3
  | 2 => 2
  | 3 => 2
  | 4 => 1
  | _ => 5

/-- Whether an error exceeds the tolerance: ‖d − v‖² > 2^(−2t) × ‖v‖² (R110, R112). -/
def exceeds (fmt : Nat) (ee vv : Dy) : Bool := (vv.shift (-2 * (sweepTol fmt : Int))).lt ee

/-- The seed of an index of a bib's seed set (R304). -/
def State.seed (s : State) (b : BitVec 12) (i : Nat) : BitVec 64 := (s.bibs.seeds.read [] b.toNat).getD i 0

/-- Whether the sample of ordinal `n` of a group is taken (R111). -/
def State.sampled (s : State) (b : BitVec 12) (group : Nat) (r : ScaleRec) (n : Nat) (term : BitVec 32) : Bool :=
  r.sweep ≠ 0 && r.srate ≠ 0 && decide ((rand32 (s.seed b 15) (BitVec.ofNat 32 group) (BitVec.ofNat 40 n) term).toNat % 2 ^ r.srate.toNat = 0)

/-- A sample enters its window: the 17th exceeding one makes it divergent, 1,024 samples end it (R112, R113). -/
def State.sample (s : State) (x : SweepSample) : State :=
  let c := x.slot.toNat
  let key := s.scaleNo c x.group * 2 + x.product.toNat
  let w := s.crs.sweeps.read {} key
  let s1 := s.count 0x0814 c 1
  let s2 := if x.exceeded then s1.count (if x.high then 0x0815 else 0x0816) c 1 else s1
  let w' : SweepWin := { n := w.n + 1, high := w.high + (x.exceeded && x.high).toNat, low := w.low + (x.exceeded && !x.high).toNat }
  if 17 ≤ w'.high + w'.low then
    let t : State := { s2 with crs.sweeps := s2.crs.sweeps.write {} key {} }
    let e : Event := { bib := (s.course c).elim 0 (·.bib), slot := x.slot
                       arg := .sweepDiverge (BitVec.ofNat 15 x.group) x.product (BitVec.ofNat 11 w'.high) (BitVec.ofNat 11 w'.low) }
    let t1 := t.raise e
    { t1 with crs.diverged := s.scaleNo c x.group :: t1.crs.diverged }
  else if 1024 ≤ w'.n then { s2 with crs.sweeps := s2.crs.sweeps.write {} key {} }
  else { s2 with crs.sweeps := s2.crs.sweeps.write {} key w' }

/-- What a check of one patch or use has found, of which `a` tells: a sample waits for its window when R111 takes its ordinal, no v was
infinite or NaN and ‖v‖ is not 0 (R110). DESIGN CHOICE: ordinals count from 0 (log entry 39); TERM is the committed STEP, 0 for a course
without parameter update (log entry 40). -/
def State.check (s : State) (slot group : Nat) (product : Bool) (step ordinal : Nat) (term : BitVec 32) (a : PatchAcc) : State :=
  match s.scaleRec slot group with
  | some r =>
    if s.sampled ((s.course slot).elim 0 (·.bib)) group r ordinal term && !a.badV && a.vv.m ≠ 0 then
      { s with crs.samples := s.crs.samples ++
          [{ slot := BitVec.ofNat 8 slot, group := group, product := product, step := step, ordinal := ordinal
             exceeded := a.infD || exceeds r.fmt.toNat a.ee a.vv, high := a.infD || a.ovf }] }
    else s
  | none => s

/-- A sample in its place among others: steps in order, within a step by ordinal (R112). -/
def insertSample (x : SweepSample) : List SweepSample → List SweepSample
  | [] => [x]
  | y :: l => if x.step < y.step ∨ (x.step = y.step ∧ x.ordinal < y.ordinal) then x :: y :: l else y :: insertSample x l

/-- The samples of a slot's steps up to `step` enter their windows in order (R112, R113). -/
def State.collect (s : State) (slot step : Nat) : State :=
  let mine := s.crs.samples.filter (fun x => decide (x.slot.toNat = slot ∧ x.step ≤ step))
  let t : State := { s with crs.samples := s.crs.samples.filter (fun x => !decide (x.slot.toNat = slot ∧ x.step ≤ step)) }
  t.each (mine.foldl (fun l x => insertSample x l) []) State.sample

end Sys2Proof.Machine
end

