-- ==== Sys2Proof/Machine/Mem.lean ====
section
/-! DEFINITION. System addresses, translation, tile headers, course violations and the accounts of slots, moves and items
(R188 to R197, R203, R204, Table 8.18). -/

namespace Sys2Proof.Machine

/-! ## System addresses (R188, Table 9.1) -/

/-- The Rink die of a T0 offset. -/
def t0Die (off : Nat) : Nat := off / 2 ^ 28

/-- The byte of a T0 offset within its die. -/
def t0Byte (off : Nat) : Nat := off % 2 ^ 28

/-- The physical station of a T0 offset in a station's range. -/
def t0Station (off : Nat) : Nat := 26 * t0Die off + t0Byte off / 0x500000

/-- The quarter whose bank a T0 station offset lies in. -/
def t0Quarter (off : Nat) : Nat := t0Byte off % 0x500000 / 0x140000

/-- Whether a T0 offset lies in a station's SRAM. -/
def t0InStation (off : Nat) : Bool := decide (off < 2 ^ 30 ∧ t0Byte off < 0x8200000)

/-- Whether a T0 offset lies in locker SRAM. -/
def t0InLocker (off : Nat) : Bool := decide (off < 2 ^ 30 ∧ 0x8200000 ≤ t0Byte off ∧ t0Byte off < 0xA200000)

/-- Whether an offset is backed in its tier: no nonzero bit above the layout, no unbacked range, no inactive or withdrawn
station position (R188). Tier codes 5 to 7 are reserved (R18); Rink buffers are reached by test access only. -/
def State.addrOk (s : State) (h : HomeAddr) : Bool :=
  let o := h.off.toNat
  match h.tier.toNat with
  | 0 => (t0InStation o && s.active (t0Station o) && !(s.stn (t0Station o)).wdDone) || t0InLocker o
  | 1 => decide (o < 2 ^ 35)
  | 2 => decide (o < 2 ^ 39)
  | 3 => decide (o < 2 ^ 45)
  | 4 => true
  | _ => false

/-- Logical units of the lodge (R228). -/
def lodgeUnits : Nat := 366210937

/-- Whether an offset is backed for a bib: a lodge byte within the lodge's units, a host byte within the bib's bounce window, an
offset of another tier as `addrOk` says (R188, R228, Tables 9.1, 14.1). -/
def State.addrOkFor (s : State) (b : BitVec 12) (h : HomeAddr) : Bool :=
  s.addrOk h && (match h.tier.toNat with
    | 3 => decide (h.off.toNat < lodgeUnits * 65536)
    | 4 => decide (h.off.toNat < (s.bib b).args.hostBlocks.toNat * 4096)
    | _ => true)

/-- The number of a home's first byte. -/
def homeKey (h : HomeAddr) : Nat := byteKey h.tier.toNat h.off.toNat

/-- The stack of a T2 offset. -/
def stackOf (h : HomeAddr) : Nat := h.off.toNat / 2 ^ 36

/-- Whether a home is in a tier whose places the lift hands out: station and locker SRAM, or a near tier. -/
def slotTier (h : HomeAddr) : Bool := h.tier = 0 || h.tier = 1

/-- Whether a home's place is a slot that the hubs and Rink dies count: T0 and T1 by die, T2 by hub (R197). -/
def slotHome (h : HomeAddr) : Bool := decide (h.tier.toNat ≤ 2)

/-- The account of a place: its tier and its Rink die, or for T2 its hub. -/
def slotKey (h : HomeAddr) : Nat :=
  8 * h.tier.toNat + (if h.tier = 0 then h.off.toNat / 2 ^ 28 % 4 else if h.tier = 1 then h.off.toNat / 2 ^ 33 % 4 else h.off.toNat / 2 ^ 38 % 2)

/-! ## Translation (R189, R190) -/

/-- The number of a page in the table of entries. -/
def pageKey (b : BitVec 12) (page : Nat) : Nat := b.toNat * 2 ^ 27 + page

/-- The entry of a page. -/
def State.pte (s : State) (b : BitVec 12) (page : Nat) : Pte := s.mem.ptes.read {} (pageKey b page)

/-- The entry of a page is written, and its cached translation goes (R189). -/
def State.setPte (s : State) (b : BitVec 12) (page : Nat) (e : Pte) : State :=
  { s with mem.ptes := s.mem.ptes.write {} (pageKey b page) e
           mem.cached := s.mem.cached.filter (fun k => k ≠ pageKey b page) }

/-- Outcomes of translation (Table 9.3). -/
inductive Xlat
  | ok (h : HomeAddr)
  | fail (st : Status)
  | halt
  | wait
  deriving DecidableEq, Repr

/-- Table 9.3, in its order: for a write or add, and for a lift stream. -/
def State.xlate (s : State) (b : BitVec 12) (va : Nat) (write strm : Bool) : Xlat :=
  let e := s.pte b (va / 2 ^ 21)
  if 2 ^ 48 ≤ va ∨ e.state = 0 ∨ e.tier.toNat = 0 ∨ 3 < e.tier.toNat then .fail .bounds
  else if e.hdr then .fail .bounds
  else if write && (!e.wr || e.shr) then .fail .notHome
  else if e.state = 2 then (if strm then .halt else .fail .notHome)
  else if e.state = 3 then .wait
  else .ok { tier := e.tier, off := BitVec.ofNat 50 (e.frame.toNat * 2 ^ 21 + va % 2 ^ 21) }

/-- The pages that `n` bytes from `va` up lie in. -/
def pagesOf (va n : Nat) : List Nat :=
  if n = 0 then [] else (List.range ((va + n - 1) / 2 ^ 21 + 1 - va / 2 ^ 21)).map (fun i => va / 2 ^ 21 + i)

/-- The number of the byte at a virtual address, where it translates. -/
def State.vaKey (s : State) (b : BitVec 12) (va : Nat) : Option Nat :=
  match s.xlate b va false false with
  | .ok h => some (homeKey h)
  | _ => none

/-- `n` bytes from a virtual address up. -/
def State.vaRead (s : State) (b : BitVec 12) (va n : Nat) : List Byte :=
  (List.range n).map (fun i => ((s.vaKey b (va + i)).map s.byte).getD 0)

/-! ## Course violations (R62, Table 8.18) -/

/-- C2: every output of a domain's segments not yet committed is marked poisoned in its header. -/
def State.poison (s : State) (c : Nat) : State :=
  { s with mem.hdrs := s.mem.hdrs.each (fun _ h => if h.wact && h.wslot.toNat = c then { h with poison := true } else h) }

/-- A course violation of slot `c` with cause `st`: outputs in progress are poisoned, EV_COURSE_VIOLATION is recorded, and
the bib is suspended with `why` (R62). -/
def State.violateAs (s : State) (c : Nat) (why st : Status) (seg use : Nat) (detail : BitVec 128) : State :=
  match s.course c with
  | some k =>
    let e : Event := { bib := k.bib, slot := BitVec.ofNat 8 c, src := 0, srcInst := 0
                       arg := .courseViolation (BitVec.ofNat 8 (statusCode st)) (BitVec.ofNat 64 (chCourseId k.hdr))
                         (BitVec.ofNat 20 seg) (BitVec.ofNat 24 use) detail }
    (((s.poison c).raise e).suspend k.bib why 0x000F)
  | none => s

/-- A course violation whose bib receives ST_FAULT. -/
def State.violate (s : State) (c : Nat) (st : Status) (seg use : Nat) (detail : BitVec 128) : State :=
  s.violateAs c .fault st seg use detail

/-- A status for every RUN of a bib, with FINAL = 0, that suspends nothing (R348). -/
def State.notifyOf (s : State) (b : BitVec 12) (st : Status) (ev : Nat) (r : Result) : State :=
  s.each (s.runningOf b) (fun t c =>
    match t.domain c with
    | some d => t.replyAs d.runHdr st false ev r
    | none => t)

/-- A status for every RUN of a bib that names nothing else. -/
def State.notify (s : State) (b : BitVec 12) (st : Status) (ev : Nat) : State := s.notifyOf b st ev .none

/-- A bib receives ST_DATA_LOST naming a tensor and tile (R194). -/
def State.notifyLost (s : State) (t : TileId) : State := s.notifyOf t.bib .dataLost 0 (.lost (t.tensor.setWidth 32) t.tile 0)

/-! ## Tile headers (R192 to R194) -/

/-- The header of a tile. -/
def State.tileHdr (s : State) (t : TileId) : Option TileHdr := s.mem.hdrs.lookup (tileKey t)

/-- The header of a tile is written. -/
def State.setTile (s : State) (t : TileId) (h : TileHdr) : State :=
  { s with mem.hdrs := s.mem.hdrs.insert (tileKey t) h }

/-- A tile is lost: its header says so and its owner receives ST_DATA_LOST (R194, Table 9.12). -/
def State.loseTile (s : State) (k : Nat) : State :=
  match s.mem.hdrs.lookup k with
  | some h => ({ s with mem.hdrs := s.mem.hdrs.insert k { h with state := 2 } }).notifyLost h.id
  | none => s

/-- What an access to a tile finds (R194): nothing, a status of Table 8.18, the tile lost, or poison. -/
inductive TileCheck
  | good
  | violation (st : Status)
  | lost
  | poisoned
  deriving DecidableEq, Repr

/-- Whether a header has a reserved code or version (R9, Table 9.5). -/
def TileHdr.reserved (h : TileHdr) : Bool := h.hver ≠ 1 || h.state = 3 || (fmtOf h.fmt.toNat).isNone

/-- The comparison of R194: a reserved tier code claimed (R18), BIB, TENSOR, TILE and HOME as claimed, reserved codes of the header (R9),
then FMT; then STATE and POISON. -/
def checkTile (h : TileHdr) (t : TileId) (fmt : Nat) (home : HomeAddr) : TileCheck :=
  if 4 < home.tier.toNat then .violation .bounds
  else if h.id ≠ t ∨ h.home ≠ home then .violation .notHome
  else if h.reserved then .violation .version
  else if h.fmt.toNat ≠ fmt then .violation .format
  else if h.state = 2 then .lost
  else if h.poison then .poisoned
  else .good

/-- Bytes `lo` to `lo + n − 1` become the bytes at `src` and up. -/
def State.copyBytes (s : State) (src dst n : Nat) : State :=
  let moved := s.mem.bytes.filter (fun e => decide (src ≤ e.1 ∧ e.1 < src + n))
  let t := s.zeroBytes dst n
  t.each moved (fun u e => u.setByte (e.1 - src + dst) e.2)

/-! ## Accounts (R197, R204, Table 15.7) -/

/-- A slot account of a hub or Rink die. -/
def State.slotsOf (s : State) (key : Nat) : SlotCount := s.mem.slots.read {} key

/-- What reserved less released and held leaves for a tier, summed over the module (R197). -/
def State.slotGap (s : State) (tier : Nat) : Int :=
  (s.mem.slots.filter (fun e => decide (e.1 / 8 = tier))).foldl (fun m e => m + e.2.reserved - e.2.released - e.2.held) 0

/-- M1: a slot is reserved where the destination is one. -/
def State.reserveSlot (s : State) (h : HomeAddr) : State :=
  if slotHome h then
    let k := s.slotsOf (slotKey h)
    { s with mem.slots := s.mem.slots.write {} (slotKey h) { k with reserved := k.reserved + 1, held := k.held + 1 } }
  else s

/-- A slot is released. A place that no move reserved, as the first home of a tile, is in no account. -/
def State.releaseSlot (s : State) (h : HomeAddr) : State :=
  let k := s.slotsOf (slotKey h)
  if slotHome h ∧ 0 < k.held then
    { s with mem.slots := s.mem.slots.write {} (slotKey h) { k with released := k.released + 1, held := k.held - 1 } }
  else s

/-- A move of a mover begins (M2). -/
def State.countBegun (s : State) (m : Nat) : State := { s with mem.begun := s.mem.begun.write 0 m (s.mem.begun.read 0 m + 1) }

/-- A move of a mover is committed or discarded. -/
def State.countEnded (s : State) (m : Nat) : State := { s with mem.ended := s.mem.ended.write 0 m (s.mem.ended.read 0 m + 1) }

/-- The number of an item count: bib, epoch, stack (8 stands for the lodge). -/
def itemKey (b : BitVec 12) (epoch : Bool) (stack : Nat) : Nat := (b.toNat * 2 + epoch.toNat) * 16 + stack

/-- Items of a bib counted under an epoch on a stack (R204). -/
def State.items (s : State) (b : BitVec 12) (epoch : Bool) (stack : Nat) : Nat := s.mem.items.read 0 (itemKey b epoch stack)

/-- An item enters a count. -/
def State.itemIn (s : State) (b : BitVec 12) (epoch : Bool) (stack : Nat) : State :=
  { s with mem.items := s.mem.items.write 0 (itemKey b epoch stack) (s.items b epoch stack + 1) }

/-- An item leaves a count. -/
def State.itemOut (s : State) (b : BitVec 12) (epoch : Bool) (stack : Nat) : State :=
  { s with mem.items := s.mem.items.write 0 (itemKey b epoch stack) (s.items b epoch stack - 1) }

/-- A tile image at a home leaves or enters the counts, when the home is T2 and the tile protected. -/
def State.tileOut (s : State) (h : TileHdr) : State :=
  if h.prot && h.home.tier = 2 then s.itemOut h.id.bib h.epoch (stackOf h.home) else s

/-- A tile image enters the count of its epoch at a home. -/
def State.tileIn (s : State) (h : TileHdr) : State :=
  if h.prot && h.home.tier = 2 then s.itemIn h.id.bib h.epoch (stackOf h.home) else s

/-- A committed write of a tile by slot `c`, segment `seg`: TERMS 0, the writer tag, VERSION, the bib's current epoch
(R193, R203, R204). -/
def State.writeTile (s : State) (t : TileId) (h : TileHdr) (c seg : Nat) : State :=
  let h' := { h with terms := 0, wslot := BitVec.ofNat 8 c, wseg := BitVec.ofNat 20 seg, wact := true, nonfin := false
                     version := h.version + 1, epoch := (s.bib h.id.bib).curEpoch }
  ((s.tileOut h).tileIn h').setTile t h'

/-- The writer tag of a finished segment is cleared (R193). -/
def State.clearWriter (s : State) (c seg : Nat) : State :=
  { s with mem.hdrs := s.mem.hdrs.each (fun _ h =>
      if h.wact && h.wslot.toNat = c && h.wseg.toNat = seg then { h with wact := false } else h) }

end Sys2Proof.Machine
end

