-- ==== Sys2Proof/Machine/Streams.lean ====
section
/-! DEFINITION. Streams of the lift as the units see them: items held, slots, pools and reservations (R206 to R225). -/

namespace Sys2Proof.Machine

/-- A stream slot. -/
def State.strm (s : State) (n : Nat) : Option Strm := s.lift.strm.lookup n

/-- Slots that items hold at one station (R208, DEST 1). -/
def slotsAt (items : Table LiftItem) (p : Nat) : Nat :=
  (items.filter (fun e => decide (e.2.dst.tier = 0 ∧ t0Station e.2.dst.off.toNat = p))).length

/-- HELD of Table 10.7: the slots in T1, or the most over stations. An item at a T2 home holds none. -/
def slotsHeld (items : Table LiftItem) : Nat :=
  items.foldl (fun m e => max m (if e.2.dst.tier = 0 then slotsAt items (t0Station e.2.dst.off.toNat) else 0))
    ((items.filter (fun e => decide (e.2.dst.tier = 1))).length)

/-- A stream slot is written, HELD following its items. -/
def State.setStrm (s : State) (n : Nat) (x : Strm) : State :=
  { s with lift.strm := s.lift.strm.insert n { x with held := BitVec.ofNat 18 (slotsHeld x.items) } }

/-- A stream slot becomes free. -/
def State.dropStrm (s : State) (n : Nat) : State := { s with lift.strm := s.lift.strm.remove n }

/-- The stream's states after an item left it: an unwinding stream with no item left to return runs on, a cancelled or
closed one with no item frees its slot (R221, R223). -/
def State.settleStrm (s : State) (n : Nat) (x : Strm) : State :=
  if x.state.toNat = 4 ∧ !x.items.any (fun _ i => i.ret = 3) then s.setStrm n { x with state := 2 }
  else if 5 ≤ x.state.toNat ∧ x.items = [] then s.dropStrm n
  else s.setStrm n x

/-- Streams of a domain. -/
def State.strmsOf (s : State) (slot : Nat) : List (Nat × Strm) := s.lift.strm.filter (fun e => decide (e.2.slot.toNat = slot))

/-- Cancellation (R223): items not yet issued are dropped, committed ones are to return, moves in progress complete and then
return (Table 9.7). -/
def State.cancelStrm (s : State) (n : Nat) : State :=
  match s.strm n with
  | some x =>
    let s1 : State := { s with mem.moves := s.mem.moves.each (fun _ m => if m.strm = some n ∧ m.ret = 0 then { m with cancelled := true } else m) }
    s1.settleStrm n { x with state := 5, late := [], cls := 1
                             items := x.items.each (fun _ i => if i.ret = 0 then { i with ret := 2 } else i) }
  | none => s

/-- Cause 0 clears for a domain when none of its streams has a late item (R216). -/
def State.lateOver (s : State) (slot : Nat) : State :=
  if (s.strmsOf slot).all (fun e => e.2.late = []) && (s.hold slot).cause.getLsbD 0 then s.clearHold slot 0 else s

/-- Every stream of a domain is cancelled (R223). -/
def State.cancelStreams (s : State) (slot : Nat) : State :=
  (s.each ((s.strmsOf slot).map (·.1)) State.cancelStrm).lateOver slot

/-- A read of item `j` (R211): with DISPOSE 1 it is to return after its LAST-th read; with DISPOSE 2 it is freed with its
locker entry (R138). -/
def State.readItem (s : State) (n j : Nat) : State :=
  match s.strm n with
  | some x =>
    match x.items.lookup j, s.course x.slot.toNat with
    | some i, some k =>
      let d := k.stream x.decl.toNat
      let i' := { i with reads := i.reads + 1
                         ret := if i.ret = 0 ∧ stDispose d = 1 ∧ stLast d ≤ i.reads + 1 then 1 else i.ret }
      let t := (k.items x.decl.toNat).getD j 0
      if stDispose d = 2 ∧ !s.lkr.entries.any (fun e => e.slot = x.slot ∧ e.tensor.toNat = stTensor d ∧ e.unit.toNat = t) then
        (s.settleStrm n { x with items := x.items.remove j, cap := false }).releaseSlot i.dst
      else s.setStrm n { x with items := x.items.insert j i', cap := false }
    | _, _ => s
  | none => s

/-! ## Pools (R218 to R220) -/

/-- Bytes of one item of a stream. -/
def Course.itemBytes (k : Course) (decl : Nat) : Nat := tileBytesOf (tnFmt (k.tensor (stTensor (k.stream decl))))

/-- The segments that list a declaration. -/
def Course.openers (k : Course) (decl : Nat) : List Nat :=
  (List.range k.segs.length).filter (fun i => decide (sgStrmFirst (k.seg i) ≤ decl ∧ decl < sgStrmFirst (k.seg i) + sgStrmCount (k.seg i)))

/-- Whether segment index `i` lies in the span of a declaration: from its first opener to CLOSE (R207). -/
def Course.spans (k : Course) (decl i : Nat) : Bool :=
  (k.openers decl).any (fun o => decide (o ≤ i)) && decide (i ≤ stClose (k.stream decl))

/-- The largest segment SRAM, in bytes per station, over the segments a declaration spans (R218). -/
def Course.spanSram (k : Course) (decl : Nat) : Nat :=
  (List.range k.segs.length).foldl (fun m i => if k.spans decl i then max m (1024 * sgSram (k.seg i)) else m) 0

/-- T1_PAGES of a die's locker quota record (Table 6.4). -/
def Course.lockerT1 (k : Course) (die : Nat) : Nat := bits (k.locker.getD die 0) 28 14

/-- T1_QUOTA of a die (Table 14.1). -/
def t1QuotaOf (a : BibArgs) (die : Nat) : Nat :=
  match die with
  | 0 => a.t1Quota0.toNat
  | 1 => a.t1Quota1.toNat
  | 2 => a.t1Quota2.toNat
  | _ => a.t1Quota3.toNat

/-- Bytes of the pool of a declaration (R218): per station for DEST 1, with `w` quarters. -/
def Course.poolBytes (k : Course) (a : BibArgs) (decl w : Nat) : Nat :=
  let d := k.stream decl
  if stDest d = 0 then (t1QuotaOf a (stDestDie d) - k.lockerT1 (stDestDie d)) * 2 ^ 21
  else 0x140000 * w - k.spanSram decl

/-- Whether two declarations lift into one pool. -/
def samePool (d e : Nat) : Bool := stDest d = stDest e && (stDest d ≠ 0 || stDestDie d = stDestDie e)

/-- Slots that another stream of the pool keeps from an opening one at station `p`: its reservation while it is open, what it
holds once closed (R219, R220). -/
def Strm.claims (x : Strm) (d p : Nat) : Nat :=
  let h := if stDest d = 0 then slotsHeld x.items else slotsAt x.items p
  if x.state.toNat = 6 then h else max (stResMin d) h

/-- Free bytes of the pool of stream `n` at station `p`, its own slots counted as taken only where `own`. -/
def State.poolFree (s : State) (k : Course) (a : BibArgs) (n decl w p : Nat) (own : Bool) : Nat :=
  let d := k.stream decl
  let used := s.lift.strm.foldl (fun m e =>
    if e.2.bib = k.bib && (s.course e.2.slot.toNat).any (fun k' => samePool d (k'.stream e.2.decl.toNat)) && e.2.state.toNat ≠ 1 then
      match s.course e.2.slot.toNat with
      | some k' =>
        let d' := k'.stream e.2.decl.toNat
        let c := if e.1 = n then (if own then (if stDest d = 0 then slotsHeld e.2.items else slotsAt e.2.items p) else 0)
          else e.2.claims d' p
        m + c * k'.itemBytes e.2.decl.toNat
      | none => m
    else m) 0
  k.poolBytes a decl w - used

/-- Whether RES_MIN slots of the pool are free, at every station of the carve for DEST 1 (R220). -/
def State.canOpen (s : State) (k : Course) (a : BibArgs) (n decl w : Nat) (run : List Nat) : Bool :=
  let d := k.stream decl
  let need := stResMin d * k.itemBytes decl
  if stDest d = 0 then decide (need ≤ s.poolFree k a n decl w 0 false)
  else if stDest d = 1 then run.all (fun p => decide (need ≤ s.poolFree k a n decl w p false))
  else true

/-- Whether some stream of the pool waits to open. -/
def State.poolWaits (s : State) (b : BitVec 12) (d : Nat) : Bool :=
  s.lift.strm.any (fun _ x => x.bib = b && x.state = 1 && (s.course x.slot.toNat).any (fun k => samePool d (k.stream x.decl.toNat)))

/-- Whether a stream may take one more slot at station `p` (R208, R220, R221). -/
def State.slotFree (s : State) (k : Course) (a : BibArgs) (n : Nat) (x : Strm) (w p : Nat) : Bool :=
  let decl := x.decl.toNat
  let d := k.stream decl
  let h := if stDest d = 0 then slotsHeld x.items else slotsAt x.items p
  if stDest d = 2 then true
  else if h < stResMin d then true
  else if x.cap || s.poolWaits x.bib d then false
  else decide (h < stResMax d ∧ k.itemBytes decl ≤ s.poolFree k a n decl w p true)

/-- Whether a stream waits for a slot beyond RES_MIN (LIFT_SLOT_WAIT). -/
def State.slotStarved (s : State) (n : Nat) (x : Strm) : Bool :=
  match s.course x.slot.toNat, s.domain x.slot.toNat with
  | some k, some d =>
    let r := k.stream x.decl.toNat
    x.state = 2 && decide (x.next.toNat < (k.items x.decl.toNat).length) && stDest r < 2 && decide (stResMin r ≤ slotsHeld x.items)
      && !(if stDest r = 0 then s.slotFree k (s.bib x.bib).args n x d.w 0
        else d.run.any (fun p => s.slotFree k (s.bib x.bib).args n x d.w p))
  | _, _ => false

/-! ## Course domains and their segments -/

/-- Whether a domain may start anything new: it runs, its bib is running and it is not held (R184, R224). -/
def State.mayRun (s : State) (slot : Nat) : Bool :=
  match s.domain slot with
  | some d => d.running && !d.suspended && (s.bib d.bib).state = .running && !s.held slot
  | none => false

end Sys2Proof.Machine
end

