-- ==== Sys2Proof/Machine/Moves.lean ====
section
/-! DEFINITION. One home at a time: the move protocol, header operations, translation walks and page moves (R189 to R197). -/

namespace Sys2Proof.Machine

/-! ## The move protocol (R195 to R197, Table 9.6) -/

/-- Moves in progress of a mover. -/
def State.movesOf (s : State) (m : Nat) : Nat := (s.mem.moves.filter (fun e => e.2.mover = m)).length

/-- Whether a tile is in a move between M1 and M6. -/
def State.tileMoving (s : State) (k : Nat) : Bool := s.mem.moves.any (fun _ m => m.tile = k)

/-- The number of a 2 MiB frame in the table of owners. -/
def frameKey (tier : Nat) (frame : Nat) : Nat := tier * 2 ^ 29 + frame

/-- Bytes of the image of the tile that a move carries. -/
def State.moveBytes (s : State) (m : Move) : Nat := ((s.mem.hdrs.lookup m.tile).map (fun h => tileBytesOf h.fmt.toNat)).getD 0

/-- Whether `n` bytes at a home and `m` bytes at another meet. -/
def overlaps (a : HomeAddr) (n : Nat) (b : HomeAddr) (m : Nat) : Bool :=
  decide (homeKey a < homeKey b + m ∧ homeKey b < homeKey a + n)

/-- Whether slot space for a tile of a bib can be reserved at a place of T0 or T1: no tile lies there, no move goes to it or has yet to
release it, and a frame of T1 is no other bib's (R195, R197). A place of another tier is the tile's own backing place. -/
def State.placeFree (s : State) (h : TileHdr) (dst : HomeAddr) : Bool :=
  let n := tileBytesOf h.fmt.toNat
  !slotTier dst ||
    (!s.mem.hdrs.any (fun _ x => x.state ≠ 2 && overlaps x.home (tileBytesOf x.fmt.toNat) dst n)
      && !s.mem.moves.any (fun _ m => overlaps m.dst (s.moveBytes m) dst n || overlaps m.src (s.moveBytes m) dst n)
      && (dst.tier ≠ 1 || (s.mem.owners.lookup (frameKey 1 (dst.off.toNat / 2 ^ 21))).all (fun b => b = h.id.bib)))

/-- Whether M1 may accept a move: the tile is at home and in no move, the destination is backed, free and not the home, the
mover has room (R188, R195, R196). -/
def State.moveOk (s : State) (k : Nat) (h : TileHdr) (dst : HomeAddr) (mover : Nat) : Bool :=
  h.state = 0 && !s.tileMoving k && s.addrOkFor h.id.bib dst && decide (dst ≠ h.home) && s.placeFree h dst && decide (s.movesOf mover < 64)

/-- Whether a place lies in the carve of a domain, in station SRAM. -/
def Domain.holdsPlace (d : Domain) (h : HomeAddr) : Bool :=
  h.tier = 0 && t0InStation h.off.toNat && d.run.contains (t0Station h.off.toNat)
    && decide (d.quarter ≤ t0Quarter h.off.toNat ∧ t0Quarter h.off.toNat < d.quarter + d.w)

/-- The slot and segment of a domain whose running segments declare less station SRAM than their scratch would take with a tile moved to
`dst`, items of streams not counted (R205, Table 8.18). -/
def State.scratchOver (s : State) (h : TileHdr) (dst : HomeAddr) : Option (Nat × Nat) :=
  s.crs.domains.findSome? (fun e =>
    let d := e.2
    match s.course e.1 with
    | some k =>
      let p := t0Station dst.off.toNat
      let most := d.live.foldl (fun m x => max m (1024 * sgSram (k.seg x.1))) 0
      let item (x : HomeAddr) : Bool := s.lift.strm.any (fun _ y => y.items.any (fun _ i => i.dst = x))
      let taken := ((s.mem.hdrs.filter (fun x => d.holdsPlace x.2.home && t0Station x.2.home.off.toNat = p && !item x.2.home)).map
        (fun x => tileBytesOf x.2.fmt.toNat)).sum
      if d.bib = h.id.bib && d.running && d.live ≠ [] && d.holdsPlace dst && decide (most < taken + tileBytesOf h.fmt.toNat)
      then some (e.1, (d.live.headD (0, { ord := 0, s := 0 })).1) else none
    | none => none)

/-- M1: the move is accepted and its slot reserved. -/
def State.startMove (s : State) (id : Nat) (mv : Move) : State :=
  { s.reserveSlot mv.dst with mem.moves := s.mem.moves.insert id mv }

/-- MOVE_REQUEST (M1, R195): a destination outside the backed ranges is rejected with ST_BOUNDS (R18, R188); one that takes more station
SRAM than the running segments declare is a course violation (R205); a request that cannot start yet waits. -/
def execMoveRequest (id : Nat) (t : TileId) (dst : HomeAddr) (mover : Fin 16) (s : State) : Out :=
  s.event fun s =>
    if !s.addrOkFor t.bib dst then s.notify t.bib .bounds 0
    else match s.tileHdr t with
      | some h =>
        if !s.mem.moves.has id && s.moveOk (tileKey t) h dst mover.val then
          match s.scratchOver h dst with
          | some (c, seg) => s.violate c .quota seg 0 (t.tile.setWidth 128)
          | none => s.startMove id { tile := tileKey t, src := h.home, dst := dst, phase := .accepted, mover := mover.val }
        else s
      | none => s

/-- MOVE_HEADER_SET (M2): STATE becomes 1 and PREV takes HOME. -/
def execMoveHeaderSet (id : Nat) (s : State) : Out :=
  s.event fun s =>
    match s.mem.moves.lookup id with
    | some mv =>
      match s.mem.hdrs.lookup mv.tile with
      | some h =>
        if mv.phase = .accepted ∧ h.state = 0 then
          let t := s.countBegun mv.mover
          { t with mem.hdrs := t.mem.hdrs.insert mv.tile { h with state := 1, prev := h.home }
                   mem.moves := t.mem.moves.insert id { mv with phase := .moving } }
        else s
      | none => s
    | none => s

/-- MOVE_DATA_DONE (M3, M4): the tile's bytes arrive at the destination, written under the bib's epoch current at M3. -/
def execMoveDataDone (id : Nat) (s : State) : Out :=
  s.event fun s =>
    match s.mem.moves.lookup id with
    | some mv =>
      match s.mem.hdrs.lookup mv.tile with
      | some h =>
        if mv.phase = .moving then
          let t := s.copyBytes (homeKey mv.src) (homeKey mv.dst) (tileBytesOf h.fmt.toNat)
          { t with mem.moves := t.mem.moves.insert id { mv with phase := .arrived, epoch := (s.bib h.id.bib).curEpoch } }
        else s
      | none => s
    | none => s

/-- The lift's counter for bytes committed into a tier (Table 10.8). -/
def liftBytesId (tier : Nat) : Nat := if tier = 1 then 0x0900 else if tier = 0 then 0x0901 else 0x0902

/-- The lift's counter for bytes returned for a reason (Table 10.8). -/
def returnBytesId (ret : Nat) : Nat := if ret = 1 then 0x0903 else if ret = 2 then 0x090B else if ret = 3 then 0x090A else 0x090C

/-- M5 for the item of a stream: it is committed, its source home recorded; a late item is late no longer (R211, R216). -/
def State.commitItem (s : State) (n : Nat) (mv : Move) (bytes : Nat) : State :=
  match s.strm n with
  | some x =>
    let slot := x.slot.toNat
    if mv.ret ≠ 0 then s.count (returnBytesId mv.ret) slot bytes
    else
      let late := x.late.filter (fun j => j ≠ mv.item)
      let s1 := s.setStrm n { x with
        items := x.items.insert mv.item { src := mv.src, dst := mv.dst, committed := true, reads := 0, ret := if mv.cancelled then 2 else 0 }
        done := x.done + 1, late := late, cls := if late = [] then 1 else x.cls }
      let s2 := s1.count (liftBytesId mv.dst.tier.toNat) slot bytes
      if x.late.contains mv.item then s2.lateOver slot else s2
  | none => s

/-- The number of the move that spills the locker entry with a SEQ: above every tile move's (R136). -/
def lockerMove (seq : Nat) : Nat := 2 ^ 64 + seq

/-- The move of a locker entry completes: TIER and HOME are its new home's, whose offset within the locker's space is a free value
(R136, R137, R195). -/
def State.commitLocker (s : State) (id : Nat) : State :=
  if s.lkr.entries.all (fun e => e.tier ≠ 3 || lockerMove e.seq ≠ id) then s
  else
    { s with
      lkr.entries := s.lkr.entries.map (fun e => if e.tier = 3 && lockerMove e.seq = id then { e with tier := e.dst, home := s.freeVal 34 } else e)
      freeCtr := s.freeCtr + 1 }

/-- Whether an entry takes space in a spill tier: it lies there, or is on its way there. -/
def LkrEntry.spillTo (e : LkrEntry) (tier : Nat) : Bool := e.tier.toNat = tier || (e.tier = 3 && e.dst.toNat = tier)

/-- Spill pages that a bib's entries take of a tier, on one die or on all: whole entries, none across a page (R134, R135). -/
def State.spillPages (s : State) (b : BitVec 12) (tier : Nat) (die : Option Nat) : Nat :=
  ((s.lkr.entries.filter (fun e => e.bib = b && e.spillTo tier && die.all (fun d => e.die = d))).map (fun e => (e.slot, e.die, e.page))).eraseDups.length

/-- A bib's record with the pages that its locker entries take counted among those in use (R134). -/
def State.quotaBib (s : State) (b : BitVec 12) : Bib :=
  let r := s.bib b
  { r with t2Used := r.t2Used + s.spillPages b 2 none
           t1Used := (List.range 4).map (fun d => r.t1Used.getD d 0 + s.spillPages b 1 (some d)) }

/-- MOVE_COMMIT (M5): HOME changes, STATE returns to 0, EPOCH and the per-epoch counts change, in one handshake (R195, R204). -/
def execMoveCommit (id : Nat) (s : State) : Out :=
  s.event fun s =>
    match s.mem.moves.lookup id with
    | some mv =>
      match s.mem.hdrs.lookup mv.tile with
      | some h =>
        if mv.phase = .arrived then
          let h' := { h with home := mv.dst, state := 0, epoch := mv.epoch }
          let t := ((s.tileOut h).tileIn h').countEnded mv.mover
          let t1 : State := { t with
            mem.hdrs := t.mem.hdrs.insert mv.tile h'
            mem.moves := t.mem.moves.insert id { mv with phase := .committed } }
          match mv.strm with
          | some n => t1.commitItem n mv (tileBytesOf h.fmt.toNat)
          | none => t1
        else s
      | none => s
    | none => s.commitLocker id

/-- MOVE_RELEASE (M6): the source bytes go back to their owner and their slot is released; a returned item leaves its stream
(R197, R208, R223). -/
def execMoveRelease (id : Nat) (s : State) : Out :=
  s.event fun s =>
    match s.mem.moves.lookup id with
    | some mv =>
      if mv.phase = .committed then
        let t : State := { s.releaseSlot mv.src with mem.moves := s.mem.moves.remove id }
        match mv.strm with
        | some n =>
          match t.strm n with
          | some x => if mv.ret ≠ 0 then t.settleStrm n { x with items := x.items.remove mv.item } else t
          | none => t
        | none => t
      else s
    | none => s

/-- The destination of a move is discarded: HOME is unchanged and STATE returns to 0 (R196). -/
def State.discardMove (s : State) (id : Nat) (mv : Move) : State :=
  let t := s.releaseSlot mv.dst
  let t1 := if mv.phase = .accepted then t else t.countEnded mv.mover
  { t1 with
    mem.hdrs := match t1.mem.hdrs.lookup mv.tile with
      | some h => t1.mem.hdrs.insert mv.tile { h with state := if h.state = 1 then 0 else h.state }
      | none => t1.mem.hdrs
    mem.moves := t1.mem.moves.remove id }

/-- An item whose move stopped is not held any more; the stream may issue it again (R196). -/
def State.unissue (s : State) (mv : Move) : State :=
  match mv.strm with
  | some n =>
    match s.strm n with
    | some x =>
      if mv.ret ≠ 0 then s
      else
        let nx := x.next.toNat
        let ahead := (List.range (nx - mv.item)).map (fun i => mv.item + 1 + i) ++ x.ahead
        s.settleStrm n { x with items := x.items.remove mv.item
                                next := if mv.item < nx then BitVec.ofNat 24 mv.item else x.next
                                ahead := if mv.item < nx then ahead else x.ahead.filter (fun j => j ≠ mv.item) }
    | none => s
  | none => s

/-- MOVE_FAILURE (Table 9.7): before M5 the destination is discarded. An uncorrectable error at the source is left to R202; a
mover or destination fault is counted and reissued once, and a second stops the move with ST_FAULT. -/
def execMoveFailure (id : Nat) (atSource : Bool) (s : State) : Out :=
  s.event fun s =>
    match s.mem.moves.lookup id with
    | some mv =>
      if mv.phase = .committed then s
      else
        let t := s.discardMove id mv
        if atSource then t.unissue mv
        else
          let t1 := t.count 0x0403 mv.mover 1
          if mv.reissued then
            (t1.unissue mv).notify (BitVec.ofNat 12 (mv.tile / 2 ^ 64)) .fault 0
          else t1.startMove id { mv with phase := .accepted, reissued := true }
    | none => s

/-! ## Header operations (R192 to R194) -/

/-- A write of a tile, unless another running segment is writing it, which is a violation with ST_BUSY (R193, Table 8.18). -/
def State.writeOr (s : State) (t : TileId) (h : TileHdr) (c seg : Nat) : State :=
  if h.wact && (h.wslot.toNat ≠ c || h.wseg.toNat ≠ seg) then s.violate c .busy seg 0 (t.tile.setWidth 128)
  else s.writeTile t h c seg

/-- The bits of a tile header above HCRC, as the integer of bits [511:32] (Table 9.5). -/
def TileHdr.word (h : TileHdr) : Nat :=
  h.hver.toNat * 2 ^ 464 + h.fmt.toNat * 2 ^ 460 + h.trans.toNat * 2 ^ 459 + h.poison.toNat * 2 ^ 458 + h.nonfin.toNat * 2 ^ 457
    + h.epoch.toNat * 2 ^ 456 + h.prot.toNat * 2 ^ 455 + h.state.toNat * 2 ^ 453 + h.id.bib.toNat * 2 ^ 441 + h.id.tensor.toNat * 2 ^ 417
    + h.id.tile.toNat * 2 ^ 377 + homeKey h.home * 2 ^ 324 + homeKey h.prev * 2 ^ 271 + h.terms.toNat * 2 ^ 239 + h.wslot.toNat * 2 ^ 231
    + h.wseg.toNat * 2 ^ 211 + h.wact.toNat * 2 ^ 210 + h.version.toNat * 2 ^ 178

/-- HCRC of a tile header: CRC-32C of its bits [511:32], least byte first (R7, Table 9.5; log entries 9 and 55). -/
def TileHdr.hcrc (h : TileHdr) : BitVec 32 := crc32c (leBytes 60 h.word)

/-- HEADER_OPERATION: an access of slot `slot`, segment `seg` to a tile, checked against its header, whose HCRC was read as `hcrc`. A
moving tile makes it wait (Table 9.7); a write keeps the header's fields (R193, R194). -/
def execHeaderOperation (t : TileId) (slot : BitVec 8) (seg : BitVec 20) (write : Bool) (fmt : BitVec 4) (home : HomeAddr)
    (hcrc : BitVec 32) (s : State) : Out :=
  s.event fun s =>
    let c := slot.toNat
    match s.tileHdr t with
    | none => s.violate c .bounds seg.toNat 0 (t.tile.setWidth 128)
    | some h =>
      if h.state = 1 then s
      else if hcrc ≠ h.hcrc then s.loseTile (tileKey t)
      else match checkTile h t fmt.toNat home with
        | .violation st => s.violate c st seg.toNat 0 (t.tile.setWidth 128)
        | .lost => s.notifyLost t
        | .poisoned => if write then s.writeOr t { h with poison := false } c seg.toNat else s.notify h.id.bib .fault 0
        | .good => if write then s.writeOr t h c seg.toNat else s

/-! ## Translation and page moves (R189, R190) -/

/-- A stream stops at an item whose page is absent (R217): EV_STREAM_HALT, LIFT_HALT, and no item from it onwards issues. -/
def State.haltStrm (s : State) (n item va : Nat) : State :=
  match s.strm n with
  | some x =>
    if x.state = 2 then
      let s1 := s.setStrm n { x with state := 3, next := BitVec.ofNat 24 item }
      let e : Event := { bib := x.bib, slot := x.slot, src := 4
                         arg := .streamHalt (BitVec.ofNat 12 n) (BitVec.ofNat 24 item) (BitVec.ofNat 48 va) }
      (s1.raise e).count 0x0907 x.slot.toNat 1
    else s
  | none => s

/-- TRANSLATION_WALK_DONE: the walk of a page of a bib for an access of slot `slot`, or of a stream, ends as Table 9.3
says; a resident entry is cached. -/
def execTranslationWalkDone (bib : BitVec 12) (page : BitVec 27) (slot : BitVec 8) (write : Bool) (strm : Option (BitVec 12))
    (s : State) : Out :=
  s.event fun s =>
    match s.xlate bib (page.toNat * 2 ^ 21) write strm.isSome with
    | .ok _ =>
      let k := pageKey bib page.toNat
      if s.mem.cached.contains k then s else { s with mem.cached := k :: s.mem.cached }
    | .fail st => s.violate slot.toNat st 0 0 (BitVec.ofNat 128 (page.toNat * 2 ^ 21))
    | .halt =>
      match strm with
      | some n =>
        match s.strm n.toNat with
        | some x => s.haltStrm n.toNat x.next.toNat (page.toNat * 2 ^ 21)
        | none => s
      | none => s
    | .wait => s

/-- Whether a T2 frame lies in the service partition: the highest 2 GiB of its stack (R19). -/
def inService (frame : Nat) : Bool := decide (0xF80000000 / 2 ^ 21 ≤ frame % 2 ^ 15)

/-- Whether a frame can hold a bib's page: T1 on one die or T2 outside the service partition, and in nobody's use. -/
def State.frameFree (s : State) (tier frame : Nat) : Bool :=
  ((tier = 1 && decide (frame < 2 ^ 14)) || (tier = 2 && decide (frame < 2 ^ 18) && !inService frame))
    && !s.mem.owners.has (frameKey tier frame)

/-- Pages of a bib in use: T2, or T1 on the frame's die. -/
def Bib.usePage (r : Bib) (tier frame : Nat) (up : Bool) : Bib :=
  if tier = 2 then { r with t2Used := if up then r.t2Used + 1 else r.t2Used - 1 }
  else
    let d := frame / 2 ^ 12
    { r with t1Used := r.t1Used.set d (if up then r.t1Used.getD d 0 + 1 else r.t1Used.getD d 0 - 1) }

/-- Whether the bib's quota takes one more page (R205). -/
def Bib.quotaFor (r : Bib) (tier frame : Nat) : Bool :=
  if tier = 2 then decide (r.t2Used < r.args.t2Quota.toNat)
  else decide (r.t1Used.getD (frame / 2 ^ 12) 0 < t1QuotaOf r.args (frame / 2 ^ 12))

/-- A protected T2 page leaves or enters the counts of its bib (R204). -/
def State.pageItem (s : State) (b : BitVec 12) (e : Pte) (up : Bool) : State :=
  if e.prot && e.tier.toNat = 2 then
    (if up then s.itemIn b e.epoch (e.frame.toNat / 2 ^ 15) else s.itemOut b e.epoch (e.frame.toNat / 2 ^ 15))
  else s

/-- Whether a home lies in a 2 MiB frame of a tier. -/
def inFrame (h : HomeAddr) (tier frame : Nat) : Bool := decide (h.tier.toNat = tier ∧ h.off.toNat / 2 ^ 21 = frame)

/-- Whether a move in progress has an end in a frame. -/
def State.frameMoving (s : State) (tier frame : Nat) : Bool :=
  s.mem.moves.any (fun _ m => inFrame m.src tier frame || inFrame m.dst tier frame)

/-- The tiles homed in a frame have their homes in another one, to which the page's data has gone: HOME changes, the image is
written under its bib's current epoch, the counts follow (R195, R203, R204). -/
def State.rehome (s : State) (tier frame tier' frame' : Nat) : State :=
  s.each ((s.mem.hdrs.filter (fun e => inFrame e.2.home tier frame)).map (·.1)) (fun t k =>
    match t.mem.hdrs.lookup k with
    | some h =>
      let h' : TileHdr := { h with
        home := { tier := BitVec.ofNat 3 tier', off := BitVec.ofNat 50 (frame' * 2 ^ 21 + h.home.off.toNat % 2 ^ 21) }
        prev := h.home, epoch := (t.bib h.id.bib).curEpoch }
      let u := (t.tileOut h).tileIn h'
      { u with mem.hdrs := u.mem.hdrs.insert k h' }
    | none => t)

/-- PAGE_MOVE: Zilunzor moves a resident page to a free frame within its owner's quota; every entry that maps the frame
follows, as do the tiles homed in it, cached translations go, and the data is written under the current epoch (R189, R195, R203).
The frame's slot is reserved and the old one's released (R197). A reserved tier code is out of bounds (R18). -/
def execPageMove (bib : BitVec 12) (page : BitVec 27) (tier : BitVec 3) (frame : BitVec 29) (s : State) : Out :=
  s.event fun s =>
    let e := s.pte bib page.toNat
    let old := frameKey e.tier.toNat e.frame.toNat
    let place (t : BitVec 3) (f : BitVec 29) : HomeAddr := { tier := t, off := BitVec.ofNat 50 (f.toNat * 2 ^ 21) }
    if 4 < tier.toNat then s.notify bib .bounds 0
    else if e.state = 1 ∧ s.frameFree tier.toNat frame.toNat ∧ s.mem.owners.lookup old = some bib ∧ !s.frameMoving e.tier.toNat e.frame.toNat
        ∧ ((s.quotaBib bib).usePage e.tier.toNat e.frame.toNat false).quotaFor tier.toNat frame.toNat then
      let s0 := (s.reserveSlot (place tier frame)).releaseSlot (place e.tier e.frame)
      let s1 := s0.copyBytes (byteKey e.tier.toNat (e.frame.toNat * 2 ^ 21)) (byteKey tier.toNat (frame.toNat * 2 ^ 21)) (2 ^ 21)
      let e' := { e with tier := tier, frame := frame, epoch := (s.bib bib).curEpoch }
      let s2 := (s1.pageItem bib e false).pageItem bib e' true
      let same (p : Pte) : Bool := p.state = 1 && p.tier = e.tier && p.frame = e.frame
      let s2 := s2.rehome e.tier.toNat e.frame.toNat tier.toNat frame.toNat
      let s3 := s2.setBib bib (((s2.bib bib).usePage e.tier.toNat e.frame.toNat false).usePage tier.toNat frame.toNat true)
      { s3 with
        mem.ptes := s3.mem.ptes.each (fun _ p => if same p then { p with tier := tier, frame := frame, epoch := e'.epoch } else p)
        mem.cached := s3.mem.cached.filter (fun k => !(same (s.mem.ptes.read {} k)))
        mem.owners := (s3.mem.owners.remove old).insert (frameKey tier.toNat frame.toNat) bib }
    else s

end Sys2Proof.Machine
end

