-- ==== Sys2Proof/Machine/Lift.lean ====
section
/-! DEFINITION. The lift: opening, issuing, lateness, halts, unwinding and cancellation of streams (R206 to R225). -/

namespace Sys2Proof.Machine

/-! ## Items and destinations -/

/-- The tile of item `j` of a declaration. -/
def Course.itemTile (k : Course) (decl j : Nat) : Nat := (k.items decl).getD j 0

/-- The name of the tile of item `j`. -/
def Course.itemId (k : Course) (decl j : Nat) : TileId := tileOf k.bib (stTensor (k.stream decl)) (k.itemTile decl j)

/-- The virtual address of the backing place of item `j`. -/
def Course.itemVa (k : Course) (decl j : Nat) : Nat := tileVa (k.tensor (stTensor (k.stream decl))) (k.itemTile decl j)

/-- The run station of a DEST 1 item: ((t div STN_DIV) mod STN_MOD) mod S (R210). -/
def stnOfItem (d t s : Nat) : Nat := t / stStnDiv d % stStnMod d % s

/-- The physical station of a DEST 1 item. -/
def Course.itemStn (k : Course) (dom : Domain) (decl j : Nat) : Nat :=
  dom.run.getD (stnOfItem (k.stream decl) (k.itemTile decl j) dom.s) 0

/-- Whether a home is a right destination of item `j` (Table 10.1, R210). -/
def State.itemDst (s : State) (k : Course) (dom : Domain) (decl j : Nat) (h : HomeAddr) : Bool :=
  let d := k.stream decl
  match stDest d with
  | 0 => h.tier = 1 && h.off.toNat / 2 ^ 33 = stDestDie d
  | 1 => h.tier = 0 && t0InStation h.off.toNat && t0Station h.off.toNat = k.itemStn dom decl j
      && decide (dom.quarter ≤ t0Quarter h.off.toNat ∧ t0Quarter h.off.toNat < dom.quarter + dom.w)
  | 2 => decide (s.xlate k.bib (k.itemVa decl j) false true = .ok h)
  | _ => false

/-- The item a stream issues next: a late one not yet in progress first, else NEXT (R216). -/
def Strm.pick (x : Strm) : Nat := (x.late.find? (fun j => !x.items.has j)).getD x.next.toNat

/-- NEXT and the items issued ahead of it, once item `j` has been issued. -/
def Strm.advance (x : Strm) (j : Nat) : Strm :=
  if j = x.next.toNat then
    let past := (List.range (x.ahead.length + 1)).foldl (fun n _ => if x.ahead.contains n then n + 1 else n) (j + 1)
    { x with next := BitVec.ofNat 24 past, ahead := x.ahead.filter (fun i => decide (past ≤ i)) }
  else { x with ahead := j :: x.ahead }

/-- Whether a stream cannot issue its next item for want of a slot (R221). -/
def State.starved (s : State) (n : Nat) (x : Strm) : Bool :=
  match s.course x.slot.toNat, s.domain x.slot.toNat with
  | some k, some dom =>
    x.state = 2 && decide (x.pick < (k.items x.decl.toNat).length)
      && !s.slotFree k (s.bib x.bib).args n x dom.w (k.itemStn dom x.decl.toNat x.pick)
  | _, _ => false

/-! ## Opening and closing (R208, R220) -/

/-- STREAM_OPEN: the next segment lists the declaration, which is not open; the stream opens when RES_MIN slots of its pool
are free and waits till then (R208, R220). -/
def execStreamOpen (slot : BitVec 8) (decl : BitVec 20) (strm : BitVec 12) (s : State) : Out :=
  s.event fun s =>
    let c := slot.toNat
    match s.course c, s.domain c with
    | some k, some d =>
      let n := strm.toNat
      let fresh := !s.lift.strm.has n && !(s.strmsOf c).any (fun e => e.2.decl = decl && e.2.state.toNat < 6)
        && decide ((s.strmsOf c).length < s.lift.reserved.read 0 c)
      let again := (s.strm n).any (fun x => x.slot = slot && x.decl = decl && x.state = 1)
      if s.mayRun c && (k.openers decl.toNat).contains d.pc && (fresh || again) then
        let ok := s.canOpen k (s.bib k.bib).args n decl.toNat d.w d.run
        s.setStrm n { bib := k.bib, slot := slot, decl := decl, state := if ok then 2 else 1, cls := 1, tOpen := s.clk.ts
                      fin0 := d.finishes.read 0 (stClose (k.stream decl.toNat)) }
      else s
    | _, _ => s

/-- STREAM_CLOSE: with its CLOSE segment finished a stream issues no more; kept items stay, all others are returned as
cancelled (R208, R223). -/
def execStreamClose (strm : BitVec 12) (s : State) : Out :=
  s.event fun s =>
    match s.strm strm.toNat with
    | some x =>
      match s.course x.slot.toNat, s.domain x.slot.toNat with
      | some k, some d =>
        let r := k.stream x.decl.toNat
        if x.fin0 < d.finishes.read 0 (stClose r) ∧ 2 ≤ x.state.toNat ∧ x.state.toNat ≤ 4 then
          (if stDispose r = 0 then (s.settleStrm strm.toNat { x with state := 6, late := [], cls := 1 }).lateOver x.slot.toNat
           else (s.cancelStrm strm.toNat).lateOver x.slot.toNat)
        else s
      | _, _ => s
    | none => s

/-! ## Issue (R210 to R215) -/

/-- The smallest unused move number above all listed ones. -/
def State.freshMove (s : State) : Nat := s.mem.moves.foldl (fun m e => max m (e.1 + 1)) 0

/-- Whether a stream has a late item that is not in progress (R216). -/
def Strm.owesLate (x : Strm) : Bool := x.late.any (fun j => !x.items.has j)

/-- Whether the lift may issue a move of a stream: its bib runs (R224); a held domain issues no new move (R184), but for the late item of
R216 and the returns of an unwind (R221) while cause 0 alone holds it; a return of a domain that runs no more goes on (R223). That
another cause stops these two as well is DEDUCED (log 62). -/
def State.mayIssue (s : State) (x : Strm) : Bool :=
  match (s.bib x.bib).state with
  | .running => !s.held x.slot.toNat || ((s.hold x.slot.toNat).cause = 1 && (x.owesLate || x.state = 4))
  | .admitted => true
  | _ => false

/-- The return of a committed item to the home this stream moved it from (R211). -/
def State.issueReturn (s : State) (n : Nat) (x : Strm) (k : Course) (j : Nat) (i : LiftItem) (mover : Nat) : State :=
  let key := tileKey (k.itemId x.decl.toNat j)
  match s.mem.hdrs.lookup key with
  | some h =>
    if h.home = i.dst && s.moveOk key h i.src mover then
      s.startMove s.freshMove { tile := key, src := i.dst, dst := i.src, phase := .accepted, mover := mover, strm := some n, item := j
                                ret := i.ret }
    else s
  | none => s

/-- The next item of a stream is issued to `dst` (R208, R214, R217). -/
def State.issueItem (s : State) (n : Nat) (x : Strm) (k : Course) (dom : Domain) (dst : HomeAddr) (mover : Nat) : State :=
  let decl := x.decl.toNat
  let j := x.pick
  let key := tileKey (k.itemId decl j)
  if x.state ≠ 2 ∨ (k.items decl).length ≤ j ∨ x.items.has j ∨ !dom.running ∨ dom.suspended then s
  else match s.xlate k.bib (k.itemVa decl j) false true with
    | .fail st => s.violate x.slot.toNat st (dom.pc) 0 (BitVec.ofNat 128 j)
    | .halt => s
    | .wait => s
    | .ok _ =>
      match s.mem.hdrs.lookup key with
      | none => s.violate x.slot.toNat .bounds (dom.pc) 0 (BitVec.ofNat 128 j)
      | some h =>
        if h.state = 2 then (s.setStrm n { x with state := 3, next := BitVec.ofNat 24 j }).notifyLost h.id
        else if h.fmt.toNat ≠ tnFmt (k.tensor (stTensor (k.stream decl))) then
          s.violate x.slot.toNat .format (dom.pc) 0 (BitVec.ofNat 128 j)
        else if !s.itemDst k dom decl j dst then s
        else if h.home = dst then
          s.setStrm n { x.advance j with items := x.items.insert j { src := dst, dst := dst, committed := true }, done := x.done + 1 }
        else if s.slotFree k (s.bib x.bib).args n x dom.w (k.itemStn dom decl j) && s.moveOk key h dst mover then
          (s.startMove s.freshMove { tile := key, src := h.home, dst := dst, phase := .accepted, mover := mover, strm := some n, item := j }).setStrm n
            { x.advance j with items := x.items.insert j { src := h.home, dst := dst } }
        else s

/-- LIFT_ISSUE (M1 of an item, R195): the mover issues the return whose source home is `dst`, if one is due, else the stream's
next item to `dst`; a reserved tier code is out of bounds (R18). Which stream comes first is the ranking of R213 to R215, which orders moves and decides nothing else. -/
def execLiftIssue (strm : BitVec 12) (dst : HomeAddr) (mover : Fin 16) (s : State) : Out :=
  s.event fun s =>
    let n := strm.toNat
    match s.strm n with
    | some x =>
      match s.course x.slot.toNat with
      | some k =>
        if 4 < dst.tier.toNat then s.notify x.bib .bounds 0
        else if s.mayIssue x then
          let still := s.held x.slot.toNat
          match x.items.find? (fun e => decide (e.2.ret ≠ 0 ∧ e.2.committed ∧ e.2.src = dst ∧ (still = true → e.2.ret = 3))) with
          | some (j, i) => s.issueReturn n x k j i mover.val
          | none =>
            match s.domain x.slot.toNat with
            | some dom => if still && !x.owesLate then s else s.issueItem n x k dom dst mover.val
            | none => s
        else s
      | none => s
    | none => s

/-- ITEM_READ: a committed item is read at its destination (R211). -/
def execItemRead (strm : BitVec 12) (item : BitVec 24) (s : State) : Out :=
  s.event fun s =>
    match s.strm strm.toNat with
    | some x => if (x.items.lookup item.toNat).any (·.committed) then s.readItem strm.toNat item.toNat else s
    | none => s

/-! ## Slack and lateness (R213, R216) -/

/-- The module beat rate of the last window, in Mbeat/s: the least of the four dies' (R25); 0 before the first window. -/
def State.beatRate (s : State) : Nat :=
  [1, 2, 3].foldl (fun m d => min m (s.vc.mons.read {} d).rate.toNat) (s.vc.mons.read {} 0).rate.toNat

/-- The time item `j` is due, in ns of timestamp: t_open + h + (DUE0 + j × DUE_STEP) / b. -/
def State.dueNs (s : State) (x : Strm) (d j : Nat) : Int :=
  x.tOpen.toNat + x.heldNs + (stDue0 d + j * stDueStep d) * 1000 / s.beatRate

/-- ITEM_LATE: the consumer of an item that has not committed is ready; cause 0 is raised, the stream becomes immediate,
EV_LATE_LIFT records the slack (R216). Before the first beat-monitor window no rate is known and the slack is a free value. -/
def execItemLate (strm : BitVec 12) (item : BitVec 24) (s : State) : Out :=
  s.event fun s =>
    match s.strm strm.toNat with
    | some x =>
      let c := x.slot.toNat
      let j := item.toNat
      match s.course c, s.domain c with
      | some k, some dom =>
        if dom.running ∧ !dom.suspended ∧ 2 ≤ x.state.toNat ∧ x.state.toNat ≤ 4 ∧ j < (k.items x.decl.toNat).length
            ∧ !(x.items.lookup j).any (·.committed) ∧ !x.late.contains j then
          let slack : BitVec 32 := if s.beatRate = 0 then s.freeVal 32
            else BitVec.ofInt 32 (s.dueNs x (k.stream x.decl.toNat) j - s.clk.ts.toNat)
          let s1 := if s.beatRate = 0 then s.used else s
          let e : Event := { bib := x.bib, slot := x.slot, src := 4, arg := .lateLift strm item slack }
          (((s1.setStrm strm.toNat { x with cls := 0, late := x.late ++ [j] }).raiseHold c 0).raise e).count 0x0905 c 1
        else s
      | _, _ => s
    | none => s

/-! ## Halts (R217) -/

/-- STREAM_HALT: translation of a stream's item meets an absent page. -/
def execStreamHalt (strm : BitVec 12) (item : BitVec 24) (va : BitVec 48) (s : State) : Out :=
  s.event fun s =>
    match s.strm strm.toNat with
    | some x =>
      match s.course x.slot.toNat with
      | some k =>
        let a := k.itemVa x.decl.toNat item.toNat
        if x.pick = item.toNat ∧ item.toNat < (k.items x.decl.toNat).length ∧ a / 2 ^ 21 = va.toNat / 2 ^ 21 ∧ s.xlate k.bib a false true = .halt then
          s.haltStrm strm.toNat item.toNat va.toNat
        else s
      | none => s
    | none => s

/-- STREAM_RESUME: the page is resident and the stream resumes at its item; a stream that met a lost tile has stopped for good. -/
def execStreamResume (strm : BitVec 12) (s : State) : Out :=
  s.event fun s =>
    match s.strm strm.toNat with
    | some x =>
      match s.course x.slot.toNat with
      | some k =>
        let j := x.next.toNat
        let lost := (s.tileHdr (k.itemId x.decl.toNat j)).any (fun h => h.state = 2)
        if x.state = 3 ∧ s.xlate k.bib (k.itemVa x.decl.toNat j) false true ≠ .halt ∧ !lost then
          s.setStrm strm.toNat { x with state := 2 }
        else s
      | none => s
    | none => s

/-! ## Wait cycles and unwinding (R221, R222) -/

/-- Whether a stream is in a wait cycle: it cannot issue for want of a slot and its own domain's consumer waits for an item
of it. A stream waits for every starved stream of its domain and pool that has a late item, so each member of a cycle has both. -/
def State.inCycle (s : State) (n : Nat) (x : Strm) : Bool := s.starved n x && x.late ≠ []

/-- A tick token at the wait-for detector: cycles that persist are counted, others forgotten (R221, R29). -/
def State.tickLift (s : State) : State :=
  let live := s.lift.strm.filter (fun e => s.inCycle e.1 e.2)
  { s with lift.cycle := live.map (fun e => (e.1, s.lift.cycle.read 0 e.1 + 1)) }

/-- The time the oldest held item of a stream is due. -/
def State.oldestDue (s : State) (x : Strm) : Int :=
  match s.course x.slot.toNat, x.items with
  | some k, (j, _) :: _ => s.dueNs x (k.stream x.decl.toNat) j
  | _, _ => 0

/-- The committed items of a stream are to go back to their source homes; the stream is rewound to the first and capped. -/
def Strm.unwind (x : Strm) : Strm :=
  let back := x.items.filter (fun e => decide (e.2.committed ∧ e.2.ret = 0))
  match back with
  | [] => { x with cap := true, unwinds := if x.unwinds = 255 then 255 else x.unwinds + 1 }
  | (f, _) :: _ =>
    { x with
      state := 4, cap := true, unwinds := if x.unwinds = 255 then 255 else x.unwinds + 1, next := BitVec.ofNat 24 f
      ahead := (List.range (x.next.toNat - f)).foldl (fun l i =>
        if (back.any (fun e => e.1 = f + i)) then l else (f + i) :: l) x.ahead
      items := x.items.each (fun _ i => if i.committed ∧ i.ret = 0 then { i with ret := 3 } else i) }

/-- STREAM_UNWIND: a wait cycle has lasted 64 ticks; the stream in it whose oldest item is due latest is unwound. A second
unwind in a domain with no use finished in between is a violation naming ST_QUOTA (R221, R222). -/
def execStreamUnwind (strm other : BitVec 12) (s : State) : Out :=
  s.event fun s =>
    match s.strm strm.toNat, s.strm other.toNat with
    | some x, some y =>
      let n := strm.toNat
      let c := x.slot.toNat
      match s.course c, s.course y.slot.toNat, s.domain c with
      | some k, some ky, some dom =>
        if 64 ≤ s.lift.cycle.read 0 n ∧ 64 ≤ s.lift.cycle.read 0 other.toNat ∧ x.bib = y.bib
            ∧ samePool (k.stream x.decl.toNat) (ky.stream y.decl.toNat) ∧ s.oldestDue y ≤ s.oldestDue x then
          let back := x.items.filter (fun e => decide (e.2.committed ∧ e.2.ret = 0))
          let e : Event := { bib := x.bib, slot := x.slot, src := 4
                             arg := .streamUnwind strm other (BitVec.ofNat 24 ((back.map (·.1)).headD 0)) (BitVec.ofNat 24 back.length) }
          let s1 := ((s.setStrm n x.unwind).raise e).setDomain c { dom with unwinds := dom.unwinds + 1 }
          let s2 : State := { s1 with lift.cycle := s1.lift.cycle.remove n }
          if dom.unwinds ≠ 0 then s2.violate c .quota (dom.pc) 0 0 else s2
        else s
      | _, _, _ => s
    | _, _ => s

/-! ## Cancellation and restaging (R210, R223) -/

/-- CANCEL of a stream is written; a free slot takes no write (R223). -/
def State.writeCancel (s : State) (n : Nat) : State :=
  match s.strm n with
  | some x => (s.cancelStrm n).lateOver x.slot.toNat
  | none => s

/-- LIFT_STREAM_CANCEL: Zilunzor writes CANCEL. -/
def execLiftStreamCancel (strm : BitVec 12) (s : State) : Out := s.event fun s => s.writeCancel strm.toNat

/-- A stream whose station rule changes: every committed DEST 1 item whose station differs is to return and be issued again. -/
def Strm.restage (x : Strm) (moved : Nat → LiftItem → Bool) : Strm :=
  let back := x.items.filter (fun e => e.2.committed && e.2.ret = 0 && moved e.1 e.2)
  match back with
  | [] => x
  | (f, _) :: _ =>
    { x with
      next := BitVec.ofNat 24 (min f x.next.toNat)
      ahead := (List.range (x.next.toNat - f)).foldl (fun l i => if back.any (fun e => e.1 = f + i) then l else (f + i) :: l) x.ahead
      items := x.items.each (fun j i => if i.committed && i.ret = 0 && moved j i then { i with ret := 4 } else i) }

/-- At a boundary where S changes, DEST 1 items whose station differs under the new run go back and are issued again (R210). -/
def State.restage (s : State) (c : Nat) : State :=
  match s.course c, s.domain c with
  | some k, some d =>
    s.each (s.strmsOf c) (fun t e =>
      if stDest (k.stream e.2.decl.toNat) = 1 ∧ e.2.state.toNat < 5 then
        t.setStrm e.1 (e.2.restage (fun j i => decide (t0Station i.dst.off.toNat ≠ k.itemStn d e.2.decl.toNat j)))
      else t)
  | _, _ => s

end Sys2Proof.Machine
end

