-- ==== Sys2Proof/Machine/Gates.lean ====
section
/-! DEFINITION. Gates: signals, waits, completions, watchdogs, and the exchange of job-scope gates (R106, R173, R178 to R182). -/

namespace Sys2Proof.Machine

/-! ## Jobs and ports -/

/-- The job record of a bib, with its index. -/
def State.jobOf (s : State) (b : BitVec 12) : Option (Nat × Job) := s.sl.jobs.find? (fun e => e.2.args.bib = b)

/-- The port of a rail, dimension and direction (Table 1.4). -/
def portOf (rail dim : Nat) (minus : Bool) : Nat := 6 * rail + 2 * dim + minus.toNat

/-- The registers of a port. -/
def State.port (s : State) (n : Nat) : SlPort := s.sl.ports.read {} n

/-- A port's registers are written. -/
def State.setPort (s : State) (n : Nat) (p : SlPort) : State := { s with sl.ports := s.sl.ports.write {} n p }

/-- A MSG item waits at a port for its frame. -/
def State.sendMsg (s : State) (n : Nat) (m : Msg) : State :=
  let p := s.port n
  s.setPort n { p with msgq := p.msgq ++ [m] }

/-- Members of a job along a dimension. -/
def Job.size (j : Job) (dim : Nat) : Nat :=
  match dim with
  | 0 => j.args.jxm.toNat + 1
  | 1 => j.args.jym.toNat + 1
  | _ => j.args.jzm.toNat + 1

/-- Rounds of a ring of the job along a dimension (R106). -/
def Job.rounds (j : Job) (dim : Nat) : Nat := j.size dim / 2

/-! ## Exchange rounds (R106, R288) -/

/-- The number of an exchange. -/
def exchKey (gate : Nat) (epoch : BitVec 8) : Nat := gate * 256 + epoch.toNat

/-- The exchange of a gate's epoch. -/
def State.exch (s : State) (gate : Nat) (epoch : BitVec 8) : Verdict := s.crs.verdicts.read {} (exchKey gate epoch)

/-- The exchange of a gate's epoch is written. -/
def State.setExch (s : State) (gate : Nat) (epoch : BitVec 8) (v : Verdict) : State :=
  { s with crs.verdicts := s.crs.verdicts.write {} (exchKey gate epoch) v }

/-- First copies that have come from one direction: the most that either rail has brought (R288). -/
def Verdict.came (v : Verdict) (dim : Nat) (minus : Bool) : Nat :=
  max (v.got.read 0 (portOf 0 dim minus)) (v.got.read 0 (portOf 1 dim minus))

/-- First copies from one direction that the gate has taken in. -/
def Verdict.from_ (v : Verdict) (dim : Nat) (minus : Bool) : Nat :=
  v.came dim minus - (v.inbox.filter (fun e => e.1 = 2 * dim + minus.toNat)).length

/-- Rounds completed in a dimension. -/
def Verdict.doneIn (v : Verdict) (j : Job) (dim : Nat) : Nat :=
  min (min (v.from_ dim false) (v.from_ dim true)) (j.rounds dim)

/-- Rounds completed in the order x, y, z. -/
def Verdict.rounds (v : Verdict) (j : Job) : Nat :=
  let x := v.doneIn j 0
  let y := v.doneIn j 1
  let z := v.doneIn j 2
  if x < j.rounds 0 then x else if y < j.rounds 1 then x + y else x + y + z

/-- Rounds of the whole exchange. -/
def Job.allRounds (j : Job) : Nat := j.rounds 0 + j.rounds 1 + j.rounds 2

/-- The dimension of round `r` of an exchange. -/
def Job.roundDim (j : Job) (r : Nat) : Nat := if r < j.rounds 0 then 0 else if r < j.rounds 0 + j.rounds 1 then 1 else 2

/-- A round's message goes both ways on both rails (R288). -/
def State.sendRound (s : State) (j : Job) (local_ : Nat) (epoch : BitVec 8) (value : Bool) (r : Nat) : State :=
  let d := j.roundDim r
  s.each [portOf 0 d false, portOf 0 d true, portOf 1 d false, portOf 1 d true]
    (fun t p => t.sendMsg p (.control j.args.jtag (BitVec.ofNat 13 local_) epoch value false))

/-- Rounds whose turn has come are sent, and the exchange is ready when all are done. -/
def State.advanceExch (s : State) (j : Option Job) (gate local_ : Nat) (epoch : BitVec 8) : State :=
  let v := s.exch gate epoch
  if !v.formed then s
  else match j with
    | none => s.setExch gate epoch { v with ready := true }
    | some j =>
      let done := v.rounds j
      let upTo := min (done + 1) j.allRounds
      let t := s.each ((List.range (upTo - v.sent)).map (fun i => v.sent + i)) (fun t r => t.sendRound j local_ epoch v.overflow r)
      t.setExch gate epoch { v with sent := max v.sent upTo, ready := decide (j.allRounds ≤ done) }

/-! ## Completion (R179, R181) -/

/-- The members of a job whose completions have not reached an exchange (R106, R181): those out of reach of the rounds taken so far. -/
def Verdict.missing (v : Verdict) (j : Job) : List (BitVec 11) :=
  let near (dim own at_ : Nat) : Bool :=
    let n := j.size dim
    decide ((at_ + n - own) % n ≤ v.from_ dim false ∨ (own + n - at_) % n ≤ v.from_ dim true)
  (j.args.members.zipIdx.filter (fun e =>
    let x := e.2 % j.size 0
    let y := e.2 / j.size 0 % j.size 1
    let z := e.2 / (j.size 0 * j.size 1)
    let (ox, oy, oz) := (j.args.jxc.toNat, j.args.jyc.toNat, j.args.jzc.toNat)
    !(if z ≠ oz then near 2 oz z else if y ≠ oy then near 1 oy y else if x ≠ ox then near 0 ox x else v.formed))).map (·.1.module)

/-- The slot of the course that a module gate is bound to, with its local number (R173). -/
def State.gateSlot (s : State) (n : Nat) : Option (Nat × Nat) :=
  (s.crs.courses.find? (fun e => e.2.gateMap.contains n)).map (fun e => (e.1, e.2.gateMap.idxOf n))

/-- Whether gate `n` is the verdict gate of its course. -/
def State.isVerdict (s : State) (n : Nat) : Bool :=
  match s.gateSlot n with
  | some (c, g) => (s.course c).any (fun k => chVerdict k.hdr = g)
  | none => false

/-- One completion: waits for the epoch are released, EPOCH advances, COUNT takes NEXT. -/
def Gate.complete (g : Gate) : Gate :=
  { g with epoch := g.epoch + 1, count := g.next.setWidth 16, next := 0, done := g.done + 1, ticks := g.ticksNext, ticksNext := 0
           waits := g.waits.filter (fun e => e.1 ≠ g.epoch) }

/-- A completed epoch of the course's scale gate is a step boundary (R168). -/
def State.markBoundary (s : State) (n : Nat) : State :=
  match s.gateSlot n with
  | some (c, g) =>
    match s.course c, s.domain c with
    | some k, some d => if chScaleGate k.hdr = g then s.setDomain c { d with boundary := d.boundary + 1 } else s
    | _, _ => s
  | none => s

/-- The module's own completion of a job-scope epoch is formed and its exchange begins (R181); a non-verdict gate completes
with the exchange. -/
def State.localComplete (s : State) (n : Nat) : State :=
  let g := s.gate n
  let v := s.exch n g.epoch
  match s.gateSlot n with
  | some (_, l) => (s.setExch n g.epoch { v with formed := true }).advanceExch ((s.jobOf g.bib).map (·.2)) n l g.epoch
  | none => s

/-- Completions that follow from COUNT at TARGET, at most two (R179). -/
def State.settleGate (s : State) (n : Nat) : State :=
  let one (t : State) : State :=
    let g := t.gate n
    if g.state = 1 ∧ g.count = g.target then
      (if !g.scope then (t.setGate n g.complete).markBoundary n
       else if t.isVerdict n then t
       else
         let u := if (t.exch n g.epoch).formed then t else t.localComplete n
         if (u.exch n g.epoch).ready then (((u.setExch n g.epoch {}).setGate n g.complete).markBoundary n) else u)
    else t
  one (one s)

/-- The verdict gate's epoch completes with the step (Table 5.3). -/
def State.completeVerdict (s : State) (n : Nat) : State :=
  let g := s.gate n
  (s.setExch n g.epoch {}).setGate n g.complete

/-- What an over-commit names: the gate and both epochs (R180). -/
def gateDetail (n : Nat) (e epoch : BitVec 8) : BitVec 128 := BitVec.ofNat 128 (n + e.toNat * 2 ^ 15 + epoch.toNat * 2 ^ 23)

/-- A gate over-commit is a course violation for which the bib receives ST_QUOTA (R180). -/
def State.overCommit (s : State) (n : Nat) (e : BitVec 8) : State :=
  match s.gateSlot n with
  | some (c, _) => s.violateAs c .quota .quota 0 0 (gateDetail n e (s.gate n).epoch)
  | none => s

/-- A signal for epoch `e` reaches gate `n` (R179, R180). -/
def State.signalGate (s : State) (n : Nat) (e : BitVec 8) : State :=
  let g := s.gate n
  if g.state ≠ 1 then s
  else if e = g.epoch ∧ g.count ≠ g.target then
    (s.setGate n { g with count := g.count + 1, counted := g.counted + 1 }).settleGate n
  else if e = g.epoch + 1 ∧ g.next.toNat < g.target.toNat ∧ g.next.toNat < 511 then
    s.setGate n { g with next := g.next + 1, counted := g.counted + 1 }
  else s.overCommit n e

/-- GATE_SIGNAL: a signal arrives; it is no longer on its way. -/
def execGateSignal (gate : BitVec 15) (epoch : BitVec 8) (s : State) : Out :=
  s.event fun s =>
    let t : State := { s with crs.signals := s.crs.signals.erase (gate.toNat, epoch) }
    t.signalGate gate.toNat epoch

/-- Whether a wait for epoch `e` passes at once: one of the 128 epochs before EPOCH (R179). -/
def Gate.passed (g : Gate) (e : BitVec 8) : Bool := decide (1 ≤ (g.epoch - e).toNat ∧ (g.epoch - e).toNat ≤ 128)

/-- GATE_WAIT: a wait of a domain passes, blocks and starts the watchdog, or is an over-commit (R179, R180, R182). -/
def execGateWait (gate : BitVec 15) (epoch : BitVec 8) (slot : BitVec 8) (s : State) : Out :=
  s.event fun s =>
    let n := gate.toNat
    let g := s.gate n
    if g.state ≠ 1 then s
    else if g.passed epoch then s
    else if epoch = g.epoch ∨ epoch = g.epoch + 1 then
      let first := !g.waits.any (fun e => e.1 = epoch)
      s.setGate n { g with waits := if g.waits.contains (epoch, slot) then g.waits else g.waits ++ [(epoch, slot)]
                           ticks := if first && epoch = g.epoch then 0 else g.ticks
                           ticksNext := if first && epoch ≠ g.epoch then 0 else g.ticksNext }
    else s.overCommit n epoch

/-- A tick token at a gate: the watchdog of an epoch counts while a wait for it is blocked whose domain is not held (R182). -/
def State.tickGate (s : State) (n : Nat) : State :=
  let g := s.gate n
  let counts (e : BitVec 8) : Bool := g.state = 1 && g.waits.any (fun x => x.1 = e && !s.held x.2.toNat)
  s.setGate n { g with ticks := g.ticks + (counts g.epoch).toNat, ticksNext := g.ticksNext + (counts (g.epoch + 1)).toNat }

/-- The missing modules of a job-scope gate as the record holds them: how many, and the first six in rank order (DESIGN CHOICE, log
entry 48: the spec gives the names no layout). -/
def missingBits (l : List (BitVec 11)) : Nat :=
  min l.length 127 + (((List.range 6).map (fun i => (l.getD i 0).toNat * 2 ^ (7 + 11 * i))).sum)

/-- GATE_WATCHDOG_TRIP: WD ms have been counted; the gate trips, every domain of the bib is suspended with ST_FAULT and the
record names the gate, the epoch, COUNT and TARGET, and for a job-scope gate the modules whose completions did not arrive (R182, R109). -/
def execGateWatchdogTrip (gate : BitVec 15) (s : State) : Out :=
  s.event fun s =>
    let n := gate.toNat
    let g := s.gate n
    if g.state = 1 ∧ g.waits ≠ [] ∧ 1000 * g.wd.toNat ≤ max g.ticks g.ticksNext then
      let base : BitVec 128 := BitVec.ofNat 128 (n + g.epoch.toNat * 2 ^ 15 + g.count.toNat * 2 ^ 23 + g.target.toNat * 2 ^ 39)
      let who : BitVec 128 := match g.scope, s.jobOf g.bib with
        | true, some (_, j) => BitVec.ofNat 128 (missingBits ((s.exch n g.epoch).missing j)) <<< 55
        | _, _ => 0
      match s.gateSlot n with
      | some (c, _) => (s.setGate n { g with state := 2 }).violate c .fault 0 0 (base ||| who)
      | none => s.setGate n { g with state := 2 }
    else s

/-- Gates of a course as at a step start: epochs and counts from zero; what they had counted is discarded as a counted term
(R326, R333). -/
def State.resetGates (s : State) (k : Course) : State :=
  s.each k.gateMap (fun t n =>
    let g := t.gate n
    t.setGate n { g with state := 1, epoch := 0, count := 0, next := 0, waits := [], ticks := 0, ticksNext := 0
                         dropped := g.dropped + g.count.toNat + g.next.toNat })
    |> fun t => { t with crs.verdicts := t.crs.verdicts.keep (fun e _ => !k.gateMap.contains (e / 256))
                         crs.signals := t.crs.signals.filter (fun e => !k.gateMap.contains e.1) }

end Sys2Proof.Machine
end

