-- ==== Sys2Proof/Machine/Holds.lean ====
section
/-! DEFINITION. The hold of a course domain: raised, stopped, drained, cleared, paused by firmware, and too long (R184 to R186). -/

namespace Sys2Proof.Machine

/-- HOLD_RAISE (H1): a cause of Table 8.16 is raised for a running domain. -/
def execHoldRaise (slot : BitVec 8) (cause : Fin 7) (s : State) : Out :=
  s.event fun s =>
    match s.domain slot.toNat with
    | some d => if d.running then s.raiseHold slot.toNat cause.val else s
    | none => s

/-- HOLD_STOPPED (H2): feeders, inject queues and the sequencer of the held domain have stopped. -/
def execHoldStopped (slot : BitVec 8) (s : State) : Out :=
  s.event fun s =>
    let h := s.hold slot.toNat
    if h.cause ≠ 0 then s.setHold slot.toNat { h with stopped := true } else s

/-- Whether a sum is in flight in a cell of the domain's quarters. -/
def State.sumsInFlight (s : State) (d : Domain) : Bool :=
  s.arr.cells.any (fun k c => c.sum.isSome && d.run.contains (k / 67600)
    && decide (d.quarter ≤ k % 260 / 65 ∧ k % 260 / 65 < d.quarter + d.w))

/-- HOLD_DRAINED (H3): every sum in flight has entered its drain. -/
def execHoldDrained (slot : BitVec 8) (s : State) : Out :=
  s.event fun s =>
    let h := s.hold slot.toNat
    match s.domain slot.toNat with
    | some d => if h.stopped ∧ !s.sumsInFlight d then s.setHold slot.toNat { h with drained := true } else s
    | none => s

/-- HOLD_CLEAR (H4, H5): a cause clears; cause 3 stands while PAUSE is 1 and cause 0 while an item of the domain is late. -/
def execHoldClear (slot : BitVec 8) (cause : Fin 7) (s : State) : Out :=
  s.event fun s =>
    let c := slot.toNat
    let h := s.hold c
    let stands := (cause = 3 && h.pause) || (cause = 0 && (s.strmsOf c).any (fun e => e.2.late ≠ []))
    if h.cause.getLsbD cause.val ∧ !stands then s.clearHold c cause.val else s

/-- HOLD_LONG_TIMEOUT: a hold has lasted longer than LIMIT, by the ticks that CURRENT counts; EV_HOLD_LONG is recorded once for
that hold, with the time so far (R29, R186). -/
def execHoldLongTimeout (slot : BitVec 8) (s : State) : Out :=
  s.event fun s =>
    let c := slot.toNat
    let h := s.hold c
    if h.cause ≠ 0 ∧ !h.marked ∧ 100 * h.limit.toNat < h.current.toNat then
      (s.setHold c { h with marked := true }).raise
        { bib := ((s.domain c).map (·.bib)).getD 0, slot := slot, src := 0, arg := .holdLong h.cause h.current }
    else s

/-- PAUSE of HOLD_STAT is written: 1 raises cause 3 for the domain, 0 clears it (Table 8.17). -/
def State.writePause (s : State) (c : Nat) (on : Bool) : State :=
  let t := s.setHold c { s.hold c with pause := on }
  match t.domain c with
  | some d => if on then (if d.running then t.raiseHold c 3 else t)
      else if (t.hold c).cause.getLsbD 3 then t.clearHold c 3 else t
  | none => t

/-- HOLD_PAUSE_WRITE. -/
def execHoldPauseWrite (slot : BitVec 8) (on : Bool) (s : State) : Out :=
  s.event fun s => s.writePause slot.toNat on

/-- LIMIT (R186): the operator sets LIMIT of a domain; 0 is stored as 1. -/
def execLimit (c : Hdr) (lim : BitVec 16) (s : State) : Out :=
  s.command 0x0207 c fun s c =>
    s.onCourse c fun _ =>
      (s.setHold c.slot.toNat { s.hold c.slot.toNat with limit := if lim = 0 then 1 else lim }).reply c .ok

end Sys2Proof.Machine
end

