-- ==== Sys2Proof/Machine/Rings.lean ====
section
/-! DEFINITION. Rinks and runs: ring order, contiguity, passed stations, stage distances, and the patches that fit a course to
its station count (R15, R56 to R60, R169, R173, R174). -/

namespace Sys2Proof.Machine

/-! ## Ring order (Tables 1.3 and 3.4) -/

/-- The Rinks of a configuration, each by its dies in ring order. -/
def rinksOf (cfg : Nat) : List (List Nat) :=
  match cfg with
  | 2 => [[0, 1], [2], [3]]
  | 3 => [[0], [1], [2, 3]]
  | 4 => [[0, 1], [2, 3]]
  | 5 => [[0, 1, 2, 3]]
  | _ => [[0], [1], [2], [3]]

/-- The dies of the Rink that holds a die. -/
def rinkOfDie (cfg die : Nat) : List Nat := ((rinksOf cfg).find? (fun r => r.contains die)).getD [die]

/-- The stations of a Rink in ring order: active positions that are not withdrawn, which are passed (R56, R68). -/
def State.ringOf (s : State) (dies : List Nat) : List Nat :=
  dies.flatMap (fun d => ((List.range 26).map (fun i => 26 * d + i)).filter (fun p => s.active p && !(s.stn p).wdDone))

/-- A list from its `i`-th element round to the one before it. -/
def rotate (l : List Nat) (i : Nat) : List Nat := l.drop i ++ l.take i

/-- Whether a run is contiguous in the ring order of a Rink (R60). -/
def State.contiguous (s : State) (dies run : List Nat) : Bool :=
  let r := s.ringOf dies
  match run with
  | [] => true
  | p :: _ => decide (run.length ≤ r.length) && (rotate r (r.idxOf p)).take run.length = run

/-- Whether R57 allows a carve width on a Rink: four groups only on one die. -/
def widthOk (w : Nat) (dies : List Nat) : Bool := decide (w ≠ 1 ∨ dies.length = 1)

/-- Positions from station `p` on to station `q` in the ring of `dies`, `p` and `q` left out. -/
def positionsBetween (dies : List Nat) (p q : Nat) : List Nat :=
  let all := dies.flatMap (fun d => (List.range 26).map (fun i => 26 * d + i))
  ((rotate all (all.idxOf p)).drop 1).takeWhile (fun x => x ≠ q)

/-- Positions that a run passes: those inside its span that are not its stations (R60). -/
def runPasses (dies run : List Nat) : List Nat :=
  (run.zip (run.drop 1)).flatMap (fun e => positionsBetween dies e.1 e.2)

/-- The configuration in force. -/
def State.cfg (s : State) : Nat := s.rink.cfg.active.toNat

/-- Whether a running domain passes station `p` with a quarter of `q` to `q + w − 1` in its quarter set (R60). -/
def State.passedBy (s : State) (p q w : Nat) : Bool :=
  s.crs.domains.any (fun _ d => d.running && (runPasses (rinkOfDie s.cfg (d.run.headD 0 / 26)) d.run).contains p
    && decide (q < d.quarter + d.w ∧ d.quarter < q + w))

/-- Beats of the hop from station `p` to the next station `q` of a run (R169, Table 3.3). -/
def hopBeats (dies : List Nat) (p q : Nat) : Nat :=
  let passed := positionsBetween dies p q
  let crossings := ((p :: passed).zip (passed ++ [q])).filter (fun e => e.1 / 26 ≠ e.2 / 26)
  (if crossings = [] then 4 else 40 * crossings.length) + 2 * passed.length

/-- D(0, j) for every station of a run (R169). -/
def stageDistances (dies : List Nat) (w : Nat) (run : List Nat) : List Nat :=
  (run.drop 1).zip run |>.foldl (fun l e => l ++ [l.getLast?.getD 0 + 65 * w + hopBeats dies e.2 e.1]) (if run = [] then [] else [0])

/-- D(0, j) of a domain in the configuration in force. -/
def State.distances (s : State) (d : Domain) : List Nat := stageDistances (rinkOfDie s.cfg (d.run.headD 0 / 26)) d.w d.run

/-- Declared stage distances that differ from D(0, j). -/
def stageDiff (ds stages : List Nat) : Nat := ((ds.zip stages).filter (fun e => e.1 ≠ e.2)).length

/-- STAGE_DIFF: declared stage distances that differ from D(0, j) of the present run, which is evaluated again (R169). -/
def State.countStages (s : State) (c : Nat) : State :=
  match s.course c, s.domain c with
  | some k, some d =>
    let ds := s.distances d
    let n := stageDiff ds k.stages
    let t := s.setCourse c { k with dist := ds }
    if n = 0 then t else t.count 0x080A c n
  | _, _ => s

/-- A grant of the run that the load has already evaluated counts nothing again (R169). -/
def State.grantStages (s : State) (c : Nat) : State :=
  match s.course c, s.domain c with
  | some k, some d => if s.distances d = k.dist then s else s.countStages c
  | _, _ => s

/-! ## Configuration changes (R58) -/

/-- Whether a change from `a` to `b` splits or joins the Rink of a die. -/
def affected (a b die : Nat) : Bool := decide (rinkOfDie a die ≠ rinkOfDie b die)

/-- Whether a domain fits the configuration `cfg`. -/
def State.fits (s : State) (cfg : Nat) (d : Domain) : Bool :=
  let dies := rinkOfDie cfg (d.run.headD 0 / 26)
  s.contiguous dies d.run && widthOk d.w dies

/-- Whether a die waits for a change of configuration. -/
def State.changing (s : State) (die : Nat) : Bool := s.rink.cfg.busy && affected s.cfg s.rink.cfg.request.toNat die

/-- Whether a domain has quarters on a die that waits for a change. -/
def State.touchesChange (s : State) (d : Domain) : Bool := d.run.any (fun p => s.changing (p / 26))

/-- Step 3 of R58: no domain that does not fit remains on an affected die, so no segment starts there. -/
def State.changeStops (s : State) (d : Domain) : Bool :=
  s.touchesChange d && s.crs.domains.all (fun e => !(e.2.running && s.touchesChange e.2) || s.fits s.rink.cfg.request.toNat e.2)

/-! ## Patches (R173 to R175) -/

/-- ⌈c / s⌉. -/
def ceilDiv (c s : Nat) : Nat := (c + s - 1) / s

/-- The function of Table 8.10a named by KIND; reserved kinds give none. -/
def patchFun (kind s m x y z c : Nat) : Option Int :=
  match kind with
  | 1 => some s
  | 2 => some m
  | 3 => some x
  | 4 => some y
  | 5 => some z
  | 6 => some (ceilDiv c s)
  | 7 => some (c % s : Nat)
  | 8 => some (ceilDiv c m)
  | 9 => some (c % m : Nat)
  | 10 => some ((c : Int) - s * ((ceilDiv c s : Int) - 1))
  | _ => none

/-- The value of a patch record: A + B × f. -/
def patchValue (r s m x y z : Nat) : Option Int := (patchFun (paKind r) s m x y z (paC r)).map (fun f => paA r + paB r * f)

/-- A patch record written into its target field. -/
def Course.patchOne (k : Course) (s m x y z r : Nat) : Course :=
  match patchValue r s m x y z with
  | some v =>
    let w (t : Nat) : Nat := setBits t (paBit r) (paWidth r) (v % 2 ^ paWidth r).toNat
    if paTarget r = 1 then { k with segs := k.segs.modify (paRecord r) w }
    else { k with uses := k.uses.modify (paRecord r) w }
  | none => k

/-- The module count of a bib's job: 1 without one. -/
def State.jobM (s : State) (b : BitVec 12) : Nat :=
  match s.jobOf b with
  | some (_, j) => j.size 0 * j.size 1 * j.size 2
  | none => 1

/-- The coordinates that patches see: those of the bib's job (F7 of Table 15.5), without one the module's own (R277), 0 before a
system map is installed. DEDUCED (log entry 21). -/
def State.coords (s : State) (b : BitVec 12) : Nat × Nat × Nat :=
  match s.jobOf b, s.sl.sysmap with
  | some (_, j), _ => (j.args.jxc.toNat, j.args.jyc.toNat, j.args.jzc.toNat)
  | none, some m => (m.x.toNat, m.y.toNat, m.z.toNat)
  | none, none => (0, 0, 0)

/-- Every patch of a course evaluated for `n` stations and the job's module count. -/
def State.patched (s : State) (k : Course) (n : Nat) : Course :=
  let (x, y, z) := s.coords k.bib
  k.patches.foldl (fun k r => k.patchOne n (s.jobM k.bib) x y z r) k

/-! ## Patches (R174) -/

/-- The patchable fields of Tables 8.5 and 8.6: section type, lowest bit, width, whether signed. -/
def patchable : List (Nat × Nat × Nat × Bool) :=
  [(1, 241, 7, false), (1, 234, 7, false), (1, 214, 20, false), (1, 174, 20, false), (2, 497, 7, false), (2, 490, 7, false),
    (2, 352, 24, false), (2, 336, 16, true), (2, 320, 16, true), (2, 272, 24, false), (2, 256, 16, true), (2, 240, 16, true),
    (2, 192, 24, false), (2, 176, 16, true), (2, 160, 16, true), (2, 140, 20, false), (2, 92, 40, false)]

/-- The patchable field that a patch record targets. -/
def patchField (r : Nat) : Option (Nat × Nat × Nat × Bool) :=
  patchable.find? (fun e => decide (e.1 = paTarget r ∧ e.2.1 = paBit r ∧ e.2.2.1 = paWidth r))

/-- Whether a value fits a field of `w` bits. -/
def fitsField (w : Nat) (sgn : Bool) (v : Int) : Bool :=
  if sgn then decide (-(2 ^ (w - 1) : Int) ≤ v ∧ v < 2 ^ (w - 1)) else decide (0 ≤ v ∧ v < 2 ^ w)

/-- Whether a patch of the course writes one of the fields of a record. -/
def Course.writesField (k : Course) (kind i : Nat) (lows : List Nat) : Bool :=
  k.patches.any (fun r => decide (paTarget r = kind ∧ paRecord r = i) && lows.contains (paBit r))

/-- Whether the patches of a course hold for `n` stations: targets patchable, results in range, a patched S_SEG + FIRST within the count and
a patched STN below its segment's S_SEG (R174). What no patch writes, a run meets as Table 8.18 says. -/
def State.patchesFit (s : State) (k : Course) (n : Nat) : Bool :=
  let (x, y, z) := s.coords k.bib
  let p := s.patched k n
  k.patches.all (fun r => match patchField r with
      | some e => decide (paRecord r < (if paTarget r = 1 then k.segs.length else k.uses.length))
          && (patchValue r n (s.jobM k.bib) x y z).any (fitsField e.2.2.1 e.2.2.2)
      | none => false)
    && p.segs.zipIdx.all (fun e =>
      (!k.writesField 1 e.2 [241, 234] || decide (sgS e.1 + sgFirst e.1 ≤ n))
        && ((p.uses.zipIdx.drop (sgUseFirst e.1)).take (sgUseCount e.1)).all (fun u =>
          !k.writesField 2 u.2 [497] || decide (usStn u.1 = 0x7F ∨ usStn u.1 < sgS e.1)))

end Sys2Proof.Machine
end

