-- ==== Sys2Proof/Machine/Carves.lean ====
section
/-! DEFINITION. The carve scheduler: run requests, grants, waiting, and the end of runs (R59, R60, R293 to R297). -/

namespace Sys2Proof.Machine

/-! ## What can be granted (R295) -/

/-- The quarters of a group. -/
def groupQuarters (q w : Nat) : List Nat := (List.range w).map (fun i => q + i)

/-- The lowest quarters of the groups of width `w`. -/
def groupsOf (w : Nat) : List Nat := (List.range (4 / w)).map (fun i => i * w)

/-- The WIDTH code of a carve of width `w`. -/
def widthCode (w : Nat) : BitVec 2 := if w = 4 then 0 else if w = 2 then 1 else 2

/-- Whether a quarter is bound, draining, being cleared or under check: only a cleared quarter is bound again (R297). -/
def State.quarterBusy (s : State) (p q : Nat) : Bool :=
  (s.stn p).bibOf q ≠ 0 || s.rink.draining.contains (4 * p + q) || s.rink.clearing.contains (4 * p + q)
    || s.rink.checking.contains (4 * p + q)

/-- Whether a station's group at quarter `q` of width `w` can be granted: WITHDRAW is 0, the group is free, no other width is
in use on the station, and no running domain passes it (R59, R60, R295). -/
def State.grantable (s : State) (p q w : Nat) : Bool :=
  let r := s.stn p
  !r.withdraw && (groupQuarters q w).all (fun i => !s.quarterBusy p i)
    && ((List.range 4).all (fun i => !s.quarterBusy p i) || r.width = widthCode w)
    && !s.passedBy p q w && !s.changing (p / 26)

/-- The stations from the `i`-th of a Rink on that can be granted at quarter `q`, at most `n`. -/
def State.stretch (s : State) (ring : List Nat) (i n q w : Nat) (barred : List Nat) : List Nat :=
  ((rotate ring i).takeWhile (fun p => s.grantable p q w && !barred.contains p)).take n

/-- A possible grant: its lowest quarter and stations. -/
structure Offer where
  q   : Nat
  run : List Nat
  deriving DecidableEq, Repr

/-- Whether offer `a` comes before `b`: more stations, then the lower first module station, then the lower quarter (R295). -/
def State.better (s : State) (a b : Offer) : Bool :=
  let la := s.moduleStn (a.run.headD 0)
  let lb := s.moduleStn (b.run.headD 0)
  decide (b.run.length < a.run.length ∨ (a.run.length = b.run.length ∧ (la < lb ∨ (la = lb ∧ a.q < b.q))))

/-- Every offer of at most `n` stations for carves of width `w`. -/
def State.offers (s : State) (n w : Nat) (barred : List Nat) : List Offer :=
  ((rinksOf s.cfg).filter (widthOk w)).flatMap (fun dies =>
    let ring := s.ringOf dies
    (groupsOf w).flatMap (fun q => (List.range ring.length).map (fun i => { q := q, run := s.stretch ring i n q w barred })))

/-- The grant the scheduler makes: S is the least of S_DECL, CARVES and the longest run, and not below S_MIN (R295). A failed
module grants nothing (R20). -/
def State.grant (s : State) (k : Course) (a : BibArgs) (barred : List Nat) : Option Offer :=
  let n := min (chSDecl k.hdr) a.carves.toNat
  let best := (s.offers n (carveWidth (chWidth k.hdr)) barred).foldl (fun m o =>
    match m with
    | none => some o
    | some b => if s.better o b then some o else some b) none
  best.filter (fun o => !s.rink.failed && decide (a.sMin.toNat ≤ o.run.length ∧ 0 < o.run.length))

/-! ## Waiting requests (R296) -/

/-- Whether a waiting request could use station `p` at some group: free, or held by a running domain (R296). -/
def State.usable (s : State) (p w : Nat) : Bool :=
  !(s.stn p).withdraw && (groupsOf w).any (fun q =>
    (groupQuarters q w).all (fun i => !s.quarterBusy p i || (s.ownerOf p i).isSome))

/-- The stations that a waiting request could use: those in stretches of at least S_MIN (R296). -/
def State.couldUse (s : State) (w sMin : Nat) : List Nat :=
  ((rinksOf s.cfg).filter (widthOk w)).flatMap (fun dies =>
    let ring := s.ringOf dies
    ring.filter (fun p => (List.range ring.length).any (fun i =>
      let l := (rotate ring i).takeWhile (fun x => s.usable x w)
      l.contains p && decide (sMin ≤ l.length))))

/-- The requests served before the one of `slot`: higher PRIO, or equal PRIO and earlier (R296). -/
def earlier (l : List RunReq) (slot : BitVec 8) : List RunReq :=
  match l.find? (fun r => r.slot = slot) with
  | some r => l.filter (fun x => decide (r.prio.toNat < x.prio.toNat)) ++
      (l.takeWhile (fun x => x.slot ≠ slot)).filter (fun x => x.prio = r.prio)
  | none => []

/-- Stations barred to a request by earlier ones that have waited 1 s. -/
def State.barredFor (s : State) (before : List RunReq) : List Nat :=
  (before.filter (·.waited)).flatMap (fun r =>
    match s.course r.slot.toNat with
    | some k => s.couldUse (carveWidth (chWidth k.hdr)) (s.bib r.bib).args.sMin.toNat
    | none => [])

/-- Whether an earlier request could be met now. -/
def State.couldMeet (s : State) (r : RunReq) : Bool :=
  match s.course r.slot.toNat with
  | some k => (s.grant k (s.bib r.bib).args []).isSome
  | none => false

/-! ## Grants and ends -/

/-- The stations of a grant are bound to a bib (Table 3.6). -/
def State.bindRun (s : State) (b : BitVec 12) (w q : Nat) (run : List Nat) : State :=
  s.each run (fun t p =>
    let r := (groupQuarters q w).foldl (fun r i => Stn.bind r i b) (t.stn p)
    t.setStn p { r with width := widthCode w })

/-- CARVE_GRANT: the request of a slot is served when no request before it can be met (R296); its domain starts with S
stations, patched for S, its gates as at a step start, and the bib runs (R175, R293, R295). A piece of thermal hold in
progress holds it too (R38). -/
def execCarveGrant (slot : BitVec 8) (s : State) : Out :=
  s.event fun s =>
    let c := slot.toNat
    match s.crs.requests.find? (fun r => r.slot = slot), s.course c, s.domain c with
    | some r, some k, some d =>
      let before := earlier s.crs.requests slot
      if before.any s.couldMeet || (s.bib r.bib).state ≠ .admitted then s
      else match s.grant k (s.bib r.bib).args (s.barredFor before) with
        | none => s
        | some o =>
          let w := carveWidth (chWidth k.hdr)
          let n := o.run.length
          let d' : Domain := { d with running := true, suspended := false, s := n, run := o.run, quarter := o.q, w := w
                                      pc := 0, ord := 0, begun := 0, live := [], loops := [], passes := [], finishes := []
                                      usePass := [], ends := [], tokens := 0, stepNo := 0, tokenNo := 0, ords := [], boundary := 0 }
          let t := ((s.bindRun r.bib w o.q o.run).setBib r.bib { s.bib r.bib with state := .running }).setDomain c d'
          let t1 : State := { t with crs.requests := t.crs.requests.filter (fun x => x.slot ≠ slot) }
          let t2 := ((t1.setCourse c (t1.patched k n)).resetGates k).grantStages c
          let t3 := if (t2.hold c).pause then t2.raiseHold c 3 else t2
          let t4 := if t3.vc.piece.isSome then t3.raiseHold c 4 else t3
          t4.replyAs d.runHdr .ok false 0 (.grant n)
    | _, _, _ => s

/-- CARVE_WAIT_TIMEOUT: a request has waited 1 s, a million ticks (R29, R296). -/
def execCarveWaitTimeout (slot : BitVec 8) (s : State) : Out :=
  s.event fun s =>
    { s with crs.requests := s.crs.requests.map (fun r =>
        if r.slot = slot ∧ 1000000 ≤ r.ticks then { r with waited := true } else r) }

/-- Quarters that are given up: their uses and queued tiles end, they drain, are cleared and checked before they are bound again (Table 3.7 C4 to C7, R297). -/
def State.giveUp (s : State) (b : BitVec 12) (run : List Nat) (q w : Nat) : State :=
  let l := run.flatMap (fun p => (groupQuarters q w).filterMap (fun i =>
    if (s.stn p).bibOf i = b && !s.rink.draining.contains (4 * p + i) && !s.rink.clearing.contains (4 * p + i)
      && !s.rink.checking.contains (4 * p + i) then some (4 * p + i) else none))
  { s with rink.draining := s.rink.draining ++ l
           arr.uses := s.arr.uses.keep (fun k _ => !(run.contains (k / 4) && decide (q ≤ k % 4 ∧ k % 4 < q + w)))
           arr.inject := s.arr.inject.each (fun _ x => x.filter (fun e => !(run.contains (e.2 / 4) && decide (q ≤ e.2 % 4 ∧ e.2 % 4 < q + w)))) }

/-- A domain's run is over: stations are given up, causes of its hold and its blocked waits go, the slot has no domain. -/
def State.dropRun (s : State) (c : Nat) : State :=
  match s.domain c, s.course c with
  | some d, some k =>
    let t := s.giveUp d.bib d.run d.quarter d.w
    let h := t.hold c
    let t1 := t.setHold c { h with cause := 0, current := 0, stopped := false, drained := false, marked := false }
    let t2 := t1.each k.gateMap (fun u n =>
      let g := u.gate n
      u.setGate n { g with waits := g.waits.filter (fun e => e.2.toNat ≠ c) })
    { t2 with crs.domains := t2.crs.domains.remove c
              crs.requests := t2.crs.requests.filter (fun r => r.slot.toNat ≠ c) }
  | _, _ => s

/-- The run of a slot ends: its bib, if running, is admitted again (Table 14.2), and the RUN gets its FINAL reply. -/
def State.endRun (s : State) (c : Nat) (st : Status) : State :=
  match s.domain c with
  | some d =>
    let t := s.dropRun c
    let r := t.bib d.bib
    let t1 := if r.state = .running then t.setBib d.bib { r with state := .admitted } else t
    t1.reply d.runHdr st
  | none => s

/-- RUN_END: every step of the run is done and no segment runs (R297). -/
def execRunEnd (slot : BitVec 8) (s : State) : Out :=
  s.event fun s =>
    match s.domain slot.toNat with
    | some d => if d.running ∧ d.live = [] ∧ d.tokens = 0 ∧ d.steps ≠ 0 ∧ d.steps ≤ d.stepsDone then s.endRun slot.toNat .ok else s
    | none => s

/-- RUN: a run of the course of the slot is requested; a bib runs at most one of its courses at a time (R160, R295). A request
that cannot be granted at once waits (R341). -/
def execRun (c : Hdr) (steps : BitVec 48) (inputSeq : BitVec 64) (s : State) : Out :=
  s.command 0x0203 c fun s c =>
    s.onCourse c fun k =>
      if s.crs.domains.any (fun _ d => d.bib = c.bib) then s.reply c .busy
      else
        let t := s.setDomain c.slot.toNat { bib := c.bib, steps := steps.toNat, inputSeq := inputSeq, runHdr := c }
        let t1 : State := { t with crs.requests := t.crs.requests ++
          [{ slot := c.slot, bib := c.bib, prio := (s.bib c.bib).args.prio, waited := false }] }
        if (s.grant k (s.bib c.bib).args (s.barredFor s.crs.requests)).isSome then t1 else t1.replyAs c .deferred false 0 .none

/-- What cancelling a run leaves: streams cancelled (R223), locker entries freed (R142), the run over. The status of the RUN's
FINAL reply is not stated: a free value. -/
def State.cancelRun (s : State) (c : Nat) : State :=
  match s.domain c with
  | some d => (((s.cancelStreams c).freeLocker d.bib).endRun c (Config.openStatus s.freeCtr)).used
  | none => s

/-- CANCEL: the run of the slot ends at once. -/
def execCancel (c : Hdr) (s : State) : Out :=
  s.command 0x0204 c fun s c =>
    s.onCourse c fun _ =>
      match s.domain c.slot.toNat with
      | some _ => (s.cancelRun c.slot.toNat).reply c .ok
      | none => s.reply c .busy

end Sys2Proof.Machine
end

