-- ==== Sys2Proof/Machine/Sequencer.lean ====
section
/-! DEFINITION. The sequencer: segments in token order, station counts at boundaries, the step-end token (R165 to R168, R175,
R176). -/

namespace Sys2Proof.Machine

/-! ## Stations and uses of a segment -/

/-- Whether use record `u` runs on station offset `off` of its segment (R167). -/
def useRunsOn (u off : Nat) : Bool := usStn u = 0x7F || usStn u = off

/-- The use records of a segment, by index. -/
def Course.usesOf (k : Course) (i : Nat) : List Nat := (List.range (sgUseCount (k.seg i))).map (fun j => sgUseFirst (k.seg i) + j)

/-- The use records of a segment that run on station offset `off`, in record order. -/
def Course.usesOn (k : Course) (i off : Nat) : List Nat := (k.usesOf i).filter (fun u => useRunsOn (k.use u) off)

/-- Uses to finish on a station over all passes of a segment. -/
def Course.useTotal (k : Course) (i off : Nat) : Nat := (k.usesOn i off).length * sgRepeat (k.seg i)

/-- Whether a live segment has finished its uses on station offset `off`. -/
def LiveSeg.doneOn (l : LiveSeg) (k : Course) (i off : Nat) : Bool := decide (k.useTotal i off ≤ l.done.read 0 off)

/-- Whether every use of a live segment has delivered its last result (R165). -/
def LiveSeg.allDone (l : LiveSeg) (k : Course) (i : Nat) : Bool := (List.range (sgS (k.seg i))).all (fun off => l.doneOn k i off)

/-- The run offsets that a segment uses. -/
def segOffsets (seg : Nat) : List Nat := (List.range (sgS seg)).map (fun i => sgFirst seg + i)

/-- Whether every earlier segment that ran on a station of segment `i` has finished its uses there (R165). -/
def Domain.stationsFree (d : Domain) (k : Course) (i : Nat) : Bool :=
  d.live.all (fun e => (segOffsets (k.seg i)).all (fun r =>
    !(decide (sgFirst (k.seg e.1) ≤ r ∧ r < sgFirst (k.seg e.1) + sgS (k.seg e.1))) || e.2.doneOn k e.1 (r - sgFirst (k.seg e.1))))

/-! ## Token order (R165, R166) -/

/-- The first segment from `i` on that is not skipped; the segment count when none is left. -/
def Course.notSkipped (k : Course) (i : Nat) : Nat :=
  ((List.range k.segs.length).find? (fun j => decide (i ≤ j) && decide (sgRepeat (k.seg j) ≠ 0))).getD k.segs.length

/-- The next segment in token order: from the table's end back to its first segment while steps are left. -/
def Domain.next (d : Domain) (k : Course) : Option Nat :=
  let i := k.notSkipped d.pc
  if i < k.segs.length then some i
  else
    let j := k.notSkipped 0
    if j < k.segs.length ∧ (d.steps = 0 ∨ d.begun < d.steps) then some j else none

/-- Loops that are entered as the token passes from segment `from_` to segment `i`, skipped segments included: LOOP_N is evaluated then
(R166). -/
def Domain.enterLoops (d : Domain) (k : Course) (from_ i : Nat) : Domain :=
  (List.range k.segs.length).foldl (fun d j =>
    let g := k.seg j
    if from_ ≤ sgLoopTo g ∧ sgLoopTo g ≤ i ∧ i ≤ j ∧ sgLoopN g ≠ 0 ∧ sgRepeat g ≠ 0 ∧ !d.loops.has j then
      { d with loops := d.loops.insert j (sgLoopN g) } else d) d

/-! ## Places in token order (R111) -/

/-- Drain lanes that a use record has on a carve of `w` quarters. -/
def recLanes (r w : Nat) : Nat := if usOrient r = 1 then 256 else if usMode r = 0 ∧ usOpFmt r = 6 then 32 * w else 64 * w

/-- Output patches of one performance of a use record. -/
def recPatches (r w : Nat) : Nat := 32 * (recLanes r w / 8)

/-- Stations of its segment that a use record runs on. -/
def recStations (seg r : Nat) : Nat := if usStn r = 0x7F then sgS seg else 1

/-- The use records of a segment whose outputs belong to a scale group. -/
def Course.groupUses (k : Course) (i g : Nat) : List Nat := (k.usesOf i).filter (fun u => usGroup (k.use u) = g)

/-- Uses and output patches of some records in one pass of a segment. -/
def Course.passCount (k : Course) (w i : Nat) (us : List Nat) : Nat × Nat :=
  us.foldl (fun a u =>
    let n := recStations (k.seg i) (k.use u)
    (a.1 + n, a.2 + n * recPatches (k.use u) w)) (0, 0)

/-- The uses and patches of a use's group that come before it in its segment: pass by pass, in record order, then by station. -/
def Course.usePlace (k : Course) (w i use off pass : Nat) : Nat × Nat :=
  let us := k.groupUses i (usGroup (k.use use))
  let whole := k.passCount w i us
  let before := k.passCount w i (us.takeWhile (fun u => u ≠ use))
  let o := if usStn (k.use use) = 0x7F then off else 0
  (pass * whole.1 + before.1 + o, pass * whole.2 + before.2 + o * recPatches (k.use use) w)

/-- Places of the groups of a segment after all its passes. A recompute segment takes none (R125). -/
def Course.segPlaces (k : Course) (w i : Nat) (t : Table (Nat × Nat)) : Table (Nat × Nat) :=
  if sgRecompute (k.seg i) then t
  else ((k.usesOf i).map (fun u => usGroup (k.use u))).eraseDups.foldl (fun t g =>
    let n := k.passCount w i (k.groupUses i g)
    let a := t.read (0, 0) g
    t.insert g (a.1 + sgRepeat (k.seg i) * n.1, a.2 + sgRepeat (k.seg i) * n.2)) t

/-- The token after segment `i`: back to LOOP_TO while returns are left, else on. -/
def Domain.advance (d : Domain) (k : Course) (i : Nat) : Domain :=
  match d.loops.lookup i with
  | some n => if n = 0 then { d with pc := i + 1, loops := d.loops.remove i }
      else { d with pc := sgLoopTo (k.seg i), loops := d.loops.insert i (n - 1) }
  | none => { d with pc := i + 1 }

/-! ## Boundaries (R175, R210) -/

/-- A domain runs on with the stations of `run`: those given up drain, the course is patched for the new count, DEST 1 items
move, D(0, j) is compared again (R175, R210). -/
def State.setRun (s : State) (c : Nat) (run : List Nat) : State :=
  match s.domain c, s.course c with
  | some d, some k =>
    let gone := d.run.filter (fun p => !run.contains p)
    let t := (s.giveUp d.bib gone d.quarter d.w).bindRun d.bib d.w d.quarter (run.filter (fun p => !d.run.contains p))
    let t1 := t.setDomain c { d with run := run, s := run.length }
    ((t1.setCourse c (t1.patched k run.length)).restage c).countStages c
  | _, _ => s

/-- Stations of a run whose withdrawal waits for the boundary. -/
def State.leaving (s : State) (d : Domain) : List Nat := d.run.filter (fun p => (s.stn p).withdraw && !(s.stn p).wdDone)

/-- The withdrawals of a boundary: the run goes on without the stations to be withdrawn (R68, R175). DESIGN CHOICE (log 57): a run
whose every station is to be withdrawn stays as it is, and the withdrawal waits for its end; R68 names no run of no stations. -/
def State.boundary (s : State) (c : Nat) : State :=
  match s.domain c with
  | some d =>
    let l := s.leaving d
    if d.live = [] ∧ l ≠ [] ∧ d.run.length ≠ l.length then s.setRun c (d.run.filter (fun p => !l.contains p)) else s
  | none => s

/-- Whether a station can join a run (R175). -/
def State.canJoin (s : State) (d : Domain) (p : Nat) : Bool :=
  !d.run.contains p && s.active p && !(s.stn p).wdDone && !(s.stn p).withdraw
    && (groupQuarters d.quarter d.w).all (fun i => !s.quarterBusy p i)
    && ((List.range 4).all (fun i => !s.quarterBusy p i) || (s.stn p).width = widthCode d.w)
    && !(s.crs.domains.any (fun _ e => e.running && e.run ≠ d.run &&
        (runPasses (rinkOfDie s.cfg (e.run.headD 0 / 26)) e.run).contains p && decide (d.quarter < e.quarter + e.w ∧ e.quarter < d.quarter + d.w)))

/-- One station joins, if one can: inside the span, then after the last, then before the first (R175). -/
def State.joinOne (s : State) (d : Domain) : Option (List Nat) :=
  let dies := rinkOfDie s.cfg (d.run.headD 0 / 26)
  let ring := s.ringOf dies
  let from_ := rotate ring (ring.idxOf (d.run.headD 0))
  match ((runPasses dies d.run).filter (s.canJoin d)).head? with
  | some p => some (from_.filter (fun x => d.run.contains x || decide (x = p)))
  | none =>
    let after := rotate ring (ring.idxOf (d.run.getLastD 0) + 1)
    if after ≠ [] ∧ s.canJoin d (after.headD 0) then some (d.run ++ [after.headD 0])
    else if from_ ≠ [] ∧ s.canJoin d (from_.getLastD 0) then some (from_.getLastD 0 :: d.run)
    else none

/-- Stations join a run up to S_DECL, at the issue of a step-end token only (R175, R297). -/
def State.joins (s : State) (c : Nat) : Nat → State
  | 0 => s
  | n + 1 =>
    match s.domain c, s.course c with
    | some d, some k =>
      if d.live ≠ [] ∨ chSDecl k.hdr ≤ d.s then s
      else match s.joinOne d with
        | some run => (s.setRun c run).joins c n
        | none => s
    | _, _ => s

/-! ## Course violations of a carve (R62, Table 3.7) -/

/-- FAULT bits of the listed quarters are set. -/
def Stn.faulty (r : Stn) (qs : List Nat) : Stn := { r with fault := r.fault ||| maskOf 4 qs }

/-- C1 and C2 at a carve: the quarter's FAULT bit is set, its uses end, and what is in flight drains without output. -/
def State.stopCarve (s : State) (p q : Nat) : State :=
  let qs := s.carveQuarters p q
  let t := s.setStn p ((s.stn p).faulty [q])
  { t with
    rink.draining := t.rink.draining ++ (qs.map (fun i => 4 * p + i)).filter (fun i => !t.rink.draining.contains i)
    arr.uses := t.arr.uses.keep (fun i _ => !(qs.map (fun j => 4 * p + j)).contains i) }

/-- A course violation met at a carve: it is contained there and recorded, and the bib is suspended (R62). -/
def State.violateAt (s : State) (ck c : Nat) (st : Status) (seg use : Nat) (detail : BitVec 128) : State :=
  (s.stopCarve (ck / 4) (ck % 4)).violate c st seg use detail

/-- A course violation met by the sequencer: at the first carve of the domain's run. -/
def State.violateRun (s : State) (c : Nat) (d : Domain) (st : Status) (seg : Nat) : State :=
  s.violateAt (4 * d.run.headD 0 + d.quarter) c st seg 0 0

/-! ## Segments -/

/-- Whether the gate a segment or use names has completed the epoch of its next pass (R165, R178). -/
def State.gateOpen (s : State) (k : Course) (local_ passes : Nat) : Bool :=
  match k.gateNo local_ with
  | some n => (s.gate n).passed (BitVec.ofNat 8 passes)
  | none => true

/-- Whether every stream that a segment lists is open (R220). -/
def State.streamsOpen (s : State) (c : Nat) (seg : Nat) : Bool :=
  (List.range (sgStrmCount seg)).all (fun i =>
    (s.strmsOf c).any (fun e => e.2.decl.toNat = sgStrmFirst seg + i && decide (2 ≤ e.2.state.toNat ∧ e.2.state.toNat ≤ 4)))

/-- Work units of a die in use by a domain. -/
def Domain.workUsed (d : Domain) (die : Nat) : Nat := (d.live.map (fun e => e.2.work.getD die 0)).sum

/-- Whether a segment's work allocation keeps within WORK_T0 on every die (R122, Table 6.4). -/
def Domain.workFits (d : Domain) (k : Course) (work : List Nat) : Bool :=
  (List.range 4).all (fun i => decide (d.workUsed i + work.getD i 0 ≤ bits (k.locker.getD i 0) 4 10))

/-- SEGMENT_START: the next segment of a domain starts when its fence, gates, stations and streams allow (R165, R176, R220); a
PATCH_POINT with no segment running is a boundary first (R175), after which the segment may be skipped. `work` is the locker work units it
allocates per die. -/
def execSegmentStart (slot : BitVec 8) (seg : BitVec 20) (work : List Nat) (s : State) : Out :=
  s.event fun s =>
    let c := slot.toNat
    let i := seg.toNat
    match s.course c, s.domain c with
    | some k0, some d0 =>
      if !s.mayRun c || d0.next k0 ≠ some i then s
      else
        let s := if sgPatchPoint (k0.seg i) then s.boundary c else s
        match s.course c, s.domain c with
        | some k, some d =>
          let g := k.seg i
          let n := d.passes.read 0 i
          if sgRepeat g = 0 then s
          else if (sgFence g && d.live ≠ []) || d.live.has i || !s.gateOpen k (sgWaitA g) n || !s.gateOpen k (sgWaitB g) n
              || !d.stationsFree k i || !s.streamsOpen c g || s.changeStops d
              || (segOffsets g).any (fun r => (s.leaving d).contains (d.run.getD r 0)) then s
          else if d.s < sgFirst g + sgS g then s.violateRun c d .quota i
          else if !d.workFits k work then s.violateRun c d .quota i
          else
            let again := i = k.notSkipped 0 ∧ k.segs.length ≤ k.notSkipped d.pc ∨ d.ord = 0
            let d1 := { (d.enterLoops k (if again then 0 else d.pc) i) with
              begun := if again then d.begun + 1 else d.begun
              live := d.live.insert i { ord := d.ord, s := d.s, step := d.stepNo, bases := d.ords, work := work }
              ord := d.ord + 1
              ords := if sgStepEnd g then [] else k.segPlaces d.w i d.ords
              stepNo := d.stepNo + (sgStepEnd g).toNat
              passes := d.passes.insert i (n + 1) }
            s.setDomain c (d1.advance k i)
        | _, _ => s
    | _, _ => s

/-- A signal of a local gate sets out for its gate, naming the epoch (R178). -/
def State.issueSignal (s : State) (k : Course) (local_ : Nat) (pass : Nat) : State :=
  match k.gateNo local_ with
  | some n => { s with crs.signals := s.crs.signals ++ [(n, BitVec.ofNat 8 pass)] }
  | none => s

/-- SEGMENT_FINISH: every use has delivered its last result; the segment issues SIG_A and SIG_B, and its writer tags clear
(R165, R193). A hold does not stop it (R184). -/
def execSegmentFinish (slot : BitVec 8) (seg : BitVec 20) (s : State) : Out :=
  s.event fun s =>
    let c := slot.toNat
    let i := seg.toNat
    match s.course c, s.domain c with
    | some k, some d =>
      match d.live.lookup i with
      | some l =>
        if d.running ∧ !d.suspended ∧ l.allDone k i then
          let g := k.seg i
          let n := d.passes.read 0 i - 1
          let d1 := { d with live := d.live.remove i, finishes := d.finishes.insert i (d.finishes.read 0 i + 1)
                             ends := if sgStepEnd g then d.ends ++ [l.ord] else d.ends }
          ((((s.setDomain c d1).clearWriter c i).issueSignal k (sgSigA g) n).issueSignal k (sgSigB g) n)
        else s
      | none => s
    | _, _ => s

/-! ## The step-end token (R168) -/

/-- Unread locker entries of a slot's step are freed and counted (R141). -/
def State.freeOrphans (s : State) (c step : Nat) : State :=
  let n := (s.lkr.entries.filter (fun e => decide (e.slot.toNat = c ∧ e.step ≤ step ∧ e.reads ≠ 0))).length
  let t : State := { s with lkr.entries := s.lkr.entries.filter (fun e => e.slot.toNat ≠ c ∨ step < e.step)
                            lkr.marks := s.lkr.marks.filter (fun m => m / 4 ≠ c) }
  if n = 0 then t else t.count 0x0811 c n

/-- A seed set ordered during the run takes effect (R304). -/
def State.takeSeeds (s : State) (b : BitVec 12) : State :=
  match s.bibs.seedsNext.lookup b.toNat with
  | some l => { s with bibs.seeds := s.bibs.seeds.insert b.toNat l, bibs.seedsNext := s.bibs.seedsNext.remove b.toNat }
  | none => s

/-- The freeze table and the constants ordered for a slot take effect (R252, R261). -/
def State.takeOrders (s : State) (c : Nat) : State :=
  let t : State := match s.upd.freezeNext.lookup c with
    | some l => { s with upd.freeze := s.upd.freeze.insert c l, upd.freezeNext := s.upd.freezeNext.remove c }
    | none => s
  let mine := t.upd.constsNext.filter (fun e => e.1.toNat = c)
  let t1 : State := { t with upd.constsNext := t.upd.constsNext.filter (fun e => e.1.toNat ≠ c) }
  match t1.course c with
  | some k => if mine = [] then t1 else t1.setCourse c (mine.foldl (fun k e => { k with consts := k.consts.set e.2.1 e.2.2 }) k)
  | none => t1

/-- STEP_END_TOKEN: the STEP_END segment and every segment before it have finished; the token passes (R168). It frees unread
locker entries of the step (R141), brings the step's samples into their windows (R112, R113), puts ordered seeds, freeze table and constants in force, and is a boundary at which stations leave
and join (R175); held, the domain waits with it (R185). A course with no verdict gate counts its step here. -/
def execStepEndToken (slot : BitVec 8) (s : State) : Out :=
  s.event fun s =>
    let c := slot.toNat
    match s.course c, s.domain c with
    | some k, some d =>
      match d.ends with
      | o :: rest =>
        if d.running ∧ !d.suspended ∧ !s.held c ∧ d.live.all (fun e => decide (o < e.2.ord)) then
          let d1 := if chKind k.hdr = 0 then { d with ends := rest, tokenNo := d.tokenNo + 1, tokens := d.tokens + 1 }
            else { d with ends := rest, tokenNo := d.tokenNo + 1, stepsDone := d.stepsDone + 1 }
          let t := ((((s.setDomain c d1).freeOrphans c d.tokenNo).collect c d.tokenNo).takeSeeds k.bib).takeOrders c
          (t.boundary c).joins c 96
        else s
      | [] => s
    | _, _ => s

end Sys2Proof.Machine
end

