-- ==== Sys2Proof/Machine/Array.lean ====
section
/-! DEFINITION. The array of a station: the uses on a carve, the elements of a lapping tile, releases, loads and the swap, anchors,
cells, hops and laps (R43 to R55, R76 to R82, R119, R147 to R149, R153). -/

namespace Sys2Proof.Machine

/-! ## Where things stand on a station (R43, R59, R64) -/

/-- Pad rows of a station. -/
def State.padRows (s : State) (p : Nat) : List Nat :=
  let r := s.rink.rows.read {} p
  [r.pad0.toNat, r.pad1.toNat, r.pad2.toNat, r.pad3.toNat]

/-- The logical row of a physical row; none for a pad row. -/
def State.logicalRow (s : State) (p row : Nat) : Option Nat :=
  let pads := s.padRows p
  if pads.contains row then none else some (row - (pads.filter (fun x => decide (x < row))).length)

/-- The physical row of a logical row: pads stand in ascending order (Table 3.8). -/
def State.physRow (s : State) (p r : Nat) : Nat := (s.padRows p).foldl (fun i x => if x ≤ i then i + 1 else i) r

/-- The pad column of a quarter. -/
def State.padCol (s : State) (p q : Nat) : Nat :=
  let r := s.rink.cols.read {} p
  match q with
  | 0 => r.pq0.toNat
  | 1 => r.pq1.toNat
  | 2 => r.pq2.toNat
  | _ => r.pq3.toNat

/-- The logical column, within its quarter, of a physical column of the station; none for a pad column. -/
def State.logicalCol (s : State) (p col : Nat) : Option Nat :=
  let pad := s.padCol p (col / 65)
  let c := col % 65
  if c = pad then none else some (if pad < c then c - 1 else c)

/-- The physical column of a carve's logical column. -/
def State.physCol (s : State) (ck m : Nat) : Nat :=
  let q := ck % 4 + m / 64
  65 * q + (if s.padCol (ck / 4) q ≤ m % 64 then m % 64 + 1 else m % 64)

/-- The number of the carve that holds quarter `q` of station `p`: 4 p + its lowest quarter (R59). -/
def State.carveAt (s : State) (p q : Nat) : Nat := 4 * p + groupOf (carveWidth (s.stn p).width.toNat) q

/-- Quarters of a carve. -/
def State.carveW (s : State) (ck : Nat) : Nat := carveWidth (s.stn (ck / 4)).width.toNat

/-- The number of a cell. -/
def cellKey (p row col : Nat) : Nat := (260 * p + row) * 260 + col

/-- A cell's registers. -/
def State.cell (s : State) (p row col : Nat) : Cell := s.arr.cells.read {} (cellKey p row col)

/-- A cell's registers are written. -/
def State.setCell (s : State) (p row col : Nat) (c : Cell) : State :=
  { s with arr.cells := s.arr.cells.write {} (cellKey p row col) c }

/-- A feeder's registers: of a quarter for its load path, of a carve for its releases. -/
def State.feeder (s : State) (k : Nat) : Feeder := s.arr.feeders.read {} k

/-- A feeder's registers are written. -/
def State.setFeeder (s : State) (k : Nat) (f : Feeder) : State := { s with arr.feeders := s.arr.feeders.write {} k f }

/-! ## The uses on a carve (R46, R47, R52) -/

/-- The uses on a carve, oldest first. -/
def State.usesOf (s : State) (ck : Nat) : List UseCfg := s.arr.uses.read [] ck

/-- The uses on a carve are written. -/
def State.setUses (s : State) (ck : Nat) (l : List UseCfg) : State := { s with arr.uses := s.arr.uses.write [] ck l }

/-- One use of a carve is written. -/
def State.setUse (s : State) (ck : Nat) (u : UseCfg) : State :=
  s.setUses ck ((s.usesOf ck).map (fun v => if v.ord = u.ord then u else v))

/-- The use that a token belongs to: use `ord` of a carve has tokens 256 ord to 256 ord + 255. -/
def State.useFor (s : State) (ck token : Nat) : Option UseCfg := (s.usesOf ck).find? (fun u => u.ord = token / 256)

/-- The number of a use among those of all carves. -/
def UseCfg.key (u : UseCfg) (ck : Nat) : Nat := u.ord * 512 + ck

/-- Whether two tokens share a beat (R52). -/
def UseCfg.paired (u : UseCfg) : Bool := u.mode = 0 && u.opFmt = .e2m1

/-- Whether two columns form one product (R52). -/
def UseCfg.twoCols (u : UseCfg) : Bool := u.mode = 0 && u.opFmt = .bf16

/-- Beats of an operand tile (R52). -/
def UseCfg.beats (u : UseCfg) : Nat := if u.paired then 128 else 256

/-- The number of the token that follows in a tap: the next beat's, or after the last beat the next use's first. -/
def UseCfg.after (u : UseCfg) (token : Nat) : Nat := if token % 256 + 1 = u.beats then 256 * (u.ord + 1) else token + 1

/-- The first token that shares a beat's number, within its use. -/
def UseCfg.tokenOf (u : UseCfg) (token : Nat) : Nat := if u.paired then 2 * (token % 256) else token % 256

/-- The floor below the anchor (Table 4.5). -/
def UseCfg.floor (u : UseCfg) : Nat := if u.paired then 51 else 111

/-- Entry taps of a carve: rows, or the columns of its quarters (R45). -/
def UseCfg.taps (u : UseCfg) (w : Nat) : Nat := if u.trans then 65 * w else 260

/-- Logical columns of a carve in a use: two cells form one product in BF16 (R52). -/
def UseCfg.cols (u : UseCfg) (w : Nat) : Nat := if u.twoCols then 32 * w else 64 * w

/-- Drain lanes of a use (R43, R118). DESIGN CHOICE (log entry 42): a transposed use has its 256 results per token also on a carve narrower
than w = 4, whose quarters own 64 lanes each. -/
def UseCfg.laneCount (u : UseCfg) (w : Nat) : Nat := if u.trans then 256 else u.cols w

/-- The place along the sum that a tap feeds: the logical row, or the logical column of the carve, of which BF16 pairs make one. None for
a pad and for the second column of a pair. -/
def State.tapIndex (s : State) (ck : Nat) (u : UseCfg) (tap : Nat) : Option Nat :=
  if u.trans then
    (s.logicalCol (ck / 4) (65 * (ck % 4) + tap)).bind (fun n =>
      let m := 64 * (tap / 65) + n
      if u.twoCols then (if m % 2 = 0 then some (m / 2) else none) else some m)
  else s.logicalRow (ck / 4) tap

/-- The next token of a tap and its use: the oldest use that has not released all its tokens there. -/
def State.nextToken (s : State) (ck tap : Nat) : Option (UseCfg × Nat) :=
  let w := s.carveW ck
  let r := (s.feeder ck).released.read 0 tap
  ((s.usesOf ck).find? (fun u => decide (tap < u.taps w ∧ r < 256 * (u.ord + 1)))).map (fun u => (u, max r (256 * u.ord)))

/-- Whether an operand or a sum of a use stands in a cell of its carve. -/
def State.inCells (s : State) (ck : Nat) (u : UseCfg) : Bool :=
  s.arr.cells.any (fun k c => k / 67600 = ck / 4 && decide (ck % 4 ≤ k % 260 / 65 ∧ k % 260 / 65 < ck % 4 + s.carveW ck)
    && (c.op.any (fun o => o.token / 256 = u.ord) || c.sum.any (fun x => x.token / 256 = u.ord)))

/-- Whether the last sum of a use has entered its drain (R49). -/
def State.summed (s : State) (ck : Nat) (u : UseCfg) : Bool :=
  decide (256 * (u.ord + 1) ≤ (s.feeder ck).released.read 0 (u.taps (s.carveW ck) - 1)) && !s.inCells ck u

/-! ## Course violations of a use (R62) -/

/-- A violation of a use on its carve. -/
def State.violateUse (s : State) (ck : Nat) (u : UseCfg) (st : Status) (detail : BitVec 128) : State :=
  s.violateAt ck u.slot.toNat st u.seg u.use detail

/-! ## The elements of a lapping tile (R53, R76, R119, R153, R154) -/

/-- Element (t, i) of the stream that a tile or a plane makes, as code and scale: read transposed, the tile's element (i, t) and its
patch's scale (R76). None where the generator finds a void element (R153) or the tile has no header. -/
def State.streamElem (s : State) (l : LapTile) (t i : Nat) : Option (Nat × BitVec 8) :=
  match l.src with
  | .tile tr => (s.tileHdr l.tile).map (fun h =>
      let (r, c) := if tr then (i, t) else (t, i)
      let k := homeKey h.home
      (s.elemAt k l.fmt r c, if hasScale l.fmt then s.byte (k + scaleByteOf r c) else 0))
  | .plane d sc tr =>
    let eb := elemBits l.fmt / 8
    let (t', r) := if tr then (i, t) else (t, i)
    (convByte d eb t' r).map (fun o => (leNat (s.vaRead l.tile.bib (cvPlane d + o) eb), sc))
  | _ => none

/-- What arrives at the head of a stream (R75, R78): the scale of each patch, taken at its first element that is not void, or in BF16 the
biased exponent of each element. -/
def State.headOf (s : State) (l : LapTile) : List (List (Option (BitVec 8))) :=
  if l.fmt = .bf16 then
    (List.range 256).map (fun t => (List.range (256 - l.col)).map (fun i =>
      (s.streamElem l t (l.col + i)).map (fun e => BitVec.ofNat 8 (bits e.1 7 8))))
  else
    (List.range 32).map (fun tp => (List.range (32 - l.col / 8)).map (fun kp =>
      ((List.range 64).findSome? (fun e => s.streamElem l (8 * tp + e / 8) (l.col + 8 * kp + e % 8))).map (·.2)))

/-- What a tap takes of a stream at a token: code, scale, and whether it is void. In SB4 the codes of two tokens share a beat. -/
def State.lapElem (s : State) (u : UseCfg) (l : LapTile) (token i : Nat) : BitVec 16 × BitVec 8 × Bool :=
  match l.src with
  | .carried es =>
    match es.find? (fun e => e.1 = i && e.2.token = token % 256) with
    | some e => (e.2.code, e.2.scale, e.2.void)
    | none => (0, 0, true)
  | _ =>
    let t := u.tokenOf token
    match s.streamElem l t (l.col + i) with
    | none => (0, 0, true)
    | some (a, sc) =>
      if u.paired then (BitVec.ofNat 16 (a + 16 * ((s.streamElem l (t + 1) (l.col + i)).elim 0 (·.1))), sc, false)
      else (BitVec.ofNat 16 a, sc, false)

/-- Whether a stream's tile can be read now: a tile in motion or out of T0 and T1 is waited for. -/
def State.lapReady (s : State) (l : LapTile) : Bool :=
  match l.src with
  | .tile _ => (s.tileHdr l.tile).any (fun h => h.state = 0 && decide (h.home.tier.toNat < 2))
  | _ => true

/-! ## Releases (R46, R49, R51, R149) -/

/-- Whether every quarter of a carve has sent the load-complete token that a use needs. -/
def State.loaded (s : State) (ck w gen : Nat) : Bool :=
  (List.range w).all (fun i => (s.feeder (ck + i)).loadDone && (s.feeder (ck + i)).loads = gen)

/-- The load-complete tokens of a carve are used up by its swap. -/
def State.useLoads (s : State) (ck w : Nat) : State :=
  s.each (List.range w) (fun t i => t.setFeeder (ck + i) { t.feeder (ck + i) with loadRows := 0, loadDone := false })

/-- The number of the anchors of a token patch row of a use. -/
def anchorKey (ukey tp : Nat) : Nat := ukey * 32 + tp

/-- Whether a use's element may enter now: its tile laps, its anchors are formed (R78), and no earlier use of the other orientation or
of another mode still sums (R49, R150). -/
def State.mayEnter (s : State) (ck : Nat) (u : UseCfg) (token : Nat) : Bool :=
  u.lap.isSome && (u.mode ≠ 0 || s.arr.anchors.has (anchorKey (u.key ck) (u.tokenOf token / 8)))
    && (s.usesOf ck).all (fun v => decide (u.ord ≤ v.ord) || (v.trans = u.trans && v.mode = u.mode) || s.summed ck v)

/-- An element enters a tap, in skew order (R46): after the element of the same token at the tap before, into a free operand register. The
first token's element of a use with SWAP carries the marker and needs the load-complete token (R51). -/
def State.enter (s : State) (ck : Nat) (u : UseCfg) (tap token : Nat) (code : BitVec 16) (scale : BitVec 8) (void : Bool) : Option State :=
  let w := s.carveW ck
  let f := s.feeder ck
  let p := ck / 4
  let q0 := ck % 4
  let (row, col) := if u.trans then (0, 65 * q0 + tap) else (tap, 65 * q0)
  let c := s.cell p row col
  let mark := u.swap && decide (token % 256 = 0)
  if (tap = 0 ∨ token < f.released.read 0 (tap - 1)) ∧ c.op.isNone ∧ (!mark || s.loaded ck w u.gen) ∧ s.mayEnter ck u token then
    let n := if mark then f.entered + 1 else f.entered
    let t := (s.setCell p row col { c with op := some { code := code, scale := scale, token := token, void := void, swap := mark } }).setFeeder ck
      { f with released := f.released.insert tap (u.after token), entered := n }
    some (if mark ∧ n = u.taps w then (t.useLoads ck w).setFeeder ck { (t.useLoads ck w).feeder ck with entered := 0 } else t)
  else none

/-- The feeder releases the next element of a tap, if it carries the swap marker or not as asked: a pad's, void, or the tile's, unless
the stream brings it by the hop (R53, R154). -/
def State.release (s : State) (p q tap : Nat) (marker : Bool) : State :=
  let ck := s.carveAt p q
  match s.nextToken ck tap with
  | some (u, token) =>
    if !s.mayRun u.slot.toNat || (u.swap && decide (token % 256 = 0)) ≠ marker then s
    else match u.lap, s.tapIndex ck u tap with
      | some _, none => (s.enter ck u tap token 0 0 true).getD s
      | some l, some i =>
        if l.src = .stream || !s.lapReady l then s
        else
          let (code, scale, void) := s.lapElem u l token i
          (s.enter ck u tap token code scale void).getD s
      | none, _ => s
  | none => s

/-- OPERAND_RELEASE: the feeder releases the element of its next token into a tap. -/
def execOperandRelease (stn : Fin 104) (q : Fin 4) (tap : Fin 260) (s : State) : Out :=
  s.event fun s => s.release stn.val q.val tap.val false

/-- SWAP_MARKER_RELEASE: the feeder releases an element with the swap marker, after its load-complete token (R51). -/
def execSwapMarkerRelease (stn : Fin 104) (q : Fin 4) (tap : Fin 260) (s : State) : Out :=
  s.event fun s => s.release stn.val q.val tap.val true

/-! ## Weight loading (R50, R51) -/

/-- The weight and patch scale that a logical row and carve column of a use's stationary tile hold: zero beyond the tile. The columns
of a BF16 pair hold one weight (R52). -/
def State.stationary (s : State) (u : UseCfg) (h : TileHdr) (r m : Nat) : BitVec 16 × BitVec 8 :=
  let c := u.x.col.toNat + (if u.twoCols then m / 2 else m)
  if 256 ≤ c then (0, 0)
  else
    let k := homeKey h.home
    (BitVec.ofNat 16 (s.elemAt k u.stFmt r c), if hasScale u.stFmt then s.byte (k + scaleByteOf r c) else 0)

/-- WEIGHT_LOAD_HANDSHAKE: the load path of a quarter writes its next row position into the back registers, for the next use begun that
swaps; pad rows and pad columns take zero (R50). It waits for a tile in motion, and for a marker wave that has not yet passed the row
(R51). -/
def execWeightLoadHandshake (stn : Fin 104) (q : Fin 4) (s : State) : Out :=
  s.event fun s =>
    let p := stn.val
    let k := 4 * p + q.val
    let ck := s.carveAt p q.val
    let f := s.feeder k
    let row := f.loadRows
    let gen := if row = 0 then f.loads + 1 else f.loads
    match (s.usesOf ck).find? (fun u => u.swap && u.gen = gen) with
    | some u =>
      match s.tileHdr u.st with
      | some h =>
        let fresh (i : Nat) : Bool := let c := s.cell p row (65 * q.val + i); decide (c.frontG < c.backG ∧ c.backG ≠ gen)
        if f.loadDone || 260 ≤ row || h.state ≠ 0 || 2 ≤ h.home.tier.toNat || (List.range 65).any fresh then s
        else
          let t := s.each (List.range 65) (fun t i =>
            let col := 65 * q.val + i
            let c := t.cell p row col
            let (wt, sc) : BitVec 16 × BitVec 8 := match s.logicalRow p row, s.logicalCol p col with
              | some r, some n => s.stationary u h r (64 * (q.val - ck % 4) + n)
              | _, _ => (0, 0)
            t.setCell p row col { c with backW := wt, backS := sc, backG := gen })
          t.setFeeder k { t.feeder k with loadRows := row + 1, loads := gen }
      | none => s
    | none => s

/-- LOAD_COMPLETE: the last row is written and the load-complete token reaches the feeder. -/
def execLoadComplete (stn : Fin 104) (q : Fin 4) (s : State) : Out :=
  s.event fun s =>
    let k := 4 * stn.val + q.val
    let f := s.feeder k
    if f.loadRows = 260 then s.setFeeder k { f with loadDone := true } else s

/-! ## Anchors (R78) -/

/-- t of Table 4.5. -/
def pairT (a b : Fmt) : Int :=
  match a, b with
  | .e4m3, .e4m3 => 18
  | .e4m3, .e5m2 => 25
  | .e5m2, .e4m3 => 25
  | .e5m2, .e5m2 => 32
  | .e3m2, .e3m2 => 10
  | .e2m1, .e2m1 => 6
  | .int8, .int8 => 15
  | _, _ => 2

/-- The largest of a list. -/
def maxInt : List Int → Option Int
  | [] => none
  | x :: l => some (l.foldl max x)

/-- M of R78 for patches with scales: the largest combined scale of the pairs that take part. -/
def scaleMax (pairs : List (BitVec 8 × BitVec 8)) : Option Int :=
  maxInt (pairs.filterMap (fun e => if e.1 = 0xFF ∨ e.2 = 0xFF then none else some ((e.1.toNat : Int) + e.2.toNat - 254)))

/-- The larger exponent of a BF16 side: subnormals count as −126, infinities and NaNs take no part, an empty side contributes −126. -/
def expMax (es : List (BitVec 8)) : Int :=
  (maxInt (es.filterMap (fun e => if e = 0xFF then none else some ((max e.toNat 1 : Nat) - 127 : Int)))).getD (-126)

/-- M of R78 for BF16, of operand and weight exponents that meet in products. -/
def pairMax (pairs : List (BitVec 8 × BitVec 8)) : Option Int :=
  if pairs = [] then none else some (expMax (pairs.map (·.1)) + expMax (pairs.map (·.2)))

/-- The weight and scale that a cell multiplies by in a use that needs load `gen`: in the back registers until the marker passes. -/
def State.weightAt (s : State) (ck r m gen : Nat) : BitVec 16 × BitVec 8 :=
  let c := s.cell (ck / 4) (s.physRow (ck / 4) r) (s.physCol ck m)
  if c.backG = gen ∧ c.frontG ≠ gen then (c.backW, c.backS) else (c.frontW, c.frontS)

/-- Whether a use's weights are in place on every quarter of its carve: its load is complete, or was used up by its swap. -/
def State.weightsIn (s : State) (ck w gen : Nat) : Bool :=
  (List.range w).all (fun i =>
    let f := s.feeder (ck + i)
    decide (gen < f.loads) || (decide (f.loads = gen) && (f.loadDone || f.loadRows = 0)))

/-- An entry of a stream's head. -/
def LapTile.at (l : LapTile) (a b : Nat) : Option (BitVec 8) := (l.head.getD a []).getD b none

/-- The scale pairs of a patch row of operands with the patch `np` of the other side, void rows left out (R78, R149). -/
def State.scalePairs (s : State) (ck w : Nat) (u : UseCfg) (l : LapTile) (tp np : Nat) : List (BitVec 8 × BitVec 8) :=
  if u.trans then
    (if u.kUse ≤ 8 * np then [] else (List.range (8 * w)).filterMap (fun kp =>
      (l.at tp kp).map (fun x => (x, (s.weightAt ck (8 * np) (8 * kp) u.gen).2))))
  else
    (List.range 32).filterMap (fun kp => if u.kUse ≤ 8 * kp then none
      else (l.at tp kp).map (fun x => (x, (s.weightAt ck (8 * kp) (8 * np) u.gen).2)))

/-- The exponent pairs of one token and one BF16 output, void elements left out (R78). -/
def State.expPairs (s : State) (ck w : Nat) (u : UseCfg) (l : LapTile) (t j : Nat) : List (BitVec 8 × BitVec 8) :=
  let e (r m : Nat) : BitVec 8 := BitVec.ofNat 8 (bits (s.weightAt ck r m u.gen).1.toNat 7 8)
  if u.trans then
    (if u.kUse ≤ j then [] else (List.range (32 * w)).filterMap (fun n => (l.at t n).map (fun x => (x, e j (2 * n)))))
  else (List.range 256).filterMap (fun k => if u.kUse ≤ k then none else (l.at t k).map (fun x => (x, e k (2 * j))))

/-- The anchors A = M + t of a patch row of a use: by patch of the other side, in BF16 by token and output. -/
def State.anchorsOf (s : State) (ck : Nat) (u : UseCfg) (l : LapTile) (tp : Nat) : List Int :=
  let w := s.carveW ck
  let a (m : Option Int) : Int := m.getD 0 + pairT u.opFmt u.stFmt
  if u.twoCols then
    (List.range 2048).map (fun i => if i % 256 < u.laneCount w then a (pairMax (s.expPairs ck w u l (8 * tp + i / 256) (i % 256))) else 0)
  else (List.range (u.laneCount w / 8)).map (fun np => a (scaleMax (s.scalePairs ck w u l tp np)))

/-- ANCHOR_FORM: the anchor unit forms the anchors of a patch row of operands for the oldest use that lacks them, once its tile laps and
its weights have been loaded. -/
def execAnchorForm (stn : Fin 104) (q : Fin 4) (tp : BitVec 5) (s : State) : Out :=
  s.event fun s =>
    let ck := s.carveAt stn.val q.val
    match (s.usesOf ck).find? (fun u => u.mode = 0 && !s.arr.anchors.has (anchorKey (u.key ck) tp.toNat)) with
    | some u =>
      match u.lap with
      | some l => if s.weightsIn ck (s.carveW ck) u.gen then
          { s with arr.anchors := s.arr.anchors.insert (anchorKey (u.key ck) tp.toNat) (s.anchorsOf ck u l tp.toNat) } else s
      | none => s
    | none => s

/-! ## Cells (R45, R46, R51, R77 to R82, Table 7.1) -/

/-- The value of an element under its patch scale; 0xFF makes every element NaN (R74). -/
def elemVal (f : Fmt) (code scale : Nat) : Val :=
  if hasScale f then
    (if scale = 0xFF then .nan else match decodeElem f code with
      | .fin d => .fin (d.shift ((scale : Int) - 127))
      | v => v)
  else decodeElem f code

/-- The class of a sum after a product of a class (R82). -/
def clsAdd (a b : Cls) : Cls :=
  match a, b with
  | .fin, b => b
  | a, .fin => a
  | .pinf, .pinf => .pinf
  | .ninf, .ninf => .ninf
  | _, _ => .nan

/-- A product enters the window, truncated in magnitude at the floor (R77, R79); and whether it lost a nonzero bit. -/
def Lane.product (l : Lane) (floor : Nat) (v : Val) : Lane × Bool :=
  match v with
  | .nan => ({ l with cls := clsAdd l.cls .nan }, false)
  | .inf neg => ({ l with cls := clsAdd l.cls (if neg then .ninf else .pinf) }, false)
  | .fin d =>
    let k := d.e - (l.anchor - floor)
    if 0 ≤ k then ({ l with val := l.val + d.m * 2 ^ k.toNat }, false)
    else
      let b := 2 ^ (-k).toNat
      let a := (d.m.natAbs / b : Nat)
      ({ l with val := l.val + (if d.m < 0 then -(a : Int) else a) }, decide (d.m.natAbs % b ≠ 0))

/-- A distance step on integers (Table 7.1). A minimum or maximum replaces the infinite class at its first step. -/
def Lane.distance (l : Lane) (mode : Nat) (x w : Int) : Lane :=
  match mode with
  | 1 => { l with val := l.val + (x - w) * (x - w) }
  | 2 => { l with val := l.val + (x - w).natAbs }
  | 3 => if l.cls = .pinf then { l with val := x + w, cls := .fin } else { l with val := min l.val (x + w) }
  | 4 => if l.cls = .ninf then { l with val := x + w, cls := .fin } else { l with val := max l.val (x + w) }
  | 5 => { l with val := l.val + (if x = w then 1 else 0) }
  | _ => { l with val := l.val + (if w ≤ x then 1 else 0) }

/-- The sum at entry of a mode (Table 7.1). -/
def freshLane (mode : Nat) (anchor : Int) : Lane :=
  { val := 0, anchor := if mode = 0 then anchor else 111, cls := if mode = 3 then .pinf else if mode = 4 then .ninf else .fin }

/-- One step of a cell on the lanes of its sum, and the floor truncations it makes. -/
def cellStep (u : UseCfg) (o : Operand) (c : Cell) (lanes : List Lane) : List Lane × Nat :=
  if u.mode = 0 then
    let wv := elemVal u.stFmt c.frontW.toNat c.frontS.toNat
    let one (i : Nat) (l : Lane) : Lane × Bool :=
      l.product u.floor ((elemVal u.opFmt (if u.paired then bits o.code.toNat (4 * i) 4 else o.code.toNat) o.scale.toNat).mul wv)
    let rs := lanes.zipIdx.map (fun e => one e.2 e.1)
    (rs.map (·.1), (rs.filter (·.2)).length)
  else if u.pc = 0xFF then (lanes.map (fun l => { l with cls := .nan }), 0)
  else (lanes.map (fun l => l.distance u.mode.toNat (signed 8 o.code.toNat) (signed 8 c.frontW.toNat)), 0)

/-- The place of the anchor of output `n` at a token within its patch row's anchors; none for the second column of a BF16 pair. -/
def UseCfg.anchorPlace (u : UseCfg) (token n : Nat) : Option Nat :=
  if u.twoCols then
    (if u.trans then some (token % 256 % 8 * 256 + n) else if n % 2 = 0 then some (token % 256 % 8 * 256 + n / 2) else none)
  else some (n / 8)

/-- A new sum at the entry of a path, with the anchors of its lanes: of the row or column that it sums for, none for a pad. -/
def State.freshSum (s : State) (ck : Nat) (u : UseCfg) (other : Option Nat) (token : Nat) : Option PSum :=
  match other with
  | none => some { token := token, lanes := [] }
  | some n =>
    if u.mode ≠ 0 then some { token := token, lanes := [freshLane u.mode.toNat 111] }
    else match s.arr.anchors.lookup (anchorKey (u.key ck) (u.tokenOf token / 8)), u.anchorPlace token n with
      | some as, some i => some { token := token, lanes := List.replicate (if u.paired then 2 else 1) (freshLane 0 (as.getD i 0)) }
      | some _, none => some { token := token, lanes := [] }
      | none, _ => none

/-- The sum waiting at a cell for an operand: what its neighbour passed, or at the entry of its path a new one. -/
def State.sumAt (s : State) (ck : Nat) (u : UseCfg) (entry : Bool) (other : Option Nat) (o : Operand) (c : Cell) : Option PSum :=
  match c.sum with
  | some x => if x.token = o.token then some x else none
  | none => if entry then s.freshSum ck u other o.token else none

/-- The drain lane of a sum: logical column, paired columns in BF16, or logical row (R43, R52, R118). None for pads. -/
def UseCfg.laneOf (u : UseCfg) (row : Option Nat) (col : Option Nat) : Option Nat :=
  if u.trans then row
  else if u.twoCols then col.bind (fun c => if c % 2 = 0 then some (c / 2) else none)
  else col

/-- The number of a drain lane. -/
def laneKey (ck lane : Nat) : Nat := ck * 256 + lane

/-- The drain section that a lane's sums enter (R43): the lane's quarter, in transposed orientation the last quarter of the carve. -/
def State.sectionOf (s : State) (ck : Nat) (u : UseCfg) (lane : Nat) : Nat :=
  ck + (if u.trans then s.carveW ck - 1 else lane * s.carveW ck / u.laneCount (s.carveW ck))

/-- Bytes of one element on a hop. -/
def hopBytes (f : Fmt) : Nat := if f = .bf16 then 2 else 1

/-- The station that follows another in a list. -/
def nextInRun : List Nat → Nat → Option Nat
  | a :: b :: l, p => if a = p then some b else nextInRun (b :: l) p
  | _, _ => none

/-- The station that a lapping tile hops to: the next of the run; from the last, the first when the run is its whole Rink (R60). -/
def State.nextStation (s : State) (c p : Nat) : Option Nat :=
  match s.domain c with
  | some d =>
    match nextInRun d.run p with
    | some x => some x
    | none => if d.run.getLast? = some p ∧ d.run.length = (s.ringOf (rinkOfDie s.cfg (d.run.headD 0 / 26))).length then d.run.head? else none
  | none => none

/-- Whether a use's tile goes on from this station to another. -/
def State.lapsOn (s : State) (ck : Nat) (u : UseCfg) : Bool :=
  u.lap.any (fun t => decide (1 < t.visits)) && (s.nextStation u.slot.toNat (ck / 4)).isSome

/-- Whether the hop buffer of a carve takes one more element: 65 KiB per quarter (R55). -/
def State.hopRoom (s : State) (ck : Nat) (f : Fmt) : Bool :=
  decide (((s.arr.hops.read [] ck).map (fun e => hopBytes e.2.2.fmt)).sum + hopBytes f ≤ s.carveW ck * 66560)

/-- Bytes that quarter `q` of a die has in the inject and retire queues: a carve's tiles are spread over its quarters. -/
def State.queued (s : State) (die q : Nat) : Nat :=
  let covers (ck : Nat) : Bool := decide (ck % 4 ≤ q ∧ q < ck % 4 + s.carveW ck)
  let i := ((s.arr.inject.read [] die).filter (fun e => covers e.2)).map (fun e => tileBytes e.1.fmt / s.carveW e.2)
  let r := (s.arr.retire.filter (fun e => e.1 % 512 / 4 / 26 = die && covers (e.1 % 512))).map (fun e =>
    (e.2.map (fun x => hopBytes x.2.2.fmt)).sum / s.carveW (e.1 % 512))
  i.sum + r.sum

/-- Whether the queues of a carve's die take `n` more bytes: 1,952 KiB in all, a quarter of it for each quarter (R55, R61; DESIGN
CHOICE, log entry 43). -/
def State.queueRoom (s : State) (ck n : Nat) : Bool :=
  let w := s.carveW ck
  (List.range w).all (fun i => decide (s.queued (ck / 4 / 26) (ck % 4 + i) + (n + w - 1) / w ≤ 488 * 1024))

/-- Whether an element can leave the array at the edge: into the hop, or into a retire queue after the last visit. -/
def State.edgeFree (s : State) (ck : Nat) (u : UseCfg) : Bool :=
  if s.lapsOn ck u then s.hopRoom ck u.opFmt else s.queueRoom ck (hopBytes u.opFmt)

/-- An element leaves the array at the edge: into the hop buffer, or into the retire queue; a pad's is dropped. -/
def State.leaveArray (s : State) (ck : Nat) (u : UseCfg) (tap : Nat) (o : Operand) : State :=
  match u.lap, s.tapIndex ck u tap with
  | some l, some i =>
    let e : Nat × Operand × LapTile := (i, { o with token := o.token % 256, swap := false }, l)
    if s.lapsOn ck u then { s with arr.hops := s.arr.hops.insert ck (s.arr.hops.read [] ck ++ [e]) }
    else { s with arr.retire := s.arr.retire.insert (u.key ck) (s.arr.retire.read [] (u.key ck) ++ [e]) }
  | _, _ => s

/-- CELL_FIRE: operand and sum are present and both outputs free. A marker exchanges front and back first; a void element, a pad and
the second column of a BF16 pair pass the sum unchanged. Operand and sum go on to the neighbours, the hop and the drain (R45, R46). -/
def execCellFire (stn : Fin 104) (row col : Fin 260) (s : State) : Out :=
  s.event fun s =>
    let p := stn.val
    let ck := s.carveAt p (col.val / 65)
    let w := s.carveW ck
    let c := s.cell p row.val col.val
    match c.op, c.op.bind (fun o => s.useFor ck o.token) with
    | some o, some u =>
      let lr := s.logicalRow p row.val
      let lc := (s.logicalCol p col.val).map (fun n => 64 * (col.val / 65 - ck % 4) + n)
      let firstCol := 65 * (ck % 4)
      let lastCol := firstCol + 65 * w - 1
      let entry := if u.trans then decide (col.val = firstCol) else decide (row.val = 0)
      match s.sumAt ck u entry (if u.trans then lr else lc) o c with
      | some x =>
        let opEdge := if u.trans then decide (row.val = 259) else decide (col.val = lastCol)
        let sumEdge := if u.trans then decide (col.val = lastCol) else decide (row.val = 259)
        let (opR, opC) := if u.trans then (row.val + 1, col.val) else (row.val, col.val + 1)
        let (suR, suC) := if u.trans then (row.val, col.val + 1) else (row.val + 1, col.val)
        let lane := u.laneOf lr lc
        let tap := if u.trans then col.val - firstCol else row.val
        let opFree := if opEdge then s.edgeFree ck u else (s.cell p opR opC).op.isNone
        let sumFree := if sumEdge then (lane.elim true (fun l => !s.arr.drainIn.has (laneKey ck l))) else (s.cell p suR suC).sum.isNone
        if opFree && sumFree then
          let c1 : Cell := if o.swap then { c with frontW := c.backW, backW := c.frontW, frontS := c.backS, backS := c.frontS
                                                   frontG := c.backG, backG := c.frontG } else c
          let idle := o.void || lc.isNone || lr.elim true (fun r => decide (u.kUse ≤ r))
            || (u.twoCols && lc.elim true (fun n => decide (n % 2 = 1)))
          let (lanes, lost) := if idle then (x.lanes, 0) else cellStep u o c1 x.lanes
          let s1 := s.setCell p row.val col.val { c1 with op := none, sum := none }
          let s2 : State := if opEdge then s1.leaveArray ck u tap o
            else s1.setCell p opR opC { s1.cell p opR opC with op := some o }
          let s3 : State := if sumEdge then
              (match lane with
              | some l => { s2 with arr.drainIn := s2.arr.drainIn.insert (laneKey ck l) { x with lanes := lanes } }
              | none => s2)
            else s2.setCell p suR suC { s2.cell p suR suC with sum := some { x with lanes := lanes } }
          if lost = 0 then s3
          else s3.count 0x0302 (4 * p + (if u.trans then ck % 4 + w - 1 else col.val / 65)) lost
        else s
      | none => s
    | _, _ => s

/-! ## Laps (R53 to R55, R60) -/

/-- Whether every scale byte at the head of a stream holds one value (R148); void patches have none. -/
def LapTile.oneScale (l : LapTile) (p : BitVec 8) : Bool := l.head.all (fun r => r.all (fun x => x.elim true (fun b => b = p)))

/-- The product check's patch row and reference (R110): the 8 × 8 output patch at the first patch row of which the operand tile carries a
shadow band, recomputed in W40 from the band and the stationary tile, adds in ascending order of k, rounded to nearest. DESIGN CHOICE
(log entry 44): the patch of lanes 0 to 7. -/
def State.productRef (s : State) (ck : Nat) (u : UseCfg) (l : LapTile) : Option (Nat × List (BitVec 40)) :=
  let swept := (s.scaleRec u.slot.toNat u.group).any (fun r => r.sweep ≠ 0)
  if !swept || !hasScale u.outFmt || u.recompute || u.mode ≠ 0 || !l.plain then none
  else match (List.range 32).find? (fun tp => s.lkr.shadows.has (tileKey l.tile * 32 + tp)), s.tileHdr u.st with
    | some tp, some h =>
      let band := s.lkr.shadows.read [] (tileKey l.tile * 32 + tp)
      let depth := if u.trans then u.cols (s.carveW ck) else 256
      let wv (r m : Nat) : Val :=
        let e := s.stationary u h r (if u.twoCols then 2 * m else m)
        elemVal u.stFmt e.1.toNat e.2.toNat
      let term (t j k : Nat) : Val := if u.trans then (w40Val (Table.read 0 band (256 * t + l.col + k))).mul (wv j k)
        else if u.kUse ≤ k then .fin Dy.zero else (w40Val (Table.read 0 band (256 * t + k))).mul (wv k j)
      some (tp, (List.range 64).map (fun i => (List.range depth).foldl (fun a k => toW40 ((w40Val a).add (term (i / 8) (i % 8) k))) 0))
    | _, _ => none

/-- A tile begins to lap through a use. One that a use with VISITS = 0 meets must have the use's operand format, and in a distance mode
the common scale; else the use is a violation with ST_FORMAT (R80, R148). -/
def State.acceptLap (s : State) (ck : Nat) (u : UseCfg) (l : LapTile) : State :=
  if l.fmt ≠ u.opFmt ∨ (u.mode ≠ 0 ∧ !l.oneScale u.pc) then s.violateUse ck u .format (BitVec.ofNat 128 u.use)
  else s.setUse ck { u with lap := some l, ref := s.productRef ck u l }

/-- The use of a station that takes a lapping element, with the tap it enters: the oldest with VISITS = 0 that has no tile yet, or
whose tile it is, and which waits for the element's token there. -/
def State.hopTaker (s : State) (dst : Nat) (e : Nat × Operand × LapTile) : Option (UseCfg × Nat) :=
  (s.usesOf dst).findSome? (fun u =>
    if u.visits = 0 ∧ u.slot = e.2.2.slot ∧ (u.lap.isNone ∨ u.lap.any (fun l => l.src = .stream && l.tile = e.2.2.tile)) then
      match (List.range (u.taps (s.carveW dst))).find? (fun tap => s.tapIndex dst u tap = some e.1) with
      | some tap => if (s.nextToken dst tap).any (fun n => n.1.ord = u.ord && n.2 % 256 = e.2.1.token) then some (u, tap) else none
      | none => none
    else none)

/-- What one element of a hop buffer does at the next station: the first of a tile makes it lap there, with one visit fewer; any other
enters its tap. None while it cannot. -/
def State.hop (s : State) (from_ dst : Nat) (e : Nat × Operand × LapTile) : Option State :=
  match s.hopTaker dst e with
  | some (u, tap) =>
    if u.lap.isNone then some (s.acceptLap dst u { e.2.2 with visits := e.2.2.visits - 1, src := .stream })
    else
      (s.enter dst u tap (256 * u.ord + e.2.1.token) e.2.1.code e.2.1.scale e.2.1.void).map (fun t =>
        { t with arr.hops := t.arr.hops.write [] from_ ((t.arr.hops.read [] from_).erase e) })
  | none => none

/-- HOP_TRANSFER: the oldest element in a station's hop buffer that can enters the next station of the run, whose use takes its operand
from the lapping stream. -/
def execHopTransfer (stn next : Fin 104) (q : Fin 4) (s : State) : Out :=
  s.event fun s =>
    let from_ := 4 * stn.val + q.val
    let dst := 4 * next.val + q.val
    let l := (s.arr.hops.read [] from_).filter (fun e => s.mayRun e.2.2.slot.toNat && s.nextStation e.2.2.slot.toNat stn.val = some next.val)
    (l.findSome? (fun e => s.hop from_ dst e)).getD s

/-- The use that takes a tile of an inject queue: the oldest without a tile, of the tile's slot, that injects, or for a tile that comes
round again the oldest that takes the lapping stream (R60). -/
def State.injectTaker (s : State) (ck : Nat) (l : LapTile) : Option UseCfg :=
  let again : Bool := match l.src with
    | .carried _ => true
    | _ => false
  (s.usesOf ck).find? (fun u => u.lap.isNone && u.slot = l.slot && decide (u.visits = 0) = again && (again || u.conv.isNone))

/-- TILE_INJECT: the oldest tile of a die's inject queue that is bound for a carve enters there, its head first (R75, R78). -/
def execTileInject (die : Fin 4) (stn : Fin 104) (q : Fin 4) (s : State) : Out :=
  s.event fun s =>
    let ck := 4 * stn.val + q.val
    let l := s.arr.inject.read [] die.val
    match l.find? (fun e => e.2 = ck) with
    | some e =>
      match s.injectTaker ck e.1 with
      | some u =>
        if !s.mayRun e.1.slot.toNat || !s.lapReady e.1 then s
        else
          let head := match e.1.src with
            | .carried _ => e.1.head
            | _ => s.headOf e.1
          ({ s with arr.inject := s.arr.inject.write [] die.val (l.erase e) }).acceptLap ck u { e.1 with head := head }
      | none => s
    | none => s

/-- TILE_RETIRE: the oldest tile whose elements have all reached the retire queue leaves the Rink after its last visit; with visits left,
at the end of a run that is shorter than its Rink, it is injected again at the run's start, when the queue there has room (R60). -/
def execTileRetire (stn : Fin 104) (q : Fin 4) (s : State) : Out :=
  s.event fun s =>
    let ck := 4 * stn.val + q.val
    match s.arr.retire.find? (fun e => e.1 % 512 = ck) with
    | some (key, es) =>
      match es.head? with
      | some (_, _, l) =>
        let t : State := { s with arr.retire := s.arr.retire.remove key }
        if (s.usesOf ck).any (fun u => u.ord = key / 512 && !s.summed ck u) then s
        else if l.visits ≤ 1 then t
        else match (s.domain l.slot.toNat).bind (fun d => d.run.head?.map (fun p => 4 * p + d.quarter)) with
          | some start =>
            let e := ({ l with visits := l.visits - 1, src := .carried (es.map (fun x => (x.1, x.2.1))) : LapTile }, start)
            if t.queueRoom start (tileBytes l.fmt) then
              { t with arr.inject := t.arr.inject.insert (start / 4 / 26) (t.arr.inject.read [] (start / 4 / 26) ++ [e]) }
            else s
          | none => t
      | none => s
    | none => s

end Sys2Proof.Machine
end

