-- ==== Sys2Proof/Machine/Identity.lean ====
section
/-! DEFINITION. The identity record, quotes, the log and kept replies: the commands 0x0001 to 0x0007 but COUNTERS. -/

namespace Sys2Proof.Machine

/-- A field of `w` bits placed at bit `lo` of a record. -/
def placed (lo w v : Nat) : Nat := v % 2 ^ w * 2 ^ lo

/-- The part number in ASCII, first character in the lowest byte (Table 16.10). -/
def partNumber : Nat := leNat ([0x43, 0x4D, 0x48, 0x2D, 0x52, 0x48, 0x4D, 0x2D, 0x35, 0x31, 0x32].map (BitVec.ofNat 8))

/-- The module number of the system map: X + 16 × Y + 256 × Z (R277); 0 with no map. -/
def State.moduleNum (s : State) : BitVec 11 :=
  match s.sl.sysmap with
  | some m => BitVec.ofNat 11 (m.x.toNat + 16 * m.y.toNat + 256 * m.z.toNat)
  | none => 0

/-- SYSID of the system map; 0 with no map. -/
def State.sysid (s : State) : BitVec 64 :=
  match s.sl.sysmap with
  | some m => m.sysid
  | none => 0

/-- OPKEY_H: the first 32 bytes of SHA3-512 of the operator key; zero when none (Table 16.10). -/
def State.opkeyHash (s : State) : Nat :=
  match s.cmd.opkey with
  | some k => (Config.sha3 (leBytes 2592 k.toNat)).toNat % 2 ^ 256
  | none => 0

/-- FEEDS: feed A circuit and source, feed B circuit and source (R382). -/
def State.feeds (s : State) : Nat :=
  placed 0 32 s.pwr.feedA.circuit.toNat + placed 32 32 s.pwr.feedA.source.toNat
    + placed 64 32 s.pwr.feedB.circuit.toNat + placed 96 32 s.pwr.feedB.source.toNat

/-- The identity record (Table 16.10). -/
def State.identity (s : State) : BitVec 1024 :=
  BitVec.ofNat 1024
    (placed 896 128 partNumber + placed 888 8 0xB0 + placed 880 8 1 + placed 872 8 1 + placed 864 8 1
      + placed 800 64 Config.serial.toNat + placed 768 32 s.boot.cur.boots.toNat + placed 767 1 s.boot.ready.toNat
      + placed 766 1 s.boot.stat.slot.toNat + placed 758 8 s.boot.svn.toNat + placed 694 64 s.boot.zilVer.toNat
      + placed 630 64 s.boot.ldrVer.toNat + placed 502 128 s.feeds + placed 491 11 s.moduleNum.toNat
      + placed 427 64 s.sysid.toNat + placed 171 256 s.opkeyHash)

/-- HELLO: the highest common version, which can only be 1, and the identity record; ST_VERSION when the ranges do not
meet (R346). -/
def execHello (c : Hdr) (low high : BitVec 8) (s : State) : Out :=
  s.command 0x0001 c fun s c =>
    if low.toNat ≤ 1 ∧ 1 ≤ high.toNat then s.replyWith c (.identity 1 s.identity) else s.reply c .version

/-- IDENTITY: the identity record (R350). -/
def execIdentity (c : Hdr) (s : State) : Out :=
  s.command 0x0002 c fun s c => s.replyWith c (.identity 1 s.identity)

/-- EK_H of a bib: SHA3-512 of its encapsulation key; zero for bib 0x000 and where there is none. -/
def State.ekHash (s : State) (b : BitVec 12) : Nat :=
  match (s.keysOf b).ek with
  | some k => (Config.sha3 (leBytes 1568 k.toNat)).toNat
  | none => 0

/-- COURSE_H: SHA3-512 over the digests of the bib's resident courses in slot order; zero for bib 0x000. -/
def State.courseHash (s : State) (b : BitVec 12) : Nat :=
  if b = 0 then 0
  else (Config.sha3 ((s.crs.courses.filter (fun e => e.2.bib = b)).flatMap (fun e => leBytes 64 e.2.digest))).toNat

/-- The quote body (Table 14.11). -/
def State.quoteBody (s : State) (b : BitVec 12) (nonce : BitVec 256) : BitVec 3584 :=
  BitVec.ofNat 3584
    (placed 3552 32 0x544F5551 + placed 3544 8 1 + placed 3536 8 1 + placed 3528 8 0xB0
      + placed 3520 8 s.boot.svn.toNat + placed 3456 64 Config.serial.toNat + placed 3392 64 s.clk.ts.toNat
      + placed 3376 16 s.clk.epoch.toNat + placed 3364 12 b.toNat + placed 3332 32 (s.bib b).args.tenant.toNat
      + placed 3331 1 s.boot.stat.slot.toNat + placed 3330 1 s.test.unlocked.isSome.toNat
      + placed 3298 32 (s.keysOf b).gen.toNat + placed 2816 256 nonce.toNat + placed 2304 512 Config.devIdHash.toNat
      + placed 1792 512 s.boot.bootM.toNat + placed 1280 512 s.boot.zilM.toNat + placed 768 512 (s.ekHash b)
      + placed 256 512 (s.courseHash b))

/-- A fresh ML-KEM-1024 pair for a bib whose pair is gone and whose K_E was never formed (R302): the quote makes it. -/
def State.freshKem (s : State) (b : BitVec 12) : State :=
  let k := s.keysOf b
  if b ≠ 0 ∧ k.kemDue = false ∧ k.ek = none ∧ k.ke = none then
    (s.setKeys b { k with ek := some (Config.kemEk (s.freeVal 256)), dk := some (s.freeVal 256) }).used
  else s

/-- QUOTE: a signed quote with the alias certificate and, for a bib, its encapsulation key (R314); more than 128 tries of
the signer's rejection loop get ST_BUSY. -/
def execQuote (c : Hdr) (nonce : BitVec 256) (tries : Nat) (s : State) : Out :=
  s.command 0x0003 c fun s c =>
    if 128 < tries then s.reply c .busy
    else
      let s := s.freshKem c.bib
      let body := s.quoteBody c.bib nonce
      let dbg := s.test.unlocked.isSome
      s.replyWith c (.quote body (Config.aliasSign s.boot.bootM s.boot.svn dbg body.toNat)
        (Config.aliasCert s.boot.bootM s.boot.svn dbg) (s.keysOf c.bib).ek)

/-- Entries of the log in the ring. -/
def logSize : Nat := 1048576

/-- EVENTS: the entries from an index that the ring still holds (R370); what it returns is remembered for LOG_OVERWRITE. -/
def execEvents (c : Hdr) (first : BitVec 48) (count : Nat) (s : State) : Out :=
  s.command 0x0004 c fun s c =>
    let es := s.log.ring.filter (fun e => decide (first.toNat ≤ e.2.index.toNat ∧ e.2.index.toNat < first.toNat + count))
    let t : State := { s with log.returned := s.log.returned ++ (es.map (·.1)).filter (fun k => !s.log.returned.contains k) }
    t.replyWith c (.entries (es.map (·.2)))

/-- A kept reply as a result. -/
def keptResult (r : Reply) : Result :=
  .kept r.opcode r.slot r.status r.final r.tag r.event r.ts r.epoch r.signed r.result

/-- REPLIES: the newest kept reply of a TAG (R338); a TAG with no kept reply is out of range (log entry 15). -/
def execReplies (c : Hdr) (tag : BitVec 32) (s : State) : Out :=
  s.command 0x0006 c fun s c =>
    match (s.cmd.kept.read [] (keptKey c)).reverse.find? (fun r => r.tag = tag) with
    | some r => s.replyWith c (keptResult r)
    | none => s.reply c .bounds

/-- OPKEY: the operator key, only while no bib is in states 1 to 3 (R339). -/
def execOpkey (c : Hdr) (key : BitVec 20736) (s : State) : Out :=
  s.command 0x0007 c fun s c =>
    if s.bibs.recs.any (fun _ r => decide (r.state = .admitted ∨ r.state = .running ∨ r.state = .suspended))
    then s.reply c .busy
    else ({ s with cmd.opkey := some key }).reply c .ok

end Sys2Proof.Machine
end

