-- ==== Sys2Proof/Machine/Intake.lean ====
section
/-! DEFINITION. The paths of packets: command rings, service Ethernet, the sideband, reply rings and the host BAR
(R305 to R307, R336 to R345). -/

namespace Sys2Proof.Machine

/-- The command and reply rings of a bib. -/
def State.ring (s : State) (b : BitVec 12) : Ring := s.cmd.rings.read {} b.toNat

/-- The rings of a bib are written. -/
def State.setRing (s : State) (b : BitVec 12) (r : Ring) : State :=
  { s with cmd.rings := s.cmd.rings.write {} b.toNat r }

/-- The replay record of a bib. -/
def State.replay (s : State) (b : BitVec 12) : Replay := s.bibs.replay.read {} b.toNat

/-- The replay record of a bib is written. -/
def State.setReplay (s : State) (b : BitVec 12) (r : Replay) : State :=
  { s with bibs.replay := s.bibs.replay.write {} b.toNat r }

/-- What R307 finds in a sealed block. -/
inductive SealCheck | accept | authFail | replayed
  deriving DecidableEq, Repr

/-- The acceptance conditions of R307 for a block that bib `b` reads: tag, DIR and BIB, then SEQ against H and the record. -/
def State.sealCheck (s : State) (b : BitVec 12) (k : Seal) : SealCheck :=
  let r := s.replay b
  if (s.keysOf b).host = none || !k.tagOk || k.dir || k.bib ≠ b then .authFail
  else if k.seq.toNat + 4096 < r.h || r.seen.contains k.seq.toNat then .replayed
  else .accept

/-- An accepted SEQ enters the record: at or above H it sets H to SEQ + 1 and slides the record (R307). -/
def Replay.take (r : Replay) (seq : Nat) : Replay :=
  let h := if r.h ≤ seq then seq + 1 else r.h
  { r with h := h, seen := (seq :: r.seen).filter (fun x => decide (h ≤ x + 4096)) }

/-- A block of bib `b` is accepted and counted, or refused and counted (R307). -/
def State.takeSeal (s : State) (b : BitVec 12) (k : Seal) : State × Bool :=
  match s.sealCheck b k with
  | .accept => ((s.setReplay b ((s.replay b).take k.seq.toNat)).count 0x0703 b.toNat 1, true)
  | .authFail => (s.count 0x0701 b.toNat 1, false)
  | .replayed => (s.count 0x0702 b.toNat 1, false)

/-- A packet is taken in: an operator packet goes ahead of a tenant packet of its bib only by order of arrival (R342). -/
def State.takeIn (s : State) (c : Hdr) : State := { s with cmd.intake := s.cmd.intake ++ [c] }

/-- Commands of a bib that have been taken in and not started (R342). -/
def State.waitingOf (s : State) (b : BitVec 12) : Nat := (s.cmd.intake.filter (fun c => c.bib = b)).length

/-- The poll interval of a bib in ticks: 20 µs when a command was taken from it in the last 10 ms, else 1 ms (R344). -/
def Ring.interval (r : Ring) : Nat := if r.idle < 10000 then 20 else 1000

/-- A tick token reaches the poller: every bib's intervals advance (R29, R344). -/
def Ring.tick (r : Ring) : Ring := { r with ticks := r.ticks + 1, idle := min 10000 (r.idle + 1) }

/-- HOST_POLL_TIMER: the poll interval of a bib expires and its next command slot is read; a bib in state 0 or 4, or with
no virtual function, is not polled, at most one block is read in a microsecond, and polling begins at B11 (R343, R344, R355). -/
def execHostPollTimer (bib : BitVec 12) (s : State) : Out :=
  s.event fun s =>
    let r := s.bib bib
    if s.boot.ready && !s.cmd.polled && r.args.vf ≠ 0 && r.state ≠ .free && r.state ≠ .clearing && decide ((s.ring bib).interval ≤ (s.ring bib).ticks)
    then
      let t : State := { s with cmd.polled := true }
      t.setRing bib { s.ring bib with asked := true, ticks := 0 }
    else s

/-- Whether the block in the next slot is new (R343): DIR 0, the bib's number, and a SEQ above the slot's kept one. -/
def Ring.isNew (r : Ring) (bib : BitVec 12) (k : Seal) : Bool :=
  !k.dir && k.bib = bib && (match r.kept.lookup r.next with
    | some q => decide (q < k.seq.toNat)
    | none => true)

/-- The slot is consumed: its SEQ is kept and the next slot follows; a command has been taken (R343, R344). -/
def Ring.consume (r : Ring) (seq : Nat) : Ring := { r with kept := r.kept.insert r.next seq, next := (r.next + 1) % 64, idle := 0 }

/-- COMMAND_BLOCK_READ: the block of the slot that was read arrives. Nothing is taken while intake is paused, while the
reply ring is full or while 16 commands of the bib are in progress (R342, R343, Table 16.13). A new block consumes its
slot and goes through Table 16.3: version, seal (R307), role and bib, bib state, reserved bits. -/
def execCommandBlockRead (bib : BitVec 12) (sl : Seal) (h : Hdr) (s : State) : Out :=
  s.event fun s =>
    let r := s.ring bib
    if !r.asked then s
    else
      let s := s.setRing bib { r with asked := false }
      let full := decide (64 ≤ (r.posted - r.rdone).toNat)
      if s.cmd.paused || full || decide (16 ≤ s.waitingOf bib) || !r.isNew bib sl then s
      else
        let c := { h with path := .host }
        let s := s.setRing bib (({ r with asked := false }).consume sl.seq.toNat)
        if c.role ≠ 0 then s.count 0x0705 0 1
        else if c.pver ≠ 1 then s.reply c .version
        else
          let u := s.takeSeal bib sl
          if !u.2 then u.1.reply { c with bib := bib, tag := 0xFFFFFFFF } .auth
          else
            let s := u.1.setRing bib { u.1.ring bib with rdone := h.rdone }
            if opRoles c.opcode.toNat = [] then s.reply c .badOpcode
            else if c.bib ≠ bib then s.reply c .auth
            else match s.firstFailure c.opcode.toNat c with
              | some st => s.reply c st
              | none => s.takeIn c

/-- Whether an operator packet is authentic (R338). -/
def State.operatorOk (s : State) (h : Hdr) (sigOk : Bool) : Bool :=
  s.cmd.opkey.isSome && sigOk && h.boots = s.boot.cur.boots && (match s.cmd.oseq with
    | some q => decide (q.toNat < h.oseq.toNat)
    | none => true)

/-- An authenticated datagram goes through the rest of Table 16.3; one taken in holds its receive buffer. -/
def State.ethAccept (s : State) (p : Nat) (c : Hdr) : State :=
  match s.firstFailure c.opcode.toNat c with
  | some st => s.reply c st
  | none => ({ s with cmd.ethUsed := s.cmd.ethUsed.write 0 p (s.ethUsed p + 1) }).takeIn c

/-- ETH_DATAGRAM_RX: a datagram is accepted only into posted space, 4,096 buffers from B11 on; otherwise it is discarded
and counted (R345). An authentication failure is discarded with no reply and counted (Table 16.3). -/
def execEthDatagramRx (port : Fin 2) (d : Datagram) (s : State) : Out :=
  s.event fun s =>
    if !s.boot.ready || decide (4096 ≤ s.ethUsed port.val) then s.count 0x0707 port.val 1
    else match d with
      | .sealed k h =>
        let c := { h with path := .eth port }
        if c.role ≠ 0 then s.count 0x0705 0 1
        else if c.pver ≠ 1 then s.reply c .version
        else
          let u := s.takeSeal k.bib k
          if !u.2 then u.1.count 0x0706 port.val 1
          else if opRoles c.opcode.toNat = [] then u.1.reply c .badOpcode
          else if c.bib ≠ k.bib then u.1.reply c .auth
          else u.1.ethAccept port.val c
      | .operator h sigOk =>
        let c := { h with path := .eth port }
        if c.role ≠ 1 then s.count 0x0705 0 1
        else if c.pver ≠ 1 then s.reply c .version
        else if !s.operatorOk h sigOk then s.count 0x0706 port.val 1
        else
          let s : State := { s with cmd.oseq := some h.oseq }
          s.ethAccept port.val c

/-- I3C_PACKET_RX: a packet of the chassis controller, which is trusted (Table 16.1); it is checked by Table 16.3 and taken
in where the present stage serves it (R354). -/
def execI3cPacketRx (h : Hdr) (s : State) : Out :=
  s.event fun s =>
    let c := { h with path := .i3c }
    if !s.serves c.opcode.toNat .i3c then s
    else if c.role ≠ 2 then s.count 0x0705 0 1
    else match s.firstFailure c.opcode.toNat c with
      | some st => s.reply c st
      | none => s.takeIn c

/-- The first reply of a bib that waits for its ring. -/
def State.nextReply (s : State) (b : BitVec 12) : Option Reply := s.cmd.outbox.find? (fun r => r.bib = b)

/-- REPLY_POST: the oldest waiting reply of a bib goes into its reply ring, in one sealed block with DIR 1, when fewer than
64 replies lie beyond RDONE (R343). -/
def execReplyPost (bib : BitVec 12) (s : State) : Out :=
  s.event fun s =>
    match s.nextReply bib with
    | none => s
    | some rep =>
      let r := s.ring bib
      if (r.posted - r.rdone).toNat < 64 then
        let t := s.setRing bib { r with posted := r.posted + 1, ring := last64 (r.ring ++ [rep]) }
        let u := t.setReplay bib { t.replay bib with txSeq := (t.replay bib).txSeq + 1 }
        ({ u with cmd.outbox := s.cmd.outbox.erase rep }).count 0x0704 bib.toNat 1
      else s

/-- HOST_BAR_WRITE: a write to a BAR is discarded and counted (R305). -/
def execHostBarWrite (_fn : Fin 64) (s : State) : Out := s.event fun s => s.count 0x0700 0 1

end Sys2Proof.Machine
end

