-- ==== Sys2Proof/Machine/Reset.lean ====
section
/-! DEFINITION. Module reset and loss of power: what goes and what stays (R28, R244, R273, R351, R359, R361, R383, R384, R396). -/

namespace Sys2Proof.Machine

/-- A feed's registers at module reset. What S3 read of its identity memory stays (R382; log entry 11). -/
def Feed.reset (f : Feed) : Feed :=
  { present := f.present, idOk := f.idOk, circuit := f.circuit, source := f.source }

/-- A stack at module reset: its marks come from the boot record (R201). -/
def Stack.reset (k : Stack) : Stack := { marked := k.marked, mdie := k.mdie, second := k.second, ldie := k.ldie }

/-- A block group at module reset: the count of reads since its erase restarts at 30,000 (R233). -/
def Grp.reset (g : Grp) : Grp := { g with reads := 30000 }

/-- What the lodge's cells keep over a reset: tags, objects, group states and the places of the commit log. -/
def Lodge.reset (l : Lodge) : Lodge :=
  { tags := l.tags, objs := l.objs, grps := l.grps.each (fun _ g => g.reset), replicas := l.replicas
    logA := l.logA, logB := l.logB, seq := l.seq, cseq := l.cseq, progBytes := l.progBytes }

/-- What the boot flash and the fuses keep over a reset. -/
def Boot.reset (b : Boot) : Boot := { rec0 := b.rec0, rec1 := b.rec1, images := b.images, svn := b.svn }

/-- Module reset: every register at its Reset column, memories, courses, bibs, keys, log and counters gone. The time base
runs on (R28); feeds, pins, fuses, boot flash, operator key and the lodge's cells keep what they hold; an accepted unlock
token waits for the boot that follows (R379). -/
def State.moduleReset (s : State) : State :=
  { State.reset with
    clk := s.clk
    pwr := { s.pwr with reset := true, feedA := s.pwr.feedA.reset, feedB := s.pwr.feedB.reset, modPwr := {}, thermAlertN := true }
    rink := { maps := s.rink.maps, rows := s.rink.rows, cols := s.rink.cols }
    mem := { stks := s.mem.stks.each (fun _ k => k.reset)
             bytes := s.mem.bytes.keep (fun k _ => decide (byteKey 3 0 ≤ k ∧ k < byteKey 4 0)) }
    lodge := s.lodge.reset
    cmd := { opkey := s.cmd.opkey }
    boot := s.boot.reset
    test := { startup := s.test.startup, nextScope := s.test.nextScope }
    sec := { copies := s.sec.copies.filter (fun k => decide (2 ≤ k.kind)) }
    freeCtr := s.freeCtr
    pending := s.pending }

/-- The rails of the core, memories and PHYs are gone: PWR_GOOD is low, and nothing is saved beyond the flash (R383). -/
def State.lose (s : State) (st : SeqStage) : State :=
  let t := s.moduleReset
  { t with pwr.pwrGood := false, pwr.stage := st, pwr.phyUp := false }

/-- Every rail off: the time base stops with VAUX (R28), open-drain and high-impedance outputs are released (R392). -/
def State.allOff (s : State) : State :=
  let t := s.lose .dark
  { t with clk := {}, pwr.thermTripN := true }

/-- Whether VAUX is in regulation. -/
def State.vauxUp (s : State) : Bool :=
  match s.pwr.stage with
  | .dark => false
  | .rising .vaux => false
  | _ => true

/-- Whether at least one feed is present. -/
def State.fed (s : State) : Bool := s.pwr.feedA.present || s.pwr.feedB.present

/-- A feed by letter: false A, true B. -/
def State.feed (s : State) (b : Bool) : Feed := if b then s.pwr.feedB else s.pwr.feedA

/-- A feed is written. -/
def State.setFeed (s : State) (b : Bool) (f : Feed) : State :=
  if b then { s with pwr.feedB := f } else { s with pwr.feedA := f }

/-- What happens when no feed is left, by the stage the module is in (R383, R384, R390): a module past S7 goes to
hold-up, a sequence before S7 stops, and a tripped module keeps its latch until the hold-up ends. -/
def State.unfed (s : State) : State :=
  match s.pwr.stage with
  | .good => s.lose .holdup
  | .rising _ => s.allOff
  | _ => s

end Sys2Proof.Machine
end

