-- ==== Sys2Proof/Machine/Boot.lean ====
section
/-! DEFINITION. The boot flash, the boot sequence, the recovery stage and the live update (R351 to R359). -/

namespace Sys2Proof.Machine

/-! ## Images and control records -/

/-- The number of an image in the table: slot (false A, true B) and KIND (Table 14.12). -/
def imgKey (slot : Bool) (kind : Nat) : Nat := (if slot then 4 else 0) + kind

/-- Whether an image is accepted (R316). -/
def imageOk (svnMin : BitVec 8) (kind : Nat) (i : Image) : Bool :=
  i.magicOk && i.iver = 1 && i.arch = 1 && i.kind.toNat = kind && i.rsvZero && i.keyOk && i.sigOk && i.digestOk
    && decide (svnMin.toNat ≤ i.svn.toNat)

/-- Whether slot `slot` holds an accepted image of a kind. -/
def State.slotImage (s : State) (slot : Bool) (kind : Nat) : Bool :=
  match s.boot.images.lookup (imgKey slot kind) with
  | some i => imageOk s.boot.svn kind i
  | none => false

/-- Whether every image of a slot is accepted: one of each kind 1 to 3 (R351, R356). -/
def State.slotOk (s : State) (slot : Bool) : Bool := s.slotImage slot 1 && s.slotImage slot 2 && s.slotImage slot 3

/-- The measurement of an image (R313). -/
def measure (i : Image) : BitVec 512 := Config.imageHash i.kind i.svn i.version i.digest

/-- The image of a kind in a slot. -/
def State.image (s : State) (slot : Bool) (kind : Nat) : Option Image := s.boot.images.lookup (imgKey slot kind)

/-- The record in force and whether it is copy 1: the valid copy with the higher BSEQ, or the fresh record of R352, which
stands as copy 1. -/
def Boot.inForce (b : Boot) : BootRec × Bool :=
  match b.rec0, b.rec1 with
  | some r0, some r1 => if r1.bseq.toNat < r0.bseq.toNat then (r0, false) else (r1, true)
  | some r0, none => (r0, false)
  | none, some r1 => (r1, true)
  | none, none => ({}, true)

/-- A record is written into the copy that is not in force, BSEQ raised by one (R352). -/
def Boot.writeRec (b : Boot) (r : BootRec) : Boot :=
  let r' : BootRec := { r with bseq := b.inForce.1.bseq + 1 }
  if b.inForce.2 then { b with rec0 := some r', cur := r' } else { b with rec1 := some r', cur := r' }

/-- VALID of a slot. -/
def BootRec.valid (r : BootRec) (slot : Bool) : Bool := if slot then r.validB else r.validA

/-- VALID of a slot is written. -/
def BootRec.setValid (r : BootRec) (slot v : Bool) : BootRec :=
  if slot then { r with validB := v } else { r with validA := v }

/-! ## The boot sequence (Table 16.12) -/

/-- BOOT_ROM_START: module reset is negated (B1) and the boot ROM reads the control records and chooses the slot (B2,
R353). CHALLENGE is drawn (R378), and an accepted unlock token takes effect for this boot (R379). -/
def execBootRomStart (s : State) : Out :=
  .next (if s.pwr.pwrGood && s.pwr.resetN && decide (s.boot.rows = []) then
    let r := s.boot.inForce.1
    let trial := r.try_ && decide (0 < r.tries.toNat)
    let r' := if trial then { r with tries := r.tries - 1 } else r
    let t : State := { s with
      pwr.reset := false
      boot.cur := r'
      boot.rows := [.b1, .b2]
      boot.stat := { stage := 0, slot := if trial then !r.active else r.active, trial := trial }
      test.challenge := s.freeVal 128
      test.unlocked := s.test.nextScope
      test.nextScope := none }
    t.used
  else s)

/-- The loader of `slot` has been accepted: BOOT_M is measured, UDS locked, BOOTS counted and the record written (R313,
R353). -/
def State.bootLoader (s : State) (slot trial : Bool) (r : BootRec) : State :=
  let b := s.boot.writeRec { r with boots := r.boots + 1 }
  let m := match s.image slot 1 with
    | some i => (measure i, i.version)
    | none => (0, 0)
  { s with boot := { b with rows := s.boot.rows ++ [.b3], locked := true, bootM := m.1, ldrVer := m.2
                            stat := { s.boot.stat with stage := 1, slot := slot, trial := trial } } }

/-- BOOT_LOADER_VERIFIED: the loader of the chosen slot is accepted, or it is refused and the other slot's is tried; when
both are refused the record is written and the recovery stage entered (R353). -/
def execBootLoaderVerified (s : State) : Out :=
  s.event fun s =>
    if s.boot.rows = [.b1, .b2] then
      let sl := s.boot.stat.slot
      let r := s.boot.cur
      if s.slotImage sl 1 then s.bootLoader sl s.boot.stat.trial r
      else
        let r1 : BootRec := { r.setValid sl false with try_ := false }
        let s1 : State := { s with boot.stat.refused := 1, boot.stat.refSlot := sl }
        if s1.slotImage (!sl) 1 then s1.bootLoader (!sl) false r1
        else
          { s1 with boot := { s1.boot.writeRec (r1.setValid (!sl) false) with
              stat := { s1.boot.stat with stage := 7, slot := !sl, trial := false, refSlot := !sl } } }
    else s

/-- BOOT_MEMORY_TRAINED: the loader has trained the stack interfaces and near-tier bonds (B4). -/
def execBootMemoryTrained (s : State) : Out :=
  s.event fun s =>
    if s.boot.rows = [.b1, .b2, .b3] then { s with boot.rows := s.boot.rows ++ [.b4], boot.stat.stage := 2 } else s

/-- EV_REPAIR of a marked stack die, part 3. -/
def dieEvent (k : Nat) (mdie : BitVec 4) : Event :=
  { src := 3, srcInst := BitVec.ofNat 12 k, arg := .repair 3 (BitVec.ofNat 12 k) (mdie.setWidth 64) }

/-- BOOT_MEMORY_ZEROED: T2 and T1 are zero-filled and the marked dies reapplied, each recorded (B5, R201, R368); the lodge's bytes stay. -/
def execBootMemoryZeroed (s : State) : Out :=
  s.event fun s =>
    if s.boot.rows = [.b1, .b2, .b3, .b4] then
      let t : State := { s with
        boot.rows := s.boot.rows ++ [.b5], boot.stat.stage := 3
        mem.bytes := s.mem.bytes.keep (fun k _ => decide (byteKey 3 0 ≤ k ∧ k < byteKey 4 0)) }
      t.each (t.mem.stks.filter (fun e => e.2.marked)) (fun u e => u.raise (dieEvent e.1 e.2.mdie))
    else s

/-- What the loader does with a refused Zilunzor (2) or PHY firmware (3) image (R353). A slot that is neither a trial nor
ACTIVE is handled as the last case (log entry 12). -/
def State.refuseImage (s : State) (kind : BitVec 3) : State :=
  let sl := s.boot.stat.slot
  let r : BootRec := { s.boot.cur.setValid sl false with try_ := false }
  if s.boot.stat.trial then ({ s with boot := s.boot.writeRec r }).moduleReset
  else if sl = r.active ∧ r.valid (!sl) then
    ({ s with boot := s.boot.writeRec { r with active := !sl } }).moduleReset
  else
    { s with boot := { s.boot.writeRec r with
        stat := { s.boot.stat with stage := 7, refused := kind, refSlot := sl } } }

/-- BOOT_IMAGES_VERIFIED: Zilunzor and PHY firmware are accepted and ZIL_M set, or a refusal is handled (B6, R316, R353). -/
def execBootImagesVerified (s : State) : Out :=
  s.event fun s =>
    if s.boot.rows = [.b1, .b2, .b3, .b4, .b5] then
      let sl := s.boot.stat.slot
      if !s.slotImage sl 2 then s.refuseImage 2
      else if !s.slotImage sl 3 then s.refuseImage 3
      else match s.image sl 2 with
        | some i => { s with boot.rows := s.boot.rows ++ [.b6], boot.stat.stage := 4, boot.zilM := measure i, boot.zilVer := i.version }
        | none => s
    else s

/-- The held events enter the log in order of arrival, from INDEX 0 (R368). -/
def State.openLog (s : State) : State :=
  let es := (List.range s.log.held.length).zip s.log.held
  { s with
    log := { s.log with up := true, held := [], next := BitVec.ofNat 48 s.log.held.length
                        ring := es.map (fun e => (e.1, { e.2 with index := BitVec.ofNat 48 e.1 })) } }

/-- ZILUNZOR_RUNNING: Zilunzor runs on 16 cores, the heartbeat toggles, and the log is set up (B7, R368). -/
def execZilunzorRunning (s : State) : Out :=
  s.event fun s =>
    if s.boot.rows = [.b1, .b2, .b3, .b4, .b5, .b6] then
      let n := s.log.held.length
      let t := s.openLog
      let u : State := { t with boot.rows := s.boot.rows ++ [.b7], boot.stat.stage := 4, sl.heartbeat := true, sl.toggle := !s.sl.toggle }
      if n = 0 then u else u.count 0x0104 0 n
    else s

/-- TRIAL_BOOT_TIMEOUT: a trial boot that has not reached B11 in 10 s resets the module; it counts as a spent try (R353). -/
def execTrialBootTimeout (s : State) : Out :=
  s.event fun s =>
    if s.boot.stat.trial && !s.boot.ready && decide (s.boot.rows ≠ []) && decide (s.boot.stat.stage ≠ 7)
    then s.moduleReset else s

/-! ## Firmware commands (R356 to R359) -/

/-- The inactive slot: the one that is not ACTIVE. -/
def State.inactive (s : State) : Bool := !s.boot.cur.active

/-- Whether both slots' images all carry at least a security version. -/
def State.bothAtLeast (s : State) (n : BitVec 8) : Bool :=
  [imgKey false 1, imgKey false 2, imgKey false 3, imgKey true 1, imgKey true 2, imgKey true 3].all (fun k =>
    match s.boot.images.lookup k with
    | some i => decide (n.toNat ≤ i.svn.toNat)
    | none => false)

/-- The waiting SVN advances that now hold take effect (R316, R358). -/
def State.svnWaiting (s : State) : State :=
  s.each s.cmd.waiting (fun t e =>
    match e.1 with
    | .svn n => if t.bothAtLeast n then
        let u := if t.boot.svn.toNat < n.toNat then { t with boot.svn := n } else t
        u.complete (.svn n) .ok .none
      else t
    | _ => t)

/-- FW_STAGE: images are written into the inactive slot, or in the recovery stage into the slot of the last refusal; the
verifier checks the slot and sets its VALID bit (R354, R356). -/
def execFwStage (c : Hdr) (images : List Image) (s : State) : Out :=
  s.command 0x0601 c fun s c =>
    let sl := if s.boot.stat.stage = 7 then s.boot.stat.refSlot else s.inactive
    if images.all (fun i => decide (1 ≤ i.kind.toNat ∧ i.kind.toNat ≤ 3)) then
      let t := s.each images (fun t i => { t with boot.images := t.boot.images.insert (imgKey sl i.kind.toNat) i })
      let u : State := { t with boot := t.boot.writeRec (t.boot.cur.setValid sl (t.slotOk sl)) }
      (u.svnWaiting).reply c .ok
    else s.reply c .version

/-- Whether a job with a member here is in recovery (SEC_STAT STATE 3 to 7, Table 15.9). -/
def State.inRecovery (s : State) : Bool := s.sec.stats.any (fun _ j => decide (3 ≤ j.state.toNat ∧ j.state.toNat ≤ 7))

/-- U1: the live update begins. -/
def State.beginUpdate (s : State) : State := { s with boot.stat.update := 1, boot.stat.stage := 6 }

/-- Whether a live update is in progress. -/
def State.updating (s : State) : Bool := decide (1 ≤ s.boot.stat.update.toNat ∧ s.boot.stat.update.toNat ≤ 4)

/-- FW_ACTIVATE: accepted when the inactive slot is valid; deferred while a job with a member here is in recovery (R356);
ST_BUSY beside another (Table 16.5). Its FINAL reply comes at U6 or at the reversal. -/
def execFwActivate (c : Hdr) (s : State) : Out :=
  s.command 0x0602 c fun s c =>
    if s.updating || s.cmd.waiting.any (fun e => decide (e.1 = .update)) then s.reply c .busy
    else if !s.boot.cur.valid s.inactive then s.reply c .busy
    else if s.inRecovery then s.defer c .update
    else
      let t := s.beginUpdate
      { t with cmd.waiting := t.cmd.waiting ++ [(.update, c)] }

/-- FW_SLOT: arranges a trial of the other slot at the next reset (R352, R353, R358). The spec gives no number of trials:
TRIES is a free value from 1 to 3 (log entry 13). Naming ACTIVE takes a pending trial back. -/
def execFwSlot (c : Hdr) (slotB : Bool) (s : State) : Out :=
  s.command 0x0603 c fun s c =>
    if slotB = s.boot.cur.active then
      ({ s with boot := s.boot.writeRec { s.boot.cur with try_ := false, tries := 0 } }).reply c .ok
    else
      let n : BitVec 4 := BitVec.ofNat 4 (1 + (s.freeVal 2).toNat % 3)
      (({ s with boot := s.boot.writeRec { s.boot.cur with try_ := true, tries := n } }).used).reply c .ok

/-- SVN_ADVANCE: the fused minimum rises when the images of both slots carry it; otherwise ST_DEFERRED (R316). -/
def execSvnAdvance (c : Hdr) (min : BitVec 8) (s : State) : Out :=
  s.command 0x0604 c fun s c =>
    if 64 < min.toNat then s.reply c .bounds
    else if s.bothAtLeast min then
      (if s.boot.svn.toNat < min.toNat then { s with boot.svn := min } else s).reply c .ok
    else s.defer c (.svn min)

/-- Whether any bib is running. -/
def State.anyRunning (s : State) : Bool := s.bibs.recs.any (fun _ r => decide (r.state = .running))

/-! ## The live update (Table 16.13, R356, R357) -/

/-- The old image resumes: ZIL_M returns to its former value where it had changed, the inactive slot's VALID is cleared,
UPDATE reads 5 and FW_ACTIVATE replies ST_FAULT (R357). -/
def State.revertUpdate (s : State) : State :=
  let back := decide (s.boot.stat.update = 4)
  let b := s.boot.writeRec (s.boot.cur.setValid s.inactive false)
  let t : State := { s with
    boot := { b with stat := { s.boot.stat with update := 5, stage := 5 }
                     zilM := if back then s.boot.oldZilM else s.boot.zilM
                     zilVer := if back then s.boot.oldZilVer else s.boot.zilVer }
    cmd.paused := false }
  t.complete .update .fault .none

/-- LIVE_UPDATE_IMAGE_READ: U2, the new image is read into the second region and verified, and intake pauses (U3 begins).
A refused image ends the update as a refused handover does (log entry 14). -/
def execLiveUpdateImageRead (s : State) : Out :=
  s.event fun s =>
    if s.boot.stat.update = 1 then
      if s.slotImage s.inactive 2 && s.slotImage s.inactive 3 then { s with boot.stat.update := 2, cmd.paused := true }
      else ({ s with boot.stat.refused := if s.slotImage s.inactive 2 then 3 else 2, boot.stat.refSlot := s.inactive }).revertUpdate
    else s

/-- LIVE_UPDATE_PAUSE_DONE: U3, commands in progress have finished or passed into the handover record. -/
def execLiveUpdatePauseDone (s : State) : Out :=
  s.event fun s => if s.boot.stat.update = 2 then { s with boot.stat.update := 3 } else s

/-- LIVE_UPDATE_HANDOVER: U4 and U5, the cores pass to the new image, ZIL_M is set and intake resumes; a new image that
refuses the handover record is reversed (R357). -/
def execLiveUpdateHandover (refused : Bool) (s : State) : Out :=
  s.event fun s =>
    if s.boot.stat.update = 3 then
      match refused, s.image s.inactive 2 with
      | false, some i =>
        { s with boot.stat.update := 4, boot.oldZilM := s.boot.zilM, boot.oldZilVer := s.boot.zilVer
                 boot.zilM := measure i, boot.zilVer := i.version, boot.phyNew := true, cmd.paused := false }
      | _, _ => s.revertUpdate
    else s

/-- LIVE_UPDATE_HEALTHY: U6, the inactive slot becomes ACTIVE and FW_ACTIVATE replies ST_OK. -/
def execLiveUpdateHealthy (s : State) : Out :=
  s.event fun s =>
    if s.boot.stat.update = 4 then
      let t : State := { s with boot := { s.boot.writeRec { s.boot.cur with active := s.inactive } with
                                    stat := { s.boot.stat with update := 0, stage := 5 } } }
      t.complete .update .ok .none
    else s

/-- LIVE_UPDATE_REVERT: the new image refuses the handover or is not healthy within 2 s of U4 (R357). -/
def execLiveUpdateRevert (s : State) : Out :=
  s.event fun s => if s.boot.stat.update = 3 ∨ s.boot.stat.update = 4 then s.revertUpdate else s

end Sys2Proof.Machine
end

