-- ==== Sys2Proof/Machine/Buddy.lean ====
section
/-! DEFINITION. Buddies and intervals of a job's securing (R321, R322). -/

namespace Sys2Proof.Machine

/-- SEC_STAT of a job record. -/
def State.secStat (s : State) (j : Nat) : SecStat := s.sec.stats.read {} j

/-- SEC_STAT of a job record is written. -/
def State.setSecStat (s : State) (j : Nat) (x : SecStat) : State := { s with sec.stats := s.sec.stats.write {} j x }

/-- Job coordinates of a rank. -/
def Job.coord (j : Job) (r dim : Nat) : Nat :=
  match dim with
  | 0 => r % j.size 0
  | 1 => r / j.size 0 % j.size 1
  | _ => r / j.size 0 / j.size 1

/-! ## The buddy offset (R321) -/

/-- The buddy of a rank under an offset in one dimension, modulo the job's extents. -/
def Job.buddyOf (j : Job) (r dim : Nat) (off : Int) : Nat :=
  let n : Int := j.size dim
  let at_ (d : Nat) : Nat := if d = dim then (((j.coord r d : Int) + off) % n).toNat else j.coord r d
  at_ 0 + j.size 0 * (at_ 1 + j.size 1 * at_ 2)

/-- The eligible offsets in the order in which they are tried: +1 in z, y, x, then −1, then ±2 and ±3 in the same manner. -/
def Job.offsets (j : Job) : List (Nat × Int) :=
  ([1, -1, 2, -2, 3, -3] : List Int).flatMap (fun k =>
    [2, 1, 0].filterMap (fun d => if 2 * k.natAbs < j.size d then some (d, k) else none))

/-- Whether two members share a feed identity. -/
def shareFeed (a b : Member) : Bool := a.feeds.any (fun f => b.feeds.contains f)

/-- The pairs of rank and buddy that share a feed identity under an offset. -/
def Job.sharedPairs (j : Job) (o : Nat × Int) : List (Nat × Nat) :=
  (List.range j.args.members.length).filterMap (fun r =>
    let b := j.buddyOf r o.1 o.2
    match j.args.members[r]?, j.args.members[b]? with
    | some x, some y => if shareFeed x y then some (r, b) else none
    | _, _ => none)

/-- The largest dimension, z before y before x among equals (log entry 34). -/
def Job.largestDim (j : Job) : Nat :=
  if j.size 0 ≤ j.size 2 ∧ j.size 1 ≤ j.size 2 then 2 else if j.size 0 ≤ j.size 1 then 1 else 0

/-- What the choice of an offset gives: an offset, if any, and the pairs that share a feed under it. -/
def Job.chooseOffset (j : Job) : Option (Nat × Int) × List (Nat × Nat) :=
  if j.args.members.length ≤ 1 then (none, [])
  else match j.offsets with
    | [] => (some (j.largestDim, 1), [])
    | first :: _ =>
      match j.offsets.find? (fun o => j.sharedPairs o = []) with
      | some o => (some o, [])
      | none => (some first, j.sharedPairs first)

/-- EV_BUDDY_SHARED_FEED (Table 17.6). -/
def sharedFeedEvent (j : Job) (o : Nat × Int) (pairs : Nat) : Event :=
  { bib := j.args.bib, arg := .buddySharedFeed j.args.jobId (BitVec.ofNat 2 o.1) (BitVec.ofInt 3 o.2) (BitVec.ofNat 12 pairs) }

/-- The offset is chosen again at a change of membership; a pair that shares a feed is recorded (R321). -/
def State.rebuddy (s : State) (i : Nat) (j : Job) : State :=
  let (o, pairs) := j.chooseOffset
  let t := s.setSecStat i { s.secStat i with buddy := o, forced := decide (pairs ≠ []) }
  match o with
  | some x => if pairs = [] then t else t.raise (sharedFeedEvent j x pairs.length)
  | none => t

/-! ## The intervals (R322) -/

/-- N_b from 1 to 4,096 and N_l a multiple of it, from measured times that the model does not hold: free values; fixed values replace
them, and FORCE, or a pair that shares a feed, sets N_l to N_b (R321, R322; log entry 35). -/
def State.newIntervals (s : State) (i : Nat) (j : Job) : State :=
  let st := s.secStat i
  let nb := j.args.fixedNb.getD (((s.freeVal 12).setWidth 13) + 1)
  let many := s.used.freeVal 9
  let nl := j.args.fixedNl.getD (BitVec.ofNat 22 (nb.toNat * (many.toNat + 1)))
  (s.setSecStat i { st with nb := nb, nl := if j.args.force || st.forced then nb.setWidth 22 else nl }).used.used

end Sys2Proof.Machine
end

