-- ==== Sys2Proof/Machine/Drains.lean ====
section
/-! DEFINITION. Drains, post-unit lanes, long sums and row reductions (R48, R83 to R90, R100, R105, R110, R121, R126 to R133, R151,
R155, R156, R283). -/

namespace Sys2Proof.Machine

/-! ## Values at the drain -/

/-- The value of a sum whose least bit weighs 2^(anchor − floor). -/
def Lane.value (l : Lane) (floor : Nat) : Val :=
  match l.cls with
  | .fin => .fin { m := l.val, e := l.anchor - floor }
  | .pinf => .inf false
  | .ninf => .inf true
  | .nan => .nan

/-- F of R148. -/
def UseCfg.distF (u : UseCfg) : Int :=
  let d : Int := (u.pc.toNat : Int) - 127
  if u.mode = 1 then 2 * d else if 2 ≤ u.mode.toNat ∧ u.mode.toNat ≤ 4 then d else 0

/-- The value that the drain is about to round (R83, R148). -/
def UseCfg.drainValue (u : UseCfg) (l : Lane) : Val :=
  match l.value u.floor with
  | .fin d => if u.mode = 0 then .fin d else .fin (d.shift u.distF)
  | v => v

/-- The value of a written element under the use's output scale. -/
def UseCfg.written (u : UseCfg) (code : Nat) : Val := elemVal u.outFmt code u.pOut.toNat

/-- Whether the drain writes a use's results: nothing is added to them and the post-units change nothing; otherwise it rounds to W40. -/
def UseCfg.direct (u : UseCfg) : Bool := u.acc = 0 && u.x.post = []

/-- The column of the output tile that a lane writes: the lane's own in transposed orientation, else counted from the use's first
(R52, R118). -/
def UseCfg.outCol (u : UseCfg) (lane : Nat) : Nat := if u.trans then lane else u.x.col.toNat + lane

/-- One element enters a patch's check (R110): the value before rounding, the value it is compared with, whether it saturated or
overflowed. -/
def PatchAcc.enter (a : PatchAcc) (v d : Val) (ovf : Bool) : PatchAcc :=
  let inf : Bool := match d with
    | .inf _ => true
    | _ => false
  let e := d.dy.sub v.dy
  { n := a.n + 1, vv := a.vv.add (v.dy.mul v.dy), ee := a.ee.add (e.mul e)
    badV := a.badV || v.bad, infD := a.infD || inf, ovf := a.ovf || ovf }

/-- The optimizer's step count of a slot. -/
def State.stepCount (s : State) (slot : Nat) : BitVec 48 := (s.upd.slots.read {} slot).step

/-! ## Converters (R84, R100, R105, R110) -/

/-- Whether the conversion check samples some patch of an output patch row: its producer then writes the row's shadow band (R110). -/
def State.rowSampled (s : State) (ck : Nat) (u : UseCfg) (tp : Nat) : Bool :=
  let c := u.slot.toNat
  let n := u.laneCount (s.carveW ck) / 8
  match s.scaleRec c u.group with
  | some r => (List.range n).any (fun j =>
      s.sampled ((s.course c).elim 0 (·.bib)) u.group r (u.patch0 + tp * n + j) ((s.stepCount c).setWidth 32))
  | none => false

/-- An element of an output patch row whose row is sampled goes into the shadow band beside its tile, in W40 (R110). -/
def State.shadow (s : State) (ck : Nat) (u : UseCfg) (token lane : Nat) (v : Val) : State :=
  if u.route = 0 ∧ s.rowSampled ck u (token / 8) then
    let k := tileKey u.out * 32 + token / 8
    { s with lkr.shadows := s.lkr.shadows.insert k (Table.insert (s.lkr.shadows.read [] k) (256 * (token % 8) + u.outCol lane) (toW40 v)) }
  else s

/-- A converter of a use's group writes one element: it observes the value and, except in recompute, enters the conversion check of
the output patch (R100, R110, R125). -/
def State.converts (s : State) (ck : Nat) (u : UseCfg) (token lane : Nat) (v : Val) (code : Nat) (marked : Bool) : State :=
  if !hasScale u.outFmt then s
  else
    let c := u.slot.toNat
    let t := s.observe c u.group v marked
    if u.recompute then t
    else
      let n := u.laneCount (s.carveW ck) / 8
      let key := u.key ck * 1024 + token / 8 * 32 + lane / 8
      let t := t.shadow ck u token lane v
      let a := (t.arr.patches.read {} key).enter v (u.written code) marked
      if a.n < 64 then { t with arr.patches := t.arr.patches.insert key a }
      else
        ({ t with arr.patches := t.arr.patches.remove key }).check c u.group false u.step (u.patch0 + token / 8 * n + lane / 8)
          ((t.stepCount c).setWidth 32) a

/-- A result marked in Table 4.6 sets the non-finite flag of the tile it goes to (R84, R87). -/
def State.flagTile (s : State) (u : UseCfg) (marked : Bool) : State :=
  if marked && u.route = 0 then
    (match s.tileHdr u.out with
    | some h => s.setTile u.out { h with nonfin := true }
    | none => s)
  else s

/-- Unit `src` of a slot's step reports overflow (R105). -/
def State.flagStep (s : State) (c : BitVec 8) (src : Nat) (bad : Bool) : State :=
  if bad && !s.upd.nonfin.contains (c, src) then { s with upd.nonfin := (c, src) :: s.upd.nonfin } else s

/-- The flag source that a NaN in the loss is (R105). -/
def lossSource : Nat := 64

/-- Whether a value is NaN. -/
def isNanVal : Val → Bool
  | .nan => true
  | _ => false

/-- One conversion to a use's output format, at a drain or a post-unit lane (R83, R84): the element observed and checked, a marked result
counted in STN_NONFINITE and flagged, a NaN in the loss reported. -/
def State.convert (s : State) (ck : Nat) (u : UseCfg) (token lane : Nat) (v : Val) : State × Nat :=
  let (code, marked) := drainEncode u.outFmt u.pOut.toNat v
  let t := s.converts ck u token lane v code marked
  let t1 := (if marked then t.count 0x0303 (s.sectionOf ck u lane) 1 else t).flagTile u marked
  (t1.flagStep u.slot lossSource (u.x.loss && isNanVal v), code)

/-- An exact sum beside the product check's reference (R110). DESIGN CHOICE (log entry 45): v is the W40 recomputation and d the use's
exact sum; an element saturated or overflowed when its drain result did. -/
def State.productEnter (s : State) (ck : Nat) (u : UseCfg) (token lane : Nat) (d : Val) (marked : Bool) : State :=
  match u.ref with
  | some (tp, ref) =>
    if token / 8 = tp ∧ lane < 8 then
      let a := (s.arr.products.read {} (u.key ck)).enter (w40Val (ref.getD (8 * (token % 8) + lane) 0)) d marked
      { s with arr.products := s.arr.products.insert (u.key ck) a }
    else s
  | none => s

/-- One sum of a beat is rounded at the drain: to the output format where the drain writes it, else to W40. -/
def State.roundSum (s : State) (ck : Nat) (u : UseCfg) (base token lane : Nat) (l : Lane) : State × DrainOut :=
  let v := u.drainValue l
  let (code, marked) := drainEncode (if u.direct then u.outFmt else .w40) u.pOut.toNat v
  let t := s.productEnter ck u token lane v marked
  if u.direct then
    let (t1, code) := t.convert ck u token lane v
    (t1, { token := base + token, code := code, fmt := u.outFmt })
  else ((if marked then t.count 0x0303 (s.sectionOf ck u lane) 1 else t).flagTile u marked, { token := base + token, code := code, fmt := .w40 })

/-- DRAIN_ROUND: a drain lane rounds its sum once (R83, R84, R99, R100). -/
def execDrainRound (stn : Fin 104) (q : Fin 4) (lane : BitVec 8) (s : State) : Out :=
  s.event fun s =>
    let ck := s.carveAt stn.val q.val
    let key := laneKey ck lane.toNat
    match s.arr.drainIn.lookup key with
    | some x =>
      match s.useFor ck x.token with
      | some u =>
        if s.arr.drainOut.has key then s
        else
          let one (a : State × List DrainOut) (e : Lane × Nat) : State × List DrainOut :=
            let (t, o) := a.1.roundSum ck u (256 * u.ord) (u.tokenOf x.token + e.2) lane.toNat e.1
            (t, a.2 ++ [o])
          let (t, outs) := x.lanes.zipIdx.foldl one (s, [])
          { t with arr.drainIn := t.arr.drainIn.remove key, arr.drainOut := t.arr.drainOut.insert key outs }
      | none => s
    | none => s

/-! ## Where results go -/

/-- The mirror entry of a tensor of a bib (R283). -/
def State.mirrorOf (s : State) (b : BitVec 12) (tensor : BitVec 24) : Option (Job × Mirror) :=
  (s.jobOf b).bind (fun e => (e.2.args.mirrors.find? (fun m => m.tensor = tensor)).map (fun m => (e.2, m)))

/-- The module at a mirror entry's offset from this module's job coordinates (R279, R283). -/
def mirrorModule (j : Job) (m : Mirror) : BitVec 11 :=
  let at_ (c : Nat) (o : Int) (n : Nat) : Nat := (((c : Int) + o) % (n : Int)).toNat
  let x := at_ j.args.jxc.toNat m.ox (j.size 0)
  let y := at_ j.args.jyc.toNat m.oy (j.size 1)
  let z := at_ j.args.jzc.toNat m.oz (j.size 2)
  ((j.args.members[x + j.size 0 * (y + j.size 1 * z)]?).map (·.module)).getD 0

/-- What a use directs to a mirrored tensor waits to be sent (R283). -/
def State.toMirror (s : State) (b : BitVec 12) (e : Job × Mirror) (va : BitVec 48) (data : List Byte) : State :=
  { s with sl.outgoing := s.sl.outgoing ++ [{ bib := b, act := e.2.act, dst := mirrorModule e.1 e.2, rail := e.2.rail, va := va, data := data }] }

/-- A candidate leaves a lane for its base engine, or for the module that owns a mirrored list table (R156, R283). -/
def State.forward (s : State) (u : UseCfg) (c : Cand) : State :=
  let b := (s.course u.slot.toNat).elim 0 (·.bib)
  let t := s.count 0x0813 u.slot.toNat 1
  match s.mirrorOf b u.tensor with
  | some e => t.toMirror b e 0 (leBytes 16 (c.list.toNat * 2 ^ 104 + c.dist.toNat * 2 ^ 64 + c.index.toNat * 2 ^ 24))
  | none => { t with arr.cands := t.arr.cands ++ [(b, c)] }

/-- Candidates that a bib's base engines have yet to insert; a lane waits while there are more (R158). DESIGN CHOICE (log entry 46). -/
def candRoom : Nat := 256

/-- Whether a result passes a threshold (R156); a NaN does, and is discarded at the list (R157). -/
def Thresh.passes (l : Thresh) (x : BitVec 40) : Bool :=
  isNan x || (if l.sense then decide (w40Rank l.thresh ≤ w40Rank x) else decide (w40Rank x ≤ w40Rank l.thresh))

/-- A finished result of a top-k lane is forwarded if it passes; the lane waits while its engine has no room (R156, R158). -/
def State.offer (s : State) (u : UseCfg) (token lane : Nat) (x : BitVec 40) : Option State :=
  match (u.thresh.getD lane none) with
  | some l =>
    if !l.passes x then some s
    else if (s.arr.cands.filter (fun e => e.1 = (s.course u.slot.toNat).elim 0 (·.bib))).length < candRoom then
      some (s.forward u { list := l.list, dist := x, index := u.index + BitVec.ofNat 40 token })
    else none
  | none => some s

/-- What a byte range of a plane finds at its page (R154, R164, R190): its home, that it must wait, or a violation. -/
def State.planeAt (s : State) (b : BitVec 12) (va die : Nat) (write : Bool) : Xlat :=
  match s.xlate b va write false with
  | .ok h => if h.tier = 1 && h.off.toNat / 2 ^ 33 = die then .ok h else .fail .bounds
  | .halt => .fail .notHome
  | r => r

/-- The byte of a use's output plane that a result goes to (R151, R155): of a gradient plane, the element that R153 addresses, none
where it is void. -/
def State.planeByte (s : State) (u : UseCfg) (token lane : Nat) : Option Nat :=
  match s.course u.slot.toNat, u.conv with
  | some k, some d =>
    let r := k.convs.getD d 0
    if u.trans then convByte r (elemBits u.outFmt / 8) token lane
    else some ((cvP0 r + token) * (8 * u.x.pitch.toNat) + (u.x.chan.toNat + lane) * (elemBits u.outFmt / 8))
  | _, _ => some ((u.x.pixel.toNat + token) * (8 * u.x.pitch.toNat) + (u.x.chan.toNat + lane) * (elemBits u.outFmt / 8))

/-- The record of a use's output tensor. -/
def State.outRec (s : State) (u : UseCfg) : Nat := (s.course u.slot.toNat).elim 0 (fun k => k.tensor u.tensor.toNat)

/-- The code of one element of a use's output is written into its tile, at the token's row and the lane's column with the patch's scale
byte (R75, R83); a tile in motion is waited for. -/
def State.writeElem (s : State) (u : UseCfg) (token lane code : Nat) : Option State :=
  match s.tileHdr u.out with
  | some h =>
    if h.state = 1 then none
    else
      let k := homeKey h.home
      let t := s.setElem k u.outFmt token (u.outCol lane) code
      some (if hasScale u.outFmt then t.setByte (k + scaleByteOf token (u.outCol lane)) u.pOut else t)
  | none => some s

/-- The code of one element of a use's output is written into its plane, whose scale byte is the group's SCALE (R151); a page in motion is
waited for. -/
def State.writePlane (s : State) (ck : Nat) (u : UseCfg) (token lane code : Nat) : Option State :=
  let b := u.out.bib
  let r := s.outRec u
  match s.planeByte u token lane with
  | none => some s
  | some o =>
    let va := tnVa r + o
    let n := elemBits u.outFmt / 8
    if tnRows r * tnCols r * 65536 < o + n then some (s.violateUse ck u .bounds (BitVec.ofNat 128 va))
    else match s.planeAt b va (ck / 4 / 26) true with
      | .ok h =>
        let t := s.setBytes (homeKey h) (leBytes n code)
        some (if hasScale u.outFmt then { t with mem.planes := t.mem.planes.insert (b.toNat * 2 ^ 48 + tnVa r) u.pOut } else t)
      | .fail st => some (s.violateUse ck u st (BitVec.ofNat 128 va))
      | _ => none

/-- One element of a use's output is written; a mirrored tensor's is sent instead (R283). -/
def State.writeResult (s : State) (ck : Nat) (u : UseCfg) (token lane code : Nat) : Option State :=
  let b := u.out.bib
  let n := (elemBits u.outFmt + 7) / 8
  match s.mirrorOf b u.tensor with
  | some e =>
    let off := if u.route = 1 then (s.planeByte u token lane).map (tnVa (s.outRec u) + ·)
      else some (tileVa (s.outRec u) u.out.tile.toNat + elemBit u.outFmt token (u.outCol lane) / 8)
    some (off.elim s (fun o => s.toMirror b e (BitVec.ofNat 48 o) (leBytes n code)))
  | none => if u.route = 0 then s.writeElem u token lane code else s.writePlane ck u token lane code

/-! ## Post-unit lanes (R48, R126 to R133, R156) -/

/-- The linear index of element `i` of a tile in its tensor's logical row-major order (R88). -/
def elementIndex (tensorRec tile i : Nat) : Nat :=
  let cols := tnCols tensorRec
  (tile / cols * 256 + i / 256) * (256 * cols) + tile % cols * 256 + i % 256

/-- ELEMENT of a use's result (R88): of a tile its row-major index; of a list's candidate its item; of a plane the element's place in the
plane. -/
def State.element (s : State) (u : UseCfg) (token lane : Nat) : BitVec 40 :=
  match u.route with
  | 0 => BitVec.ofNat 40 (elementIndex (s.outRec u) u.out.tile.toNat (token * 256 + u.outCol lane))
  | 1 => BitVec.ofNat 40 ((s.planeByte u token lane).getD 0 / (elemBits u.outFmt / 8))
  | _ => u.index + BitVec.ofNat 40 token

/-- The seed that a use names (R86, R304). -/
def State.useSeed (s : State) (u : UseCfg) : BitVec 64 := s.seed ((s.course u.slot.toNat).elim 0 (·.bib)) u.seed

/-- The rounding of an add (R86 to R88). -/
def UseCfg.rnd (u : UseCfg) (seed : BitVec 64) (element : BitVec 40) (term : BitVec 32) : Rnd :=
  if u.sr then .sr (rand32 seed (u.tensor.setWidth 32) element term) else .rne

/-- The number of a reduction tile (R129). -/
def UseCfg.redKey (u : UseCfg) (id : BitVec 8) : Nat := ((u.slot.toNat * 2 ^ 20 + u.seg) * 2 ^ 20 + u.pass) * 256 + id.toNat

/-- The number of a value held in station SRAM. -/
def heldKey (ck : Nat) (id : BitVec 8) (token lane : Nat) : Nat := ((ck * 256 + id.toNat) * 256 + token) * 256 + lane

/-- The number of a plane of the locker. -/
def planeKey (slot : BitVec 8) (tensor : BitVec 32) (unit : BitVec 24) : Nat := (slot.toNat * 2 ^ 32 + tensor.toNat) * 2 ^ 24 + unit.toNat

/-- The number of a locker entry among what has been read (R138). -/
def readKey (slot : BitVec 8) (tensor : BitVec 32) (unit : BitVec 24) (mb : BitVec 8) : Nat := planeKey slot tensor unit * 256 + mb.toNat

/-- The value of element `i` of a plane of 65,536 elements: 1, 2 or 4 bits each, the first in the lowest bits. -/
def planeBits (data : List Byte) (i : Nat) : Nat :=
  let w := data.length / 8192
  bits ((data.getD (i * w / 8) 0).toNat) (i * w % 8) w

/-- What one lane has at hand for one element (Table 6.3). -/
structure LaneAt where
  ck    : Nat
  u     : UseCfg
  token : Nat
  lane  : Nat

/-- Rounding of a post-unit operation, once, to W40 or FP32 (Table 6.3). DESIGN CHOICE (log entry 47): an SR operation of a post-unit that is
no long-sum add has TERM 1. -/
def LaneAt.round (a : LaneAt) (s : State) (r : PuRnd) (v : Val) : BitVec 40 :=
  let rnd : Rnd := if r.sr then .sr (rand32 (s.useSeed a.u) (a.u.tensor.setWidth 32) (s.element a.u a.token a.lane) 1) else .rne
  if r.fp32 then widen (BitVec.ofNat 32 (fp32.encode rnd v).1) else BitVec.ofNat 40 (w40.encode rnd v).1

/-- The value of an element of a tile of the bib, at the home of T0 or T1 that it must have; none while it has none. -/
def LaneAt.tileValue (a : LaneAt) (s : State) (tensor : BitVec 24) (tile : BitVec 40) (row : Nat) : Option (BitVec 40) :=
  match s.tileHdr { bib := a.u.out.bib, tensor := tensor, tile := tile } with
  | some h =>
    match fmtOf h.fmt.toNat with
    | some f =>
      if h.state ≠ 0 ∨ 2 ≤ h.home.tier.toNat then none
      else
        let k := homeKey h.home
        let c := a.u.outCol a.lane
        some (toW40 (elemVal f (s.elemAt k f row c) (s.byte (k + scaleByteOf row c)).toNat))
    | none => none
  | none => none

/-- Whether dropout drops an element (R126): its index has the micro-batch as leading dimension, TERM is the step count. -/
def LaneAt.dropped (a : LaneAt) (s : State) (d : BitVec 32) (tensor : BitVec 24) (mb : BitVec 8) : Bool :=
  let r := (s.course a.u.slot.toNat).elim 0 (fun k => k.tensor tensor.toNat)
  let e := mb.toNat * (tnRows r * tnCols r * 65536) + elementIndex r a.u.out.tile.toNat (a.token * 256 + a.u.outCol a.lane)
  decide ((rand32 (s.useSeed a.u) (tensor.setWidth 32) (BitVec.ofNat 40 e) ((s.stepCount a.u.slot.toNat).setWidth 32)).toNat < d.toNat)

/-- What a post-unit lane computes (Table 6.3, R126 to R133); none while a tile, a plane or a row's reduction it needs is not at hand.
A comparison with NaN is false; `sel` and `drop` write zeros as +0 and NaNs as canonical (R73). -/
def LaneAt.eval (a : LaneAt) (s : State) (x : BitVec 40) : PuExpr → Option (BitVec 40)
  | .x => some x
  | .const c => some c
  | .elem tensor tile => a.tileValue s tensor tile a.token
  | .feature tensor tile => a.tileValue s tensor tile 0
  | .row id sum =>
    let r := s.arr.red.read {} (a.u.redKey id)
    if r.whole then some ((if sum then r.sums else r.vals).getD a.token 0) else none
  | .held id => some (widen (s.arr.held.read 0 (heldKey a.ck id a.token a.lane)))
  | .plane tensor unit mb =>
    (s.lkr.readOut.lookup (readKey a.u.slot tensor unit mb)).map (fun d =>
      toW40 (.fin { m := planeBits d (a.token * 256 + a.u.outCol a.lane), e := 0 }))
  | .un op e => (a.eval s x e).map (unary40 op)
  | .add r e f => match a.eval s x e, a.eval s x f with
    | some y, some z => some (a.round s r ((w40Val y).add (w40Val z)))
    | _, _ => none
  | .mul r e f => match a.eval s x e, a.eval s x f with
    | some y, some z => some (a.round s r ((w40Val y).mul (w40Val z)))
    | _, _ => none
  | .fma r e f g => match a.eval s x e, a.eval s x f, a.eval s x g with
    | some y, some z, some w => some (a.round s r (((w40Val y).mul (w40Val z)).add (w40Val w)))
    | _, _, _ => none
  | .max e f => match a.eval s x e, a.eval s x f with
    | some y, some z => some (max40 y z)
    | _, _ => none
  | .min e f => match a.eval s x e, a.eval s x f with
    | some y, some z => some (min40 y z)
    | _, _ => none
  | .le e f => match a.eval s x e, a.eval s x f with
    | some y, some z => some (if !isNan y && !isNan z && decide (w40Rank y ≤ w40Rank z) then 0x3F80000000 else 0)
    | _, _ => none
  | .sel c e f => match a.eval s x c, a.eval s x e, a.eval s x f with
    | some b, some y, some z => some (canon40 (if w40Rank b = 0 then z else y))
    | _, _, _ => none
  | .causal e => (a.eval s x e).map (fun y => if a.token < a.u.outCol a.lane then 0 else y)
  | .drop d tensor mb e => (a.eval s x e).map (fun y =>
      if a.dropped s d tensor mb then 0 else a.round s {} ((w40Val y).mul (w40Val (keepFactor d))))

/-- The bits that a plane of a kind keeps of a value (Tables 6.2, 6.5): the sign, whether it is not 0, or a winning position. -/
def planeOf (kind : Nat) (x : BitVec 40) : Nat :=
  match kind with
  | 2 => (bitAt x.toNat 39).toNat
  | 3 => (w40Rank x ≠ 0 : Bool).toNat
  | _ => (drainEncode .int8 127 (w40Val x)).1 % (if kind = 4 then 4 else 16)

/-- One step of a post-unit on a result; none while it waits. -/
def LaneAt.step (a : LaneAt) (sx : State × BitVec 40) (f : PostFn) : Option (State × BitVec 40) :=
  let (s, x) := sx
  match f with
  | .set e => (a.eval s x e).map (fun y => (s, y))
  | .hold id e => (a.eval s x e).map (fun y => ({ s with arr.held := s.arr.held.write 0 (heldKey a.ck id a.token a.lane) (narrow y) }, x))
  | .reduce id runMax e => (a.eval s x e).map (fun y =>
      let k := (a.u.key a.ck * 256 + id.toNat) * 2 + runMax.toNat
      ({ s with arr.rows := s.arr.rows.insert k (Table.insert (s.arr.rows.read [] k) (256 * a.token + a.lane) y) }, x))
  | .keep kind tensor unit e => (a.eval s x e).map (fun y =>
      let k := planeKey a.u.slot tensor unit
      let i := a.token * 256 + a.u.outCol a.lane
      ({ s with arr.planes := s.arr.planes.insert k (Table.insert (s.arr.planes.read [] k) i (planeOf kind.toNat y)) }, x))

/-- The steps of a use's post-unit on a result, in order; none while one waits. -/
def LaneAt.steps (a : LaneAt) (s : State) (x : BitVec 40) : Option (State × BitVec 40) :=
  a.u.x.post.foldl (fun sx f => sx.bind (fun e => a.step e f)) (some (s, x))

/-- A finished result of a use goes where its route says: to its list's engine, into its tile or plane after its conversion, or into the
partial of its sum tile (R121, R151, R156). None while it waits. -/
def State.deliver (s : State) (ck : Nat) (u : UseCfg) (token lane : Nat) (x : BitVec 40) (toSum : Option (BitVec 32)) : Option State :=
  match toSum with
  | some term =>
    let k := tileKey u.out
    let p := s.arr.partials.read { slot := u.slot, term := term, sr := u.sr, seed := BitVec.ofNat 4 u.seed } k
    if p.term ≠ term then none
    else some { s with arr.partials := s.arr.partials.insert k { p with vals := p.vals.insert (token * 256 + u.outCol lane) x } }
  | none =>
    if u.route = 2 then s.offer u token lane x
    else
      let (t, code) := s.convert ck u token lane (w40Val x)
      t.writeResult ck u token lane code

/-- The next token that a lane takes of a use (R48). -/
def State.laneNext (s : State) (ck : Nat) (u : UseCfg) (lane : Nat) : Nat :=
  max (s.arr.lanes.read {} (laneKey ck lane)).next (256 * u.ord)

/-- The order of R48: a lane takes tokens in order, and each only after the lane before it has. -/
def State.laneTurn (s : State) (ck : Nat) (u : UseCfg) (lane token : Nat) : Bool :=
  s.laneNext ck u lane = token && (lane = 0 || decide (token < s.laneNext ck u (lane - 1)))

/-- Whether a domain's lanes accept: it runs and its bib is not suspended (C3 of Table 3.7); a hold does not stop them (R184). -/
def State.accepting (s : State) (slot : Nat) : Bool :=
  (s.domain slot).any (fun d => d.running && !d.suspended && (s.bib d.bib).state = .running)

/-- What a lane does with a drain result that it takes: a result that the drain has written in the output format is delivered as it is;
of a use that adds into a long sum, the lane holds it; any other goes through the post-unit's steps and is delivered. -/
def State.takeResult (s : State) (ck : Nat) (u : UseCfg) (token lane : Nat) (o : DrainOut) : Option State :=
  let key := laneKey ck lane
  let a : LaneAt := { ck := ck, u := u, token := token, lane := lane }
  if u.acc = 1 then some { s with arr.lanes := s.arr.lanes.insert key { s.arr.lanes.read {} key with result := some o } }
  else if u.direct then
    (if u.route = 2 then s.offer u token lane (toW40 (u.written o.code)) else s.writeResult ck u token lane o.code)
  else (a.steps s (toW40 (decodeElem o.fmt o.code))).bind (fun e =>
    e.1.deliver ck u token lane e.2 (if u.acc = 2 then some u.term else none))

/-- POSTUNIT_ACCEPT: a lane takes the next drain result in order. -/
def execPostunitAccept (stn : Fin 104) (q : Fin 4) (lane : BitVec 8) (s : State) : Out :=
  s.event fun s =>
    let ck := s.carveAt stn.val q.val
    let key := laneKey ck lane.toNat
    match s.arr.drainOut.read [] key with
    | o :: rest =>
      match s.useFor ck o.token with
      | some u =>
        let l := s.arr.lanes.read {} key
        if !s.accepting u.slot.toNat || !s.laneTurn ck u lane.toNat o.token || l.result.isSome then s
        else
          let t := ({ s with arr.drainOut := s.arr.drainOut.write [] key rest
                             arr.lanes := s.arr.lanes.insert key { l with next := o.token + 1 } }).setUse ck { u with accepted := u.accepted + 1 }
          (t.takeResult ck u (o.token % 256) lane.toNat o).getD s
      | none => s
    | [] => s

/-! ## Long sums in a post-unit (R86 to R90, R155) -/

/-- The number of a long sum: by output tile, or list table and item, carve, lane and token. -/
def UseCfg.sumKey (u : UseCfg) (ck lane token : Nat) : Nat :=
  let base := if u.route = 2 then 2 * (((u.out.bib.toNat * 2 ^ 24 + u.tensor.toNat) * 2 ^ 40 + u.out.tile.toNat) * 2 ^ 40 + u.index.toNat) + 1
    else 2 * tileKey u.out
  ((base * 512 + ck) * 256 + lane) * 512 + 2 * token + 1

/-- The number of the adds made to an element of a bib's plane. -/
def planeSum (b : BitVec 12) (va : Nat) : Nat := 2 * (b.toNat * 2 ^ 48 + va)

/-- An add into a gradient plane (R155): at the element that R153 addresses, in the order of uses, then tokens, then rows, of which TERM is
the count; a void element's result is discarded. None while it waits for its turn or for a page in motion. -/
def State.addPlane (s : State) (ck : Nat) (u : UseCfg) (token lane : Nat) (x : BitVec 40) : Option State :=
  let r := s.outRec u
  let before := (s.usesOf ck).any (fun v => decide (v.ord < u.ord) && v.route = 1 && v.tensor = u.tensor)
  if before ∨ u.added ≠ token * u.laneCount (s.carveW ck) + lane then none
  else
    let v := { u with outFmt := .w40, added := u.added + 1 }
    let t := s.setUse ck { u with added := u.added + 1 }
    match s.planeByte v token lane with
    | none => some t
    | some o =>
      let va := tnVa r + o
      if tnRows r * tnCols r * 65536 < o + 5 then some (t.violateUse ck u .bounds (BitVec.ofNat 128 va))
      else match s.planeAt u.out.bib va (ck / 4 / 26) true with
        | .ok h =>
          let n := (s.arr.sums.read {} (planeSum u.out.bib va)).terms
          let old := BitVec.ofNat 40 (leNat (s.bytesAt (homeKey h) 5))
          let (y, _) := addW40 (u.rnd (s.useSeed u) (s.element v token lane) (BitVec.ofNat 32 (n + 1))) old x
          some { t.setBytes (homeKey h) (leBytes 5 y.toNat) with
                 arr.sums := t.arr.sums.insert (planeSum u.out.bib va) { val := y, terms := n + 1 } }
        | .fail st => some (t.violateUse ck u st (BitVec.ofNat 128 va))
        | _ => none

/-- An add into the long sum that a lane owns, TERM checked against the adds applied (R89). A sum that is finished goes through the
post-unit's steps and is delivered. None while it waits. -/
def State.addSum (s : State) (ck : Nat) (u : UseCfg) (token lane : Nat) (x : BitVec 40) : Option State :=
  let sk := u.sumKey ck lane token
  let sum := s.arr.sums.read {} sk
  if u.term.toNat ≠ sum.terms + 1 then some (s.violateUse ck u .fault (u.term.setWidth 128))
  else
    let (y, bad) := addW40 (u.rnd (s.useSeed u) (s.element u token lane) u.term) sum.val x
    let t := s.flagTile u bad
    match u.x.last with
    | .no => some { t with arr.sums := t.arr.sums.insert sk { val := y, terms := sum.terms + 1 } }
    | .write => (LaneAt.steps { ck := ck, u := u, token := token, lane := lane } { t with arr.sums := t.arr.sums.remove sk } y).bind
        (fun e => e.1.deliver ck u token lane e.2 none)
    | .toSum term => (LaneAt.steps { ck := ck, u := u, token := token, lane := lane } { t with arr.sums := t.arr.sums.remove sk } y).bind
        (fun e => e.1.deliver ck u token lane e.2 (some term))

/-- LONG_SUM_ADD: the result a lane holds is added into its long sum, or into its gradient plane. -/
def execLongSumAdd (stn : Fin 104) (q : Fin 4) (lane : BitVec 8) (s : State) : Out :=
  s.event fun s =>
    let ck := s.carveAt stn.val q.val
    let key := laneKey ck lane.toNat
    let l := s.arr.lanes.read {} key
    match l.result with
    | some o =>
      match s.useFor ck o.token with
      | some u =>
        if !s.accepting u.slot.toNat then s
        else
          let t : State := { s with arr.lanes := s.arr.lanes.insert key { l with result := none } }
          ((if u.route = 1 then t.addPlane ck u (o.token % 256) lane.toNat (BitVec.ofNat 40 o.code)
            else t.addSum ck u (o.token % 256) lane.toNat (BitVec.ofNat 40 o.code)).getD s)
      | none => s
    | none => s

/-! ## Row reductions (R129) -/

/-- A token's contributions of a lane group, lanes in order. -/
def laneGroup (t : Table (BitVec 40)) (token n : Nat) : List (BitVec 40) := (List.range n).map (fun i => t.read 0 (256 * token + i))

/-- exp2 of a difference, in a post-unit. -/
def expOf (x m : BitVec 40) : BitVec 40 := unary40 .exp2 (addW40 .rne x (m ^^^ 0x8000000000)).1

/-- A lane group's partial of a running maximum and sum: the maximum, and the tree sum of exp2 of what lies below it. -/
def maxPartial (xs : List (BitVec 40)) : BitVec 40 × BitVec 40 :=
  let m := xs.foldl max40 (xs.headD 0)
  (m, treeSum (xs.map (fun x => expOf x m)))

/-- Two running maxima and sums combined. -/
def maxCombine (a b : BitVec 40 × BitVec 40) : BitVec 40 × BitVec 40 :=
  let m := max40 a.1 b.1
  let part (p : BitVec 40 × BitVec 40) : Val := (w40Val p.2).mul (w40Val (expOf p.1 m))
  (m, (addW40 .rne (toW40 (part a)) (toW40 (part b))).1)

/-- A reduction tile after a feature block's partials, by sum or by running maximum and sum, token by token. -/
def RedTile.take (r : RedTile) (runMax last : Bool) (groups : List (List (BitVec 40))) : RedTile :=
  let first := decide (r.terms = 0)
  let pairs := groups.zipIdx.map (fun e =>
    let old := (r.vals.getD e.2 0, r.sums.getD e.2 0)
    if runMax then (if first then maxPartial e.1 else maxCombine old (maxPartial e.1))
    else ((if first then treeSum e.1 else (addW40 .rne old.1 (treeSum e.1)).1), 0))
  { terms := r.terms + 1, vals := pairs.map (·.1), sums := if runMax then pairs.map (·.2) else [], whole := last }

/-- ROW_REDUCTION_ADD: the lane group's partials of the oldest use that has contributed every element go into the reduction tile, TERM
checked by R89. `last` says that the tile has now collected its last partial and goes on as a result tile. -/
def execRowReductionAdd (stn : Fin 104) (q : Fin 4) (id : BitVec 8) (term : BitVec 32) (last : Bool) (s : State) : Out :=
  s.event fun s =>
    let ck := s.carveAt stn.val q.val
    let whole (u : UseCfg) (m : Bool) : Bool :=
      (s.arr.rows.read [] ((u.key ck * 256 + id.toNat) * 2 + m.toNat)).length = 256 * u.laneCount (s.carveW ck)
    match (s.usesOf ck).find? (fun u => whole u false || whole u true) with
    | some u =>
      let m := whole u true
      let k := (u.key ck * 256 + id.toNat) * 2 + m.toNat
      let r := s.arr.red.read {} (u.redKey id)
      if !s.accepting u.slot.toNat || r.whole then s
      else if term.toNat ≠ r.terms + 1 then s.violateUse ck u .fault (term.setWidth 128)
      else
        let groups := (List.range 256).map (fun t => laneGroup (s.arr.rows.read [] k) t (u.laneCount (s.carveW ck)))
        { s with arr.rows := s.arr.rows.remove k, arr.red := s.arr.red.insert (u.redKey id) (r.take m last groups) }
    | none => s

end Sys2Proof.Machine
end

