-- ==== Sys2Proof/Machine/Uses.lean ====
section
/-! DEFINITION. Uses: a use begins on a station, is checked, and finishes (R80, R99, R119, R147 to R149, R154 to R156, R165, R167, R170,
R171, R193, R194, R209). -/

namespace Sys2Proof.Machine

/-! ## Records of a use -/

/-- No convolution descriptor. -/
def noConv : Nat := 0xFFFFF

/-- No scale group. -/
def noGroup : Nat := 0x7FFF

/-- A binding record's working-copy tensors (Table 12.2). -/
def bdTensor (r : Nat) : Nat := bits r 232 24
def bdWc1 (r : Nat) : Nat := bits r 208 24

/-- The tensor that a reference reaches: a binding's TENSOR resolves through CUR_WC (R256). -/
def State.resolve (s : State) (c : Nat) (k : Course) (t : Nat) : Nat :=
  if (s.upd.slots.read {} c).curWc then ((k.binds.find? (fun b => bdTensor b = t)).map bdWc1).getD t else t

/-- Whether a use gathers its operand from a plane: it names a descriptor, which serves a gradient plane's adds alone when the use
stands in transposed orientation and writes a plane (R152, R155). -/
def usGathers (r : Nat) : Bool := decide (usConv r ≠ noConv) && !(decide (usOrient r = 1) && decide (usRoute r = 1))

/-- Tiles that a post-unit expression reads, as tensor and tile. -/
def puTiles : PuExpr → List (BitVec 24 × BitVec 40)
  | .x => []
  | .const _ => []
  | .elem t i => [(t, i)]
  | .feature t i => [(t, i)]
  | .row _ _ => []
  | .held _ => []
  | .plane _ _ _ => []
  | .un _ a => puTiles a
  | .add _ a b => puTiles a ++ puTiles b
  | .mul _ a b => puTiles a ++ puTiles b
  | .fma _ a b c => puTiles a ++ puTiles b ++ puTiles c
  | .max a b => puTiles a ++ puTiles b
  | .min a b => puTiles a ++ puTiles b
  | .le a b => puTiles a ++ puTiles b
  | .sel c a b => puTiles c ++ puTiles a ++ puTiles b
  | .causal a => puTiles a
  | .drop _ _ _ a => puTiles a

/-- Whether a post-unit expression drops elements (R126). -/
def puDrops : PuExpr → Bool
  | .x => false
  | .const _ => false
  | .elem _ _ => false
  | .feature _ _ => false
  | .row _ _ => false
  | .held _ => false
  | .plane _ _ _ => false
  | .un _ a => puDrops a
  | .add _ a b => puDrops a || puDrops b
  | .mul _ a b => puDrops a || puDrops b
  | .fma _ a b c => puDrops a || puDrops b || puDrops c
  | .max a b => puDrops a || puDrops b
  | .min a b => puDrops a || puDrops b
  | .le a b => puDrops a || puDrops b
  | .sel c a b => puDrops c || puDrops a || puDrops b
  | .causal a => puDrops a
  | .drop _ _ _ _ => true

/-- The expression of a post-unit step. -/
def postExpr : PostFn → PuExpr
  | .set e => e
  | .hold _ e => e
  | .reduce _ _ e => e
  | .keep _ _ _ e => e

/-! ## Accesses to tiles (R164, R194, R209) -/

/-- What a use finds at a tile it references: its header, that it must wait, or that it does not start, with the state then. -/
inductive Access
  | good (h : TileHdr)
  | wait
  | stop (s : State)

/-- Whether an item of an open stream of the slot names a tile (R209). -/
def State.named (s : State) (c : Nat) (k : Course) (tensor idx : Nat) : Bool :=
  (s.strmsOf c).any (fun e => decide (2 ≤ e.2.state.toNat ∧ e.2.state.toNat ≤ 4) && stTensor (k.stream e.2.decl.toNat) = tensor
    && (k.items e.2.decl.toNat).contains idx)

/-- A use of slot `c` at a carve refers to tile `idx` of a tensor in format code `fmt`; a read needs a T0 or T1 home (Table 8.18,
R209). -/
def State.access (s : State) (ck c : Nat) (k : Course) (seg use tensor : Nat) (idx : Int) (fmt : Nat) (read : Bool) : Access :=
  let r := k.tensor tensor
  let stop (st : Status) : Access := .stop (s.violateAt ck c st seg use (BitVec.ofInt 128 idx))
  if idx < 0 ∨ ((tnRows r * tnCols r : Nat) : Int) ≤ idx then stop .bounds
  else
    let t := tileOf k.bib tensor idx.toNat
    match s.tileHdr t with
    | none => stop .bounds
    | some h =>
      if h.state = 1 then .wait
      else match checkTile h t fmt h.home with
        | .violation st => stop st
        | .lost => .stop (s.notifyLost t)
        | .poisoned => if read then .stop (s.notify k.bib .fault 0) else .good h
        | .good =>
          if read && decide (2 ≤ h.home.tier.toNat) then (if s.named c k tensor idx.toNat then .wait else stop .notHome)
          else .good h

/-- The first of some accesses that is no good one. -/
def firstStop : List Access → Option Access
  | [] => none
  | .good _ :: l => firstStop l
  | a :: _ => some a

/-- The header that the first of some good accesses found. -/
def firstHdr : List Access → Option TileHdr
  | .good h :: _ => some h
  | _ => none

/-- Whether every scale byte of a tile holds one value (R148). -/
def State.oneScale (s : State) (h : HomeAddr) (p : Byte) : Bool := (s.bytesAt (homeKey h) 1024).all (fun b => b = p)

/-- Whether a pairing is one of Table 4.5. -/
def pairing (a b : Fmt) : Bool :=
  (a = b && [Fmt.e4m3, .e5m2, .e3m2, .e2m1, .int8, .bf16].contains a)
    || (a = .e4m3 && b = .e5m2) || (a = .e5m2 && b = .e4m3)

/-! ## Planes as operands (R151, R154) -/

/-- The scale byte of a bib's plane: the SCALE of the group that wrote it; of a plane that no group has written, open. -/
def State.planeScale (s : State) (b : BitVec 12) (va : Nat) : Byte :=
  match s.mem.planes.lookup (b.toNat * 2 ^ 48 + va) with
  | some x => x
  | none => Config.planeScale b va

/-- What the first page of a plane that is not at hand on its die answers; none when all of the plane is (R154). -/
def State.planeFault (s : State) (b : BitVec 12) (d die : Nat) : Option Xlat :=
  (pagesOf (cvPlane d) (cvBytes d)).findSome? (fun p =>
    match s.planeAt b (max (cvPlane d) (p * 2 ^ 21)) die false with
    | .ok _ => none
    | x => some x)

/-- Whether planes hold elements of a format (R151). -/
def planeFmt (f : Fmt) : Bool := [Fmt.e4m3, .e5m2, .int8, .bf16].contains f

/-! ## Declared conflicts (R170, R171) -/

/-- The Rink die that a home lies on. -/
def dieOf (h : HomeAddr) : Nat :=
  match h.tier.toNat with
  | 0 => t0Die h.off.toNat
  | 1 => h.off.toNat / 2 ^ 33
  | _ => stackOf h / 2

/-- Package ring link directions on the way from one die to another, the shorter way round. DESIGN CHOICE (log entry 50): direction 0 is
from die k to die k + 1, and of two equal ways the ascending one is taken. -/
def ringPath (a b : Nat) : List Nat :=
  let n := (b + 4 - a) % 4
  if n = 3 then [2 * b + 1] else (List.range n).map (fun i => 2 * ((a + i) % 4))

/-- The units of Table 8.8 that a use at station `p` reaches at `n` bytes of a home, as memory kind and unit, numbered relative to a
run. -/
def unitsOf (run : List Nat) (p : Nat) (write : Bool) (h : HomeAddr) (n : Nat) : List (Nat × Nat) :=
  let o := h.off.toNat
  let granules (m : Nat) : List Nat := (List.range (min m ((o % 256 + n + 255) / 256))).map (fun i => (o / 256 + i) % m)
  let links := (if write then ringPath (p / 26) (dieOf h) else ringPath (dieOf h) (p / 26)).map (fun l => (5, l))
  (match h.tier.toNat with
  | 0 =>
    if t0InStation o then
      let q := t0Station o
      if run.contains q then
        (List.range 4).filterMap (fun j =>
          let lo := t0Byte o % 0x500000
          if lo < (j + 1) * 0x140000 ∧ j * 0x140000 < lo + n then some (1, 4 * run.idxOf q + j) else none)
      else []
    else
      let lo := t0Byte o - 0x8200000
      (List.range 16).filterMap (fun b => if lo < (b + 1) * 2 ^ 21 ∧ b * 2 ^ 21 < lo + n then some (2, 16 * t0Die o + b) else none)
  | 1 => (granules 64).map (fun g => (3, 64 * (o / 2 ^ 33) + g))
  | 2 => (granules 32).map (fun g => (4, 32 * (o / 2 ^ 36) + g))
  | _ => []) ++ links

/-- The units that a use's writes into a mirrored tensor reach: the bridge of its die to its hub, the bridge between the hubs when the
entry's rail lies on the other, and the SL port of the first dimension in which the destination differs (R17, R283). -/
def mirrorUnits (e : Job × Mirror) (die : Nat) : List (Nat × Nat) :=
  let rail := e.2.rail.toNat
  let n (i : Nat) (o : Int) : Nat := (o % (e.1.size i : Int)).toNat
  let way := [(0, n 0 e.2.ox), (1, n 1 e.2.oy), (2, n 2 e.2.oz)].find? (fun d => d.2 ≠ 0)
  [(6, 2 * die)] ++ (if die / 2 = rail then [] else [(7, die / 2)])
    ++ way.elim [] (fun d => [(8, portOf rail d.1 (decide (e.1.size d.1 < 2 * d.2)))])

/-- Whether a declaration of the segment covers an access (Table 8.7). -/
def Course.declared (k : Course) (seg use : Nat) (unit : Nat × Nat) (write : Bool) : Bool :=
  let g := k.seg seg
  ((k.conflicts.drop (sgConfFirst g)).take (sgConfCount g)).any (fun r =>
    let o := use - sgUseFirst g
    bits r 60 4 = unit.1 && decide (bits r 40 20 ≤ unit.2 ∧ unit.2 < bits r 40 20 + bits r 28 12)
      && (bits r 26 2 = 2 || bits r 26 2 = write.toNat) && decide (bits r 18 8 ≤ o ∧ o < bits r 18 8 + bits r 10 8))

/-- Accesses to undeclared units count (R171). -/
def State.conflicts (s : State) (c : Nat) (k : Course) (seg use : Nat) (l : List ((Nat × Nat) × Bool)) : State :=
  let n := (l.filter (fun e => !k.declared seg use e.1 e.2)).length
  if n = 0 then s else s.count 0x0808 c n

/-! ## The start of a use -/

/-- The next use of a live segment on a station offset, with its pass (R167). -/
def LiveSeg.nextUse (l : LiveSeg) (k : Course) (i off : Nat) : Option (Nat × Nat) :=
  let us := k.usesOn i off
  let n := l.begun.read 0 off
  if us = [] ∨ sgRepeat (k.seg i) * us.length ≤ n then none else some (us.getD (n % us.length) 0, n / us.length)

/-- The thresholds that the lanes of a top-k use load (R156). DESIGN CHOICE (log entry 51): lane i serves list OUT_TENSOR + the formed
output index + i. -/
def State.thresholds (s : State) (b : BitVec 12) (first n : Nat) : List (Option Thresh) :=
  (List.range n).map (fun i =>
    (s.mem.lists.lookup (b.toNat * 2 ^ 24 + (first + i))).map (fun l =>
      { thresh := l.thresh, sense := l.sense, list := BitVec.ofNat 24 (first + i) : Thresh }))

/-- The first write of a use's segment to its output tile sets the writer tag (R193); the tile's shadow bands are those of an
earlier write, and go. -/
def State.claimOut (s : State) (u : UseCfg) (h : TileHdr) : State :=
  let h' := { h with wact := true, wslot := u.slot, wseg := BitVec.ofNat 20 u.seg, poison := false, nonfin := false }
  { s.setTile u.out h' with lkr.shadows := s.lkr.shadows.keep (fun k _ => decide (k / 32 ≠ tileKey u.out)) }

/-- A use that has passed every check stands on its carve behind those begun before it, with its operand on the way: from the feeder
where it is gathered, from an inject queue where it is injected. -/
def State.beginUse (s : State) (ck : Nat) (u : UseCfg) (lap : Option LapTile) : State :=
  let f := s.feeder ck
  let t := (s.setFeeder ck { f with uses := u.ord + 1, gens := u.gen }).setUses ck (s.usesOf ck ++ [u])
  match lap with
  | some l =>
    match l.src with
    | .plane _ _ _ => t.acceptLap ck u { l with head := t.headOf l }
    | _ => { t with arr.inject := t.arr.inject.insert (ck / 4 / 26) (t.arr.inject.read [] (ck / 4 / 26) ++ [(l, ck)]) }
  | none => t

/-- The units that a use reaches, and whether each is written: its tiles' homes, the lapping stream's link, its sum tile's base engine,
its mirrored output's way (R170). -/
def useUnits (run : List Nat) (p : Nat) (reads : List (HomeAddr × Nat)) (out : Option (HomeAddr × Nat × Bool))
    (mirror : Option (Job × Mirror)) (laps : Bool) : List ((Nat × Nat) × Bool) :=
  let from_ := (run.takeWhile (fun x => x ≠ p)).getLastD (run.getLastD p)
  reads.flatMap (fun e => (unitsOf run p false e.1 e.2).map (·, false))
    ++ (if laps ∧ from_ / 26 ≠ p / 26 then [((5, 2 * (from_ / 26)), false)] else [])
    ++ match mirror with
      | some m => (mirrorUnits m (p / 26)).map (·, true)
      | none => out.elim [] (fun e => (unitsOf run p true e.1 e.2.1).map (·, true)
          ++ (if e.2.2 && e.1.tier = 2 then [((9, stackOf e.1), true)] else []))

/-- USE_START: the next use of a live segment begins on station offset `off`, behind the uses already on the carve (R47). It waits for
its gate, for tiles and pages in motion and for room in the inject queue; it forms its tile references (R167) and does not start when a
check of R80, R99, R148, R151, R154, R164, R194, R209 or Table 8.18 fails. -/
def execUseStart (slot : BitVec 8) (seg : BitVec 20) (use : BitVec 24) (off : BitVec 7) (pass : BitVec 20) (x : UseExtra) (s : State) : Out :=
  s.event fun s =>
    let c := slot.toNat
    let i := seg.toNat
    match s.course c, s.domain c with
    | some k, some d =>
      match d.live.lookup i with
      | some l =>
        let g := k.seg i
        let r := k.use use.toNat
        let st := off.toNat
        let p := d.run.getD (sgFirst g + st) 0
        let ck := 4 * p + d.quarter
        let n := d.usePass.read 0 (use.toNat * 128 + st) + ((s.usesOf ck).filter (fun u => u.slot = slot && u.use = use.toNat)).length
        if !s.mayRun c || decide (sgS g ≤ st) || l.nextUse k i st ≠ some (use.toNat, pass.toNat) || !s.gateOpen k (usWait r) n then s
        else
          let bad (e : Status) : State := s.violateAt ck c e i use.toNat (BitVec.ofNat 128 use.toNat)
          if usStn r ≠ 0x7F ∧ sgS g ≤ usStn r then bad .quota
          else match fmtOf (usOpFmt r), fmtOf (usStFmt r), fmtOf (usOutFmt r) with
            | some fo, some fs, some fu =>
              let opT := s.resolve c k (usOpTensor r)
              let stT := s.resolve c k (usStTensor r)
              let opI := tileRef (usOpBase r) (usOpDs r) (usOpDi r) st pass.toNat
              let stI := tileRef (usStBase r) (usStDs r) (usStDi r) st pass.toNat
              let outI := tileRef (usOutBase r) (usOutDs r) (usOutDi r) st pass.toNat
              let gathered := usGathers r
              let injects := decide (usVisits r ≠ 0) && !gathered
              let mirror := s.mirrorOf k.bib (BitVec.ofNat 24 (usOutTensor r))
              let desc := k.convs.getD (usConv r) 0
              let psc := s.planeScale k.bib (cvPlane desc)
              let stA := s.access ck c k i use.toNat stT stI (usStFmt r) true
              let opA := if injects then [s.access ck c k i use.toNat opT opI (usOpFmt r) true] else []
              let outA := if usRoute r = 0 ∧ mirror.isNone then [s.access ck c k i use.toNat (usOutTensor r) outI (usOutFmt r) false] else []
              let postA := (x.post.flatMap (fun f => puTiles (postExpr f))).map (fun e =>
                s.access ck c k i use.toNat e.1.toNat (e.2.toNat : Int) (tnFmt (k.tensor e.1.toNat)) true)
              match firstStop (stA :: opA ++ outA ++ postA) with
              | some (.stop t) => t
              | some _ => s
              | none =>
                match firstHdr [stA], (if gathered then s.planeFault k.bib desc (p / 26) else none) with
                | none, _ => s
                | _, some (.fail e) => bad e
                | _, some _ => s
                | some hs, none =>
                  let opH := firstHdr opA
                  let outH := firstHdr outA
                  let pc : Byte := s.byte (homeKey hs.home)
                  let distOk := fo = .int8 && fs = .int8 && usOrient r = 0 && (fu = .fp32 || fu = .w40) && s.oneScale hs.home pc
                    && opH.elim true (fun h => s.oneScale h.home pc) && (!gathered || psc = pc)
                  let rec_ := s.scaleRec c (usGroup r)
                  if usMode r = 0 ∧ !pairing fo fs then bad .format
                  else if usMode r ≠ 0 ∧ !distOk then bad .format
                  else if gathered ∧ !planeFmt fo then bad .format
                  else if usRoute r = 1 ∧ !(planeFmt fu || fu = .w40) then bad .format
                  else if hasScale fu ∧ rec_.isNone then bad .bounds
                  else if hasScale fu ∧ rec_.any (fun x => decide (x.fmt.toNat ≠ usOutFmt r)) then bad .format
                  else if usSeed r = 15 ∧ x.post.any (fun f => puDrops (postExpr f)) then bad .bounds
                  else if usAcc r ≠ 2 ∧ outH.any (fun h => h.wact && (h.wslot ≠ slot || h.wseg ≠ seg)) then bad .busy
                  else if injects ∧ !s.queueRoom ck (tileBytes fo) then s
                  else
                    let f := s.feeder ck
                    let out := tileOf k.bib (usOutTensor r) outI.toNat
                    let place := k.usePlace d.w i use.toNat st pass.toNat
                    let base := l.bases.read (0, 0) (usGroup r)
                    let trans := decide (usOrient r = 1)
                    let u : UseCfg :=
                      { slot := slot, seg := i, use := use.toNat, off := sgFirst g + st, pass := pass.toNat
                        ord := f.uses, gen := f.gens + (usSwap r).toNat, mode := BitVec.ofNat 4 (usMode r)
                        trans := trans, opT := usOpT r, swap := usSwap r, visits := usVisits r, opFmt := fo, stFmt := fs, outFmt := fu
                        kUse := usK r, route := usRoute r, acc := usAcc r, sr := usRnd r, seed := usSeed r, group := usGroup r
                        pOut := rec_.elim 127 (·.scale), pc := pc
                        term := BitVec.ofNat 32 (usTermBase r + usTermDi r * pass.toNat), tensor := BitVec.ofNat 24 (usOutTensor r)
                        st := tileOf k.bib stT stI.toNat, out := out, index := BitVec.ofNat 40 (usIndexBase r + 256 * pass.toNat)
                        recompute := sgRecompute g, step := l.step, x := x
                        conv := if usConv r = noConv then none else some (usConv r)
                        thresh := if usRoute r = 2 then s.thresholds k.bib (usOutTensor r + outI.toNat) (if trans then 256 else recLanes r d.w) else []
                        useOrd := base.1 + place.1, patch0 := base.2 + place.2 }
                    let lap : LapTile :=
                      { slot := slot, tile := tileOf k.bib opT opI.toNat, visits := usVisits r, fmt := fo
                        src := if gathered then .plane desc psc (usOpT r) else .tile (usOpT r)
                        plain := !gathered && !usOpT r, col := if trans then x.col.toNat else 0, head := [] }
                    let d1 := { d with live := d.live.insert i { l with begun := l.begun.insert st (l.begun.read 0 st + 1) } }
                    let s1 := (s.setDomain c d1).conflicts c k i use.toNat
                      (useUnits d.run p ((hs.home, tileBytes fs) :: opH.toList.map (fun h => (h.home, tileBytes fo)))
                        (outH.map (fun h => (h.home, tileBytes fu, decide (usAcc r = 2)))) mirror (decide (usVisits r = 0)))
                    let s2 := match outH with
                      | some h => if usAcc r = 2 then s1 else s1.claimOut u h
                      | none => s1
                    s2.beginUse ck u (if usVisits r = 0 ∧ !gathered then none else some lap)
            | _, _, _ => bad .format
      | none => s
    | _, _ => s

/-! ## The end of a use -/

/-- Whether the last result of a use has been delivered: every token on every lane accepted, no lane with a result of it in hand, nothing
of it in cells or among contributions to a row reduction. -/
def State.useDone (s : State) (ck : Nat) (u : UseCfg) : Bool :=
  let n := u.laneCount (s.carveW ck)
  decide (u.accepted = 256 * n) && !s.inCells ck u
    && (List.range n).all (fun i => !(s.arr.lanes.read {} (laneKey ck i)).result.any (fun o => o.token / 256 = u.ord))
    && !s.arr.rows.any (fun k _ => k / 512 = u.key ck)

/-- A carve without a use that has finished; its anchors and unfinished checks go. -/
def State.dropUse (s : State) (ck : Nat) (u : UseCfg) : State :=
  let key := u.key ck
  { s.setUses ck ((s.usesOf ck).filter (fun v => v.ord ≠ u.ord)) with
    arr.anchors := s.arr.anchors.keep (fun k _ => decide (k / 32 ≠ key))
    arr.patches := s.arr.patches.keep (fun k _ => decide (k / 1024 ≠ key))
    arr.products := s.arr.products.remove key }

/-- The product check of a use whose patch row has a shadow band (R110). -/
def State.productCheck (s : State) (ck : Nat) (u : UseCfg) : State :=
  match s.arr.products.lookup (u.key ck) with
  | some a => if a.n = 64 then s.check u.slot.toNat u.group true u.step u.useOrd ((s.stepCount u.slot.toNat).setWidth 32) a else s
  | none => s

/-- A finished use's write of its output tile is committed; the tile keeps its non-finite flag (R84, R193). -/
def State.commitOut (s : State) (u : UseCfg) : State :=
  let wrote := u.route = 0 && (u.acc = 0 || (u.acc = 1 && u.x.last = .write)) && (s.mirrorOf u.out.bib u.tensor).isNone
  match s.tileHdr u.out with
  | some h =>
    if wrote then
      let t := s.writeTile u.out h u.slot.toNat u.seg
      match t.tileHdr u.out with
      | some h' => t.setTile u.out { h' with nonfin := h.nonfin }
      | none => t
    else s
  | none => s

/-- USE_FINISH: the oldest use on the station at run offset `off` has delivered its last result: its tile's write is committed, its gate
signalled, the product check taken, and the station's next use is the oldest (R110, R165, R167, R193). -/
def execUseFinish (slot : BitVec 8) (off : BitVec 7) (s : State) : Out :=
  s.event fun s =>
    let c := slot.toNat
    match s.course c, s.domain c with
    | some k, some d =>
      let ck := 4 * d.run.getD off.toNat 0 + d.quarter
      match s.usesOf ck with
      | u :: _ =>
        match d.live.lookup u.seg with
        | some l =>
          if u.slot ≠ slot || !s.useDone ck u then s
          else
            let st := u.off - sgFirst (k.seg u.seg)
            let key := u.use * 128 + st
            let n := d.usePass.read 0 key
            let d1 := { d with usePass := d.usePass.insert key (n + 1), unwinds := 0
                               live := d.live.insert u.seg { l with done := l.done.insert st (l.done.read 0 st + 1) } }
            ((((s.setDomain c d1).productCheck ck u).dropUse ck u).commitOut u).issueSignal k (usSig (k.use u.use)) n
        | none => s
      | [] => s
    | _, _ => s

end Sys2Proof.Machine
end

