-- ==== Sys2Proof/Machine/Faults.lean ====
section
/-! DEFINITION. The Rink's configuration, withdrawal of stations, and containment of faults in carves (R56 to R63, R68, R69). -/

namespace Sys2Proof.Machine

/-! ## Configuration (R57, R58, Table 3.5) -/

/-- A write of REQUEST with a value from 1 to 5: ACTIVE's value cancels a pending change, any other is pending (R58). -/
def State.requestRink (s : State) (cfg : BitVec 4) : State :=
  let r := s.rink.cfg
  { s with rink.cfg := { r with request := cfg, busy := decide (cfg ≠ r.active) } }

/-- REQUEST is written directly: a value outside 1 to 5 is ignored and sets REJECT (Table 3.5). -/
def State.writeRequest (s : State) (cfg : BitVec 4) : State :=
  if cfg = 0 ∨ 5 < cfg.toNat then { s with rink.cfg.reject := true } else s.requestRink cfg

/-- RINK_CFG_REQUEST_WRITE: Zilunzor writes REQUEST. -/
def execRinkCfgRequestWrite (cfg : BitVec 4) (s : State) : Out := s.event fun s => s.writeRequest cfg

/-- RINK: requests a configuration; another value than 1 to 5 is out of bounds. It replies ST_DEFERRED while the change is pending.
The spec gives no status for a RINK whose change a later write cancels: a free value. -/
def execRink (c : Hdr) (cfg : BitVec 4) (s : State) : Out :=
  s.command 0x0504 c fun s c =>
    if cfg = 0 ∨ 5 < cfg.toNat then s.reply c .bounds
    else
      let t := s.requestRink cfg
      if cfg = s.rink.cfg.active then
        ((t.complete .rink (Config.openStatus t.freeCtr) .none).used).reply c .ok
      else t.defer c .rink

/-- RINK_RECONFIGURE: every domain left on an affected die fits and runs no segment; the links are reconnected, ACTIVE is
updated, BUSY clears, and D(0, j) is evaluated again for the domains there (R15, R58, R169). DESIGN CHOICE (log 56): every RINK
that waits replies ST_OK here, also one whose value a later request replaced, and one whose change a register write withdrew
waits on; R58 states no status for either. -/
def execRinkReconfigure (s : State) : Out :=
  s.event fun s =>
    let r := s.rink.cfg
    let there := s.crs.domains.filter (fun e => e.2.running && s.touchesChange e.2)
    if r.busy && there.all (fun e => s.fits r.request.toNat e.2 && e.2.live = []) then
      let t : State := { s with rink.cfg := { r with active := r.request, busy := false } }
      (t.each (there.map (·.1)) State.countStages).complete .rink .ok .none
    else s

/-! ## Withdrawal (R68) -/

/-- Whether some tile that is not lost has its home, or a move its destination, in a station's SRAM. -/
def State.homesAt (s : State) (p : Nat) : Bool :=
  let here (h : HomeAddr) : Bool := h.tier = 0 && t0InStation h.off.toNat && t0Station h.off.toNat = p
  s.mem.hdrs.any (fun _ h => here h.home && h.state ≠ 2) || s.mem.moves.any (fun _ m => here m.dst || here m.src)

/-- WITHDRAW is written: set, it asks for withdrawal; cleared, it cancels one or returns the station (R68). -/
def State.writeWithdraw (s : State) (p : Nat) (on : Bool) : State :=
  let r := s.stn p
  s.setStn p { r with withdraw := on, wdDone := r.wdDone && on }

/-- STN_WITHDRAW_WRITE: Zilunzor writes WITHDRAW of a station. -/
def execStnWithdrawWrite (stn : Fin 104) (on : Bool) (s : State) : Out := s.event fun s => s.writeWithdraw stn.val on

/-- WITHDRAW: the operator withdraws or returns a station; a position that is not active, or that no die has, is out of bounds. Setting waits for
WD_DONE. The status of a WITHDRAW that a later command cancels is not stated: a free value. -/
def execWithdraw (c : Hdr) (stn : BitVec 7) (on : Bool) (s : State) : Out :=
  s.command 0x0506 c fun s c =>
    let p := stn.toNat
    if decide (104 ≤ p) || !s.active p then s.reply c .bounds
    else
      let t := s.writeWithdraw p on
      if on then (if (s.stn p).wdDone then t.reply c .ok else t.defer c (.withdraw p))
      else ((t.complete (.withdraw p) (Config.openStatus t.freeCtr) .none).used).reply c .ok

/-- STATION_WITHDRAWN: no domain holds the station, nothing on it is being contained and no tile is homed there: WD_DONE. -/
def execStationWithdrawn (stn : Fin 104) (s : State) : Out :=
  s.event fun s =>
    let p := stn.val
    let r := s.stn p
    if r.withdraw && !r.wdDone && !s.crs.domains.any (fun _ d => d.running && d.run.contains p)
        && (List.range 4).all (fun q => !s.quarterBusy p q) && !s.homesAt p then
      (s.setStn p { r with wdDone := true }).complete (.withdraw p) .ok .none
    else s

/-! ## Faults in carves (R62, R63, R69, Table 3.7) -/

/-- Quarters go to the clear of C5. -/
def State.toClear (s : State) (p : Nat) (qs : List Nat) : State :=
  let r := s.stn p
  let ks := qs.map (fun q => 4 * p + q)
  let t := s.setStn p { r with clearing := r.clearing ||| maskOf 4 qs }
  { t with rink.draining := t.rink.draining.filter (fun k => !ks.contains k)
           rink.clearing := t.rink.clearing ++ ks.filter (fun k => !t.rink.clearing.contains k) }

/-- C1 to C3 for the carve that holds a quarter: its uses end, outputs not committed are poisoned, its bib is suspended with
ST_FAULT, a violation is recorded. An unbound quarter goes to its clear at once. -/
def State.contain (s : State) (p q : Nat) (kind : FaultKind) : State :=
  let r := s.stn p
  let b := r.bibOf q
  let k := 4 * p + q
  if b = 0 then
    let t := s.setStn p (r.faulty [q])
    if t.rink.clearing.contains k || t.rink.checking.contains k then t else t.toClear p [q]
  else
    match s.ownerOf p q with
    | some (c, _) =>
      match kind with
      | .violation st => s.violateAt k c st 0 0 0
      | _ => ((s.stopCarve p q).poison c).suspend b .fault 0
    | none => (s.stopCarve p q).suspend b .fault 0

/-- CARVE_FAULT_DETECT: a fault is detected in a quarter. A residue mismatch counts in STN_RESIDUE; a fault in a part the whole
station shares is contained for every carve on it, and the station is withdrawn (R63). -/
def execCarveFaultDetect (stn : Fin 104) (q : Fin 4) (kind : FaultKind) (s : State) : Out :=
  s.event fun s =>
    let p := stn.val
    match kind with
    | .shared => (s.each [0, 1, 2, 3] (fun t i => t.contain p i kind)).writeWithdraw p true
    | .residue => (s.count 0x0304 (4 * p + q.val) 1).contain p q.val kind
    | _ => s.contain p q.val kind

/-- CARVE_DRAIN_DONE (C4): what was in flight in the carve of a quarter, in its cells, drains, lanes, hop buffer and queues, has drained
without output; its quarters go to C5. -/
def execCarveDrainDone (stn : Fin 104) (q : Fin 4) (s : State) : Out :=
  s.event fun s =>
    let p := stn.val
    let qs := (s.carveQuarters p q.val).filter (fun i => s.rink.draining.contains (4 * p + i))
    if qs = [] then s
    else
      let t := s.toClear p qs
      let mine (ck : Nat) : Bool := (qs.map (fun i => 4 * p + i)).contains ck
      { t with
        arr.cells := t.arr.cells.each (fun k c =>
          if k / 67600 = p ∧ qs.contains (k % 260 / 65) then { c with op := none, sum := none } else c)
        arr.drainIn := t.arr.drainIn.keep (fun k _ => !mine (k / 256))
        arr.drainOut := t.arr.drainOut.keep (fun k _ => !mine (k / 256))
        arr.lanes := t.arr.lanes.each (fun k l => if mine (k / 256) then { l with result := none } else l)
        arr.hops := t.arr.hops.keep (fun k _ => !mine k)
        arr.retire := t.arr.retire.keep (fun k _ => !mine (k % 512))
        arr.inject := t.arr.inject.each (fun _ l => l.filter (fun e => !mine e.2)) }

/-- Whether a home lies in a quarter's SRAM bank. -/
def inBank (p q : Nat) (h : HomeAddr) : Bool :=
  h.tier = 0 && t0InStation h.off.toNat && t0Station h.off.toNat = p && t0Quarter h.off.toNat = q

/-- Tiles homed in a quarter's bank, which its clear wipes, are lost (R69). -/
def State.loseBank (s : State) (p q : Nat) : State :=
  s.each ((s.mem.hdrs.filter (fun e => inBank p q e.2.home && e.2.state ≠ 2)).map (·.1)) State.loseTile

/-- Whether the lift has yet to move tiles out of the bank of a quarter in which no fault was contained: those in motion or of streams'
items, and of a station to be withdrawn all (R68, R223). -/
def State.leavingBank (s : State) (p q : Nat) : Bool :=
  !(s.stn p).fault.getLsbD q && s.mem.hdrs.any (fun _ h => inBank p q h.home && h.state ≠ 2
    && ((s.stn p).withdraw || h.state = 1 || s.lift.strm.any (fun _ x => x.items.any (fun _ i => i.committed && i.dst = h.home))))

/-- The number of the first byte of a quarter's SRAM bank (Table 9.1). -/
def bankKey (p q : Nat) : Nat := byteKey 0 (p / 26 * 2 ^ 28 + p % 26 * 0x500000 + q * 0x140000)

/-- CARVE_CLEAR_DONE (C5): a quarter's cells, drain section, lanes, SRAM bank and hop slots hold zero; CLEARING falls and the check
pattern runs. It waits for the lift to move out what R68 says. -/
def execCarveClearDone (stn : Fin 104) (q : Fin 4) (s : State) : Out :=
  s.event fun s =>
    let p := stn.val
    let k := 4 * p + q.val
    if s.rink.clearing.contains k && !s.leavingBank p q.val then
      let r := s.stn p
      let t := (((s.loseBank p q.val).zeroBytes (bankKey p q.val) 0x140000).setStn p { r with clearing := r.clearing &&& ~~~ maskOf 4 [q.val] })
      { t with
        rink.clearing := t.rink.clearing.filter (fun i => i ≠ k)
        rink.checking := t.rink.checking ++ [k]
        arr.cells := t.arr.cells.keep (fun i _ => decide (i / 67600 ≠ p ∨ i % 260 / 65 ≠ q.val))
        arr.feeders := t.arr.feeders.remove k
        arr.uses := t.arr.uses.remove k
        arr.anchors := t.arr.anchors.keep (fun i _ => decide (i / 32 % 512 ≠ k))
        arr.patches := t.arr.patches.keep (fun i _ => decide (i / 1024 % 512 ≠ k))
        arr.products := t.arr.products.keep (fun i _ => decide (i % 512 ≠ k))
        arr.rows := t.arr.rows.keep (fun i _ => decide (i / 512 % 512 ≠ k))
        arr.held := t.arr.held.keep (fun i _ => decide (i / 2 ^ 24 ≠ k))
        arr.drainIn := t.arr.drainIn.keep (fun i _ => decide (i / 256 ≠ k))
        arr.drainOut := t.arr.drainOut.keep (fun i _ => decide (i / 256 ≠ k))
        arr.lanes := t.arr.lanes.keep (fun i _ => decide (i / 256 ≠ k))
        arr.sums := t.arr.sums.keep (fun i _ => decide (i % 2 = 0 ∨ i / 512 / 256 % 512 ≠ k))
        arr.hops := t.arr.hops.remove k
        arr.retire := t.arr.retire.keep (fun i _ => decide (i % 512 ≠ k)) }
    else s

/-- QUARTER_CHECK_DONE (C6, C7): a quarter that passes is unbound again; one that fails is unbound too and its station is to be
withdrawn (R63). -/
def execQuarterCheckDone (stn : Fin 104) (q : Fin 4) (pass : Bool) (s : State) : Out :=
  s.event fun s =>
    let p := stn.val
    let k := 4 * p + q.val
    if s.rink.checking.contains k then
      let t := s.setStn p ((s.stn p).bind q.val 0)
      let t1 : State := { t with rink.checking := t.rink.checking.filter (fun i => i ≠ k) }
      if pass then t1 else t1.writeWithdraw p true
    else s

end Sys2Proof.Machine
end

