-- ==== Sys2Proof/Machine/Tiers.lean ====
section
/-! DEFINITION. Near tiers, stacks and their base engines, and top-k lists (R144, R156 to R159, R198 to R204, R375, R376). -/

namespace Sys2Proof.Machine

/-! ## The module fails (R20, R333) -/

/-- The module stops every bib and withdraws "trained" from every port: it is a failed module (R20). -/
def State.stopModule (s : State) : State :=
  let bibs := (s.bibs.recs.filter (fun e => e.2.state = .running)).map (fun e => BitVec.ofNat 12 e.1)
  let t := s.each bibs (fun t b => t.suspend b .fault 0)
  { t with rink.failed := true, sl.ports := t.sl.ports.each (fun _ p => { p with trained := false }) }

/-- A part is lost beyond repair: EV_REPAIR names it and the module fails (R20). -/
def State.losePart (s : State) (part inst : Nat) : State :=
  (s.raise { arg := .repair (BitVec.ofNat 4 part) (BitVec.ofNat 12 inst) 0 }).stopModule

/-! ## Near tiers (R198, R199) -/

/-- Registers of a near tier. -/
def State.near (s : State) (d : Nat) : NearTier := s.mem.near.read {} d

/-- Registers of a near tier are written. -/
def State.setNear (s : State) (d : Nat) (n : NearTier) : State := { s with mem.near := s.mem.near.write {} d n }

/-- NT_REFRESH_SLOT: the next tenth of the bank groups refreshes. -/
def execNtRefreshSlot (die : Fin 4) (s : State) : Out :=
  s.event fun s => s.setNear die.val { s.near die.val with slot := (s.near die.val).slot + 1 }

/-- The band of a temperature on the way up (Table 9.8). -/
def bandUp (tj : Nat) : Nat := if tj ≤ 95 then 0 else if tj < 100 then 1 else if tj < 105 then 2 else 3

/-- The band with hysteresis of 2 °C on the way down (R199). -/
def bandAfter (band tj : Nat) : Nat := max (bandUp tj) (min band (bandUp (tj + 2)))

/-- NT_BAND_CHANGE: the hottest sensor of a near tier reads `tj`, and the band follows; entry to band 1 from 0 makes a burst due. -/
def execNtBandChange (die : Fin 4) (tj : BitVec 8) (s : State) : Out :=
  s.event fun s =>
    let n := s.near die.val
    let b := bandAfter n.band.toNat tj.toNat
    s.setNear die.val { n with tj := tj, tjMax := if n.tjMax.toNat < tj.toNat then tj else n.tjMax, band := BitVec.ofNat 2 b
                               due := n.due || (n.band = 0 && decide (b ≠ 0)) }

/-- Slots of running domains with quarters on a die. -/
def State.slotsOnDie (s : State) (die : Nat) : List Nat :=
  (s.crs.domains.filter (fun e => e.2.running && e.2.run.any (fun p => p / 26 = die))).map (·.1)

/-- Microseconds from the start of a burst to the next in a band (Table 9.8). -/
def burstEvery (band : Nat) : Nat := if band = 1 then 32 else if band = 2 then 16 else 8

/-- Whether the lead of a near tier's next burst may begin: on entry to band 1, or once the band's interval after the last burst's start
has passed but for the microsecond in which the lead lies (R199). -/
def NearTier.leads (n : NearTier) : Bool := n.band ≠ 0 && !n.burst && (n.due || decide (burstEvery n.band.toNat ≤ n.since + 1))

/-- NT_BURST_LEAD: 0.4 µs before a burst, cause 1 is raised for every domain with quarters on the die. -/
def execNtBurstLead (die : Fin 4) (s : State) : Out :=
  s.event fun s =>
    let n := s.near die.val
    if n.leads then
      (s.setNear die.val { n with burst := true, due := false, since := 0 }).each (s.slotsOnDie die.val) (fun t c => t.raiseHold c 1)
    else s

/-- NT_BURST_END: the burst ends and counts, and cause 1 clears, but for domains on a die that still bursts. -/
def execNtBurstEnd (die : Fin 4) (s : State) : Out :=
  s.event fun s =>
    let n := s.near die.val
    if n.burst then
      let t := (s.setNear die.val { n with burst := false }).count 0x0201 die.val 1
      let still := ((List.range 4).filter (fun d => (t.near d).burst)).flatMap t.slotsOnDie
      t.each ((s.slotsOnDie die.val).filter (fun c => !still.contains c && (t.hold c).cause.getLsbD 1)) (fun t c => t.clearHold c 1)
    else s

/-! ## Stacks (R201, R202, R375, R376) -/

/-- Registers of a stack. -/
def State.stack (s : State) (i : Nat) : Stack := s.mem.stks.read {} i

/-- Registers of a stack are written. -/
def State.setStack (s : State) (i : Nat) (k : Stack) : State := { s with mem.stks := s.mem.stks.write {} i k }

/-- STACK_SERVICE_SLOT: the interface is calibrated, staged PHY firmware is loaded, and a waiting CALIBRATE completes (R358, R376,
R377). -/
def execStackServiceSlot (stack : Fin 8) (s : State) : Out :=
  s.event fun s =>
    let k := s.stack stack.val
    (s.setStack stack.val { k with calibs := k.calibs + 1, phyNew := k.phyNew || s.boot.phyNew }).complete
      (.calibrate 2 (BitVec.ofNat 12 stack.val)) .ok .none

/-- STACK_TEST_SLOT: a piece of a field test of the stack runs; `last` says that it was the last (R375). -/
def execStackTestSlot (stack : Fin 8) (last : Bool) (s : State) : Out :=
  s.event fun s =>
    let k := s.stack stack.val
    if s.test.running.contains (2 * 4096 + stack.val) then s.setStack stack.val { k with tests := k.tests + 1, tested := last } else s

/-- An engine has corrected an error within one DRAM die on a line: it counts, LDIE names the die, and four distinct lines mark the die,
with EV_REPAIR (R201, R202). -/
def State.correctLine (s : State) (i : Nat) (die : BitVec 4) (line : Nat) : State :=
  let k := s.stack i
  let lines := if k.lines.contains (die.toNat, line) then k.lines else k.lines ++ [(die.toNat, line)]
  let s1 := (s.setStack i { k with ldie := die, lines := lines }).count 0x0400 i 1
  if !k.marked && decide (4 ≤ (lines.filter (fun e => e.1 = die.toNat)).length) then
    (s1.setStack i { k with ldie := die, lines := lines, marked := true, mdie := die }).raise
      { src := 3, srcInst := BitVec.ofNat 12 i, arg := .repair 3 (BitVec.ofNat 12 i) (die.setWidth 64) }
  else s1

/-- STACK_VERIFY_SCRUB: the daily verify has read a line, and corrected it if it names a die (R202). -/
def execStackVerifyScrub (stack : Fin 8) (line : Nat) (corrected : Option (BitVec 4)) (s : State) : Out :=
  s.event fun s =>
    let t := s.setStack stack.val { s.stack stack.val with verify := line + 1 }
    match corrected with
    | some die => t.correctLine stack.val die line
    | none => t

/-- Keys of the entries that map the frame of an entry. -/
def State.mappersOf (s : State) (e : Pte) : List Nat :=
  (s.mem.ptes.filter (fun x => x.2.state ≠ 0 && x.2.tier = e.tier && x.2.frame = e.frame)).map (·.1)

/-- Bibs that map the page of an entry. -/
def State.mappingBibs (s : State) (e : Pte) : List (BitVec 12) :=
  ((s.mappersOf e).map (fun k => BitVec.ofNat 12 (k / 2 ^ 27))).eraseDups

/-- Every bib that maps a page receives ST_DATA_LOST naming it (Table 9.12). -/
def State.notifyPage (s : State) (b : BitVec 12) (page : BitVec 27) : State :=
  s.each (s.mappingBibs (s.pte b page.toNat)) (fun t x => t.notifyOf x .dataLost 0 (.lostPage page))

/-- The rebuild of a page begins, or is joined: the entries that map it are marked, cause 6 is raised for the domains that wait,
EV_LODGE_UE is recorded and LODGE_UE counts, once for the page (R237). -/
def State.startRebuild (s : State) (b : BitVec 12) (page : Nat) (lun : BitVec 29) (t2 : Bool) (waiting : List (BitVec 8)) : State :=
  let key := pageKey b page
  let op := s.lodge.pages.lookup key
  let old := op.elim [] (·.waiting)
  let began := op.any (·.rebuild)
  let all := old ++ waiting.filter (fun c => !old.contains c)
  let e := s.pte b page
  let s1 : State := { s with lodge.pages := s.lodge.pages.insert key { lun := lun.toNat, waiting := all, rebuild := true, peers := op.elim 0 (·.peers) } }
  let s2 := s1.each (if began then waiting.filter (fun c => !old.contains c) else all) (fun t c => t.raiseHold c.toNat 6)
  if began then s2
  else
    let ks := s.mappersOf e
    let s3 : State := { s2 with mem.ptes := s2.mem.ptes.each (fun k x => if ks.contains k then { x with state := 3 } else x)
                                mem.cached := s2.mem.cached.filter (fun k => !ks.contains k) }
    (s3.raise { bib := b, src := 6, arg := .lodgeUe lun t2 (s.mappingBibs e) }).count 0x0605 0 1

/-- The first logical unit of an entry's lodge page: 2 MiB are 32 units (R228, R237). -/
def Pte.lun (e : Pte) : Nat := e.frame.toNat * 32

/-- STACK_LINE_UE: a line reports uncorrectable: it is poisoned and counted, and what it belongs to decides the rest (Table 9.12). -/
def execStackLineUe (stack : Fin 8) (line : Nat) (owner : LineOwner) (s : State) : Out :=
  s.event fun s =>
    let k := s.stack stack.val
    let known := k.poison.contains line
    let s1 := s.setStack stack.val { k with poison := if known then k.poison else line :: k.poison, second := k.second || k.marked }
    let s2 := if known then s1 else s1.count 0x0401 stack.val 1
    match owner with
    | .backedPage b page =>
      match s.lodge.backed.lookup (pageKey b page.toNat) with
      | some lun => s2.startRebuild b page.toNat (BitVec.ofNat 29 lun) true []
      | none => s2.notifyPage b page
    | .service true => s2
    | .service false => s2.losePart 11 stack.val
    | .tile b tensor tile => s2.loseTile (tileKey { bib := b, tensor := tensor, tile := tile })
    | .page b page => s2.notifyPage b page

/-- STACK_DIE_MARK: an error within one DRAM die was corrected on a line; four distinct lines mark the die, with EV_REPAIR (R201). -/
def execStackDieMark (stack : Fin 8) (die : BitVec 4) (line : Nat) (s : State) : Out :=
  s.event fun s => s.correctLine stack.val die line

/-! ## Base engines (R200) -/

/-- The flag source that an add at a home has (R105): the base engine of its stack, or the memory of its die. -/
def addSource (h : HomeAddr) : Nat := if h.tier = 2 then stackOf h else 8 + dieOf h

/-- One element of a sum tile takes its add; the flag says that a result so far was not finite. -/
def State.addElem (s : State) (home : HomeAddr) (rnd : Nat → Rnd) (a : State × Bool) (e : BitVec 40 × Nat) : State × Bool :=
  let k := homeKey home
  let (x, bad) := addW40 (rnd e.2) (BitVec.ofNat 40 (s.elemAt k .w40 (e.2 / 256) (e.2 % 256))) e.1
  (a.1.setElem k .w40 (e.2 / 256) (e.2 % 256) x.toNat, a.2 || bad)

/-- A tile of W40 values is added into a sum tile at its home, TERM checked against the header's count (R89, Table 9.7). -/
def State.addTile (s : State) (k : Course) (t : TileId) (h : TileHdr) (slot : BitVec 8) (term : BitVec 32) (sr : Bool) (seed : BitVec 4)
    (vals : List (BitVec 40)) : State :=
  let c := slot.toNat
  match checkTile h t 8 h.home with
  | .violation st => s.violate c st 0 0 (t.tile.setWidth 128)
  | .lost => s.notifyLost t
  | .poisoned => s.notify t.bib .fault 0
  | .good =>
    if 2 < h.home.tier.toNat then s.violate c .notHome 0 0 (t.tile.setWidth 128)
    else if term.toNat ≠ h.terms.toNat + 1 then s.violate c .fault 0 0 (term.setWidth 128)
    else
      let rnd (i : Nat) : Rnd :=
        if sr then .sr (rand32 (s.seed t.bib seed.toNat) (t.tensor.setWidth 32)
          (BitVec.ofNat 40 (elementIndex (k.tensor t.tensor.toNat) t.tile.toNat i)) term) else .rne
      let (u, bad) := vals.zipIdx.foldl (s.addElem h.home rnd) (s, false)
      let h' := { h with terms := term, version := h.version + 1, nonfin := h.nonfin || bad, epoch := (s.bib t.bib).curEpoch }
      (((u.tileOut h).tileIn h').setTile t h').flagStep slot (addSource h.home) bad

/-- What a base engine adds into a sum tile for a slot: the values with TERM and rounding; none while they are not at hand. -/
def State.addend (s : State) (t : TileId) (slot : BitVec 8) (src : AddSrc) : Option (List (BitVec 40) × BitVec 32 × Bool × BitVec 4) :=
  match src with
  | .finished =>
    match s.arr.partials.lookup (tileKey t) with
    | some p => if p.vals.length = 65536 ∧ p.slot = slot then some ((List.range 65536).map (p.vals.read 0), p.term, p.sr, p.seed) else none
    | none => none
  | .tile a term sr seed =>
    match s.tileHdr a with
    | some h =>
      if h.state = 0 ∧ h.fmt = 8 ∧ h.home.tier = 2 ∧ a.bib = t.bib then
        some ((List.range 65536).map (fun i => BitVec.ofNat 40 (s.elemAt (homeKey h.home) .w40 (i / 256) (i % 256))), term, sr, seed)
      else none
    | none => none

/-- A finished partial that has been added is held no longer. -/
def State.takeAddend (s : State) (t : TileId) (src : AddSrc) : State :=
  match src with
  | .finished => { s with arr.partials := s.arr.partials.remove (tileKey t) }
  | .tile _ _ _ _ => s

/-- BASE_W40_ADD: a base engine adds a finished partial, or a W40 tile, into a sum tile (R121, R144, R200); a moving tile makes it wait,
a mirrored tensor's add is sent (R283). -/
def execBaseW40Add (t : TileId) (slot : BitVec 8) (src : AddSrc) (s : State) : Out :=
  s.event fun s =>
    match s.course slot.toNat, s.addend t slot src with
    | some k, some (vals, term, sr, seed) =>
      let s1 := s.takeAddend t src
      match s.mirrorOf t.bib t.tensor, s.tileHdr t with
      | some e, _ =>
        { s1 with sl.outgoing := s1.sl.outgoing ++
            [{ bib := t.bib, act := e.2.act, dst := mirrorModule e.1 e.2, rail := e.2.rail, data := vals.flatMap (fun v => leBytes 5 v.toNat)
               va := BitVec.ofNat 48 (tileVa (k.tensor t.tensor.toNat) t.tile.toNat), term := term, sr := sr, seed := seed }] }
      | none, some h => if h.state = 1 then s else s1.addTile k t h slot term sr seed vals
      | none, none => s1.violate slot.toNat .bounds 0 0 (t.tile.setWidth 128)
    | _, _ => s

/-- Bytes that one line operation moves: a line, or of a scatter that adds, a row of 64 W40 values. -/
def lineBytes (dir : GatherDir) : Nat := if dir = .scatterAdd then 320 else 64

/-- One line of a gather or scatter: a copy, or the sum of a row of W40 values with what is there, rounded to nearest (R144). -/
def State.lineOp (s : State) (dir : GatherDir) (src dst : Nat) : State :=
  if dir = .scatterAdd then
    s.each (List.range 64) (fun t i =>
      let v (k : Nat) : BitVec 40 := BitVec.ofNat 40 (leNat (t.bytesAt (k + 5 * i) 5))
      t.setBytes (dst + 5 * i) (leBytes 5 (addW40 .rne (v dst) (v src)).1.toNat))
  else s.copyBytes src dst 64

/-- BASE_GATHER_SCATTER: lines of a bib go from one place of a stack to another, one after the other, each one atomic unit; a page in
motion is waited for (R144, R190, R200). -/
def execBaseGatherScatter (dir : GatherDir) (bib : BitVec 12) (lines : List (BitVec 48 × BitVec 48)) (s : State) : Out :=
  s.event fun s =>
    let src (e : BitVec 48 × BitVec 48) : Xlat := s.xlate bib e.1.toNat false false
    let dst (e : BitVec 48 × BitVec 48) : Xlat := s.xlate bib e.2.toNat true false
    if lines.any (fun e => src e = .wait || dst e = .wait) then s
    else s.each lines (fun t e =>
      match src e, dst e with
      | .ok a, .ok b =>
        if a.tier = 2 && b.tier = 2 && stackOf a = stackOf b && decide (e.1.toNat % 2 ^ 21 + lineBytes dir ≤ 2 ^ 21)
          && decide (e.2.toNat % 2 ^ 21 + lineBytes dir ≤ 2 ^ 21) then t.lineOp dir (homeKey a) (homeKey b) else t
      | .fail st, _ => t.violate ((t.runningOf bib).headD 256) st 0 0 (e.1.setWidth 128)
      | _, .fail st => t.violate ((t.runningOf bib).headD 256) st 0 0 (e.2.setWidth 128)
      | _, _ => t)

/-- Whether entry `a` comes before entry `b` in list order (R157). -/
def listBefore (sense : Bool) (a b : BitVec 40 × BitVec 40) : Bool :=
  let x := w40Rank a.1
  let y := w40Rank b.1
  if x = y then decide (a.2.toNat < b.2.toNat) else if sense then decide (y < x) else decide (x < y)

/-- A list with an entry in its place. -/
def insertEntry (sense : Bool) (e : BitVec 40 × BitVec 40) : List (BitVec 40 × BitVec 40) → List (BitVec 40 × BitVec 40)
  | [] => [e]
  | x :: l => if listBefore sense e x then e :: x :: l else x :: insertEntry sense e l

/-- A candidate enters a list: a NaN is dropped and counted, the list keeps its first K entries, and with K entries THRESH is the
last one's distance (R157). -/
def TopList.insert (l : TopList) (c : Cand) : TopList :=
  if isNan c.dist then { l with nanDrop := if l.nanDrop = 0xFFFF then l.nanDrop else l.nanDrop + 1 }
  else
    let es := (insertEntry l.sense (c.dist, c.index) l.entries).take l.k.toNat
    { l with entries := es, thresh := if es.length = l.k.toNat then (es.getLast?.map (·.1)).getD l.thresh else l.thresh }

/-- A candidate of a bib goes into its list; another bib's list is not its own (R158). -/
def State.insertCand (s : State) (stack : Nat) (bib : BitVec 12) (cand : Cand) : State :=
  let key := bib.toNat * 2 ^ 24 + cand.list.toNat
  let c := (s.runningOf bib).headD 256
  match s.mem.lists.lookup key with
  | some l => if l.bib ≠ bib then s.violate c .notHome 0 0 (BitVec.ofNat 128 (cand.list.toNat + 2 ^ 24 * stack))
      else { s with mem.lists := s.mem.lists.insert key (l.insert cand) }
  | none => s.violate c .bounds 0 0 (BitVec.ofNat 128 (cand.list.toNat + 2 ^ 24 * stack))

/-- TOPK_INSERT: the base engine inserts a candidate that a lane has forwarded (R158). -/
def execTopkInsert (stack : Fin 8) (bib : BitVec 12) (cand : Cand) (s : State) : Out :=
  s.event fun s => ({ s with arr.cands := s.arr.cands.erase (bib, cand) }).insertCand stack.val bib cand

/-- The adds counted in planes whose bytes have been filled with zeros start afresh (R155). -/
def State.forgetSums (s : State) (key n : Nat) : State :=
  { s with arr.sums := s.arr.sums.keep (fun k _ =>
      k % 2 = 1 || !(s.vaKey (BitVec.ofNat 12 (k / 2 / 2 ^ 48)) (k / 2 % 2 ^ 48)).any (fun x => decide (key ≤ x ∧ x < key + n))) }

/-- BASE_ZERO_FILL: a tile at its home, or up to a page of a stack, is filled with zeros; a tile's header records the write (R193). A tile in
motion is waited for; a tile that is not at a T2 home answers ST_NOT_HOME, a place that is not backed, or that leaves its page,
ST_BOUNDS (R18, R188, R200). -/
def execBaseZeroFill (tile : Option TileId) (home : HomeAddr) (bytes : Nat) (s : State) : Out :=
  s.event fun s =>
    let answer (t : State) (st : Status) : State := { t with cmd.writeStatus := st }
    match tile with
    | some t =>
      match s.tileHdr t with
      | some h =>
        if h.state = 1 then s
        else if h.home.tier ≠ 2 then answer s .notHome
        else
          let h' := { h with terms := 0, version := h.version + 1, nonfin := false, poison := false, epoch := (s.bib t.bib).curEpoch }
          answer ((((s.zeroBytes (homeKey h.home) (tileBytesOf h.fmt.toNat)).tileOut h).tileIn h').setTile t h') .ok
      | none => answer s .bounds
    | none =>
      if home.tier = 2 ∧ s.addrOk home ∧ home.off.toNat % 2 ^ 21 + bytes ≤ 2 ^ 21 then
        answer ((s.zeroBytes (homeKey home) bytes).forgetSums (homeKey home) bytes) .ok
      else answer s .bounds

/-- BASE_VERIFY: every line of a unit is read and checked and nothing is written; lines found uncorrectable count and are poisoned
(R200, R202). -/
def execBaseVerify (stack : Fin 8) (lines bad : List Nat) (s : State) : Out :=
  s.event fun s =>
    let k := s.stack stack.val
    let new := (bad.filter (fun l => lines.contains l && !k.poison.contains l)).eraseDups
    if new = [] then s else (s.setStack stack.val { k with poison := new ++ k.poison, second := k.second || k.marked }).count 0x0401 stack.val new.length

end Sys2Proof.Machine
end

