-- ==== Sys2Proof/Machine/Paged.lean ====
section
/-! DEFINITION. Bytes at virtual addresses, page by page (R189, R203, R204). -/

namespace Sys2Proof.Machine

/-- What stands against an access to `n` bytes from `va` up: the first failure of Table 9.3 among its pages, if any; a protected
write of a bib with no data key is refused (R302). -/
def State.vaFault (s : State) (b : BitVec 12) (va n : Nat) (write : Bool) : Option Xlat :=
  ((pagesOf va n).map (fun p =>
    match s.xlate b (p * 2 ^ 21) write false with
    | .ok h => if write && (s.pte b p).prot && (s.keysOf b).data0.isNone && (s.keysOf b).data1.isNone then .fail .auth else .ok h
    | x => x)).find? (fun x => match x with
    | .ok _ => false
    | _ => true)

/-- A page takes the bib's current epoch as it is written (R203, R204); the lodge's copy no longer backs it. -/
def State.touchPage (s : State) (b : BitVec 12) (p : Nat) : State :=
  let s : State := { s with lodge.backed := s.lodge.backed.remove (pageKey b p) }
  let e := s.pte b p
  let e' := { e with epoch := (s.bib b).curEpoch }
  if e.prot && e.epoch ≠ e'.epoch then ((s.pageItem b e false).pageItem b e' true).setPte b p e' else s

/-- Bytes are stored from a virtual address up. -/
def State.vaWrite (s : State) (b : BitVec 12) (va : Nat) (bs : List Byte) : State :=
  let t := s.each bs.zipIdx (fun t e =>
    match s.vaKey b (va + e.2) with
    | some k => t.setByte k e.1
    | none => t)
  t.each (pagesOf va bs.length) (fun t p => t.touchPage b p)

/-- The tensor with tiles, of a bib's resident courses, that holds a virtual address: slot, course, tensor number. -/
def State.tensorAt (s : State) (b : BitVec 12) (va : Nat) : Option (Nat × Course × Nat) :=
  s.crs.courses.findSome? (fun e =>
    if e.2.bib = b then
      ((List.range e.2.tensors.length).find? (fun i =>
        let r := e.2.tensor i
        decide (tnLayout r = 0 ∧ tnVa r ≤ va ∧ va < tnVa r + tnRows r * tnCols r * tileBytesOf (tnFmt r)))).map (fun i => (e.1, e.2, i))
    else none)

end Sys2Proof.Machine
end

