-- ==== Sys2Proof/Machine/LodgeOps.lean ====
section
/-! DEFINITION. The lodge: units, stripes, the decode ladder, block groups, failures, shared pages, commits, start-up (R226 to R246). -/

namespace Sys2Proof.Machine

/-! ## Places -/

/-- The number of a block group. -/
def grpKey (ch die blk : Nat) : Nat := (ch * 16 + die) * 2048 + blk

/-- The number of a unit's place. -/
def placeKey (p : LodgePlace) : Nat := (grpKey p.ch.toNat p.die.toNat p.blk.toNat * 512 + p.wl.toNat) * 4 + p.pg.toNat

/-- The number of the block group that holds a place. -/
def grpOf (p : LodgePlace) : Nat := grpKey p.ch.toNat p.die.toNat p.blk.toNat

/-- A block group. -/
def State.grp (s : State) (g : Nat) : Grp := s.lodge.grps.read {} g

/-- A block group is written. -/
def State.setGrp (s : State) (g : Nat) (x : Grp) : State := { s with lodge.grps := s.lodge.grps.write {} g x }

/-- Channel registers. -/
def State.lodgeCh (s : State) (c : Nat) : LodgeCh := s.lodge.chs.read {} c

/-- Whether a die is dead. -/
def State.dieDead (s : State) (ch die : Nat) : Bool := (s.lodgeCh ch).dead.getLsbD die

/-- Whether a place lies on a dead die. -/
def State.onDead (s : State) (p : LodgePlace) : Bool := s.dieDead p.ch.toNat p.die.toNat

/-! ## Registers of the lodge (Tables 11.12, 11.13) -/

/-- Block groups of a die that are listed in a state that is not free. -/
def State.usedGroups (s : State) (ch die : Nat) : Nat :=
  (s.lodge.grps.filter (fun e => decide (e.1 / 2048 = ch * 16 + die ∧ e.2.state ≠ .free))).length

/-- Units after parity that no data holds and no retired group has taken (R236). -/
def State.spareUnits (s : State) : Nat :=
  457850880 - s.lodge.map.length - 1440 * (s.lodge.grps.filter (fun e => e.2.state = .retired)).length

/-- Whether the lodge refuses programs. -/
def State.lodgeReadOnly (s : State) : Bool := s.lodge.stat.state = 4

/-- The lodge becomes read-only, with EV_REPAIR (R236). -/
def State.makeReadOnly (s : State) : State :=
  if s.lodgeReadOnly then s
  else ({ s with lodge.stat := { s.lodge.stat with state := 4 } }).raise { src := 6, arg := .repair 14 0 0 }

/-- Progress of a rebuild: units still on dead dies. -/
def State.leftToBuild (s : State) : Nat := (s.lodge.map.filter (fun e => s.onDead e.2)).length

/-- The lodge's registers follow its state: rebuilding ends when no unit is left on a failed part (R236, Tables 11.12, 11.13). -/
def State.lodgeStat (s : State) : State :=
  let pct (n d : Nat) : Nat := if d = 0 then 0 else 100 * n / d
  let dies := (List.range 256).map (fun i => pct (1242 - s.usedGroups (i / 16) (i % 16)) 1242)
  let wear (i : Nat) : Nat := ((s.lodge.grps.filter (fun e => e.1 / 2048 = i)).map (fun e => e.2.erases)).sum / 1242
  let left := s.leftToBuild
  let st := s.lodge.stat
  let stat' : LodgeStat := { st with
    state := if st.state = 2 ∧ left = 0 then (if st.lost then 3 else 1) else st.state
    rebuild := if st.state = 2 ∧ s.lodge.toBuild ≠ 0 then BitVec.ofNat 7 (pct (s.lodge.toBuild - left) s.lodge.toBuild) else st.rebuild
    free := BitVec.ofNat 7 (dies.foldl min 100)
    wear := BitVec.ofNat 7 (min 127 (((List.range 256).map wear).foldl max 0 * 100 / 3000))
    snapAge := BitVec.ofNat 16 (min 0xFFFF (s.lodge.progBytes / 10 ^ 9)) }
  let ch (c : Nat) : LodgeCh :=
    let gs := s.lodge.grps.filter (fun e => e.1 / 2048 / 16 = c)
    let used := (gs.filter (fun e => decide (e.2.state = .open_ ∨ e.2.state = .closed))).map (fun e => e.2.erases)
    { s.lodgeCh c with
      grown := BitVec.ofNat 16 (min 0xFFFF (gs.filter (fun e => e.2.state = .retired)).length)
      peMax := BitVec.ofNat 16 ((gs.map (fun e => e.2.erases)).foldl max 0)
      peMin := BitVec.ofNat 16 (used.foldl min (used.headD 0)) }
  let t := s.each (List.range 16) (fun t c => { t with lodge.chs := t.lodge.chs.write {} c (ch c) })
  let t1 : State := { t with lodge.stat := stat' }
  if t1.spareUnits * 50 < 457850880 then t1.makeReadOnly else t1

/-- A block group is retired (R235). -/
def State.retire (s : State) (g : Nat) : State :=
  if (s.grp g).state = .retired then s
  else ((s.setGrp g { s.grp g with state := .retired }).count 0x0604 0 1)

/-- A block group is to be refreshed (Table 11.6). -/
def State.refreshDue (s : State) (g : Nat) : State := s.setGrp g { s.grp g with refresh := true }

/-! ## Pages (R237 to R240) -/

/-- Cause 6 clears for every domain that waits on a page, and the operation ends. -/
def State.endPageOp (s : State) (key : Nat) : State :=
  match s.lodge.pages.lookup key with
  | some op => { s.each op.waiting (fun t c => t.clearHold c.toNat 6) with lodge.pages := s.lodge.pages.remove key }
  | none => s

/-- `n` logical units from `lo` on are invalid: the map no longer names them, protected ones leave their epoch's count (R204, R230). -/
def State.dropUnits (s : State) (lo n : Nat) : State :=
  let hit := s.lodge.map.filter (fun e => decide (lo ≤ e.1 ∧ e.1 < lo + n))
  let t := s.each hit (fun t e => match s.lodge.tags.lookup (placeKey e.2) with
    | some g => if g.prot then t.itemOut g.bib g.epoch 8 else t
    | none => t)
  { t with lodge.map := t.lodge.map.keep (fun l _ => decide (l < lo ∨ lo + n ≤ l)) }

/-- A unit of no page in work is lost: an object that it belongs to cannot be read, and the bib that its tag names hears of it (R239). -/
def State.loseUnit (s : State) (lun : Nat) (b : BitVec 12) : State :=
  let t := s.dropUnits lun 1
  ({ t with lodge.objs := t.lodge.objs.each (fun _ (o : LObj) =>
      if o.first.any (fun f => decide (f ≤ lun ∧ lun ≤ f + (o.bytes.length + 65535) / 65536)) then { o with lost := true } else o) }).notify b .dataLost 0

/-- A page is lost: every bib that maps it receives ST_DATA_LOST, cause 6 clears, its logical units are invalid (R239). -/
def State.losePage (s : State) (key : Nat) : State :=
  let e := s.mem.ptes.read {} key
  let lun := (s.lodge.pages.lookup key).elim 0 (·.lun) / 32 * 32
  let s1 := s.each (s.mappingBibs e) (fun t b => t.notifyOf b .dataLost 0 (.lostPage (BitVec.ofNat 27 (key % 2 ^ 27))))
  (s1.endPageOp key).dropUnits lun 32

/-- The operation on the page of a logical unit. -/
def State.pageOpOf (s : State) (lun : Nat) : Option (Nat × PageOp) := s.lodge.pages.find? (fun e => e.2.lun / 32 = lun / 32)

/-- The modules that hold a copy of a logical page (R237). -/
def State.replicasOf (s : State) (lun : Nat) : List (BitVec 11) := s.lodge.replicas.read [] (lun / 32)

/-- A unit is beyond the ladder: its page is fetched from a peer, or lost with no replica list; a unit of no page in work is reported
to the bib that its tag names (R238, R239). -/
def State.unitLost (s : State) (p : LodgePlace) : State :=
  match s.lodge.tags.lookup (placeKey p) with
  | some tag =>
    let lun := tag.lun.toNat
    match s.pageOpOf lun with
    | some (key, _) => if s.replicasOf lun = [] then s.losePage key else s
    | none => s.loseUnit lun tag.bib
  | none => s

/-- LODGE_UNIT_READ_DONE: a step of the decode ladder ends (Table 11.5). A failure climbs, to step 4 at once on a dead die; a success
ends the read; at 60,000 reads its group is due for a sample, at 100,000 for a refresh. A rebuilt unit retires its group, and its page's contents are recovered. -/
def execLodgeUnitReadDone (place : LodgePlace) (ok : Bool) (s : State) : Out :=
  s.event fun s =>
    if !s.lodge.tags.has (placeKey place) then s
    else
      let key := placeKey place
      let g := (grpOf place)
      let step := s.lodge.ladder.read 1 key
      let s0 := s.setGrp g { s.grp g with reads := (s.grp g).reads + 1 }
      let n := (s0.grp g).reads
      let s1 := if 100000 ≤ n then s0.refreshDue g else if n = 60000 then s0.setGrp g { s0.grp g with sample := true } else s0
      if ok then
        let s2 : State := { s1 with lodge.ladder := s1.lodge.ladder.remove key }
        let s3 := if step = 3 then s2.refreshDue g else s2
        let s4 := if step = 4 then s3.retire g else s3
        let lun := (s.lodge.tags.lookup key).elim 0 (·.lun.toNat)
        (match s4.pageOpOf lun with
        | some (k, op) => { s4 with lodge.pages := s4.lodge.pages.insert k { op with ready := op.ready || op.rebuild } }
        | none => s4).lodgeStat
      else if 4 ≤ step then ({ s1 with lodge.ladder := s1.lodge.ladder.remove key }).unitLost place
      else
        let next := if s.onDead place then 4 else step + 1
        let s2 : State := { s1 with lodge.ladder := s1.lodge.ladder.insert key next }
        s2.count (if next = 2 then 0x0600 else if next = 3 then 0x0601 else 0x0602) 0 1

/-- LODGE_PAGE_REBUILD: a unit of a shared page, or a line of its T2 copy, is uncorrectable (R237). -/
def execLodgePageRebuild (bib : BitVec 12) (page : BitVec 27) (lun : BitVec 29) (fromT2 : Bool) (waiting : List (BitVec 8)) (s : State) : Out :=
  s.event fun s => s.startRebuild bib page.toNat lun fromT2 waiting

/-- LODGE_PEER_FETCH_DONE: a fetch from the next module of the replica list ends; three peers, or the list, are the most (R238, R239). -/
def execLodgePeerFetchDone (bib : BitVec 12) (page : BitVec 27) (ok : Bool) (s : State) : Out :=
  s.event fun s =>
    let key := pageKey bib page.toNat
    match s.lodge.pages.lookup key with
    | some op =>
      let list := s.replicasOf op.lun
      if !op.rebuild || op.ready || list.length ≤ op.peers || 3 ≤ op.peers then s
      else
        let s1 := s.count 0x0606 0 1
        let op' : PageOp := { op with peers := op.peers + 1, ready := ok }
        let s2 : State := { s1 with lodge.pages := s1.lodge.pages.insert key op' }
        if ok || decide (op'.peers < min 3 list.length) then s2 else s2.losePage key
    | none => s

/-- A logical page whose 32 units hold volatile data of a bib and that no entry names: the place to which a page is evicted (R217,
R240). -/
def State.evictTo (s : State) (b : BitVec 12) : Option Nat :=
  ((s.lodge.map.map (fun e => e.1 / 32)).eraseDups).find? (fun l =>
    (List.range 32).all (fun i => match s.lodge.map.lookup (32 * l + i) with
      | some p => (s.lodge.tags.lookup (placeKey p)).any (fun t => t.cls = 2 && t.bib = b)
      | none => false)
    && !s.mem.ptes.any (fun _ e => e.tier = 3 && e.frame.toNat = l))

/-- The page of a bib at a T2 frame is evicted to the lodge: the entry becomes absent (R217). -/
def State.evict (s : State) (b : BitVec 12) (frame l : Nat) : State :=
  let old (e : Pte) : Bool := e.state = 1 && e.tier = 2 && e.frame.toNat = frame
  let keys := (s.mem.ptes.filter (fun e => old e.2)).map (·.1)
  let s0 := s.each keys (fun t k => t.pageItem b (t.mem.ptes.read {} k) false)
  let t := (s0.copyBytes (byteKey 2 (frame * 2 ^ 21)) (byteKey 3 (l * 2 ^ 21)) (2 ^ 21)).rehome 2 frame 3 l
  { t with mem.ptes := t.mem.ptes.each (fun k e => if keys.contains k then { e with tier := 3, state := 2, frame := BitVec.ofNat 29 l } else e)
           mem.cached := t.mem.cached.filter (fun k => !keys.contains k) }

/-- Whether a committed object covers a logical page. -/
def State.committedPage (s : State) (lun : Nat) : Bool :=
  s.lodge.objs.any (fun _ o => decide (o.copies ≠ 0) && o.first.any (fun f => decide (f ≤ lun ∧ lun + 32 ≤ f + (o.bytes.length + 65535) / 65536)))

/-- PAGE_IN_REQUEST: an absent page is read from the lodge into a T2 frame and set resident, or a page whose contents a rebuild has
recovered (U5 of Table 11.7). The frame is free, or holds a page of the bib that is not shared and is evicted first (R217, R240). -/
def execPageInRequest (bib : BitVec 12) (page : BitVec 27) (lun : BitVec 29) (frame : BitVec 29) (s : State) : Out :=
  s.event fun s =>
    let key := pageKey bib page.toNat
    let e := s.pte bib page.toNat
    let op := s.lodge.pages.lookup key
    let rebuilt := op.any (fun o => o.rebuild && o.ready)
    if !((e.tier = 3 && e.state = 2 && lun.toNat = e.lun) || rebuilt) then s
    else
      let first := if rebuilt then op.elim 0 (·.lun) / 32 * 32 else e.lun
      let fk := frameKey 2 frame.toNat
      let mine := s.mem.owners.lookup fk = some bib && frame ≠ e.frame && !s.mem.ptes.any (fun _ x => x.tier = 2 && x.frame = frame && x.shr)
        && !s.frameMoving 2 frame.toNat
      let ready : Option State :=
        if s.frameFree 2 frame.toNat then (if (s.quotaBib bib).quotaFor 2 frame.toNat || rebuilt then some s else none)
        else if mine then (s.evictTo bib).map (fun l => s.evict bib frame.toNat l)
        else none
      match ready with
      | none => s
      | some s0 =>
        let keys := if rebuilt then s.mappersOf e else (s.mem.ptes.filter (fun x => x.2.tier = 3 && x.2.state = 2 && x.2.frame = e.frame)).map (·.1)
        let s1 := ((s0.copyBytes (byteKey 3 (first * 65536)) (byteKey 2 (frame.toNat * 2 ^ 21)) (2 ^ 21)).rehome e.tier.toNat e.frame.toNat 2 frame.toNat)
        let e' : Pte := { e with tier := 2, frame := frame, state := 1 }
        let s2 : State := { s1 with
          mem.ptes := s1.mem.ptes.each (fun k x => if keys.contains k then { x with tier := 2, frame := frame, state := 1 } else x)
          mem.owners := s1.mem.owners.insert fk bib
          lodge.backed := if s1.committedPage first then keys.foldl (fun m k => m.insert k first) s1.lodge.backed else s1.lodge.backed }
        let s3 := if rebuilt || s.mem.owners.has fk then s2 else s2.setBib bib ((s2.bib bib).usePage 2 frame.toNat true)
        let s4 : State := if rebuilt && e.tier = 2 then { s3 with mem.owners := s3.mem.owners.remove (frameKey 2 e.frame.toNat) } else s3
        (s4.pageItem bib e' true).endPageOp key

/-! ## Programs and erases (R230, R231, R233 to R235) -/

/-- A unit of a stripe becomes reachable: a write by its SEQ, a relocation with its source's tag if the map still names the source and no
rebuild of its page is in work (R230, R234). -/
def State.reach (s : State) (u : LodgePlace × UnitTag × Option LodgePlace) : State :=
  let lun := u.2.1.lun.toNat
  let tag := u.2.1
  let s1 : State := { s with lodge.tags := s.lodge.tags.insert (placeKey u.1) tag
                             lodge.seq := if s.lodge.seq.toNat < tag.seq.toNat then tag.seq else s.lodge.seq }
  let data := tag.cls = 1 || tag.cls = 2 || tag.cls = 7
  let cur := s.lodge.map.lookup lun
  if !data || lodgeUnits ≤ lun then s1
  else match u.2.2 with
    | some old =>
      if cur = some old && s.lodge.tags.lookup (placeKey old) = some tag && !(s.pageOpOf lun).any (fun e => e.2.rebuild) then
        ({ s1 with lodge.map := s1.lodge.map.insert lun u.1 }).count 0x0603 0 65536
      else s1
    | none =>
      let older := cur.bind (fun p => s.lodge.tags.lookup (placeKey p))
      if older.any (fun t => decide (tag.seq.toNat ≤ t.seq.toNat)) then s1
      else
        let out := match older with
          | some t => if t.prot then s1.itemOut t.bib t.epoch 8 else s1
          | none => s1
        let s2 := if tag.prot then out.itemIn tag.bib tag.epoch 8 else out
        { s2 with lodge.map := s2.lodge.map.insert lun u.1 }

/-- The channel of a stripe's parity (R231). -/
def parityCh (blk wl die : Nat) : Nat := (blk + wl + die) % 16

/-- Whether a unit can be part of a stripe: a page of its wordline on a living die, not yet programmed, in a block group that is free or open,
parity on the stripe's parity channel and nothing else there. How the 15 channels left after a channel's loss take turns is not
stated (R231, R235, R236). -/
def State.stripeUnit (s : State) (blk : BitVec 11) (wl : BitVec 9) (die : BitVec 4) (u : LodgePlace × UnitTag × Option LodgePlace) : Bool :=
  let g := (s.grp (grpOf u.1)).state
  u.1.blk = blk && u.1.wl = wl && u.1.die = die && decide (u.1.pg.toNat < 3) && !s.onDead u.1 && !s.lodge.tags.has (placeKey u.1)
    && (g = .free || g = .open_)
    && (s.lodge.stat.lost || (u.2.1.cls = 3) = (u.1.ch.toNat = parityCh blk.toNat wl.toNat die.toNat))

/-- LODGE_STRIPE_PROGRAMMED: the 16 programs of a stripe have reported: all good, and its units become reachable; or one channel's
failed, and that block group is retired with the map unchanged (R231, R235). A read-only lodge programs nothing. -/
def execLodgeStripeProgrammed (blk : BitVec 11) (wl : BitVec 9) (die : BitVec 4) (failedCh : Option (BitVec 4))
    (units : List (LodgePlace × UnitTag × Option LodgePlace)) (s : State) : Out :=
  s.event fun s =>
    if s.lodgeReadOnly || !units.all (s.stripeUnit blk wl die) then s
    else match failedCh with
      | some c => (s.retire (grpKey c.toNat die.toNat blk.toNat)).lodgeStat
      | none =>
        let s1 := s.each units State.reach
        let s2 := s1.each units (fun t u =>
          let g := t.grp (grpOf u.1)
          t.setGrp (grpOf u.1) { g with written := g.written + 1, state := if 1533 ≤ g.written + 1 then .closed else .open_ })
        let snap := units.any (fun u => u.2.1.cls = 4)
        ({ s2 with lodge.progBytes := if snap then 0 else s2.lodge.progBytes + 65536 * units.length }).lodgeStat

/-- Whether a block group holds a unit that the map names, or a read of it is in progress (R234). -/
def State.grpBusy (s : State) (g : Nat) : Bool :=
  s.lodge.map.any (fun _ p => grpOf p = g) || s.lodge.ladder.any (fun k _ => k / 2048 = g)

/-- LODGE_ERASE_DONE: a block group with nothing reachable and no read in flight is erased, or its erase fails and it is retired
(R234, R235). -/
def execLodgeEraseDone (ch die : BitVec 4) (blk : BitVec 11) (ok : Bool) (s : State) : Out :=
  s.event fun s =>
    let k := grpKey ch.toNat die.toNat blk.toNat
    let g := s.grp k
    if s.grpBusy k || g.state = .bad || g.state = .retired then s
    else if ok then
      (({ s with lodge.tags := s.lodge.tags.keep (fun p _ => p / 2048 ≠ k) }).setGrp k
        { state := .free, erases := g.erases + 1, reads := 0, fresh := g.refresh }).lodgeStat
    else (s.retire k).lodgeStat

/-- LODGE_WEAR_LEVEL_TIMER: every 4 h; when the erase counts of a die differ by more than 150, the data of its least-erased group is
to move (Table 11.6). `low` and `high` are the groups of least and most erases. -/
def execLodgeWearLevelTimer (ch die : BitVec 4) (low high : BitVec 11) (s : State) : Out :=
  s.event fun s =>
    let l := grpKey ch.toNat die.toNat low.toNat
    let h := grpKey ch.toNat die.toNat high.toNat
    if (s.grp l).erases + 150 < (s.grp h).erases then s.refreshDue l else s

/-- LODGE_RETENTION_SCAN: a group's daily sample, or the one that its reads have called for: a codeword above 60 bit errors, or data older than 180 days, calls for a refresh;
above 100 straight after a refresh the group is retired (R235, Table 11.6). -/
def execLodgeRetentionScan (ch die : BitVec 4) (blk : BitVec 11) (worst ageDays : Nat) (s : State) : Out :=
  s.event fun s =>
    let k := grpKey ch.toNat die.toNat blk.toNat
    let g := s.grp k
    let s1 := s.setGrp k { g with fresh := false, sample := false }
    if 100 < worst && g.fresh then (s1.retire k).lodgeStat
    else if 60 < worst ∨ 180 < ageDays then s1.refreshDue k
    else s1

/-! ## Failures of dies and channels (R236) -/

/-- Units of stripes that two failed dies touch are lost (R236, R239). -/
def State.loseStripes (s : State) (a b die : Nat) : State :=
  let hit := s.lodge.map.filter (fun e => decide (e.2.die.toNat = die ∧ (e.2.ch.toNat = a ∨ e.2.ch.toNat = b)))
  s.each hit (fun t e =>
    match t.pageOpOf e.1 with
    | some (k, _) => t.losePage k
    | none => t.loseUnit e.1 ((s.lodge.tags.lookup (placeKey e.2)).elim 0 (·.bib)))

/-- A die fails: its units are to be rebuilt; with another die of its stripes not yet rebuilt, both are beyond parity. -/
def State.killDie (s : State) (ch die : Nat) : State :=
  let others := (List.range 16).filter (fun c => c ≠ ch && s.dieDead c die
    && s.lodge.map.any (fun _ p => decide (p.ch.toNat = c ∧ p.die.toNat = die)))
  let t : State := { s with lodge.chs := s.lodge.chs.write {} ch { s.lodgeCh ch with dead := (s.lodgeCh ch).dead ||| BitVec.ofNat 16 (2 ^ die) } }
  let t1 : State := { t with lodge.toBuild := t.leftToBuild
                             lodge.stat := if t.lodgeReadOnly then t.lodge.stat else { t.lodge.stat with state := 2 } }
  (t1.each others (fun u c => u.loseStripes ch c die)) |> fun u => if others = [] then u else u.makeReadOnly

/-- LODGE_DIE_DEAD: a die is marked dead and rebuilt from parity, with EV_REPAIR (R236). -/
def execLodgeDieDead (ch die : BitVec 4) (s : State) : Out :=
  s.event fun s =>
    if s.dieDead ch.toNat die.toNat then s
    else ((s.killDie ch.toNat die.toNat).raise { src := 6, arg := .repair 5 (BitVec.ofNat 12 (16 * ch.toNat + die.toNat)) 0 }).lodgeStat

/-- The log channel of a hub after the loss of channel `c`: the lowest-numbered surviving one of the same hub (R242). -/
def logAfter (s : State) (log : BitVec 4) (c : Nat) : BitVec 4 :=
  if log.toNat ≠ c then log
  else (((List.range 8).map (fun i => c / 8 * 8 + i)).find? (fun i => i ≠ c && (s.lodgeCh i).dead ≠ 0xFFFF)).elim log (BitVec.ofNat 4)

/-- LODGE_CHANNEL_LOST: a channel's interface fails: its dies are rebuilt, the commit log moves, and the lodge is degraded; a second
lost channel makes it read-only (R236, R242). -/
def execLodgeChannelLost (ch : BitVec 4) (s : State) : Out :=
  s.event fun s =>
    if s.lodge.stat.lost && s.lodge.stat.lostCh = ch then s
    else
      let second := s.lodge.stat.lost
      let t := s.each ((List.range 16).filter (fun d => !s.dieDead ch.toNat d)) (fun t d => t.killDie ch.toNat d)
      let t1 : State := { t with lodge.stat := { t.lodge.stat with lost := true, lostCh := if second then t.lodge.stat.lostCh else ch }
                                 lodge.logA := logAfter t t.lodge.logA ch.toNat, lodge.logB := logAfter t t.lodge.logB ch.toNat }
      let t2 := t1.raise { src := 6, arg := .repair 6 (ch.setWidth 12) 0 }
      (if second then t2.makeReadOnly else t2).lodgeStat

/-! ## Objects and commits (R241 to R243) -/

/-- An object. -/
def State.object (s : State) (id : Nat) : Option LObj := s.lodge.objs.lookup id

/-- An object is written. -/
def State.setObject (s : State) (id : Nat) (o : LObj) : State := { s with lodge.objs := s.lodge.objs.insert id o }

/-- Units of an object's extents. -/
def LObj.units (o : LObj) : Nat := (o.bytes.length + 65535) / 65536

/-- The first logical unit past every unit in use, at a page's start: where the next object goes. -/
def State.nextLun (s : State) : Nat :=
  let m := s.lodge.map.foldl (fun m e => max m (e.1 + 1)) 0
  let o := s.lodge.objs.foldl (fun m e => max m (e.2.first.elim 0 (fun f => f + e.2.units + 1))) m
  (o + 31) / 32 * 32

/-- The commit of an object begins: its extents take logical units and its bytes lie there (R241). -/
def State.beginCommit (s : State) (id : Nat) : State :=
  match s.object id with
  | some o => if o.first.isSome then s
      else (s.setObject id { o with first := some s.nextLun }).setBytes (byteKey 3 (s.nextLun * 65536)) o.bytes
  | none => s

/-- Committed checkpoints, or replicas, of a bib, newest first. -/
def State.checkpoints (s : State) (b : BitVec 12) (kind : Nat) : List (Nat × LObj) :=
  (s.lodge.objs.filter (fun e => decide (e.2.bib = b ∧ e.2.kind = kind ∧ e.2.copies ≠ 0))).mergeSort (fun x y => decide (y.2.cseq.toNat ≤ x.2.cseq.toNat))

/-- COMMIT_RECORD_PROGRAMMED: a copy of an object's commit record reports. With the first the object is committed (C4); with the second
the checkpoints before the two newest are released (C6); a failure leaves the previous commit in force, and the
status of the command that asked is not stated: a free value (R242, R243). -/
def execCommitRecordProgrammed (id : Nat) (copy : Fin 2) (ok : Bool) (s : State) : Out :=
  s.event fun s =>
    match s.object id with
    | some o =>
      if o.first.isNone || o.copies ≠ copy.val then s
      else if !ok || s.lodgeReadOnly then
        (if copy.val = 0 then (({ s with lodge.objs := s.lodge.objs.insert id { o with first := none } }).complete (.object id) (Config.openStatus s.freeCtr) .none).used else s)
      else if copy.val = 0 then
        let t := s.setObject id { o with copies := 1, cseq := s.lodge.cseq + 1 }
        ({ t with lodge.cseq := s.lodge.cseq + 1 }).complete (.object id) .ok .none
      else
        let t := s.setObject id { o with copies := 2 }
        if o.kind = 1 ∨ o.kind = 2 then
          let old := (t.checkpoints o.bib o.kind).drop 2
          let u := t.each old (fun t e => t.dropUnits (e.2.first.getD 0) (e.2.first.elim 0 (fun _ => e.2.units + 1)))
          { u with lodge.objs := u.lodge.objs.keep (fun k _ => !(old.map (·.1)).contains k) }
        else t
    | none => s

/-! ## Start-up (R245) -/

/-- Whether a unit is reachable from a valid commit record: a unit of a committed object's extents or manifest. -/
def State.reachable (s : State) (tag : UnitTag) : Bool :=
  (tag.cls = 1 || tag.cls = 7) && s.lodge.objs.any (fun _ o => decide (o.copies ≠ 0)
    && o.first.any (fun f => decide (f ≤ tag.lun.toNat ∧ tag.lun.toNat ≤ f + o.units)))

/-- The place in a packed number. -/
def placeOf (k : Nat) : LodgePlace :=
  { pg := BitVec.ofNat 2 k, wl := BitVec.ofNat 9 (k / 4), blk := BitVec.ofNat 11 (k / 2048), die := BitVec.ofNat 4 (k / 2048 / 2048)
    ch := BitVec.ofNat 4 (k / 2048 / 2048 / 16) }

/-- LODGE_START: the map is rebuilt from the tags: the unit with the highest SEQ of each logical unit, volatile units and units not
reachable from a valid record freed, objects never committed gone; read counters start at 30,000 (R230, R233, R243, R245). -/
def execLodgeStart (s : State) : Out :=
  s.event fun s =>
    if s.lodge.started then s
    else
      let s0 : State := { s with lodge.objs := s.lodge.objs.keep (fun _ o => o.copies ≠ 0) }
      let live := s0.lodge.tags.filter (fun e => s0.reachable e.2)
      let best (m : Table LodgePlace) (e : Nat × UnitTag) : Table LodgePlace :=
        match m.lookup e.2.lun.toNat with
        | some p => if ((s0.lodge.tags.lookup (placeKey p)).elim 0 (·.seq.toNat)) < e.2.seq.toNat then m.insert e.2.lun.toNat (placeOf e.1) else m
        | none => m.insert e.2.lun.toNat (placeOf e.1)
      { s0 with lodge.map := live.foldl best [], lodge.started := true
                lodge.grps := s0.lodge.grps.each (fun _ g => { g with reads := 30000, sample := false }) }

/-- ONFI_ZQ_CALIBRATION: a flash channel's ZQ calibration and read training runs between operations; a CALIBRATE that asked for it
completes (R376, R377). -/
def execOnfiZqCalibration (ch : Fin 16) (s : State) : Out :=
  s.event fun s =>
    ({ s with lodge.zq := s.lodge.zq.write 0 ch.val (s.lodge.zq.read 0 ch.val + 1) }).complete (.calibrate 4 (BitVec.ofNat 12 ch.val)) .ok .none

end Sys2Proof.Machine
end

