-- ==== Sys2Proof/Machine/Update.lean ====
section
/-! DEFINITION. The update pipelines: bindings, the microprogram, staging, arrival of gradients, the working copy, clipping (R247 to
R263, R114 to R117). -/

namespace Sys2Proof

/-- The negative of a value. -/
def Val.neg : Val → Val
  | .fin d => .fin d.neg
  | .inf n => .inf (!n)
  | .nan => .nan

end Sys2Proof

namespace Sys2Proof.Machine

/-! ## Bindings and placement (Table 12.2, R248) -/

def bdS0 (r : Nat) : Nat := bits r 184 24
def bdS1 (r : Nat) : Nat := bits r 160 24
def bdS2 (r : Nat) : Nat := bits r 136 24
def bdProg (r : Nat) : Nat := bits r 132 4
def bdF1 (r : Nat) : Nat := bits r 130 2
def bdF2 (r : Nat) : Nat := bits r 128 2
def bdFp32 (r : Nat) : Bool := bitAt r 127
def bdRail (r : Nat) : Nat := bits r 126 1
def bdSr (r : Nat) : Bool := bitAt r 125
def bdSeed (r : Nat) : Nat := bits r 121 4

/-- No moment tensor. -/
def noTensor : Nat := 0xFFFFFF

/-- Patches of a binding's tensor (R248). -/
def Course.patchCount (k : Course) (bd : Nat) : Nat :=
  let r := k.tensor (bdTensor bd)
  tnRows r * tnCols r * 1024

/-- The job's module count and this module's rank; a bib without a job stands alone (R248). -/
def State.jobShape (s : State) (b : BitVec 12) : Nat × Nat :=
  match s.jobOf b with
  | some (_, j) => (j.args.members.length, j.rank.toNat)
  | none => (1, 0)

/-- The first patch a rank owns and the first it does not (R248). -/
def ownedRange (p m r : Nat) : Nat × Nat :=
  let q := ceilDiv p m
  (r * q, min p ((r + 1) * q))

/-- Bytes of a master block and of a moment block (chapter 12, "The update microprogram"). -/
def masterBlock (bd : Nat) : Nat := if bdFp32 bd then 256 else 384
def momentBlock (f : Nat) : Nat := if f = 1 then 128 else if f = 2 then 256 else 0

/-- Bytes of one patch's state in one slot. -/
def stateBytes (bd : Nat) : Nat := masterBlock bd + momentBlock (bdF1 bd) + momentBlock (bdF2 bd)

/-- The address of a state block: half, then state ordinal (R250). -/
def Course.blockVa (k : Course) (bd tensor blk : Nat) (half : Bool) (ord : Nat) : Nat :=
  let h := ceilDiv (ceilDiv (k.patchCount bd) k.members * blk) (2 ^ 21) * 2 ^ 21
  tnVa (k.tensor tensor) + half.toNat * h + ord * blk

/-- The state blocks of a patch: address and bytes of its master and its present moments. -/
def Course.stateBlocks (k : Course) (bd : Nat) (half : Bool) (ord : Nat) : List (Nat × Nat) :=
  (k.blockVa bd (bdS0 bd) (masterBlock bd) half ord, masterBlock bd)
    :: (if bdF1 bd = 0 then [] else [(k.blockVa bd (bdS1 bd) (momentBlock (bdF1 bd)) half ord, momentBlock (bdF1 bd))])
    ++ (if bdF2 bd = 0 then [] else [(k.blockVa bd (bdS2 bd) (momentBlock (bdF2 bd)) half ord, momentBlock (bdF2 bd))])

/-- The 64 elements of `n` bytes each in a block. -/
def blockElems (n : Nat) (b : List Byte) : List Nat := (List.range 64).map (fun i => leNat ((b.drop (i * n)).take n))

/-- The 64 masters of a block (R115). -/
def masterElems (fp : Bool) (b : List Byte) : List Nat :=
  if fp then blockElems 4 b
  else (List.range 64).map (fun i => leNat ((b.drop (4 * i)).take 4) * 2 ^ 16 + leNat ((b.drop (256 + 2 * i)).take 2))

/-- The block of 64 masters (R115). -/
def masterImage (fp : Bool) (m : List Nat) : List Byte :=
  if fp then m.flatMap (leBytes 4) else m.flatMap (fun x => leBytes 4 (x / 2 ^ 16)) ++ m.flatMap (fun x => leBytes 2 x)

/-- The format of a binding's masters and of a moment. -/
def masterFmt (bd : Nat) : FloatFmt := if bdFp32 bd then fp32 else master
def momentFmt (f : Nat) : FloatFmt := if f = 1 then bf16 else fp32

/-! ## The microprogram (Tables 12.3 to 12.5) -/

/-- What a lane reads: the gradient element, the master and the moments of slot A, the clip factor, the step being computed, the
constants, the master's code, formats and the rounding of MST. -/
structure LaneEnv where
  g      : BitVec 40
  s1     : BitVec 40
  s2     : BitVec 40
  clip   : BitVec 40
  step   : BitVec 48
  ks     : List Nat
  m      : Nat
  mf     : FloatFmt
  f1     : FloatFmt
  f2     : FloatFmt
  rnd    : Rnd
  deriving DecidableEq, Repr

/-- A lane: temporaries t0 to t15, new master, new moments. -/
structure LaneRun where
  t  : List (BitVec 40) := List.replicate 16 0
  m  : Nat
  o1 : Nat := 0
  o2 : Nat := 0
  deriving DecidableEq, Repr

/-- A source (Table 12.4). -/
def LaneEnv.src (e : LaneEnv) (l : LaneRun) (c : Nat) : BitVec 40 :=
  if c < 0x10 then l.t.getD c 0
  else if c = 0x10 then e.g
  else if c = 0x11 then toW40 (e.mf.ieee e.m)
  else if c = 0x12 then e.s1
  else if c = 0x13 then e.s2
  else if c = 0x14 then e.clip
  else if c = 0x15 then toW40 (.fin { m := e.step.toNat, e := 0 })
  else if c = 0x17 then toW40 (.fin { m := 1, e := 0 })
  else if 0x20 ≤ c ∧ c ≤ 0x2F then BitVec.ofNat 40 (e.ks.getD (c - 0x20) 0)
  else 0

/-- The result of an operation that writes a temporary (Table 12.5). -/
def LaneEnv.result (e : LaneEnv) (op : Nat) (a b c : BitVec 40) : BitVec 40 :=
  let nan : BitVec 40 := BitVec.ofNat 40 w40.nanCode
  match op with
  | 0x01 => toW40 ((w40Val a).add (w40Val b))
  | 0x02 => toW40 ((w40Val a).add (w40Val b).neg)
  | 0x03 => toW40 ((w40Val a).mul (w40Val b))
  | 0x04 => toW40 (((w40Val a).mul (w40Val b)).add (w40Val c))
  | 0x05 => max40 a b
  | 0x06 => min40 a b
  | 0x07 => if isNan a then nan else BitVec.ofNat 40 (a.toNat % 2 ^ 39)
  | 0x08 => if isNan a then nan else toW40 (.fin { m := (w40Rank a).sign, e := 0 })
  | 0x09 => canon40 (if isNan a then c else if 0 ≤ w40Rank a then b else c)
  | 0x0A => unary40 .recip a
  | 0x0B => unary40 .rsqrt a
  | 0x0C => unary40 .sqrt a
  | 0x0D => unary40 .exp2 a
  | 0x0E => unary40 .log2 a
  | _ => canon40 (widen (Config.bcr (canon40 a) e.step))

/-- One instruction. -/
def LaneEnv.instr (e : LaneEnv) (l : LaneRun) (w : Nat) : LaneRun :=
  let op := bits w 58 6
  let a := e.src l (bits w 48 6)
  if op = 0x10 then { l with m := (e.mf.encode e.rnd ((e.mf.ieee e.m).add (w40Val a))).1 }
  else if op = 0x11 then { l with o1 := (e.f1.encode .rne (w40Val a)).1 }
  else if op = 0x12 then { l with o2 := (e.f2.encode .rne (w40Val a)).1 }
  else { l with t := l.t.set (bits w 54 4) (e.result op a (e.src l (bits w 42 6)) (e.src l (bits w 36 6))) }

/-- The instructions of a program: the words before its first END (R250). -/
def programWords (p : List Nat) : List Nat := p.takeWhile (fun w => bits w 58 6 ≠ 0)

/-- A program runs on a lane. -/
def LaneEnv.run (e : LaneEnv) (p : List Nat) : LaneRun := (programWords p).foldl e.instr { m := e.m }

/-! ## Registers and lanes of a pipeline -/

/-- UPD_SLOT of a course slot. -/
def State.updSlot (s : State) (c : Nat) : UpdSlot := s.upd.slots.read {} c

/-- UPD_SLOT of a course slot is written. -/
def State.setUpdSlot (s : State) (c : Nat) (u : UpdSlot) : State := { s with upd.slots := s.upd.slots.write {} c u }

/-- Lane groups in use of a pipeline, in arrival order. -/
def State.lanesOf (s : State) (pipe : Nat) : List LanePatch := s.upd.lanes.read [] pipe

/-- Lane groups of a pipeline are written. -/
def State.setLanes (s : State) (pipe : Nat) (l : List LanePatch) : State := { s with upd.lanes := s.upd.lanes.write [] pipe l }

/-- Patches of a slot updated in the step. -/
def State.updated (s : State) (c : Nat) : List (Nat × Nat) := s.upd.map.read [] c

/-- Patches staged at a pipeline. -/
def State.stagedAt (s : State) (pipe : Nat) : List (BitVec 8 × Nat × Nat) := s.upd.staged.read [] pipe

/-- The clip factor that a program reads (Table 12.9). -/
def UpdSlot.factor (u : UpdSlot) : BitVec 40 := if u.clipEn then widen u.clip else widen 0x3F800000

/-- The elements of a patch: row-major within the patch, as indices of the tile's 256 × 256 elements (R75). -/
def patchElem (p i : Nat) : Nat := (p % 1024 / 32 * 8 + i / 8) * 256 + p % 32 * 8 + i % 8

/-- The state blocks of a patch as slot A holds them: masters and moments. -/
def State.readState (s : State) (k : Course) (bd : Nat) (half : Bool) (ord : Nat) : List Nat × List Nat × List Nat :=
  let at_ (t blk : Nat) : List Byte := if blk = 0 then [] else s.vaRead k.bib (k.blockVa bd t blk half ord) blk
  (masterElems (bdFp32 bd) (at_ (bdS0 bd) (masterBlock bd)), blockElems (momentBlock (bdF1 bd) / 64) (at_ (bdS1 bd) (momentBlock (bdF1 bd))),
    blockElems (momentBlock (bdF2 bd) / 64) (at_ (bdS2 bd) (momentBlock (bdF2 bd))))

/-- The lanes of a patch after its program: element i of gradient and state on lane i (R247, R116). -/
def State.runLanes (s : State) (k : Course) (c bd : Nat) (patch : Nat) (grad : List (BitVec 40)) (st : List Nat × List Nat × List Nat) : List LaneRun :=
  let u := s.updSlot c
  let step := u.step + 1
  let moment (f : Nat) (x : Nat) : BitVec 40 := toW40 ((momentFmt f).ieee x)
  (List.range 64).map (fun i =>
    let elem := elementIndex (k.tensor (bdTensor bd)) (patch / 1024) (patchElem patch i)
    let rnd : Rnd := if bdSr bd then
      .sr (rand32 (s.seed k.bib (bdSeed bd)) (BitVec.ofNat 32 (bdS0 bd)) (BitVec.ofNat 40 elem) (step.setWidth 32)) else .rne
    let e : LaneEnv := { g := grad.getD i 0, s1 := moment (bdF1 bd) (st.2.1.getD i 0), s2 := moment (bdF2 bd) (st.2.2.getD i 0)
                         clip := u.factor, step := step, ks := k.consts.getD (bdProg bd) [], m := st.1.getD i 0, mf := masterFmt bd
                         f1 := momentFmt (bdF1 bd), f2 := momentFmt (bdF2 bd), rnd := rnd }
    e.run (k.progs.getD (bdProg bd) []))

/-- State of one patch read from slot A counts, on the other rail's port as hub-to-hub bytes too (R249, R263). -/
def State.countState (s : State) (pipe c bd : Nat) : State :=
  let t := s.count 0x0A02 c (stateBytes bd)
  if pipe / 6 = bdRail bd then t else t.count 0x0A04 c (stateBytes bd)

/-! ## Staging and arrival (R255, R257, R261, R262) -/

/-- STATE_STAGE_READ: a pipeline reads a patch's state blocks from slot A ahead of its arrival, up to 96 patches (R255). -/
def execStateStageRead (pipe : Fin 12) (slot : BitVec 8) (binding : BitVec 12) (patch : BitVec 40) (s : State) : Out :=
  s.event fun s =>
    let c := slot.toNat
    match s.course c with
    | some k =>
      let e := (slot, binding.toNat, patch.toNat)
      let bd := k.binds.getD binding.toNat 0
      let (lo, hi) := ownedRange (k.patchCount bd) (s.jobShape k.bib).1 (s.jobShape k.bib).2
      if k.binds.length ≤ binding.toNat ∨ patch.toNat < lo ∨ hi ≤ patch.toNat ∨ 96 ≤ (s.stagedAt pipe.val).length
          ∨ (s.stagedAt pipe.val).contains e ∨ (s.updated c).contains e.2 then s
      else
        let t : State := { s with upd.staged := s.upd.staged.write [] pipe.val (s.stagedAt pipe.val ++ [e]) }
        t.countState pipe.val c bd
    | none => s

/-- Squares of a patch's gradient enter the norm accumulator: each rounded once to FP32 and added exactly (R262). A square that is not
finite leaves the accumulator open: a free value, which depends on the accumulator and the gradient alone. -/
def State.addNorm (s : State) (pipe c : Nat) (grad : List (BitVec 40)) : State :=
  let key := c * 12 + pipe
  let sq := grad.map (fun g => fp32.encode .rne ((w40Val g).mul (w40Val g)))
  if sq.any (·.2) then { s with upd.norm := s.upd.norm.write 0 key (Config.dataFree 320 (s.upd.norm.read 0 key :: grad.map BitVec.toNat)).toNat }
  else
    let n := (sq.map (fun e => ((fp32.mag e.1).shift 149).m.toNat * 2 ^ ((fp32.mag e.1).e + 149).toNat)).sum
    { s with upd.norm := s.upd.norm.write 0 key ((s.upd.norm.read 0 key + n) % 2 ^ 320) }

/-- The number of a patch of a slot's binding among the delivered gradient patches. -/
def chunkKey (c binding patch : Nat) : Nat := (c * 4096 + binding) * 2 ^ 40 + patch

/-- GRADIENT_PATCH_ARRIVAL: the fully reduced gradient of a patch arrives at the pipeline behind a port. A patch this module does not
own is not its home's; a patch whose reduction is delivered here brings that sum, at the pipeline behind the port it came by (R17); one already updated is an add out of order; the first of a step waits for CLIP_ARMED; a free lane group
takes it and runs the program, or copies the state of a frozen binding. State not staged is read first (R248, R255, R257,
R261, R262). -/
def execGradientPatchArrival (pipe : Fin 12) (slot : BitVec 8) (binding : BitVec 12) (patch : BitVec 40) (grad : List (BitVec 40)) (s : State) : Out :=
  s.event fun s =>
    let c := slot.toNat
    match s.course c, s.domain c with
    | some k, some _ =>
      let b := binding.toNat
      let p := patch.toNat
      let u := s.updSlot c
      if k.binds.length ≤ b ∨ s.held c then s
      else
        let bd := k.binds.getD b 0
        let (lo, hi) := ownedRange (k.patchCount bd) (s.jobShape k.bib).1 (s.jobShape k.bib).2
        let key := chunkKey c b p
        if p < lo ∨ hi ≤ p then s.violate c .notHome 0 0 (BitVec.ofNat 128 (b + p * 2 ^ 12))
        else if (s.sl.chunks.lookup key).any (fun v => v.1 ≠ pipe.val || v.2 ≠ grad) then s
        else if (s.updated c).contains (b, p) ∨ s.upd.lanes.any (fun _ l => l.any (fun x => x.slot = slot && x.binding = b && x.patch = p)) then
          s.violate c .fault 0 0 (BitVec.ofNat 128 (b + p * 2 ^ 12))
        else if (u.clipEn && !u.clipArmed) || 8 ≤ (s.lanesOf pipe.val).length then s
        else
          let e := (slot, b, p)
          let s1 := if (s.stagedAt pipe.val).contains e
            then { s with upd.staged := s.upd.staged.write [] pipe.val ((s.stagedAt pipe.val).erase e) }
            else (s.count 0x0A05 c 1).countState pipe.val c bd
          let st := s.readState k bd u.curState (p - lo)
          let s1' : State := { s1 with sl.chunks := s1.sl.chunks.remove key }
          let s2 := s1'.setUpdSlot c { s1'.updSlot c with phase := 1 }
          if (s.upd.freeze.read [] c).getD b false then
            (s2.count 0x0A01 c 1).setLanes pipe.val (s2.lanesOf pipe.val ++
              [{ slot := slot, binding := b, patch := p, master := st.1, s1 := st.2.1, s2 := st.2.2, frozen := true }])
          else
            let r := s.runLanes k c bd p grad st
            let s3 := if u.clipEn then s2.addNorm pipe.val c grad else s2
            s3.setLanes pipe.val (s3.lanesOf pipe.val ++
              [{ slot := slot, binding := b, patch := p, master := r.map (·.m), s1 := r.map (·.o1), s2 := r.map (·.o2), frozen := false }])
    | _, _ => s

/-! ## The working copy (R117, R260) -/

/-- Whether every master of a patch rounds within the working format at scale P (R117). -/
def fitsAt (f : Fmt) (m : List Val) (p : Nat) : Bool :=
  m.all (fun v => let (c, bad) := drainEncode f p v; !bad && !(f = .int8 && c = 128))

/-- The working-copy patch of 64 masters: its codes and the tight scale, or P = 0xFF with zero bits when a master is not finite
(R117). -/
def tightPatch (f : Fmt) (m : List Val) : List Nat × BitVec 8 :=
  if m.any Val.bad then (List.replicate 64 0, 0xFF)
  else
    let p := ((List.range 255).find? (fitsAt f m)).getD 254
    (m.map (fun v => (drainEncode f p v).1), BitVec.ofNat 8 p)

/-- The working format of a binding. -/
def Course.workFmt (k : Course) (bd : Nat) : Fmt := (fmtOf (tnFmt (k.tensor (bdTensor bd)))).getD .e4m3

/-- The ordinal of a patch among those of a course's bindings, in table order (R111; log entry 39). -/
def Course.patchOrdinal (k : Course) (binding patch : Nat) : Nat := ((k.binds.take binding).map k.patchCount).sum + patch

/-- The sweep's conversion check for weights, at a patch's emission: the masters against the codes written (R110, R117), a sample of the
oldest step that is not decided. -/
def State.checkWeights (s : State) (k : Course) (c group binding patch : Nat) (f : Fmt) (p : BitVec 8) (m : List Val) (codes : List Nat) : State :=
  let a := (m.zip codes).foldl (fun (a : PatchAcc) e => a.enter e.1 (elemVal f e.2 p.toNat) false) {}
  s.check c group false ((s.domain c).elim 0 (fun d => d.tokenNo - d.tokens)) (k.patchOrdinal binding patch) ((s.stepCount c).setWidth 32) a

/-- UPDATE_PROGRAM_END: the oldest patch whose program runs ends it; its working-copy patch is formed from the masters in the
lanes (R117, R259), and checked by the sweep. DESIGN CHOICE (log entry 54): `group` is the scale group whose sweep takes the check, which
no record of the course names. -/
def execUpdateProgramEnd (pipe : Fin 12) (group : BitVec 15) (s : State) : Out :=
  s.event fun s =>
    let l := s.lanesOf pipe.val
    match l.find? (fun x => !x.ended) with
    | some x =>
      match s.course x.slot.toNat with
      | some k =>
        let bd := k.binds.getD x.binding 0
        let m := x.master.map (masterFmt bd).ieee
        let (wc, p) := tightPatch (k.workFmt bd) m
        (s.checkWeights k x.slot.toNat group.toNat x.binding x.patch (k.workFmt bd) p m wc).setLanes pipe.val (l.map (fun y => if y = x then { x with wc := wc, wcScale := p, ended := true } else y))
      | none => s
    | none => s

/-- A patch of 64 codes with its scale is written into the writing buffer's tile (R256, R260). -/
def State.writePatch (s : State) (home : HomeAddr) (f : Fmt) (p : Nat) (codes : List Nat) (scale : BitVec 8) : State :=
  let key := homeKey home
  let t := s.each codes.zipIdx (fun t e => t.setElem key f (patchElem p e.2 / 256) (patchElem p e.2 % 256) e.1)
  if hasScale f then t.setByte (key + p % 1024) scale else t

/-- The tile of the writing buffer that holds a patch: WC1 while CUR_WC names TENSOR, else TENSOR (R256). -/
def State.writingTile (s : State) (c : Nat) (k : Course) (bd p : Nat) : TileId :=
  tileOf k.bib (if (s.updSlot c).curWc then bdTensor bd else bdWc1 bd) (p / 1024)

/-- The patch is complete in the writing buffer. -/
def State.emit (s : State) (c b p : Nat) : State :=
  { s with upd.emitted := s.upd.emitted.insert c ((b, p) :: (s.upd.emitted.read [] c)) }

/-- PIN of a half (Table 12.9). -/
def UpdSlot.pin (u : UpdSlot) (half : Bool) : BitVec 4 := if half then u.pin1 else u.pin0

/-- The member next to this one in a direction of the job's logical torus. -/
def Job.neighbour (j : Job) (dim : Nat) (minus : Bool) : BitVec 11 :=
  let d (i : Nat) : Int := if i = dim then (if minus then -1 else 1) else 0
  mirrorModule j { tensor := 0, ox := d 0, oy := d 1, oz := d 2, rail := false, act := 0 }

/-- A collective patch goes on by the ports of its plan: KIND 3 to the next member (R286). -/
def State.sendChunk (s : State) (j : Job) (b : BitVec 12) (data : List Byte) (onward : List (Fin 12)) : State :=
  { s with sl.outgoing := s.sl.outgoing ++ onward.map (fun p =>
      { bib := b, act := 3, dst := j.neighbour (p.val % 6 / 2) (p.val % 2 = 1), rail := p.val / 6 = 1, va := 0, data := data }) }

/-- The bytes of a working-copy patch and its scale, as the all-gather carries them (R260). -/
def gatherImage (f : Fmt) (codes : List Nat) (scale : BitVec 8) : List Byte :=
  leBytes (8 * elemBits f) (codes.zipIdx.map (fun e => e.1 % 2 ^ elemBits f * 2 ^ (elemBits f * e.2))).sum ++ [scale]

/-- SLOT_B_COMMIT: the state blocks of the oldest ended patch are committed in slot B and its working-copy patch in the writing
buffer; a pinned half or a moving tile makes it wait (R256 to R260). The patch enters the update map and goes to the all-gather by the
ports of its plan. -/
def execSlotBCommit (pipe : Fin 12) (onward : List (Fin 12)) (s : State) : Out :=
  s.event fun s =>
    match (s.lanesOf pipe.val).find? (fun x => x.ended) with
    | none => s
    | some x =>
      let c := x.slot.toNat
      match s.course c with
      | none => s
      | some k =>
        let bd := k.binds.getD x.binding 0
        let u := s.updSlot c
        let tile := s.writingTile c k bd x.patch
        if u.pin (!u.curState) ≠ 0 then s
        else match s.tileHdr tile with
          | none => s.violate c .bounds 0 0 (BitVec.ofNat 128 x.patch)
          | some h =>
            if h.state = 1 then s
            else match checkTile h tile (tnFmt (k.tensor (bdTensor bd))) h.home with
              | .violation st => s.violate c st 0 0 (BitVec.ofNat 128 x.patch)
              | .lost => s.notifyLost tile
              | _ =>
                let lo := (ownedRange (k.patchCount bd) (s.jobShape k.bib).1 (s.jobShape k.bib).2).1
                let images := [masterImage (bdFp32 bd) x.master] ++ (if bdF1 bd = 0 then [] else [x.s1.flatMap (leBytes (momentBlock (bdF1 bd) / 64))])
                  ++ (if bdF2 bd = 0 then [] else [x.s2.flatMap (leBytes (momentBlock (bdF2 bd) / 64))])
                let blocks := (k.stateBlocks bd (!u.curState) (x.patch - lo)).zip images
                match blocks.findSome? (fun e => s.vaFault k.bib e.1.1 e.1.2 true) with
                | some (.fail st) => s.violate c st 0 0 (BitVec.ofNat 128 x.patch)
                | some _ => s
                | none =>
                  let bad := (x.master.filter (fun m => ((masterFmt bd).ieee m).bad)).length
                    + (if bdF1 bd = 0 then 0 else (x.s1.filter (fun m => ((momentFmt (bdF1 bd)).ieee m).bad)).length)
                    + (if bdF2 bd = 0 then 0 else (x.s2.filter (fun m => ((momentFmt (bdF2 bd)).ieee m).bad)).length)
                  let s1 := s.each blocks (fun t e => t.vaWrite k.bib e.1.1 e.2)
                  let s2 := (s1.writePatch h.home (k.workFmt bd) x.patch x.wc x.wcScale).emit c x.binding x.patch
                  let s3 : State := { s2.setLanes pipe.val ((s2.lanesOf pipe.val).erase x) with
                    upd.map := s2.upd.map.insert c ((x.binding, x.patch) :: s2.updated c) }
                  let s4 := s3.setUpdSlot c { s3.updSlot c with updated := (s3.updSlot c).updated + 1 }
                  let s5 := ((s4.count 0x0A00 c 1).countState pipe.val c bd).count 0x0A03 c 65
                  let s6 := (if bad = 0 then s5 else s5.count 0x0A08 c bad).flagStep x.slot (32 + pipe.val) (bad ≠ 0)
                  match s6.jobOf k.bib with
                  | some (_, jb) => s6.sendChunk jb k.bib (gatherImage (k.workFmt bd) x.wc x.wcScale) onward
                  | none => s6

/-! ## Clipping (R262) -/

/-- CLIP, CLIP_EN and CLIP_ARMED of a course slot are written; a slot with no course has no register of the pipelines (R256). -/
def State.writeClip (s : State) (c : Nat) (clip : BitVec 32) (en armed : Bool) : State :=
  if (s.course c).isSome then s.setUpdSlot c { s.updSlot c with clip := clip, clipEn := en, clipArmed := armed } else s

/-- CLIP_WRITE: Zilunzor writes CLIP and sets CLIP_ARMED, as before a run's first segment. -/
def execClipWrite (slot : BitVec 8) (clip : BitVec 32) (s : State) : Out :=
  s.event fun s => s.writeClip slot.toNat clip (s.updSlot slot.toNat).clipEn true

/-- CLIP_ARM: Zilunzor has exchanged the module sums it took at the step-end token; it writes the CLIP formed from them and arms it. -/
def execClipArm (slot : BitVec 8) (clip : BitVec 32) (s : State) : Out :=
  s.event fun s =>
    let c := slot.toNat
    if s.upd.sums.has c then
      ({ s with upd.sums := s.upd.sums.remove c }).setUpdSlot c { s.updSlot c with clip := clip, clipArmed := true }
    else s

end Sys2Proof.Machine
end

