-- ==== Sys2Proof/Machine/Secure.lean ====
section
/-! DEFINITION. The audit balances, securing, recovery, the spread path (R317 to R334). -/

namespace Sys2Proof.Machine

/-! ## Audit (R333, Table 15.7) -/

/-- The difference of an SL port: receive slots held by the peer as credits, occupied, and on their way back, less 1,024. -/
def SlPort.imbalance (p : SlPort) : Int := ((p.given + p.rxVc.sum + (p.owed.map (fun e => e.2.toNat)).sum : Nat) : Int) - 1024

/-- The difference of a gate: signals counted less those that completions, counts and resets account for. -/
def Gate.imbalance (g : Gate) : Int :=
  (g.counted : Int) - (g.target.toNat * g.done + g.count.toNat + g.next.toNat + g.dropped : Nat)

/-- Moves of a mover whose tile's header says that it moves. -/
def State.movingBy (s : State) (m : Nat) : Nat :=
  (s.mem.moves.filter (fun e => e.2.mover = m && (s.mem.hdrs.lookup e.2.tile).any (fun h => h.state = 1))).length

/-- What is left of an account. -/
def gap (a b : Nat) : Int := (a : Int) - b

/-- The balances that do not hold: number, WHERE, difference. -/
def State.audits (s : State) : List (Nat × Nat × Int) :=
  let b0 := s.sl.ports.map (fun e => (0, e.1, e.2.imbalance))
  let b1 := (List.range 5).map (fun t => (1, t, s.slotGap t))
  let b2 := s.crs.gates.map (fun e => (2, e.1, e.2.imbalance))
  let b3 := (List.range 4).map (fun d => (3, d, gap (s.lkr.reserved.read 0 d) (s.lkr.returned.read 0 d + s.lkr.keepRsv.read 0 d + s.lkr.workRsv.read 0 d)))
  let used (c : Nat) : Nat := (s.strmsOf c).length
  let b4 := [(4, 0, (((s.lift.strm.map (fun e => e.2.slot.toNat)).eraseDups.map (fun c => used c - s.lift.reserved.read 0 c)).sum : Int))]
  let b5 := (List.range 16).map (fun m => (5, m, gap (s.mem.begun.read 0 m) (s.mem.ended.read 0 m + s.movingBy m)))
  let b6 := s.upd.slots.map (fun e => (6, e.1, gap (s.updated e.1).length e.2.updated.toNat))
  (b0 ++ b1 ++ b2 ++ b3 ++ b4 ++ b5 ++ b6).filter (fun x => x.2.2 ≠ 0)

/-- AUDIT_CHECK: each balance that does not hold is recorded; the module then stops and is a lost member (R333). -/
def State.auditCheck (s : State) : State :=
  let l := s.audits
  if l = [] then s
  else
    let t := s.each l (fun t x =>
      ({ t with sec.audit := { failed := t.sec.audit.failed ||| BitVec.ofNat 7 (2 ^ x.1), last := BitVec.ofNat 3 x.1
                               diff := BitVec.ofInt 32 x.2.2, at_ := BitVec.ofNat 15 x.2.1 } }).raise
        { arg := .conservation (BitVec.ofNat 3 x.1) (BitVec.ofNat 15 x.2.1) (BitVec.ofInt 32 x.2.2) })
    t.stopModule

/-! ## Secured copies (R319, R320, R324) -/

/-- The slot and course of a bib that trains: KIND 0. -/
def State.trainSlot (s : State) (b : BitVec 12) : Option (Nat × Course) := s.crs.courses.find? (fun e => e.2.bib = b && chKind e.2.hdr = 0)

/-- The owned patches of a course: binding and patch. -/
def State.ownedPatches (s : State) (k : Course) : List (Nat × Nat) :=
  k.binds.zipIdx.flatMap (fun e =>
    let (lo, hi) := ownedRange (k.patchCount e.1) (s.jobShape k.bib).1 (s.jobShape k.bib).2
    (List.range (hi - lo)).map (fun i => (e.2, lo + i)))

/-- The patches of every bound tensor, owned or not. -/
def Course.allPatches (k : Course) : Nat := (k.binds.map k.patchCount).sum

/-- The first patch of a binding that this module owns. -/
def State.firstOwned (s : State) (k : Course) (b : Nat) : Nat :=
  (ownedRange (k.patchCount (k.binds.getD b 0)) (s.jobShape k.bib).1 (s.jobShape k.bib).2).1

/-- What a secured copy of this module's rank holds now (Table 15.2). -/
def State.secBody (s : State) (c : Nat) (k : Course) : SecBody :=
  let u := s.updSlot c
  { slot := BitVec.ofNat 8 c
    blocks := (s.ownedPatches k).map (fun e =>
      (e.1, e.2, (k.stateBlocks (k.binds.getD e.1 0) u.curState (e.2 - s.firstOwned k e.1)).map (fun x => s.vaRead k.bib x.1 x.2)))
    scales := (s.crs.scales.filter (fun e => decide (e.1 / 16384 = k.bib.toNat))).map (fun e => (e.1 % 16384, e.2))
    seeds := s.bibs.seeds.read [] k.bib.toNat
    step := u.step, clip := u.clip, clipEn := u.clipEn
    inputSeq := (s.domain c).elim 0 (·.inputSeq) }

/-- The 16 bytes of a scale record (Table 5.1). -/
def ScaleRec.image (r : ScaleRec) : List Byte :=
  let hist := (r.hist.zipIdx.map (fun e => e.1.toNat * 2 ^ (8 * e.2))).sum
  leBytes 16 (r.clean.toNat * 2 ^ 112 + r.scale.toNat * 2 ^ 104 + r.obs.toNat * 2 ^ 96 + hist * 2 ^ 32 + r.h.toNat * 2 ^ 28
    + r.hBase.toNat * 2 ^ 24 + r.srate.toNat * 2 ^ 20 + r.sweep.toNat * 2 ^ 18 + r.policy.toNat * 2 ^ 16 + r.fmt.toNat * 2 ^ 12
    + r.nanSeen.toNat * 2 ^ 11 + r.ovr.toNat * 2 ^ 10)

/-- The 64 bytes of a step record (Table 15.3). -/
def SecBody.record (b : SecBody) (j : Job) : List Byte :=
  leBytes 64 (0x50455453 * 2 ^ 480 + 0x01 * 2 ^ 472 + j.args.jobId.toNat * 2 ^ 408 + b.step.toNat * 2 ^ 344 + j.rank.toNat * 2 ^ 333
    + (j.args.members.length - 1) * 2 ^ 322 + b.clip.toNat * 2 ^ 290 + b.clipEn.toNat * 2 ^ 289 + b.inputSeq.toNat * 2 ^ 225)

/-- The 65 bytes of a working-copy patch: 64 elements and the scale byte. -/
def State.wcPatch (s : State) (c : Nat) (k : Course) (e : Nat × Nat) : List Byte :=
  let bd := k.binds.getD e.1 0
  match s.tileHdr (tileOf k.bib (s.resolve c k (bdTensor bd)) (e.2 / 1024)) with
  | some h =>
    let f := k.workFmt bd
    (List.range 64).map (fun i => BitVec.ofNat 8 (s.elemAt (homeKey h.home) f (patchElem e.2 i / 256) (patchElem e.2 i % 256)))
      ++ [s.byte (homeKey h.home + e.2 % 1024)]
  | none => []

/-- The extents of a checkpoint in the order of their kinds (Table 15.2). -/
def State.checkpointBytes (s : State) (c : Nat) (k : Course) (j : Job) (b : SecBody) : List Byte :=
  b.blocks.flatMap (fun e => e.2.2.flatten) ++ (s.ownedPatches k).flatMap (s.wcPatch c k) ++ b.scales.flatMap (fun e => e.2.image)
    ++ b.record j ++ b.seeds.flatMap (fun x => leBytes 8 x.toNat)

/-- A copy is held: of each rank and kind the two newest complete ones, and none released that R324 keeps. -/
def State.holdCopy (s : State) (keep : Option (BitVec 64)) (x : SecCopy) : State :=
  let same (y : SecCopy) : Bool := y.job = x.job && y.rank = x.rank && y.kind = x.kind
  let l := s.sec.copies.filter (fun y => !(same y && y.step = x.step)) ++ [x]
  let newest := ((l.filter (fun y => same y && y.done)).mergeSort (fun a b => decide (b.step.toNat ≤ a.step.toNat))).take 2
  let kept (y : SecCopy) : Bool := !(same y) || !y.done || newest.contains y || keep.any (fun k => decide (y.step.toNat ≤ k.toNat))
  { s with sec.copies := l.filter kept }

/-- PIN of a half changes. -/
def UpdSlot.pinBy (u : UpdSlot) (half up : Bool) : UpdSlot :=
  let d (x : BitVec 4) : BitVec 4 := if up then x + 1 else x - 1
  if half then { u with pin1 := d u.pin1 } else { u with pin0 := d u.pin0 }

/-- SECURING_START: the local copy begins and pins slot A; at a lodge securing the checkpoint is committed as well and the
intervals are computed again (R320, R322). -/
def State.startSecuring (s : State) (j : Nat) (job : Job) (c : Nat) (k : Course) (lodge : Bool) : State :=
  let u := s.updSlot c
  let step : BitVec 64 := u.step.setWidth 64
  let b := s.secBody c k
  let x : SecCopy := { job := job.args.jobId, rank := job.rank, step := step, kind := 0, done := false, body := some b }
  let s1 := (s.holdCopy (s.secStat j).keep x).setUpdSlot c (u.pinBy u.curState true)
  if lodge && !s.lodgeReadOnly then
    let id := s.lodge.objs.foldl (fun m e => max m (e.1 + 1)) 0
    let o : LObj := { bib := k.bib, kind := 1, job := job.args.jobId, step := step, bytes := s.checkpointBytes c k job b }
    (((s1.setObject id o).beginCommit id).holdCopy (s.secStat j).keep { x with kind := 2 }).newIntervals j job
  else s1

/-- BUDDY_COPY_COMPLETE: a copy's step record commits. The local copy's end releases the pin; a copy of this rank at its buddy or in
its lodge restarts its age; a copy of another rank is held here (R258, R320). The first securing after a resume ends R324. -/
def execBuddyCopyComplete (job : BitVec 8) (rank : BitVec 11) (step : BitVec 64) (kind : Fin 4) (s : State) : Out :=
  s.event fun s =>
    let j := job.toNat
    match s.sl.jobs.lookup j with
    | none => s
    | some jb =>
      let st := s.secStat j
      let own := rank = jb.rank
      let begun := s.sec.copies.find? (fun y => y.job = jb.args.jobId && y.rank = rank && y.step = step && y.kind = kind.val && !y.done)
      let age : BitVec 32 := match s.trainSlot jb.args.bib with
        | some (c, _) => BitVec.ofNat 32 ((s.updSlot c).step.toNat - step.toNat)
        | none => 0
      if own && (kind = 0 || kind = 2) then
        match begun with
        | none => s
        | some x =>
          let s1 := s.holdCopy st.keep { x with done := true }
          let s2 := if kind = 0 then
              (match x.body, s.trainSlot jb.args.bib with
              | some b, some (c, _) =>
                let u := s1.updSlot c
                s1.setUpdSlot c (u.pinBy (if (u.step.toNat - b.step.toNat) % 2 = 0 then u.curState else !u.curState) false)
              | _, _ => s1)
            else s1
          let done := kind = 0 && !st.after && st.keep.any (fun k => decide (k.toNat < step.toNat))
          let s3 := s2.setSecStat j { s2.secStat j with lodgeAge := if kind = 2 then age else st.lodgeAge, keep := if done then none else st.keep }
          if done then s3.holdCopy none { x with done := true } else s3
      else if own && kind = 1 then s.setSecStat j { st with buddyAge := age }
      else if own then s
      else s.holdCopy st.keep { job := jb.args.jobId, rank := rank, step := step, kind := kind.val, done := true }

/-! ## Restarting a job (R317, R324, R326) -/

/-- The update maps, staged state and lane groups of a slot are as at a step start. -/
def State.clearUpdate (s : State) (c : Nat) : State :=
  let mine (x : BitVec 8) : Bool := x.toNat = c
  let t : State := { s with
    upd.map := s.upd.map.remove c
    upd.emitted := s.upd.emitted.remove c
    upd.staged := s.upd.staged.each (fun _ l => l.filter (fun e => !mine e.1))
    upd.lanes := s.upd.lanes.each (fun _ l => l.filter (fun e => !mine e.slot))
    upd.nonfin := s.upd.nonfin.filter (fun x => !mine x.1) }
  t.setUpdSlot c { t.updSlot c with updated := 0, phase := 0 }

/-- The suspended run of a slot asks again for its stations; it restarts at the step after its last committed one. -/
def State.requeue (s : State) (c : Nat) : State :=
  match s.domain c with
  | some d =>
    let t := s.dropRun c
    let d' : Domain := { bib := d.bib, steps := d.steps, stepsDone := d.stepsDone, inputSeq := d.inputSeq, skips := d.skips, runHdr := d.runHdr }
    { t.setDomain c d' with crs.requests := t.crs.requests ++
        [{ slot := BitVec.ofNat 8 c, bib := d.bib, prio := (s.bib d.bib).args.prio, waited := false }] }
  | none => s

/-- The slots with a domain of a bib. -/
def State.domainsOf (s : State) (b : BitVec 12) : List Nat := (s.crs.domains.filter (fun e => e.2.bib = b)).map (·.1)

/-- A suspended bib is admitted again and its runs restart at a step start: streams, gates, locker and update maps reset (R293, R329). -/
def State.resumeBib (s : State) (b : BitVec 12) : State :=
  let t := s.each (s.domainsOf b) (fun t c => ((t.cancelStreams c).clearUpdate c).requeue c)
  t.setBib b { t.bib b with state := .admitted, why := .ok }

/-- The slot's committed state becomes that of a secured copy: slot A's blocks, scale records, seeds, step count and clip (R319). -/
def State.restore (s : State) (k : Course) (b : SecBody) : State :=
  let c := b.slot.toNat
  let owned := s.ownedPatches k
  let half := (s.updSlot c).curState
  let s1 := s.each (b.blocks.filter (fun e => owned.contains (e.1, e.2.1))) (fun t e =>
    let at_ := k.stateBlocks (k.binds.getD e.1 0) half (e.2.1 - s.firstOwned k e.1)
    t.each (at_.zip e.2.2) (fun u x => u.vaWrite k.bib x.1.1 x.2))
  let s2 : State := { s1 with
    crs.scales := b.scales.foldl (fun t e => t.insert (groupKey k.bib e.1) e.2) (s1.crs.scales.keep (fun g _ => g / 16384 ≠ k.bib.toNat))
    bibs.seeds := s1.bibs.seeds.insert k.bib.toNat b.seeds }
  let s3 := s2.setUpdSlot c { s2.updSlot c with step := b.step, clip := b.clip, clipEn := b.clipEn, clipArmed := true }
  match s3.domain c with
  | some d => s3.setDomain c { d with inputSeq := b.inputSeq, stepsDone := d.stepsDone - ((s.updSlot c).step.toNat - b.step.toNat) }
  | none => s3

/-- The working copy of the owned patches is formed again from the masters of slot A (R117, F9 of Table 15.5). -/
def State.reemit (s : State) (c : Nat) (k : Course) : State :=
  s.each (s.ownedPatches k) (fun t e =>
    let bd := k.binds.getD e.1 0
    match t.tileHdr (tileOf k.bib (t.resolve c k (bdTensor bd)) (e.2 / 1024)) with
    | some h =>
      let st := t.readState k bd (t.updSlot c).curState (e.2 - t.firstOwned k e.1)
      let (wc, p) := tightPatch (k.workFmt bd) (st.1.map (masterFmt bd).ieee)
      t.writePatch h.home (k.workFmt bd) e.2 wc p
    | none => t)

/-- A FW_ACTIVATE that waited for the end of recovery runs (R356). -/
def State.wakeUpdate (s : State) : State :=
  if s.cmd.waiting.any (fun e => decide (e.1 = .update)) && !s.updating && !s.inRecovery then s.beginUpdate else s

/-! ## Recovery (R323 to R330) -/

/-- The lowest surviving rank coordinates (R325). -/
def Job.coordinator (j : Job) (failed : List (BitVec 11)) : Bool :=
  ((List.range j.args.members.length).find? (fun r => !failed.contains (BitVec.ofNat 11 r))) = some j.rank.toNat

/-- MEMBER_LOST: F1 to F4: a member of a job is lost; the job's domains stop, and a recovery begins or takes the failure in, by Table
15.6: before F6 and while spreading the plan starts again, during filling it goes on. -/
def execMemberLost (job : BitVec 8) (rank : BitVec 11) (s : State) : Out :=
  s.event fun s =>
    let j := job.toNat
    match s.sl.jobs.lookup j with
    | some jb =>
      let st := s.secStat j
      let lostFore := st.state = 4 && st.fore.isSome && (jb.args.members[rank.toNat]?).map (·.module) = st.fore
      if jb.args.members.length ≤ rank.toNat ∨ rank = jb.rank ∨ (st.failed.contains rank ∧ !lostFore) ∨ st.state = 2 then s
      else
        let failed := if st.failed.contains rank then st.failed else st.failed ++ [rank]
        let coord := jb.coordinator failed
        let filling := st.state = 4 && 6 ≤ st.row && !lostFore
        (s.suspend jb.args.bib .fault 0).setSecStat j
          { st with failed := failed, failRank := rank, coord := coord
                    lostModule := ((jb.args.members[rank.toNat]?).map (·.module)).getD 0
                    state := if filling then 4 else 3, row := if filling then st.row else 4 }
    | none => s

/-- A job whose extent in one dimension is `n`. -/
def resizeJob (a : JobArgs) (dim n : Nat) : JobArgs :=
  match dim with
  | 0 => { a with jxm := BitVec.ofNat 4 (n - 1) }
  | 1 => { a with jym := BitVec.ofNat 4 (n - 1) }
  | _ => { a with jzm := BitVec.ofNat 3 (n - 1) }

/-- Coordinates below `c` in a mask. -/
def below (mask : BitVec 16) (c : Nat) : Nat := popcount c mask.toNat

/-- The job after the planes of a mask are removed in a dimension; `me` is this module's rank then. -/
def Job.contract (j : Job) (dim : Nat) (mask : BitVec 16) : Job :=
  let n := j.size dim - below mask (j.size dim)
  let kept := (List.range j.args.members.length).filter (fun r => !mask.getLsbD (j.coord r dim))
  let c := j.coord j.rank.toNat dim
  let a := resizeJob j.args dim n
  let a' : JobArgs := match dim with
    | 0 => { a with jxc := BitVec.ofNat 4 (c - below mask c) }
    | 1 => { a with jyc := BitVec.ofNat 4 (c - below mask c) }
    | _ => { a with jzc := BitVec.ofNat 3 (c - below mask c) }
  { j with rank := BitVec.ofNat 11 (kept.idxOf j.rank.toNat)
           args := { a' with members := kept.map (fun r => j.args.members.getD r { module := 0, bib := 0, feeds := [] }) } }

/-- Whether a course's patches hold for a job as it would be, at every station count it can be given (R174, R177). -/
def State.courseTakes (s : State) (j : Nat) (jb : Job) (k : Course) : Bool :=
  let t : State := { s with sl.jobs := s.sl.jobs.insert j jb }
  (List.range (chSDecl k.hdr)).all (fun n => t.patchesFit k (n + 1))

/-- The planes of a dimension that hold failed ranks. -/
def Job.lostPlanes (j : Job) (dim : Nat) (failed : List (BitVec 11)) : BitVec 16 :=
  maskOf 16 (failed.map (fun r => j.coord r.toNat dim))

/-- Dimensions, with the module count M, in which the course of a job cannot take the spread path (R177). -/
def State.barredSpreads (s : State) (j : Nat) (jb : Job) (failed : List (BitVec 11)) : List (Nat × Nat) :=
  match s.trainSlot jb.args.bib with
  | some (_, k) => (List.range 3).filterMap (fun d =>
      let jb' := jb.contract d (jb.lostPlanes d failed)
      if jb'.args.members = [] || s.courseTakes j jb' k then none else some (d, jb'.args.members.length))
  | none => []

/-- RECOVERY_PLAN: F5: the recovery step and the forerunner are chosen and the record replicated. With no step the job is stopped and
its bib receives ST_DATA_LOST; with no failed rank the same members restore; with no forerunner the spread path is taken (R323,
R327, R331), and what the course cannot take of it is recorded (R177). A step of which this module holds no complete copy of its own rank is not chosen here. -/
def execRecoveryPlan (job : BitVec 8) (step : Option (BitVec 64)) (fore : Option (BitVec 11)) (s : State) : Out :=
  s.event fun s =>
    let j := job.toNat
    match s.sl.jobs.lookup j with
    | some jb =>
      let st := s.secStat j
      if st.state ≠ 3 ∧ st.state ≠ 4 ∧ st.state ≠ 5 then s
      else match step with
        | none => ((s.setSecStat j { st with state := 2, step := none }).notify jb.args.bib .dataLost 0).wakeUpdate
        | some n =>
          if fore.any (fun f => !jb.args.fores.contains f) then s
          else s.setSecStat j { st with
            step := some n, fore := fore, row := 5, keep := some n, barred := s.barredSpreads j jb st.failed
            state := if st.failed = [] then 6 else if fore.isSome then 4 else 5 }
    | none => s

/-- The member table with a rank's module replaced. -/
def Job.seat (j : Job) (rank : BitVec 11) (m : BitVec 11) : Job :=
  let gone := (j.args.members[rank.toNat]?).map (·.module)
  let fore := j.args.fores.contains m
  { j with entered := (j.entered.filter (fun x => some x ≠ gone)) ++ (if fore then [m] else [])
           args := { j.args with members := j.args.members.modify rank.toNat (fun e => { e with module := m, feeds := [] })
                                 fores := j.args.fores.filter (fun f => f ≠ m) } }

/-- The own copy to restore from: live local copies first, then the lodge's checkpoints (R323). -/
def State.source (s : State) (jb : Job) (n : BitVec 64) : Option SecBody :=
  let mine (kind : Nat) : Option SecCopy := s.sec.copies.find? (fun y => y.job = jb.args.jobId && y.rank = jb.rank && y.step = n && y.done && y.kind = kind)
  match mine 0 with
  | some x => x.body
  | none => (mine 2).bind (·.body)

/-- This module's rank in a job: a forerunner that is seated takes the rank (F7). -/
def State.seatIn (s : State) (j : Nat) (jb : Job) (rank : BitVec 11) (m : BitVec 11) : State :=
  let jb' := jb.seat rank m
  let me := (s.sl.sysmap).any (fun k => decide (k.x.toNat + 16 * k.y.toNat + 256 * k.z.toNat = m.toNat))
  let x := rank.toNat % jb.size 0
  let y := rank.toNat / jb.size 0 % jb.size 1
  let z := rank.toNat / jb.size 0 / jb.size 1
  let jb2 : Job := if me then { jb' with rank := rank, args := { jb'.args with jxc := BitVec.ofNat 4 x, jyc := BitVec.ofNat 4 y, jzc := BitVec.ofNat 3 z } } else jb'
  ({ s with sl.jobs := s.sl.jobs.insert j jb2 }).rebuddy j jb2

/-- The restore of this module's own rank to the recovery step. -/
def State.restoreJob (s : State) (jb : Job) (n : BitVec 64) : State :=
  match s.trainSlot jb.args.bib, s.source jb n with
  | some (_, k), some b => s.restore k b
  | _, _ => s

/-- FORERUNNER_ENTRY_STEP: rows F6 to F9 of Table 15.5, in order: at F7 the forerunner takes the rank in the member table, at F8 the
survivors restore slot A from their copies, at F9 owners form the working copy again. A restore with the same members has the
rows F8 and F9. -/
def execForerunnerEntryStep (job : BitVec 8) (row : Fin 11) (s : State) : Out :=
  s.event fun s =>
    let j := job.toNat
    match s.sl.jobs.lookup j with
    | some jb =>
      let st := s.secStat j
      let due := if st.state = 6 ∧ st.row = 5 then 8 else st.row + 1
      if (st.state ≠ 4 ∧ st.state ≠ 6) ∨ row.val ≠ due ∨ 9 < row.val then s
      else
        let s1 := s.setSecStat j { st with row := row.val }
        match row.val, st.fore, st.step with
        | 7, some f, _ =>
          let rank := match st.swap with
            | some (r, _) => r
            | none => st.failed.headD 0
          s1.seatIn j jb rank f
        | 8, _, some n => s1.restoreJob jb n
        | 9, _, _ =>
          (match s1.trainSlot jb.args.bib with
          | some (c, k) => s1.reemit c k
          | none => s1)
        | _, _, _ => s1
    | none => s

/-- Whether a suspended bib waits for the operator: ST_AUTH, or the skip limit (R108, R318). -/
def State.waitsForOperator (s : State) (b : BitVec 12) : Bool :=
  (s.bib b).why = .auth || (s.domainsOf b).any (fun c => (s.domain c).any (fun d => decide (8 ≤ d.skips)))

/-- RECOVERY_RESUME: F10, or a resume with the members unchanged under the standing policy: the audit holds and the job resumes after
its last committed step, or after the recovery step; the third resume in a row at one step for one cause stops the job (R317,
R318, R329, R333). A bib that waits for the operator stays suspended when its job's recovery ends (R108). -/
def execRecoveryResume (job : BitVec 8) (s : State) : Out :=
  s.event fun s =>
    let j := job.toNat
    match s.sl.jobs.lookup j with
    | some jb =>
      let st := s.secStat j
      let b := jb.args.bib
      let done := (st.state = 4 && st.row = 9) || (st.state = 6 && st.row = 9) || st.state = 7
      let plain := st.state = 1 && jb.args.policy && !s.waitsForOperator b
      if (s.bib b).state ≠ .suspended ∨ !(done || plain) then s
      else
        let step := match s.trainSlot b with
          | some (c, _) => (s.updSlot c).step
          | none => 0
        let again := plain && st.resumes ≠ 0 && st.lastStep = step && st.lastWhy = (s.bib b).why
        let n := if again then st.resumes + 1 else 1
        if plain && 3 ≤ n then (s.setSecStat j { st with state := 2, resumes := n }).wakeUpdate
        else
          let left := st.failed.drop (if st.fore.isSome && st.swap.isNone then 1 else 0)
          let s0 := if done then s.auditCheck else s
          if s0.rink.failed then s0
          else if done && left ≠ [] && st.state = 4 then s.setSecStat j { st with state := 5, failed := left, fore := none }
          else
            let st' : SecStat := { st with
              state := 1, failed := [], fore := none, row := 0, swap := none, coord := false
              resumes := if plain then n else 0, lastWhy := (s.bib b).why, lastStep := step
              after := true, keep := if done then st.step else some (step.setWidth 64) }
            let s1 := (if done then s0 else s.auditCheck).setSecStat j st'
            if s1.rink.failed then s1
            else
              let s1' := if done then s1.newIntervals j jb else s1
              let s2 := (if s.waitsForOperator b then s1' else s1'.resumeBib b).wakeUpdate
              match st.state, st.fore, st.step with
              | 4, some f, some at_ =>
                let rank := match st.swap with
                  | some (r, _) => r
                  | none => st.failRank
                s2.raise { bib := b, arg := .forerunnerIn jb.args.jobId rank st.lostModule f (at_.setWidth 48) }
              | _, _, _ => s2
    | none => s

/-! ## The spread path and regrowth (R331) -/

/-- The job after planes are added in a dimension, their members taken from the reserved forerunners in rank order. -/
def Job.expand (j : Job) (dim : Nat) (mask : BitVec 16) (fores : List (BitVec 11)) : Job :=
  let n := j.size dim + popcount 16 mask.toNat
  let a := resizeJob j.args dim n
  let j1 : Job := { j with args := a }
  let total := j1.size 0 * j1.size 1 * j1.size 2
  let old (r : Nat) : Bool := !mask.getLsbD (j1.coord r dim)
  let place (r : Nat) : Member :=
    let k := ((List.range r).filter old).length
    if old r then j.args.members.getD k { module := 0, bib := 0, feeds := [] }
    else { module := fores.getD (r - k) 0, bib := j.args.bib, feeds := [] }
  let rank := ((List.range total).filter old).getD j.rank.toNat 0
  let j2 : Job := { j1 with rank := BitVec.ofNat 11 rank }
  let c := j2.coord rank dim
  let a' : JobArgs := match dim with
    | 0 => { a with jxc := BitVec.ofNat 4 c }
    | 1 => { a with jyc := BitVec.ofNat 4 c }
    | _ => { a with jzc := BitVec.ofNat 3 c }
  { j2 with args := { a' with members := (List.range total).map place, fores := a.fores.filter (fun f => !fores.contains f) } }

/-- Streams of a bib are dropped; its moves in progress complete and are freed where they stand (R311). -/
def State.dropStreams (s : State) (b : BitVec 12) : State :=
  { s with lift.strm := s.lift.strm.keep (fun _ x => x.bib ≠ b)
           mem.moves := s.mem.moves.each (fun _ m => if m.tile / 2 ^ 64 = b.toNat then { m with strm := none, ret := 0 } else m) }

/-- A scrub begins (Z1): the bib's run is cancelled, its streams dropped, its locker areas freed (R311). -/
def State.beginScrub (s : State) (b : BitVec 12) (nonce : BitVec 256) (c : Hdr) : State :=
  let slots := s.domainsOf b
  let carves := (slots.map (fun i => (s.domain i).elim 0 (fun d => d.run.length))).sum
  let t := ((s.each slots State.cancelRun).dropStreams b).freeLocker b
  let t1 := t.setBib b { t.bib b with state := .clearing }
  { t1 with bibs.scrubs := t1.bibs.scrubs.insert b.toNat { nonce := nonce, carves := carves, hdr := c } }

/-- SPREAD_PATH: the planes that hold lost ranks are removed, or planes of reserved forerunners added, ranks renumbered, the course
patched for M', the own state moved from its copy of step s; EV_SPREAD. A healthy member of a removed plane leaves the job and
its bib is scrubbed. A dimension whose M the course's patches do not fit is not taken (R177). With no dimension left the job is
stopped with ST_FAULT (R331). -/
def execSpreadPath (job : BitVec 8) (dim : Option (Fin 3)) (planes : BitVec 16) (m : BitVec 12) (s : State) : Out :=
  s.event fun s =>
    let j := job.toNat
    match s.sl.jobs.lookup j with
    | some jb =>
      let st := s.secStat j
      if st.state ≠ 5 then s
      else match dim with
        | none => ((s.setSecStat j { st with state := 2 }).notify jb.args.bib .fault 0).wakeUpdate
        | some d =>
          let grow := st.regrow ≠ []
          let lostIn := st.failed.all (fun r => planes.getLsbD (jb.coord r.toNat d.val))
          let jb' := if grow then jb.expand d.val planes st.regrow else jb.contract d.val planes
          let takes := match s.trainSlot jb.args.bib with
            | some (_, k) => s.courseTakes j jb' k
            | none => true
          if !(grow || lostIn) || planes = 0 || jb'.args.members.length ≠ m.toNat || m = 0 || !takes then s
          else
            let e : Event := { bib := jb.args.bib, arg := .spread jb.args.jobId (BitVec.ofNat 2 d.val) planes (m.setWidth 11 - 1) }
            if !grow && planes.getLsbD (jb.coord jb.rank.toNat d.val) then
              let s1 := (s.raise e).beginScrub jb.args.bib 0 {}
              { s1 with sl.jobs := s1.sl.jobs.remove j, sec.stats := s1.sec.stats.remove j
                        bibs.linkKeys := s1.bibs.linkKeys.keep (fun i _ => i / 2 ≠ j) }
            else
              let s1 : State := { s.raise e with sl.jobs := s.sl.jobs.insert j jb' }
              let s2 := match s1.trainSlot jb.args.bib with
                | some (c, k) => s1.setCourse c (s1.patched k ((s1.domain c).elim (chSDecl k.hdr) (·.s)))
                | none => s1
              let s3 := match st.step, s2.trainSlot jb.args.bib with
                | some n, some (_, k) =>
                  (match s.source jb n with
                  | some b => s2.restore k b
                  | none => s2)
                | _, _ => s2
              let s4 := match s3.trainSlot jb.args.bib with
                | some (c, k) => s3.reemit c k
                | none => s3
              (s4.setSecStat j { st with state := 7, regrow := [], failed := [] }).rebuddy j jb'
    | none => s

/-! ## Orders of the operator (R320, R322, R330, R331) -/

/-- The job that a command names. -/
def State.jobNamed (s : State) (c : Hdr) : Option (Nat × Job) := s.sl.jobs.find? (fun e => e.2.args.jobId = c.jobId)

/-- SECURE: a lodge checkpoint at the next committed step, or fixed intervals; FORCE keeps N_l at N_b (R320, R322, R243). -/
def execSecure (c : Hdr) (setIntervals : Bool) (nb : BitVec 13) (nl : BitVec 22) (s : State) : Out :=
  s.command 0x0303 c fun s c =>
    match s.jobNamed c with
    | none => s.reply c .bounds
    | some (j, jb) =>
      let st := s.secStat j
      if setIntervals then
        (if nb = 0 ∨ 4096 < nb.toNat ∨ nl = 0 then s.reply c .bounds
        else
        let nl' := if jb.args.force then nb.setWidth 22 else nl
        let jb' : Job := { jb with args := { jb.args with fixedNb := some nb, fixedNl := some nl } }
        (({ s with sl.jobs := s.sl.jobs.insert j jb' }).setSecStat j { st with nb := nb, nl := nl' }).reply c .ok)
      else if s.lodgeReadOnly then s.reply c .fault
      else (s.setSecStat j { st with secureNow := true }).defer c (.secure c.jobId)

/-- SWAP: at the next committed step the rank of an entered forerunner goes to the repaired module (R330). -/
def execSwap (c : Hdr) (rank : BitVec 11) (module : BitVec 11) (s : State) : Out :=
  s.command 0x0304 c fun s c =>
    match s.jobNamed c with
    | none => s.reply c .bounds
    | some (j, jb) =>
      let st := s.secStat j
      if jb.args.members.length ≤ rank.toNat then s.reply c .bounds
      else if st.state ≠ 1 ∨ st.swap.isSome ∨ st.regrow ≠ [] then s.reply c .busy
      else (s.setSecStat j { st with swap := some (rank, module) }).reply c .ok

/-- REGROW: at the next committed step the job grows onto reserved forerunners (R331). -/
def execRegrow (c : Hdr) (fores : List (BitVec 11)) (s : State) : Out :=
  s.command 0x0305 c fun s c =>
    match s.jobNamed c with
    | none => s.reply c .bounds
    | some (j, jb) =>
      let st := s.secStat j
      if fores = [] ∨ !fores.all (fun f => jb.args.fores.contains f) then s.reply c .bounds
      else if st.state ≠ 1 ∨ st.swap.isSome ∨ st.regrow ≠ [] then s.reply c .busy
      else (s.setSecStat j { st with regrow := fores }).reply c .ok

/-- A swap or a regrowth that waits begins at a committed boundary: the job's domains stop and F5 follows with s = n (R330, R331). -/
def State.startOrder (s : State) (j : Nat) (jb : Job) (n : BitVec 48) : State :=
  let st := s.secStat j
  match st.swap, st.regrow with
  | some (rank, m), _ =>
    let old := ((jb.args.members[rank.toNat]?).map (·.module)).getD 0
    let jb' : Job := { jb with args := { jb.args with fores := jb.args.fores ++ [old] } }
    (({ s with sl.jobs := s.sl.jobs.insert j jb' }).setSecStat j { st with state := 4, row := 5, fore := some m, swap := some (rank, old), lostModule := old, step := some (n.setWidth 64) }).suspend
      jb.args.bib .deferred 0
  | none, [] => s
  | none, _ => (s.setSecStat j { st with state := 5, step := some (n.setWidth 64) }).suspend jb.args.bib .deferred 0

end Sys2Proof.Machine
end

