-- ==== Sys2Proof/Machine/Bibs.lean ====
section
/-! DEFINITION. Bib commands: admission, quotas, keys and their rotation, seeds, page maps, resume, release and scrub (R189, R190, R205,
R292 to R294, R302 to R304, R308 to R312). -/

namespace Sys2Proof.Machine

/-! ## Admission and quotas (R205, R294) -/

/-- Pages that a bib's top-k lists take: 16 × (K + 1) bytes each (R157). -/
def State.listPages (s : State) (b : BitVec 12) : Nat :=
  (((s.mem.lists.filter (fun e => e.1 / 2 ^ 24 = b.toNat)).map (fun e => 16 * (e.2.k.toNat + 1))).sum + (2 ^ 21 - 1)) / 2 ^ 21

/-- Pages of a bib's tables in T2: 64 bytes for each of its tile headers, and its lists (R157, R192; log entry 30). -/
def State.headerPages (s : State) (b : BitVec 12) : Nat :=
  ((s.mem.hdrs.filter (fun e => e.2.id.bib = b)).length + 32767) / 32768 + s.listPages b

/-- Quota pages of T1 over the four dies. -/
def t1PagesOf (a : BibArgs) : Nat := a.t1Quota0.toNat + a.t1Quota1.toNat + a.t1Quota2.toNat + a.t1Quota3.toNat

/-- Whether the fields of a bib record lie in the ranges of Table 14.1. -/
def inRange (a : BibArgs) : Bool :=
  decide (1 ≤ a.sMin.toNat ∧ a.sMin.toNat ≤ 96 ∧ a.courses.toNat ≤ 256 ∧ a.carves.toNat ≤ 384 ∧ a.streams.toNat ≤ 4096
    ∧ a.t1Quota0.toNat ≤ 4096 ∧ a.t1Quota1.toNat ≤ 4096 ∧ a.t1Quota2.toNat ≤ 4096 ∧ a.t1Quota3.toNat ≤ 4096
    ∧ a.hostBlocks.toNat ≤ 1048576)

/-- Records of the bibs other than `b` that are not free. -/
def State.otherBibs (s : State) (b : BitVec 12) : List (Nat × Bib) :=
  s.bibs.recs.filter (fun e => e.1 ≠ b.toNat && e.2.state ≠ .free)

/-- Whether quotas fit beside those of all other admitted bibs: 32 GiB of T1, 496 GiB of T2 less the header pages (R205). -/
def State.quotasFit (s : State) (b : BitVec 12) (a : BibArgs) : Bool :=
  let others := (s.otherBibs b).map (·.2.args)
  let heads := (((s.otherBibs b).map (fun e => s.headerPages (BitVec.ofNat 12 e.1))).sum) + s.headerPages b
  decide (t1PagesOf a + (others.map t1PagesOf).sum ≤ 16384)
    && decide (a.t2Quota.toNat + (others.map (fun x => x.t2Quota.toNat)).sum + heads ≤ 253952)

/-- Whether another tenant's bib is bound to a virtual function (R294). -/
def State.vfTaken (s : State) (b : BitVec 12) (a : BibArgs) : Bool :=
  a.vf ≠ 0 && (s.otherBibs b).any (fun e => e.2.args.vf = a.vf && e.2.args.tenant ≠ a.tenant)

/-- ADMIT: the bib's record is written, its counters start, and its ML-KEM-1024 pair is under way (B1; R292 to R294, R302, R361). No bib
is admitted while test access is unlocked (R313). -/
def execAdmitBib (c : Hdr) (a : BibArgs) (s : State) : Out :=
  s.command 0x0101 c fun s c =>
    let b := c.bib
    if !inRange a then s.reply c .bounds
    else if s.test.unlocked.isSome then s.reply c .auth
    else if !s.quotasFit b a || s.vfTaken b a then s.reply c .quota
    else
      let t := ((s.clearCounters (fun id inst => bibCounter id && decide (inst = b.toNat))).setBib b { state := .admitted, args := a }).setKeys b { kemDue := true }
      ((t.setRing b {}).setReplay b {}).reply c .ok

/-- KEM_PAIR_READY (B2): the pair is generated and its encapsulation key available. -/
def execKemPairReady (bib : BitVec 12) (s : State) : Out :=
  s.event fun s =>
    let k := s.keysOf bib
    if k.kemDue then
      (s.setKeys bib { k with kemDue := false, ek := some (Config.kemEk (s.freeVal 256)), dk := some (s.freeVal 256) }).used
    else s

/-- Cause 5 clears for the slots of a bib whose T2 quota has risen by `n` pages; the locker may hold as many more (R139). -/
def State.raiseT2 (s : State) (b : BitVec 12) (n : Nat) : State :=
  s.each ((s.crs.courses.filter (fun e => e.2.bib = b)).map (·.1)) (fun t c =>
    let u : State := { t with lkr.extraT2 := t.lkr.extraT2.write 0 c (t.lkr.extraT2.read 0 c + n) }
    if (u.hold c).cause.getLsbD 5 then u.clearHold c 5 else u)

/-- QUOTA: new quotas and limits of a bib: S_MIN, COURSES, CARVES, STREAMS, LIFT_SHARE and the page quotas; the record's other fields
stay. A raised T2 quota resumes domains that hold under cause 5 (R139, R205, R294). -/
def execQuota (c : Hdr) (a : BibArgs) (s : State) : Out :=
  s.command 0x0103 c fun s c =>
    let r := s.bib c.bib
    if !inRange a then s.reply c .bounds
    else if !s.quotasFit c.bib a then s.reply c .quota
    else
      let a' : BibArgs := { r.args with
        sMin := a.sMin, courses := a.courses, carves := a.carves, streams := a.streams, liftShare := a.liftShare, t2Quota := a.t2Quota
        t1Quota0 := a.t1Quota0, t1Quota1 := a.t1Quota1, t1Quota2 := a.t1Quota2, t1Quota3 := a.t1Quota3 }
      let t := s.setBib c.bib { r with args := a' }
      (if r.args.t2Quota.toNat < a.t2Quota.toNat then t.raiseT2 c.bib (a.t2Quota.toNat - r.args.t2Quota.toNat) else t).reply c .ok

/-! ## Keys (R302, R303, R308 to R310) -/

/-- The job record that a wrapped link key names: its JOB_ID, with the bib as this module's member (R303). -/
def State.keyJob (s : State) (b : BitVec 12) (w : WrappedKey) : Option Nat :=
  (s.sl.jobs.find? (fun e => e.2.args.jobId = w.jobId && e.2.args.bib = b)).map (·.1)

/-- KEYS: B3 to B5: K_E is formed, the decapsulation key erased, host key, KW and the generation-0 data key derived, link keys unwrapped.
A link key whose tag fails ends it with ST_AUTH: nothing is kept, and a fresh pair is needed (R302, R303). -/
def execKeys (c : Hdr) (ct : BitVec 12544) (links : List WrappedKey) (s : State) : Out :=
  s.command 0x0102 c fun s c =>
    let b := c.bib
    let k := s.keysOf b
    match k.dk with
    | none => s.reply c .busy
    | some dk =>
      if !links.all (fun w => w.wver = 1 && w.rsv = 0) then s.reply c .version
      else if !links.all (fun w => w.bib = b && (s.keyJob b w).isSome) then s.reply c .auth
      else if !links.all (·.tagOk) then (s.setKeys b { k with ek := none, dk := none }).reply c .auth
      else
        let ke := Config.decap dk ct
        let kw := Config.wrapKey ke b
        let t := s.setKeys b { k with dk := none, ke := some ke, data0 := some (Config.dataKey ke 0), data1 := none, gen := 0
                                      host := some (Config.hostKey ke b), kw := some kw }
        let t1 := t.each links (fun t w =>
          match t.keyJob b w with
          | some j => { t with bibs.linkKeys := t.bibs.linkKeys.insert (2 * j + w.epoch.toNat) (Config.unwrap kw w.nonce w.ct) }
          | none => t)
        (t1.setReplay b { t1.replay b with h := 0, seen := [] }).reply c .ok

/-- SEEDS: 16 seeds; with a run in progress they wait for its next step-end token (R304). -/
def execSeeds (c : Hdr) (set : List (BitVec 64)) (s : State) : Out :=
  s.command 0x0104 c fun s c =>
    if set.length ≠ 16 then s.reply c .bounds
    else if s.runningOf c.bib = [] then
      ({ s with bibs.seeds := s.bibs.seeds.insert c.bib.toNat set, bibs.seedsNext := s.bibs.seedsNext.remove c.bib.toNat }).reply c .ok
    else ({ s with bibs.seedsNext := s.bibs.seedsNext.insert c.bib.toNat set }).reply c .ok

/-- A rotation starts: generation n + 1 goes into the other slot, CUR_EPOCH flips, ROTATING is set, EV_KEY_ROTATE "start" (R308). -/
def State.startRotation (s : State) (b : BitVec 12) : State :=
  let r := s.bib b
  let k := s.keysOf b
  match k.ke with
  | some ke =>
    let n := k.gen + 1
    let key := some (Config.dataKey ke n)
    let k1 : BibKeys := if r.curEpoch then { k with data0 := key } else { k with data1 := key }
    ((s.setKeys b { k1 with gen := n, due := false }).setBib b { r with curEpoch := !r.curEpoch, rotating := true }).raise
      { bib := b, arg := .keyRotate false 0 n 0 }
  | none => s

/-- KEYROT: a rotation on command; while one is in progress, or before the bib has a data key, it is busy (R308). -/
def execKeyrot (c : Hdr) (s : State) : Out :=
  s.command 0x0105 c fun s c =>
    if (s.bib c.bib).rotating || (s.keysOf c.bib).ke.isNone then s.reply c .busy else (s.startRotation c.bib).reply c .ok

/-- KEY_ROTATE_TIMER: 30 days after its epoch began a key rotates, or waits for the retirement of the one before (R308). -/
def execKeyRotateTimer (bib : BitVec 12) (s : State) : Out :=
  s.event fun s =>
    if (s.bib bib).state = .clearing ∨ (s.bib bib).state = .free then s
    else if (s.bib bib).rotating then s.setKeys bib { s.keysOf bib with due := true }
    else s.startRotation bib

/-- The first tile image of a bib on a stack that is counted under the old epoch and is not moving (R308, R309). -/
def State.oldTile (s : State) (b : BitVec 12) (stack : Nat) : Option (Nat × TileHdr) :=
  s.mem.hdrs.find? (fun e => e.2.id.bib = b && e.2.prot && e.2.home.tier = 2 && stackOf e.2.home = stack
    && e.2.epoch ≠ (s.bib b).curEpoch && e.2.state ≠ 1)

/-- The first protected page of a bib on a stack that is counted under the old epoch. -/
def State.oldPage (s : State) (b : BitVec 12) (stack : Nat) : Option (Nat × Pte) :=
  s.mem.ptes.find? (fun e => e.1 / 2 ^ 27 = b.toNat && e.2.prot && e.2.state = 1 && e.2.tier = 2 && e.2.frame.toNat / 2 ^ 15 = stack
    && e.2.epoch ≠ (s.bib b).curEpoch && s.mem.owners.lookup (frameKey 2 e.2.frame.toNat) = some b)

/-- The first lodge unit of a bib that the map names and that is counted under the old epoch. -/
def State.oldUnit (s : State) (b : BitVec 12) : Option (Nat × UnitTag) :=
  s.lodge.map.findSome? (fun e => (s.lodge.tags.lookup (placeKey e.2)).bind (fun t =>
    if t.bib = b && t.prot && t.epoch ≠ (s.bib b).curEpoch then some (placeKey e.2, t) else none))

/-- KEY_SWEEP_ITEM: the sweep rewrites one item of a stack, or of the lodge (8), under the new epoch: a tile image, a protected page, a
lodge unit with a new SEQ. A moving tile makes it wait, a read-only lodge stops it, a release ends it (R308, R309). The place of a
rewritten lodge unit is kept (log entry 31). -/
def execKeySweepItem (bib : BitVec 12) (stack : Fin 9) (s : State) : Out :=
  s.event fun s =>
    let r := s.bib bib
    let i := stack.val
    if !r.rotating || r.state = .clearing || r.state = .free then s
    else if i = 8 then
      match s.oldUnit bib with
      | some (p, t) =>
        if s.lodgeReadOnly then s
        else
          let u := (s.itemOut bib t.epoch 8).itemIn bib r.curEpoch 8
          { u with lodge.tags := u.lodge.tags.insert p { t with epoch := r.curEpoch, seq := u.lodge.seq + 1 }
                   lodge.seq := u.lodge.seq + 1 }
      | none => s
    else match s.oldTile bib i, s.oldPage bib i with
      | some (k, h), _ =>
        let h' := { h with epoch := r.curEpoch }
        let u := (s.tileOut h).tileIn h'
        { u with mem.hdrs := u.mem.hdrs.insert k h' }
      | none, some (_, e) =>
        let e' := { e with epoch := r.curEpoch }
        let u := (s.pageItem bib e false).pageItem bib e' true
        { u with mem.ptes := u.mem.ptes.each (fun _ x => if x.tier = 2 && x.state = 1 && x.frame = e.frame then { x with epoch := r.curEpoch } else x) }
      | none, none => s

/-- KEY_RETIRE: with no item under the old epoch on any stack or in the lodge its slot is zeroised, ROTATING clears, EV_KEY_ROTATE says
"retired"; an automatic rotation that waited starts (R204, R308). -/
def execKeyRetire (bib : BitVec 12) (s : State) : Out :=
  s.event fun s =>
    let r := s.bib bib
    let k := s.keysOf bib
    if r.rotating && r.state ≠ .clearing && (List.range 9).all (fun i => s.items bib (!r.curEpoch) i = 0) then
      let k1 : BibKeys := if r.curEpoch then { k with data0 := none } else { k with data1 := none }
      let t := ((s.setKeys bib k1).setBib bib { r with rotating := false }).raise { bib := bib, arg := .keyRotate false 1 (k.gen - 1) 0 }
      if k.due then t.startRotation bib else t
    else s

/-- LINK_KEY_ROTATE: a job's next link key is derived into the other epoch, and both are accepted from then on; the epoch flips at the next
committed step (R310). It waits while the key before last has not been erased. -/
def execLinkKeyRotate (job : BitVec 8) (s : State) : Out :=
  s.event fun s =>
    let j := job.toNat
    match s.sl.jobs.lookup j with
    | some jb =>
      match s.bibs.linkKeys.lookup (2 * j + jb.kepoch.toNat) with
      | some k =>
        if jb.rotating || jb.oldLive then s
        else { s with bibs.linkKeys := s.bibs.linkKeys.insert (2 * j + (!jb.kepoch).toNat) (Config.nextKey k jb.args.jobId)
                      sl.jobs := s.sl.jobs.insert j { jb with rotating := true } }
      | none => s
    | none => s

/-! ## Resume (R293, R318) -/

/-- The skips in a row of a bib's domains are forgotten. -/
def State.forgetSkips (s : State) (b : BitVec 12) : State :=
  { s with crs.domains := s.crs.domains.each (fun _ d => if d.bib = b then { d with skips := 0 } else d) }

/-- RESUME: a suspended bib is admitted again and its runs ask for their stations anew, after their last committed steps (R293, R317). A
job in recovery resumes by its own plan, and the command is busy. -/
def execResume (c : Hdr) (s : State) : Out :=
  s.command 0x0106 c fun s c =>
    match s.jobOf c.bib with
    | some (j, _) =>
      let st := s.secStat j
      if 3 ≤ st.state.toNat ∧ st.state.toNat ≤ 7 then s.reply c .busy
      else
        let step := match s.trainSlot c.bib with
          | some (i, _) => (s.updSlot i).step
          | none => 0
        (((s.setSecStat j { st with state := 1, resumes := 0, after := true, keep := some (step.setWidth 64) }).resumeBib c.bib).forgetSkips c.bib).reply c .ok
    | none => ((s.resumeBib c.bib).forgetSkips c.bib).reply c .ok

/-! ## Headers of resident courses (R192) -/

/-- The header of a tile at load: FMT of its tensor, HOME at its backing place, PROT of its page; none while its page is unmapped. -/
def State.freshHdr (s : State) (k : Course) (n idx : Nat) : Option TileHdr :=
  let r := k.tensor n
  let va := tileVa r idx
  let e := s.pte k.bib (va / 2 ^ 21)
  if e.state = 0 then none
  else
    let h : HomeAddr := { tier := e.tier, off := BitVec.ofNat 50 (e.frame.toNat * 2 ^ 21 + va % 2 ^ 21) }
    some { fmt := BitVec.ofNat 4 (tnFmt r), prot := e.prot, epoch := (s.bib k.bib).curEpoch, id := tileOf k.bib n idx, home := h, prev := h }

/-- Tiles of a course's tensors that have headers: tensor and tile. -/
def Course.allTiles (k : Course) : List (Nat × Nat) :=
  (List.range k.tensors.length).flatMap (fun n =>
    let r := k.tensor n
    if tnLayout r = 0 then (List.range (tnRows r * tnCols r)).map (fun i => (n, i)) else [])

/-- Every tile of a course that has no header gets one; a protected image at its backing place enters its epoch's count. -/
def State.addHeaders (s : State) (k : Course) : State :=
  s.each k.allTiles (fun t e =>
    if t.mem.hdrs.has (tileKey (tileOf k.bib e.1 e.2)) then t
    else match t.freshHdr k e.1 e.2 with
      | some h => (t.tileIn h).setTile (tileOf k.bib e.1 e.2) h
      | none => t)

/-! ## Page maps (R189, R190) -/

/-- A page of the owner is mapped to a frame, zero-filled, within its quota. -/
def State.mapPage (s : State) (a : MapArgs) (i : Nat) : State :=
  let f := a.frame.toNat + i
  let e : Pte := { epoch := (s.bib a.owner).curEpoch, prot := a.prot, wr := a.wr, tier := a.tier, frame := BitVec.ofNat 29 f, state := 1 }
  let t := ((s.setPte a.owner (a.page.toNat + i) e).setBib a.owner ((s.bib a.owner).usePage a.tier.toNat f true)).pageItem a.owner e true
  { t with mem.owners := t.mem.owners.insert (frameKey a.tier.toNat f) a.owner }

/-- A page of the owner is mapped to other bibs too, at the same page number: read-only for all of them. -/
def State.sharePage (s : State) (a : MapArgs) (p : Nat) : State :=
  let e : Pte := { s.pte a.owner p with shr := true }
  a.shared.foldl (fun t b => t.setPte b p { e with wr := false }) (s.setPte a.owner p e)

/-- Bibs other than the owner that map the frame of a page. -/
def State.sharers (s : State) (owner : BitVec 12) (p : Nat) : List (BitVec 12) :=
  (s.mappingBibs (s.pte owner p)).filter (fun b => b ≠ owner)

/-- A page of the owner is unmapped: its frame is zero-filled and free again, its quota's page comes back, tiles homed there are gone. -/
def State.unmapPage (s : State) (owner : BitVec 12) (p : Nat) : State :=
  let e := s.pte owner p
  let tier := e.tier.toNat
  let f := e.frame.toNat
  let dead := (s.mem.hdrs.filter (fun x => x.2.id.bib = owner && inFrame x.2.home tier f)).map (·.1)
  let t := s.each dead (fun t k => match t.mem.hdrs.lookup k with
    | some h => { t.tileOut h with mem.hdrs := t.mem.hdrs.remove k }
    | none => t)
  let t1 := ((t.pageItem owner e false).setPte owner p {})
  let t2 := if e.state = 1 then
      let u := (t1.zeroBytes (byteKey tier (f * 2 ^ 21)) (2 ^ 21)).setBib owner ((t1.bib owner).usePage tier f false)
      { u with mem.owners := u.mem.owners.remove (frameKey tier f) }
    else t1
  { t2 with lodge.backed := t2.lodge.backed.remove (pageKey owner p) }

/-- A page of a sharing bib is unmapped; with the last one the owner's page is shared no longer. -/
def State.unshare (s : State) (a : MapArgs) (p : Nat) : State :=
  let t := a.shared.foldl (fun t b => t.setPte b p {}) s
  if t.sharers a.owner p = [] then t.setPte a.owner p { t.pte a.owner p with shr := false } else t

/-- MAP: pages of an owner bib are mapped or unmapped, and mapped to or unmapped from sharing bibs (R189, R190). Beyond the owner's quota
nothing is mapped (Table 9.14). -/
def execMap (c : Hdr) (a : MapArgs) (s : State) : Out :=
  s.command 0x0108 c fun s c =>
    let ps := (List.range a.count).map (fun i => a.page.toNat + i)
    let named := a.owner :: a.shared
    let tier := a.tier.toNat
    if named.any (fun b => b = 0 || (s.bib b).state = .free) then s.reply c .noBib
    else if named.any (fun b => (s.bib b).state = .clearing) then s.reply c .busy
    else if a.count = 0 ∨ 2 ^ 27 < a.page.toNat + a.count ∨ a.shared.contains a.owner then s.reply c .bounds
    else if a.map then
      let new := ps.all (fun p => (s.pte a.owner p).state = 0)
      let there := a.shared ≠ [] && (List.range a.count).all (fun i =>
        let e := s.pte a.owner (a.page.toNat + i)
        e.state = 1 && e.tier = a.tier && e.frame.toNat = a.frame.toNat + i && s.mem.owners.lookup (frameKey tier e.frame.toNat) = some a.owner)
      if !(tier = 1 || tier = 2) then s.reply c .bounds
      else if !(new || there) || !(a.shared.all (fun b => ps.all (fun p => (s.pte b p).state = 0))) then s.reply c .busy
      else if new && !((List.range a.count).all (fun i => s.frameFree tier (a.frame.toNat + i))) then s.reply c .bounds
      else
        let r := s.quotaBib a.owner
        let most := (List.range a.count).foldl (fun (x : Bib × Bool) i =>
          (x.1.usePage tier (a.frame.toNat + i) true, x.2 && x.1.quotaFor tier (a.frame.toNat + i))) (r, true)
        if new && !most.2 then s.reply c .quota
        else
          let t := if new then s.each (List.range a.count) (fun t i => t.mapPage a i) else s
          let t1 := if a.shared = [] then t else t.each ps (fun t p => t.sharePage a p)
          let ks := (s.crs.courses.filter (fun e => named.contains e.2.bib)).map (·.2)
          (t1.each ks State.addHeaders).reply c .ok
    else if a.shared ≠ [] then
      (if !(a.shared.all (fun b => ps.all (fun p => (s.sharers a.owner p).contains b))) then s.reply c .notHome
      else (s.each ps (fun t p => t.unshare a p)).reply c .ok)
    else if !ps.all (fun p => (s.pte a.owner p).state ≠ 0) then s.reply c .bounds
    else if ps.any (fun p => let e := s.pte a.owner p
        e.state = 3 || s.sharers a.owner p ≠ [] || s.frameMoving e.tier.toNat e.frame.toNat) then s.reply c .busy
    else if ps.any (fun p => let e := s.pte a.owner p
        e.state = 1 && s.mem.owners.lookup (frameKey e.tier.toNat e.frame.toNat) ≠ some a.owner) then s.reply c .notHome
    else (s.each ps (fun t p => t.unmapPage a.owner p)).reply c .ok

/-! ## Courses that leave (R183) -/

/-- Units of a die that a course's locker record names: keep and work area (Table 6.4). -/
def Course.lockerUnits (k : Course) (die : Nat) : Nat × Nat := (bits (k.locker.getD die 0) 14 10, bits (k.locker.getD die 0) 4 10)

/-- The locker areas of a course are given back (R142). -/
def State.returnLocker (s : State) (k : Course) : State :=
  s.each [0, 1, 2, 3] (fun t d =>
    let (keep, work) := k.lockerUnits d
    { t with lkr.keepRsv := t.lkr.keepRsv.write 0 d (t.lkr.keepRsv.read 0 d - keep)
             lkr.workRsv := t.lkr.workRsv.write 0 d (t.lkr.workRsv.read 0 d - work)
             lkr.returned := t.lkr.returned.write 0 d (t.lkr.returned.read 0 d + keep + work) })

/-- A resident course leaves its slot: its gates are free, its locker areas, streams, update records and those records of its bib's scale
table that no other resident course declares given back (R98, R182, R183). -/
def State.dropCourse (s : State) (c : Nat) (k : Course) : State :=
  let t := (s.each k.gateMap (fun t n => { t with crs.gates := t.crs.gates.remove n })).returnLocker k
  let mine (x : BitVec 8) : Bool := x.toNat = c
  let others := t.crs.courses.filter (fun e => e.1 ≠ c && e.2.bib = k.bib)
  let gone (g : Nat) : Bool := g / 16384 = k.bib.toNat && !others.any (fun e => decide (g % 16384 < chScaleRecs e.2.hdr))
  { t with
    crs.courses := t.crs.courses.remove c
    crs.holds := t.crs.holds.remove c
    crs.scales := t.crs.scales.keep (fun g _ => !gone g)
    crs.writes := t.crs.writes.filter (fun w => !mine w.slot)
    crs.sweeps := t.crs.sweeps.keep (fun g _ => !gone (g / 2))
    crs.samples := t.crs.samples.filter (fun x => !mine x.slot)
    crs.diverged := t.crs.diverged.filter (fun g => !gone g)
    crs.verdicts := t.crs.verdicts.keep (fun e _ => !k.gateMap.contains (e / 256))
    crs.signals := t.crs.signals.filter (fun e => !k.gateMap.contains e.1)
    lkr.entries := t.lkr.entries.filter (fun e => !mine e.slot)
    lkr.marks := t.lkr.marks.filter (fun m => m / 4 ≠ c)
    lkr.extraT2 := t.lkr.extraT2.remove c
    lift.strm := t.lift.strm.keep (fun _ x => !mine x.slot)
    lift.reserved := t.lift.reserved.remove c
    upd.slots := t.upd.slots.remove c
    upd.map := t.upd.map.remove c
    upd.emitted := t.upd.emitted.remove c
    upd.staged := t.upd.staged.each (fun _ l => l.filter (fun e => !mine e.1))
    upd.lanes := t.upd.lanes.each (fun _ l => l.filter (fun e => !mine e.slot))
    upd.norm := t.upd.norm.keep (fun i _ => i / 12 ≠ c)
    upd.sums := t.upd.sums.remove c
    upd.freeze := t.upd.freeze.remove c
    upd.freezeNext := t.upd.freezeNext.remove c
    upd.constsNext := t.upd.constsNext.filter (fun e => !mine e.1)
    upd.nonfin := t.upd.nonfin.filter (fun x => !mine x.1) }

/-! ## Release and scrub (R311, R312, Table 14.9) -/

/-- Whether a bib owns a page that another bib maps. -/
def State.ownsShared (s : State) (b : BitVec 12) : Bool :=
  s.mem.ptes.any (fun k e => k / 2 ^ 27 = b.toNat && e.state ≠ 0 && s.mem.owners.lookup (frameKey e.tier.toNat e.frame.toNat) = some b
    && (s.mappingBibs e).any (fun x => x ≠ b))

/-- RELEASE (Z1): the bib's run is cancelled, its streams dropped, its locker areas freed, and the scrub begins; its certificate is the
reply. The owner of a page that another bib maps is busy (R311, Table 16.5). -/
def execRelease (c : Hdr) (nonce : BitVec 256) (s : State) : Out :=
  s.command 0x0107 c fun s c =>
    let b := c.bib
    if s.ownsShared b then s.reply c .busy else s.beginScrub b nonce c

/-- Whether moves of a bib's tiles go on, or a quarter is bound to it or being cleared for it. -/
def State.stillHeld (s : State) (b : BitVec 12) : Bool :=
  s.mem.moves.any (fun _ m => m.tile / 2 ^ 64 = b.toNat)
    || s.rink.stn.any (fun _ r => [0, 1, 2, 3].any (fun q => Stn.bibOf r q = b))

/-- Z3: the bib's keys are zeroised, and the link keys of its jobs. -/
def State.zeroKeys (s : State) (b : BitVec 12) : State :=
  let jobs := (s.sl.jobs.filter (fun e => e.2.args.bib = b)).map (·.1)
  { s.setKeys b { gen := (s.keysOf b).gen } with bibs.linkKeys := s.bibs.linkKeys.keep (fun k _ => !jobs.contains (k / 2)) }

/-- Pages, tiles, lists and counts of a bib are gone, its frames zero and free; tiles homed in slots release them. -/
def State.wipe (s : State) (b : BitVec 12) : State :=
  let frames := (s.mem.owners.filter (fun e => e.2 = b)).map (·.1)
  let hdrs := (s.mem.hdrs.filter (fun e => e.2.id.bib = b)).map (·.2)
  let t := s.each frames (fun t k => t.zeroBytes (byteKey (k / 2 ^ 29) (k % 2 ^ 29 * 2 ^ 21)) (2 ^ 21))
  let t1 := t.each hdrs (fun t h =>
    (if slotTier h.home then t.zeroBytes (homeKey h.home) (tileBytesOf h.fmt.toNat) else t).releaseSlot h.home)
  { t1 with
    mem.owners := t1.mem.owners.keep (fun _ x => x ≠ b)
    mem.hdrs := t1.mem.hdrs.keep (fun _ h => h.id.bib ≠ b)
    mem.ptes := t1.mem.ptes.keep (fun k _ => k / 2 ^ 27 ≠ b.toNat)
    mem.cached := t1.mem.cached.filter (fun k => k / 2 ^ 27 ≠ b.toNat)
    mem.lists := t1.mem.lists.keep (fun k _ => k / 2 ^ 24 ≠ b.toNat)
    mem.items := t1.mem.items.keep (fun k _ => k / 32 ≠ b.toNat)
    lodge.backed := t1.lodge.backed.keep (fun k _ => k / 2 ^ 27 ≠ b.toNat)
    lodge.pages := t1.lodge.pages.keep (fun k _ => k / 2 ^ 27 ≠ b.toNat) }

/-- Lodge units of a bib that the map names. -/
def State.unitsOf (s : State) (b : BitVec 12) (prot : Bool) : List Nat :=
  (s.lodge.map.filter (fun e => (s.lodge.tags.lookup (placeKey e.2)).any (fun t => t.bib = b && t.prot = prot))).map (·.1)

/-- SCRUB_PAGES_DONE (Z2 to Z4): with nothing of the bib left in flight or bound, its keys are zeroised, its pages zero-filled and verified
and its lodge units invalid. A frame that failed its second verify is withheld with EV_REPAIR, and PASS is 0 (R311). -/
def execScrubPagesDone (bib : BitVec 12) (badFrames : List (BitVec 50)) (s : State) : Out :=
  s.event fun s =>
    let b := bib.toNat
    match s.bibs.scrubs.lookup b with
    | some z =>
      if (s.bib bib).state ≠ .clearing ∨ z.pages ∨ s.stillHeld bib then s
      else
        let mine := (s.mem.owners.filter (fun e => e.2 = bib)).map (·.1)
        let bad := badFrames.filter (fun f => mine.contains f.toNat)
        let crypto := s.unitsOf bib true
        let plain := s.unitsOf bib false
        let z' : Scrub := { z with
          pages := true, pass := bad = [], crypto := crypto.length, plain := plain.length
          t2Pages := (mine.filter (fun k => k / 2 ^ 29 = 2)).length + s.headerPages bib
          t1Pages := t1PagesOf (s.bib bib).args }
        let t := (s.zeroKeys bib).wipe bib
        let t1 : State := { t with
          lodge.map := t.lodge.map.keep (fun l _ => !crypto.contains l && !plain.contains l)
          lodge.objs := t.lodge.objs.keep (fun _ o => o.bib ≠ bib)
          bibs.scrubs := t.bibs.scrubs.insert b z' }
        t1.each bad (fun t f =>
          ({ t with mem.owners := t.mem.owners.insert f.toNat 0 }).raise
            { bib := bib, src := 3, srcInst := BitVec.ofNat 12 (f.toNat % 2 ^ 29 / 2 ^ 15)
              arg := .repair 7 (BitVec.ofNat 12 (f.toNat % 2 ^ 29 / 2 ^ 15)) (f.setWidth 64) })
    | none => s

/-- The scrub certificate body (Table 14.10). -/
def State.certBody (s : State) (b : BitVec 12) (z : Scrub) : BitVec 1536 :=
  BitVec.ofNat 1536
    (placed 1504 32 0x42524353 + placed 1496 8 1 + placed 1484 12 b.toNat + placed 1452 32 (s.bib b).args.tenant.toNat
      + placed 1388 64 s.clk.ts.toNat + placed 1372 16 s.clk.epoch.toNat + placed 1340 32 (s.keysOf b).gen.toNat
      + placed 1322 18 z.t2Pages + placed 1306 16 z.t1Pages + placed 1296 10 z.carves + placed 1266 30 z.crypto + placed 1236 30 z.plain
      + placed 1235 1 z.pass.toNat + placed 768 256 z.nonce.toNat + placed 256 512 s.boot.zilM.toNat)

/-- SCRUB_COMPLETE (Z5): the certificate is signed and answers the release; the bib's records, courses, gates, seeds and key entry are
zeroed and it is free (R312). A scrub that no command asked for answers none. -/
def execScrubComplete (bib : BitVec 12) (s : State) : Out :=
  s.event fun s =>
    let b := bib.toNat
    match s.bibs.scrubs.lookup b with
    | some z =>
      if !z.pages then s
      else
        let body := s.certBody bib z
        let t := if z.hdr.opcode = 0 then s
          else s.replyWith z.hdr (.cert body (Config.aliasSign s.boot.bootM s.boot.svn s.test.unlocked.isSome body.toNat))
        let t1 := t.each (t.crs.courses.filter (fun e => e.2.bib = bib)) (fun t e => t.dropCourse e.1 e.2)
        let t2 := (t1.setBib bib {}).setKeys bib {}
        { t2 with bibs.scrubs := t2.bibs.scrubs.remove b, bibs.seeds := t2.bibs.seeds.remove b, bibs.seedsNext := t2.bibs.seedsNext.remove b }
    | none => s

end Sys2Proof.Machine
end

