-- ==== Sys2Proof/Machine/PhotoFinish.lean ====
section
/-! DEFINITION. Counters and their snapshots, the photo finish, the event log on its way and in the ring (R360 to R370). -/

namespace Sys2Proof.Machine

/-! ## The catalogue (Table 17.2) -/

/-- Numbers from `lo` to `lo + n − 1`. -/
def span (lo n : Nat) : List Nat := (List.range n).map (fun i => lo + i)

/-- Whether an identifier is in Table 17.2. -/
def isCounter (id : Nat) : Bool :=
  (span 0x0100 8 ++ span 0x0200 5 ++ span 0x0300 6 ++ span 0x0400 4 ++ span 0x0500 11 ++ span 0x0600 7 ++ span 0x0700 8
    ++ span 0x0800 26 ++ span 0x0900 13 ++ span 0x0A00 9 ++ [0x0B00]).contains id

/-- The instances of a counter (Table 17.2). -/
def ctrInstances (id : Nat) : List Nat :=
  if bibCounter id then span 1 4095
  else if domainCounter id then span 0 256
  else match id / 256 with
    | 2 => span 0 4
    | 3 => if id = 0x0301 then (span 0 104).map (fun p => 4 * p) else span 0 416
    | 4 => if id = 0x0403 then span 0 16 else span 0 8
    | 5 => if id = 0x050A then span 0 96 else span 0 12
    | 7 => if id = 0x0706 ∨ id = 0x0707 then span 0 2 else [0]
    | _ => [0]

/-- The number of the unit that holds a counter: hubs 0 and 1, dies 2 to 5, stack base dies 6 to 13 (R365). The counters of dies and
stations are their die's, those of stacks their base die's; ports 6 to 11 and movers 8 to 15 are hub 1's, all else hub 0's. -/
def ctrUnit (id inst : Nat) : Nat :=
  match id / 256 with
  | 2 => 2 + inst
  | 3 => 2 + inst / 4 / 26
  | 4 => if id = 0x0403 then inst / 8 else 6 + inst
  | 5 => (if id = 0x050A then inst / 8 else inst) / 6
  | _ => 0

/-- The units that a marker passes. -/
def pfUnits : Nat := 14

/-- Counter record (Table 17.1). -/
def ctrRecord (id inst : Nat) (c : Counter) : BitVec 128 :=
  BitVec.ofNat 128 (id * 2 ^ 112 + inst * 2 ^ 96 + c.ovf.toNat * 2 ^ 63 + c.value.toNat)

/-- The newest image in the service partition. -/
def PhotoFinish.image (p : PhotoFinish) : Table Counter := if p.buf then p.shadow1 else p.shadow0

/-- Whether a requester receives the counter of an instance: a tenant its own bib's and its own domains' only (R364). -/
def State.seesCounter (s : State) (c : Hdr) (id inst : Nat) : Bool :=
  c.role = 1 || (bibCounter id && inst = c.bib.toNat)
    || (domainCounter id && (s.course inst).any (fun k => k.bib = c.bib))

/-- The records that a COUNTERS command returns. -/
def State.ctrRecords (s : State) (c : Hdr) (names : List (BitVec 16)) : List (BitVec 128) :=
  names.flatMap (fun n =>
    ((ctrInstances n.toNat).filter (s.seesCounter c n.toNat)).map (fun i =>
      ctrRecord n.toNat i (s.pf.image.read {} (ctrKey n.toNat i))))

/-! ## The photo finish (R365 to R367, Tables 17.3, 17.4) -/

/-- PF1: the marker sets out with the next SNAP. -/
def State.pfBegin (s : State) : State :=
  { s with pf := { s.pf with busy := true, tepoch := s.clk.epoch, tsLow := s.clk.ts.setWidth 32, taking := s.pf.snap + 1
                             latched := [], back := false, cut := [], lastTs := some s.clk.ts, again := false } }

/-- Whether a photo finish has begun less than 100 µs ago. -/
def State.pfTooSoon (s : State) : Bool :=
  s.pf.lastTs.any (fun t => decide ((s.clk.ts - t).toNat < 100000))

/-- A START: it joins the one in progress, waits if one began less than 100 µs ago, or begins (R367). -/
def State.pfRequest (s : State) : State :=
  if s.pf.busy then s
  else if s.pfTooSoon then { s with pf.again := true }
  else s.pfBegin

/-- The sideband edge's part of a tick token: a START that waited is served (R29, R367). -/
def State.tickSideband (s : State) : State :=
  if s.pf.again && !s.pf.busy && !s.pfTooSoon then s.pfBegin else s

/-- PF_START_WRITE: Zilunzor writes START. -/
def execPfStartWrite (s : State) : Out := s.event State.pfRequest

/-- PF_PERIODIC_TIMER: the photo finish of every second, for the audit, while Zilunzor runs (R333, R367). -/
def execPfPeriodicTimer (s : State) : Out := s.event fun s => if s.zilUp then s.pfRequest else s

/-- COUNTERS: a photo finish and the records the requester may see (R364, R367). An identifier that Table 17.2 does not have is out of
bounds. A START that must wait replies ST_DEFERRED first. -/
def execCounters (c : Hdr) (names : List (BitVec 16)) (s : State) : Out :=
  s.command 0x0005 c fun s c =>
    if names.all (fun n => isCounter n.toNat) then
      let t := s.pfRequest
      let u : State := { t with pf.askers := t.pf.askers ++ [(c, names)] }
      if u.pf.busy then u else u.replyAs c .deferred false 0 .none
    else s.reply c .bounds

/-- PF_MARKER_ARRIVE: a unit latches its counters, once: the cut (R365). -/
def execPfMarkerArrive (unit : Fin 14) (s : State) : Out :=
  s.event fun s =>
    if s.pf.busy && !s.pf.back && !s.pf.latched.contains unit.val then
      { s with pf.latched := s.pf.latched ++ [unit.val]
               pf.cut := (s.ctr.keep (fun k _ => ctrUnit (k / 65536) (k % 65536) = unit.val)).foldl
                 (fun t e => t.insert e.1 e.2) s.pf.cut }
    else s

/-- PF_MARKER_RETURN: every unit has latched; the audit balances are evaluated (PF3, PF4, R333). -/
def execPfMarkerReturn (s : State) : Out :=
  s.event fun s =>
    if s.pf.busy && !s.pf.back && (List.range pfUnits).all s.pf.latched.contains then
      ({ s with pf.back := true }).auditCheck
    else s

/-- PF_COPY_DONE: the shadow image lies in the buffer that the previous snapshot did not use; DONE and SNAP are set, and the requesters
receive their records (PF5). -/
def execPfCopyDone (s : State) : Out :=
  s.event fun s =>
    if s.pf.busy && s.pf.back then
      let p := s.pf
      let p' : PhotoFinish := { p with
        busy := false, done := true, buf := !p.buf, snap := p.taking
        shadow0 := if p.buf then p.cut else p.shadow0, shadow1 := if p.buf then p.shadow1 else p.cut
        cut := [], latched := [], back := false, askers := [] }
      let t := ({ s with pf := p' }).count 0x0103 0 1
      t.each p.askers (fun u a => u.replyWith a.1 (.counters p.taking (u.ctrRecords a.1 a.2)))
    else s

/-! ## The event log (R368 to R370, Tables 17.5, 17.6) -/

/-- Fields packed from bit 0 upwards: width and value. -/
def packed : List (Nat × Nat) → Nat
  | [] => 0
  | (w, v) :: l => v % 2 ^ w + 2 ^ w * packed l

/-- ARG of an event (Table 17.6). -/
def argBits : EvArg → Nat
  | .holdLong c us => packed [(8, c.toNat), (32, us.toNat)]
  | .lateLift n j sl => packed [(12, n.toNat), (24, j.toNat), (32, sl.toNat)]
  | .overflowSkip st src k lim => packed [(48, st.toNat), (16, src.toNat), (8, k.toNat), (1, lim.toNat)]
  | .sweepDiverge g p hi lo => packed [(15, g.toNat), (1, p.toNat), (11, hi.toNat), (11, lo.toNat)]
  | .lockerSpill d t => packed [(2, d.toNat), (2, t.toNat)]
  | .streamHalt n j va => packed [(12, n.toNat), (24, j.toNat), (48, va.toNat)]
  | .streamUnwind n o f k => packed [(12, n.toNat), (12, o.toNat), (24, f.toNat), (24, k.toNat)]
  | .lodgeUe l t2 bs => packed ([(29, l.toNat), (2, t2.toNat), (12, bs.length)] ++ (bs.take 20).map (fun b => (12, b.toNat)))
  | .linkRetry p q => packed [(4, p.toNat), (12, q.toNat)]
  | .bypass m r d o n why => packed [(11, m.toNat), (1, r.toNat), (2, d.toNat), (3, o.toNat), (3, n.toNat), (4, why.toNat)]
  | .forerunnerIn j r l f st => packed [(64, j.toNat), (11, r.toNat), (11, l.toNat), (11, f.toNat), (48, st.toNat)]
  | .spread j d pl m => packed [(64, j.toNat), (2, d.toNat), (16, pl.toNat), (11, m.toNat)]
  | .buddySharedFeed j d o n => packed [(64, j.toNat), (2, d.toNat), (3, o.toNat), (12, n.toNat)]
  | .counterSat id i => packed [(16, id.toNat), (16, i.toNat)]
  | .courseViolation st k sg u dt => packed [(8, st.toNat), (64, k.toNat), (20, sg.toNat), (24, u.toNat), (128, dt.toNat)]
  | .keyRotate l p g j => packed [(1, l.toNat), (2, p.toNat), (32, g.toNat), (64, j.toNat)]
  | .conservation b w d => packed [(3, b.toNat), (15, w.toNat), (32, d.toNat)]
  | .repair p i d => packed [(4, p.toNat), (12, i.toNat), (64, d.toNat)]

/-- The 64 bytes of an event-log entry (Table 17.5, R7). -/
def LogEntry.image (e : LogEntry) : List Byte :=
  leBytes 64 (e.ts.toNat * 2 ^ 448 + e.epoch.toNat * 2 ^ 432 + evCode e.ev.arg * 2 ^ 416 + e.index.toNat * 2 ^ 368
    + e.ev.bib.toNat * 2 ^ 356 + e.ev.slot.toNat * 2 ^ 348 + e.ev.src.toNat * 2 ^ 344 + e.ev.srcInst.toNat * 2 ^ 332 + argBits e.ev.arg)

/-- An entry is written at the next INDEX; an overwritten entry that EVENTS has not returned counts (R370). -/
def State.writeLog (s : State) (e : LogEntry) : State :=
  let at_ := s.log.next.toNat % 1048576
  let lost := s.log.ring.has at_ && !s.log.returned.contains at_
  let t : State := { s with log := { s.log with
    ring := s.log.ring.insert at_ { e with index := s.log.next }, next := s.log.next + 1
    returned := s.log.returned.filter (fun k => k ≠ at_) } }
  let t1 := t.count 0x0104 0 1
  if lost then t1.count 0x0105 0 1 else t1

/-- EVENT_LOG_ENTRY: the oldest event on its way reaches hub 0's sideband edge and is stamped; before B7 it is held, later it is
written (R29, R368). An event of a running bib also reaches its reply ring (R370). The reply's status is not stated: a free value. -/
def execEventLogEntry (s : State) : Out :=
  s.event fun s =>
    match s.log.flight with
    | [] => s
    | e :: rest =>
      let t : State := { s with log.flight := rest }
      let entry : LogEntry := { ts := s.clk.ts, epoch := s.clk.epoch, index := 0, ev := e }
      let t1 := if t.log.up then t.writeLog entry else { t with log.held := t.log.held ++ [entry] }
      if (t1.bib e.bib).state = .running then
        t1.each (t1.runningOf e.bib) (fun u c =>
          match u.domain c with
          | some d => (u.replyAs d.runHdr (Config.openStatus u.freeCtr) false (evCode e.arg) .none).used
          | none => u)
      else t1

/-- The entries that the ring holds from an INDEX on, oldest first. -/
def State.entriesFrom (s : State) (lo : Nat) : List LogEntry :=
  let n := s.log.next.toNat
  let first := max lo (n - 1048576)
  (List.range (n - first)).filterMap (fun i => s.log.ring.lookup ((first + i) % 1048576))

/-- The entries added since the last write go to the lodge as a Zilunzor file, object kind 5 (R370). -/
def State.flushLog (s : State) : State :=
  let es := s.entriesFrom s.lodge.flushed.toNat
  if es = [] || s.lodgeReadOnly then s
  else
    let id := s.lodge.objs.foldl (fun m e => max m (e.1 + 1)) 0
    let t := (s.setObject id { bib := 0, kind := 5, bytes := es.flatMap LogEntry.image }).beginCommit id
    { t with lodge.flushed := s.log.next }

/-- LOG_FLUSH_TIMER: every 10 minutes (R370). -/
def execLogFlushTimer (s : State) : Out := s.event fun s => if s.log.up && s.lodge.started then s.flushLog else s

end Sys2Proof.Machine
end

