-- ==== Sys2Proof/Machine/Link.lean ====
section
/-! DEFINITION. Septyth Link's ports and optical bypass: the system map, routes, training, drained rings, pattern tests, the states of
the switches (R264, R265, R270 to R278, R290, R328, R393). -/

namespace Sys2Proof.Machine

/-! ## The system map and routes (R277, R278, R328) -/

/-- Size of a dimension. -/
def SysMap.size (m : SysMap) (d : Nat) : Nat :=
  match d with
  | 0 => m.dx.toNat
  | 1 => m.dy.toNat
  | _ => m.dz.toNat

/-- This module's coordinate. -/
def SysMap.mine (m : SysMap) (d : Nat) : Nat :=
  match d with
  | 0 => m.x.toNat
  | 1 => m.y.toNat
  | _ => m.z.toNat

/-- A coordinate of a module number. -/
def coordOf (n d : Nat) : Nat :=
  match d with
  | 0 => n % 16
  | 1 => n / 16 % 16
  | _ => n / 256

/-- A module number with one coordinate replaced. -/
def withCoord (n d c : Nat) : Nat := n - coordOf n d * 16 ^ d + c * 16 ^ d

/-- The number under which a module's place in a ring is known. -/
def awayKey (n rail d : Nat) : Nat := 6 * n + 3 * rail + d

/-- The trained coordinates of the ring of a dimension through module `n`, ascending (R278). -/
def State.ringLine (s : State) (m : SysMap) (n rail d : Nat) : List Nat :=
  (List.range (m.size d)).filter (fun c => !s.sl.away.contains (awayKey (withCoord n d c) rail d))

/-- Trained modules from the `i`-th place of a ring to the `j`-th the + way, and the − way. -/
def waysRound (n i j : Nat) : Nat × Nat := ((j + n - i) % n, (i + n - j) % n)

/-- Whether a module has entered a job as a forerunner (R328). -/
def State.entered (s : State) (n : Nat) : Bool := s.sl.jobs.any (fun _ j => j.entered.contains (BitVec.ofNat 11 n))

/-- A step of a route: the port it leaves by, and whether it crosses the dateline. -/
structure Hop where
  port : Nat
  dim  : Nat
  wrap : Bool
  deriving DecidableEq, Repr

/-- The hop towards coordinate `c` of a dimension: the shorter way round the trained modules, a tie in the + direction (R278). -/
def State.hopTo (s : State) (m : SysMap) (n rail d c : Nat) : Option Hop :=
  let line := s.ringLine m n rail d
  let i := line.idxOf (m.mine d)
  let j := line.idxOf c
  if line.contains c && line.contains (m.mine d) then
    let (plus, minus) := waysRound line.length i j
    let neg := decide (minus < plus)
    some { port := portOf rail d neg, dim := d, wrap := if neg then i = 0 else i + 1 = line.length }
  else none

/-- The relay of an entered forerunner: its trained x-neighbour on the shorter x way from coordinate `x` (R328). -/
def State.relayFor (s : State) (m : SysMap) (f rail x : Nat) : Nat :=
  let line := s.ringLine m f rail 0
  let j := line.idxOf (coordOf f 0)
  let i := (line.filter (fun c => decide (c < x))).length
  let (plus, minus) := waysRound line.length i j
  let k := if minus < plus then (j + 1) % line.length else (j + line.length - 1) % line.length
  withCoord f 0 (line.getD k 0)

/-- The next hop of a message from `src` to `dst` on a rail: dimension order x, y, z; what an entered forerunner sent goes on in the order
y, z, x; what goes to one goes to its relay first (R278, R328). -/
def State.route (s : State) (src dst rail : Nat) : Option Hop :=
  match s.sl.sysmap with
  | none => none
  | some m =>
    let me := s.moduleNum.toNat
    let relay := s.relayFor m dst rail (m.x.toNat)
    let goal := if s.entered dst && me ≠ relay then relay else dst
    let order := if s.entered src && me ≠ src then [1, 2, 0] else [0, 1, 2]
    let order' := if s.entered me then [0] else order
    match order'.find? (fun d => coordOf goal d ≠ m.mine d) with
    | some d => s.hopTo m me rail d (coordOf goal d)
    | none => if s.entered me && dst ≠ me then some { port := portOf rail 0 false, dim := 0, wrap := false } else none

/-! ## Switches (R273, R274, Tables 13.5, 13.12) -/

/-- The number of a switch. -/
def bypKey (rail dim : Nat) : Nat := 3 * rail + dim

/-- A switch. -/
def State.byp (s : State) (i : Nat) : Byp := s.sl.byps.read {} i

/-- A switch is written. -/
def State.setByp (s : State) (i : Nat) (b : Byp) : State := { s with sl.byps := s.sl.byps.write {} i b }

/-- The number of a state (Table 13.5). -/
def swCode : SwState → BitVec 3
  | .bypass => 0
  | .loop => 1
  | .opening => 2
  | .train => 3
  | .joined => 4
  | .closing => 5

/-- The two ports of a switch. -/
def portsOf (i : Nat) : List Nat := [portOf (i / 3) (i % 3) false, portOf (i / 3) (i % 3) true]

/-- The switch of a port. -/
def switchOf (port : Nat) : Nat := bypKey (port / 6) (port % 6 / 2)

/-- A switch changes its state, with EV_BYPASS; the peers are those of JOINED. -/
def State.moveSwitch (s : State) (i : Nat) (b : Byp) : State :=
  let old := s.byp i
  let b' : Byp := if b.state = .joined then b else { b with peerP := 0, peerM := 0 }
  (s.setByp i b').raise { src := 7, srcInst := BitVec.ofNat 12 (i / 3)
                          arg := .bypass s.moduleNum (i / 3 = 1) (BitVec.ofNat 2 (i % 3)) (swCode old.state) (swCode b.state) b'.reason }

/-- Whether a dimension has size 1 on the system map (R277). -/
def State.sizeOne (s : State) (dim : Nat) : Bool := s.sl.sysmap.any (fun m => m.size dim = 1)

/-- Whether both ports of a switch are trained. -/
def State.bothTrained (s : State) (i : Nat) : Bool := (portsOf i).all (fun p => (s.port p).trained)

/-! ## Loss of a link (R284) -/

/-- An abort control message for a message's destination (R284, Table 13.2). -/
def abortMsg (m : MsgOpen) : Msg := .control m.jtag 0 0 false true

/-- An abort goes to a message's destination by the route that then exists. -/
def State.sendAbort (s : State) (m : MsgOpen) (rail : Nat) : State :=
  match s.route s.moduleNum.toNat m.dst.toNat rail with
  | some h => s.sendMsg h.port (abortMsg m)
  | none => s

/-- The destination's part of an abort: the reserved space is discarded, SL_MSG_LOST counts, the destination bib's domains are
suspended with ST_FAULT (R284). -/
def State.dropRx (s : State) (port key : Nat) : State :=
  match s.sl.rx.lookup key with
  | some x =>
    let t := ({ s with sl.rx := s.sl.rx.remove key }).count 0x0509 port 1
    if x.relay then t else t.suspend x.hdr.dbib .fault 0
  | none => s

/-- The stream of an input is over: its forwarding and its place are free. -/
def State.endIn (s : State) (port stream : Nat) : State :=
  let p := s.port port
  ({ s with sl.fwd := s.sl.fwd.remove (port * 4096 + stream) }).setPort port { p with ins := p.ins.remove stream }

/-- Credits to be returned, one more of a virtual channel. -/
def addOwed (l : List (BitVec 3 × BitVec 13)) (vc : Nat) : List (BitVec 3 × BitVec 13) :=
  if l.any (fun e => e.1.toNat = vc) then l.map (fun e => if e.1.toNat = vc then (e.1, e.2 + 1) else e)
  else l ++ [(BitVec.ofNat 3 vc, 1)]

/-- A slot leaves the receive buffer it holds, and its credit is to be returned (R268). -/
def State.freeBuf (s : State) (b : Option (Nat × Nat)) : State :=
  match b with
  | some (n, vc) =>
    let p := s.port n
    s.setPort n { p with rxVc := p.rxVc.modify vc (· - 1), owed := addOwed p.owed vc }
  | none => s

/-- Slots that wait for an output are discarded. -/
def State.dropTx (s : State) (port : Nat) (f : SlotRef → Bool) : State :=
  let p := s.port port
  (s.setPort port { p with txq := p.txq.filter (fun x => !f x.slot) }).each (p.txq.filter (fun x => f x.slot)) (fun t x => t.freeBuf x.buf)

/-- A stream open on an input is aborted: here, or at its destination (R284). -/
def State.abortIn (s : State) (port : Nat) (e : Nat × MsgOpen) : State :=
  let key := port * 4096 + e.1
  let u := match s.sl.fwd.lookup key with
    | some o =>
      let t := s.dropTx (o / 4096) (fun x => x.stream.toNat = o % 4096)
      let q := t.port (o / 4096)
      (t.setPort (o / 4096) { q with outs := q.outs.remove (o % 4096) }).sendAbort e.2 (port / 6)
    | none => s.dropRx port key
  u.endIn port e.1

/-- Every stream open on an input is aborted. -/
def State.abortIns (s : State) (port : Nat) : State := s.each (s.port port).ins (fun t e => t.abortIn port e)

/-- What is queued for an output that has lost its link is discarded, and the destinations of its streams are told by another route. -/
def State.abortOuts (s : State) (port : Nat) : State :=
  let t := (s.dropTx port (fun _ => true)).each (s.port port).outs (fun t e =>
    if e.2 = 0 then t
    else match (t.port ((e.2 - 1) / 4096)).ins.lookup ((e.2 - 1) % 4096) with
      | some m => ({ t with sl.fwd := t.sl.fwd.remove (e.2 - 1) }).sendAbort m (1 - port / 6)
      | none => t)
  t.setPort port { t.port port with outs := [], msgq := [], retry := [], resend := [] }

/-- A port loses its link: it is no longer trained, its input and output streams are aborted, credits and sequence start afresh with
the next training. -/
def State.losePort (s : State) (port : Nat) (st : BitVec 3) (fail : BitVec 4) : State :=
  let t := (s.abortIns port).abortOuts port
  let p := t.port port
  t.setPort port { state := st, drain := p.drain, fail := fail, phyNew := p.phyNew, ver := 0 }

/-- A switch goes towards BYPASS: from OPENING, TRAIN or JOINED through CLOSING with JOIN cleared, from LOOP at once (R274). -/
def State.closeSwitch (s : State) (i : Nat) (why : BitVec 4) : State :=
  let b := s.byp i
  let lose (t : State) : State := t.each (portsOf i) (fun u p => u.losePort p 0 (u.port p).fail)
  match b.state with
  | .loop => lose (s.moveSwitch i { b with state := .bypass, reason := why })
  | .opening | .train | .joined => lose (s.moveSwitch i { b with state := .closing, reason := why, join := false, hold := false })
  | _ => s

/-- BYPASS_TO_LOOP: the hub runs and starts a dimension's ports in loopback; a dimension of size 1 stays in BYPASS (R277). -/
def execBypassToLoop (rail : Fin 2) (dim : Fin 3) (s : State) : Out :=
  s.event fun s =>
    let i := bypKey rail.val dim.val
    let b := s.byp i
    if b.state = .bypass && s.zilUp && s.sl.heartbeat && !s.sizeOne dim.val && !s.rink.failed then
      (s.moveSwitch i { b with state := .loop }).each (portsOf i) (fun t p => t.setPort p { t.port p with state := 1 })
    else s

/-- BYPASS_OPEN_START: JOIN is 1 and both looped ports have trained: the join window begins, the hold signal is on and the switch
opens. Without a system map, or while the switch still senses open, it stays in LOOP (R272, R273, Table 18.9). -/
def execBypassOpenStart (rail : Fin 2) (dim : Fin 3) (s : State) : Out :=
  s.event fun s =>
    let i := bypKey rail.val dim.val
    let b := s.byp i
    if b.state = .loop && b.join && s.bothTrained i && s.sl.heartbeat && s.sl.sysmap.isSome && !b.open_ then
      (s.moveSwitch i { b with state := .opening, hold := true }).each (portsOf i) (fun t p => t.losePort p 2 0)
    else s

/-- BYPASS_OPENING_DONE: after 4 ms the switch is open and the ports train. -/
def execBypassOpeningDone (rail : Fin 2) (dim : Fin 3) (s : State) : Out :=
  s.event fun s =>
    let i := bypKey rail.val dim.val
    let b := s.byp i
    if b.state = .opening then
      (s.moveSwitch i { b with state := .train, open_ := true }).each (portsOf i) (fun t p => t.setPort p { t.port p with state := 2 })
    else s

/-- BYPASS_JOINED: both ports have trained with their neighbours; the ring carries traffic again. -/
def execBypassJoined (rail : Fin 2) (dim : Fin 3) (s : State) : Out :=
  s.event fun s =>
    let i := bypKey rail.val dim.val
    let b := s.byp i
    if b.state = .train && s.bothTrained i then
      let t := s.moveSwitch i { b with state := .joined, peerP := (s.port (portOf rail.val dim.val false)).peer
                                       peerM := (s.port (portOf rail.val dim.val true)).peer }
      { t with sl.drained := t.sl.drained.filter (fun r => r ≠ i) }
    else s

/-- Why the ports of a switch are not trained: the failure of training that is on record, + port first. -/
def State.failOf (s : State) (i : Nat) (other : BitVec 4) : BitVec 4 :=
  match (portsOf i).find? (fun p => !(s.port p).trained && (s.port p).fail ≠ 0) with
  | some p => (s.port p).fail
  | none => other

/-- BYPASS_TRAIN_TIMEOUT: the join window ends without both ports trained (R273, R274). -/
def execBypassTrainTimeout (rail : Fin 2) (dim : Fin 3) (s : State) : Out :=
  s.event fun s =>
    let i := bypKey rail.val dim.val
    if (s.byp i).state = .train && !s.bothTrained i then s.closeSwitch i (if s.rink.failed then 8 else s.failOf i 2) else s

/-- BYPASS_DRIVE_LOSS: a term of R273 is lost: the heartbeat, or the hold signal because the module has failed or a port of a joined
dimension has dropped trained. Power and reset terms fall with the module. -/
def execBypassDriveLoss (rail : Fin 2) (dim : Fin 3) (s : State) : Out :=
  s.event fun s =>
    let i := bypKey rail.val dim.val
    let b := s.byp i
    if !s.sl.heartbeat then s.closeSwitch i 6
    else if s.rink.failed && b.state ≠ .loop then s.closeSwitch i 8
    else if b.state = .joined && !s.bothTrained i then s.closeSwitch i (s.failOf i 2)
    else s

/-- BYPASS_CLOSING_DONE: 4 ms after the drive went the switch is closed: BYPASS, with the reason of the loss. -/
def execBypassClosingDone (rail : Fin 2) (dim : Fin 3) (s : State) : Out :=
  s.event fun s =>
    let i := bypKey rail.val dim.val
    let b := s.byp i
    if b.state = .closing then s.moveSwitch i { b with state := .bypass, open_ := false } else s

/-- SWITCH_STUCK_CHECK: a switch still senses open 10 ms after its drive went: EV_REPAIR, part 8 (R393). -/
def execSwitchStuckCheck (rail : Fin 2) (dim : Fin 3) (s : State) : Out :=
  s.event fun s =>
    let i := bypKey rail.val dim.val
    let b := s.byp i
    if !b.hold then (s.setByp i { b with open_ := true }).raise { src := 7, srcInst := BitVec.ofNat 12 rail.val, arg := .repair 8 (BitVec.ofNat 12 i) 0 }
    else s

/-- JOIN of a switch is written: 1 is kept until the switch can open, 0 leaves (R273, R274). -/
def State.writeJoin (s : State) (i : Nat) (on : Bool) : State :=
  let b := s.byp i
  let t := s.setByp i { b with join := on }
  if on then t
  else match b.state with
    | .opening | .train | .joined => t.closeSwitch i 1
    | _ => t

/-- BYP_JOIN_WRITE: Zilunzor writes JOIN. -/
def execBypJoinWrite (rail : Fin 2) (dim : Fin 3) (on : Bool) (s : State) : Out :=
  s.event fun s => s.writeJoin (bypKey rail.val dim.val) on

/-- JOIN: DIM 3 is a reserved value (R9); refused without a system map or while a join of the switch is under way; on an undrained ring it waits; leaving takes a
waiting join back, whose status is not stated: a free value (R272, R275). -/
def execJoin (c : Hdr) (rail : Fin 2) (dim : BitVec 2) (on : Bool) (s : State) : Out :=
  s.command 0x0502 c fun s c =>
    let i := bypKey rail.val dim.toNat
    let b := s.byp i
    if dim = 3 then s.reply c .version
    else if s.sl.sysmap.isNone then s.reply c .busy
    else if !on then
      let t : State := { s with sl.waitJoin := s.sl.waitJoin.filter (fun x => x ≠ i) }
      let u := if s.sl.waitJoin.contains i then (t.complete (.join i) (Config.openStatus t.freeCtr) .none).used else t
      (u.writeJoin i false).reply c .ok
    else if s.sl.waitJoin.contains i || (b.join && b.state ≠ .joined) then s.reply c .busy
    else if b.state = .joined then s.reply c .ok
    else if s.sl.drained.contains i then (s.writeJoin i true).reply c .ok
    else ({ s with sl.waitJoin := s.sl.waitJoin ++ [i] }).defer c (.join i)

/-- SYSMAP: sizes, SYSID and coordinates in their ranges (R277); a dimension of size 1 goes back to BYPASS. -/
def execSysmap (c : Hdr) (dx dy dz : BitVec 5) (sysid : BitVec 64) (x y : BitVec 4) (z : BitVec 3) (s : State) : Out :=
  s.command 0x0501 c fun s c =>
    if dx = 0 ∨ 16 < dx.toNat ∨ dy = 0 ∨ 16 < dy.toNat ∨ dz = 0 ∨ 8 < dz.toNat ∨ dx.toNat ≤ x.toNat ∨ dy.toNat ≤ y.toNat ∨ dz.toNat ≤ z.toNat
    then s.reply c .bounds
    else
      let t : State := { s with sl.sysmap := some { dx := dx, dy := dy, dz := dz, sysid := sysid, x := x, y := y, z := z }, sl.away := [] }
      (t.each ((List.range 6).filter (fun i => t.sizeOne (i % 3))) (fun u i => u.closeSwitch i 0)).reply c .ok

/-! ## Draining (R275, Table 13.11) -/

/-- DRAIN is written: cleared, the port carries job traffic again. -/
def State.writeDrain (s : State) (n : Nat) (on : Bool) : State :=
  let p := s.port n
  let t := s.setPort n { p with drain := on, state := if !on && p.state = 4 then 3 else p.state }
  if on then t else { t with sl.drained := t.sl.drained.filter (fun r => r ≠ switchOf n) }

/-- SL_PORT_DRAIN_WRITE: Zilunzor writes DRAIN. -/
def execSlPortDrainWrite (port : Fin 12) (on : Bool) (s : State) : Out := s.event fun s => s.writeDrain port.val on

/-- DRAIN: the operator sets or clears DRAIN of a port (Table 16.7); a port that the module does not have is out of bounds. -/
def execDrain (c : Hdr) (port : BitVec 4) (on : Bool) (s : State) : Out :=
  s.command 0x0503 c fun s c => if 12 ≤ port.toNat then s.reply c .bounds else (s.writeDrain port.toNat on).reply c .ok

/-- Whether a port carries job traffic: a stream of a job open on it, or slots of a job's virtual channels waiting. -/
def SlPort.carriesJob (p : SlPort) : Bool :=
  p.ins.any (fun _ m => m.jtag ≠ 0) || p.outs ≠ [] || p.txq.any (fun x => decide (1 ≤ x.slot.vc.toNat ∧ x.slot.vc.toNat ≤ 3))

/-- A pattern test begins on a port (R290). -/
def State.startPattern (s : State) (n : Nat) : State :=
  { s.setPort n { s.port n with pattern := true } with sl.waitPat := s.sl.waitPat.filter (fun x => x ≠ n) }

/-- Whether a pattern test can run at once: looped ports, or a drained ring (R290). -/
def State.patternFree (s : State) (n : Nat) : Bool :=
  (s.byp (switchOf n)).state = .bypass || (s.byp (switchOf n)).state = .loop || s.sl.drained.contains (switchOf n)

/-- PATTERN is written 1: the standard test starts, or waits for a drained ring (R290). -/
def State.writePattern (s : State) (n : Nat) : State :=
  if (s.port n).pattern || s.sl.waitPat.contains n then s
  else if s.patternFree n then s.startPattern n
  else { s with sl.waitPat := s.sl.waitPat ++ [n] }

/-- SL_PATTERN_START: Zilunzor writes PATTERN. -/
def execSlPatternStart (port : Fin 12) (s : State) : Out := s.event fun s => s.writePattern port.val

/-- RING_DRAIN_COMPLETE: a ring on a rail carries no job traffic: joins and pattern tests that wait for it run (R275, R290). -/
def execRingDrainComplete (rail : Fin 2) (dim : Fin 3) (s : State) : Out :=
  s.event fun s =>
    let i := bypKey rail.val dim.val
    if (portsOf i).any (fun p => (s.port p).carriesJob) then s
    else
      let t : State := { s with sl.drained := if s.sl.drained.contains i then s.sl.drained else s.sl.drained ++ [i] }
      let t1 := t.each (portsOf i) (fun u p => if (u.port p).state = 3 then u.setPort p { u.port p with state := 4 } else u)
      let t2 := t1.each ((portsOf i).filter t1.sl.waitPat.contains) State.startPattern
      if t2.sl.waitJoin.contains i then
        (({ t2 with sl.waitJoin := t2.sl.waitJoin.filter (fun x => x ≠ i) }).writeJoin i true).complete (.join i) .ok .none
      else t2

/-- PATTERN_TEST_END: 60 s are over; each lane's errors count in SL_PAT_ERR. -/
def execPatternTestEnd (port : Fin 12) (errors : List Nat) (s : State) : Out :=
  s.event fun s =>
    let n := port.val
    if (s.port n).pattern then
      let t := s.setPort n { s.port n with pattern := false }
      (t.each ((errors.take 8).zipIdx.filter (fun e => e.1 ≠ 0)) (fun u e => u.count 0x050A (8 * n + e.2) e.1)).complete (.pattern n) .ok .none
    else s

/-! ## Training (R271, R272) -/

/-- The lanes a port trains on: all eight, else the group that is good (R271). -/
def lanesFor (good : BitVec 8) : Option (BitVec 8) :=
  if good = 0xFF then some 0xFF
  else if good &&& 0x0F = 0x0F then some 0x0F
  else if good &&& 0xF0 = 0xF0 then some 0xF0
  else none

/-- Coordinates of the modules that a port's fibre may end at, nearest first: at most three bypassed modules lie between (R265). -/
def SysMap.reach (m : SysMap) (d : Nat) (minus : Bool) : List Nat :=
  (List.range 4).map (fun k => if minus then (m.mine d + 4 * m.size d - (k + 1)) % m.size d else (m.mine d + k + 1) % m.size d)

/-- Whether a peer is one that the system map places at a port: in its ring, within reach, on its rail, facing it (R272). -/
def State.wiringOk (s : State) (m : SysMap) (n : Nat) (cap : Capability) : Bool :=
  let d := n % 6 / 2
  let minus := decide (n % 2 = 1)
  cap.rail = decide (n / 6 = 1) && cap.dim.toNat = d && cap.dir = !minus
    && (m.reach d minus).any (fun c => withCoord s.moduleNum.toNat d c = cap.module.toNat)

/-- Why training with a neighbour fails (REASON of Table 13.12), if it does. -/
def State.trainFault (s : State) (n : Nat) (cap : Capability) (good : BitVec 8) : Option (BitVec 4) :=
  if (lanesFor good).isNone then some 7
  else if !decide (cap.slvMin.toNat ≤ 1 ∧ 1 ≤ cap.slvMax.toNat) then some 3
  else if cap.sysid ≠ s.sysid then some 9
  else match s.sl.sysmap with
    | some m => if s.wiringOk m n cap then none else some 4
    | none => some 4

/-- Half width is recorded with the port and its lane mask (R271). -/
def State.lanesRepair (s : State) (n : Nat) (lanes : BitVec 8) : State :=
  if lanes = 0xFF then s
  else s.raise { src := 5, srcInst := BitVec.ofNat 12 n, arg := .repair 4 (BitVec.ofNat 12 n) (lanes.setWidth 64) }

/-- The modules between this one and a port's peer are bypassed in that ring. -/
def State.learnAway (s : State) (n : Nat) (peer : BitVec 11) : State :=
  match s.sl.sysmap with
  | some m =>
    let d := n % 6 / 2
    let between := ((m.reach d (n % 2 = 1)).map (withCoord s.moduleNum.toNat d)).takeWhile (fun x => x ≠ peer.toNat)
    let ks := between.map (fun x => awayKey x (n / 6) d)
    { s with sl.away := s.sl.away.filter (fun k => k ≠ awayKey peer.toNat (n / 6) d) ++ ks.filter (fun k => !s.sl.away.contains k) }
  | none => s

/-- SL_TRAIN_DONE: a port ends training: in loopback, or with its neighbour; a retrain with the same peer resends what is not
acknowledged, a new link starts afresh. A failure leaves the port without traffic and its reason on record. Staged PHY firmware
takes effect on a drained ring, and a CALIBRATE of the port completes there (R271, R272, R358, R377). -/
def execSlTrainDone (port : Fin 12) (neighbour : Bool) (cap : Capability) (good : BitVec 8) (fibreNs : BitVec 12) (s : State) : Out :=
  s.event fun s =>
    let n := port.val
    let i := switchOf n
    let st := (s.byp i).state
    let p := s.port n
    let drained := s.sl.drained.contains i
    let new := p.phyNew || (s.boot.phyNew && (drained || st = .loop))
    let finish (t : State) : State := if drained || st = .loop then t.complete (.calibrate 3 (BitVec.ofNat 12 n)) .ok .none else t
    if !neighbour then
      if st ≠ .loop || s.rink.failed then s
      else match lanesFor good with
        | some l => finish ((s.setPort n { state := 1, ver := 1, drain := p.drain, lanes := l, peer := s.moduleNum, fibreNs := fibreNs
                                           trained := true, phyNew := new, pattern := p.pattern }).lanesRepair n l)
        | none => s.losePort n 5 7
    else if (st ≠ .train && st ≠ .joined) || s.rink.failed then s
    else match s.trainFault n cap good, lanesFor good with
      | none, some l =>
        let up : BitVec 3 := if drained then 4 else 3
        let same := p.trained && p.peer = cap.module
        let p' : SlPort := if same then
            { p with state := up, ver := 1, lanes := l, fibreNs := fibreNs, fail := 0, phyNew := new, retrains := 0, run := 0
                     resend := p.retry, nakWait := false, nakDue := false }
          else { state := up, ver := 1, drain := p.drain, lanes := l, peer := cap.module, fibreNs := fibreNs, trained := true, phyNew := new }
        let t := if same then s else (s.abortIns n).abortOuts n
        finish (((t.setPort n p').learnAway n cap.module).lanesRepair n l)
      | why, _ => s.losePort n 5 (why.getD 7)

/-- SL_RETRAIN: eight resends of one frame in a row have failed, or the retrain before this one has: the port retrains (R270). -/
def execSlRetrain (port : Fin 12) (failed : Bool) (s : State) : Out :=
  s.event fun s =>
    let n := port.val
    let p := s.port n
    if p.trained && (decide (8 ≤ p.run.toNat) || decide (1 ≤ p.retrains)) && decide (p.retrains < 2) then
      (s.setPort n (if failed then { p with run := 0, retrains := p.retrains + 1 }
        else { p with run := 0, retrains := 0, resend := p.retry })).count 0x0506 n 1
    else s

/-- SL_PORT_DOWN: two retrains in a row have failed: the port is down; its traffic goes by the other rail's port from then on (R270). -/
def execSlPortDown (port : Fin 12) (s : State) : Out :=
  s.event fun s => if 2 ≤ (s.port port.val).retrains then s.losePort port.val 0 10 else s

/-- SL_LINK_LOSS: an input port loses its link (R284); a port of a joined ring trains again with whatever peer light then reaches it. -/
def execSlLinkLoss (port : Fin 12) (s : State) : Out :=
  s.event fun s =>
    let p := s.port port.val
    if p.trained then
      let t := s.losePort port.val 2 0
      if (s.byp (switchOf port.val)).state = .joined then t.setPort port.val { t.port port.val with trained := true, lanes := p.lanes, ver := p.ver } else t
    else s

end Sys2Proof.Machine
end

