-- ==== Sys2Proof/Machine/Frames.lean ====
section
/-! DEFINITION. Frames, credits and retry of Septyth Link's ports; messages under job link keys; collective chunks (R266 to R270, R278,
R280 to R288, R328). -/

namespace Sys2Proof.Machine

/-! ## Credits (R268, Table 13.3) -/

/-- Slots reserved for a virtual channel (Table 13.3). -/
def reservedSlots (vc : Nat) : Nat := [16, 64, 64, 64, 64].getD vc 0

/-- Shared credits in use: what the channels have outstanding beyond their reserved slots. -/
def sharedUsed (sent : List Nat) : Nat := (sent.zipIdx.map (fun e => e.1 - reservedSlots e.2)).sum

/-- Whether a slot of a virtual channel has a credit. -/
def hasCredit (sent : List Nat) (vc : Nat) : Bool :=
  decide (vc < 5) && (decide (sent.getD vc 0 < reservedSlots vc) || decide (sharedUsed sent < 752))

/-! ## Sending (R266, R269, R280) -/

/-- The port by which traffic of a hop leaves: the port itself, or the same way on the other rail when it is down, or drained of job
traffic (R270, R275). -/
def State.exitPort (s : State) (n : Nat) : Nat :=
  let ok (p : Nat) : Bool := (s.port p).trained && !(s.port p).drain && !s.sl.drained.contains (switchOf p)
  if !ok n && ok ((n + 6) % 12) then (n + 6) % 12 else n

/-- The first free output stream of a port. -/
def SlPort.freeOut (p : SlPort) : Option Nat := (List.range 4096).find? (fun i => !p.outs.has i)

/-- The virtual channel of a message's slots: collectives 1, Zilunzor's 4; stores and adds 3 once they cross a dateline, 2 again when they
turn into the next dimension (R278, Table 13.3). -/
def vcFor (m : MsgOpen) (h : Hop) (inDim : Option Nat) (vc : Nat) : Nat :=
  if m.kind = 3 then 1 else if m.jtag = 0 then 4 else if h.wrap then 3 else if inDim = some h.dim then vc else 2

/-- The nonce of a message (R281). -/
def msgNonce (m : MsgOpen) : BitVec 96 :=
  BitVec.ofNat 96 (m.src.toNat * 2 ^ 85 + m.jtag.toNat * 2 ^ 69 + m.epoch.toNat * 2 ^ 68 + m.mseq.toNat * 2 ^ 20)

/-- The open header with STREAM zero: the additional data of the tag (Table 13.7, R281). -/
def msgAad (m : MsgOpen) : BitVec 256 :=
  BitVec.ofNat 256 (m.dst.toNat * 2 ^ 233 + m.src.toNat * 2 ^ 222 + m.kind.toNat * 2 ^ 220 + m.jtag.toNat * 2 ^ 204 + m.epoch.toNat * 2 ^ 203
    + m.dbib.toNat * 2 ^ 191 + m.va.toNat * 2 ^ 143 + m.bytes.toNat * 2 ^ 119 + m.term.toNat * 2 ^ 87 + m.mseq.toNat * 2 ^ 39 + m.rnd.toNat * 2 ^ 38
    + m.seed.toNat * 2 ^ 34)

/-- A text of a given length: AES-256-GCM leaves the length of what it seals and opens as it is (R281). -/
def textOf (n : Nat) (l : List Byte) : List Byte := (List.range n).map (fun i => l.getD i 0)

/-- A message's bytes opened under a link key (R281, R282). -/
def openText (k : BitVec 256) (m : MsgOpen) (data : List Byte) : List Byte := textOf data.length (Config.gcmOpen k (msgNonce m) data)

/-- A message's bytes in slots of 256 B. -/
def slotsFor (stream vc bytes : Nat) (data : List Byte) : List TxSlot :=
  (List.range ((bytes + 255) / 256)).map (fun i =>
    { slot := { vc := BitVec.ofNat 3 vc, stream := BitVec.ofNat 12 stream, data := (data.drop (256 * i)).take 256 } })

/-- A whole message is queued at a port: open, slots, close. -/
def State.queueMsg (s : State) (port stream vc : Nat) (m : MsgOpen) (data : List Byte) (tag : BitVec 128) : State :=
  let p := s.port port
  s.setPort port { p with
    outs := p.outs.insert stream 0
    msgq := p.msgq ++ [.open_ { m with stream := BitVec.ofNat 12 stream }, .close (BitVec.ofNat 12 stream) tag]
    txq := p.txq ++ slotsFor stream vc m.bytes.toNat data }

/-- The job whose record names a bib, the link key its sending uses, and the destination member's bib. -/
def State.sendKey (s : State) (o : OutMsg) : Option (Nat × Job × BitVec 256 × BitVec 12) :=
  match s.jobOf o.bib with
  | some (j, jb) =>
    match s.bibs.linkKeys.lookup (2 * j + jb.kepoch.toNat), jb.args.members.find? (fun e => e.module = o.dst) with
    | some k, some e => if jb.mseq.toNat + 1 < 2 ^ 48 then some (j, jb, k, e.bib) else none
    | _, _ => none
  | none => none

/-- The first waiting message that leaves by a port becomes a message of its job: MSEQ is taken, the payload sealed (R281, R283). Without
a key, or with MSEQ at its end, it waits (R281). -/
def State.startMsg (s : State) (port : Nat) : State :=
  let pick := s.sl.outgoing.find? (fun o =>
    (s.sendKey o).isSome && (s.route s.moduleNum.toNat o.dst.toNat o.rail.toNat).any (fun h => s.exitPort h.port = port))
  match pick, (s.port port).freeOut with
  | some o, some st =>
    match s.sendKey o, s.route s.moduleNum.toNat o.dst.toNat o.rail.toNat with
    | some (j, jb, k, b), some h =>
      let m : MsgOpen := { stream := 0, dst := o.dst, src := s.moduleNum, kind := o.act, jtag := jb.args.jtag, epoch := jb.kepoch, dbib := b
                           va := o.va, bytes := BitVec.ofNat 24 o.data.length, term := o.term, mseq := jb.mseq, rnd := o.sr, seed := o.seed, rsv := 0 }
      let sealed_ := Config.gcmSeal k (msgNonce m) (msgAad m) o.data
      let t : State := { s with sl.outgoing := s.sl.outgoing.erase o, sl.jobs := s.sl.jobs.insert j { jb with mseq := jb.mseq + 1 } }
      t.queueMsg port st (vcFor m h none 2) m (textOf o.data.length sealed_.1) sealed_.2
    | _, _ => s
  | _, _ => s

/-- The MSG item that goes next: control, then a close whose slots have gone, then an open (Table 13.2). -/
def SlPort.nextMsg (p : SlPort) : Msg :=
  let isControl (m : Msg) : Bool := match m with
    | .control .. => true
    | .capability _ => true
    | _ => false
  let openOf (st : BitVec 12) : Bool := p.msgq.any (fun m => match m with
    | .open_ x => x.stream = st
    | _ => false)
  let isClose (m : Msg) : Bool := match m with
    | .close st _ => !p.txq.any (fun x => x.slot.stream = st) && !openOf st
    | _ => false
  let isOpen (m : Msg) : Bool := match m with
    | .open_ _ => true
    | _ => false
  match p.msgq.find? isControl, p.msgq.find? isClose, p.msgq.find? isOpen with
  | some m, _, _ => m
  | none, some m, _ => m
  | none, none, some m => m
  | none, none, none => .none

/-- The slots of the next frame: up to six, in order, each against a credit; a stream's slots wait for its open to have gone. -/
def SlPort.nextSlots (p : SlPort) : List TxSlot :=
  let held (st : BitVec 12) : Bool := (p.msgq.erase p.nextMsg).any (fun m => match m with
    | .open_ x => x.stream = st
    | _ => false)
  (p.txq.foldl (fun (a : List TxSlot × List Nat × List (BitVec 3)) x =>
    let vc := x.slot.vc.toNat
    if a.1.length < 6 ∧ hasCredit a.2.1 vc ∧ !a.2.2.contains x.slot.vc ∧ !held x.slot.stream then (a.1 ++ [x], a.2.1.modify vc (· + 1), a.2.2)
    else (a.1, a.2.1, x.slot.vc :: a.2.2)) ([], p.sentVc, [])).1

/-- SL_FRAME_TX: a port sends its next frame: a pattern, a resend, new slots and one MSG item, or idle with the last SEQ. ACK, NAK and at
most two credit returns go with it (R266, R268, R269). A data frame stays in the retry buffer of 256. -/
def execSlFrameTx (port : Fin 12) (s : State) : Out :=
  s.event fun s =>
    let n := port.val
    let p0 := s.port n
    if !p0.trained || p0.state = 2 then s
    else if p0.pattern then s.setPort n { p0 with out := some { ftype := 4, seq := p0.txSeq - 1, ack := p0.rxSeq, nak := false, cr := [], slots := [], msg := .none } }
    else
      let cr := p0.owed.take 2
      let given := (cr.map (fun e => e.2.toNat)).sum
      match p0.resend with
      | f :: rest =>
        let f' := { f with ack := p0.rxSeq, nak := p0.nakDue, cr := cr }
        let first := p0.retry.head? = some f
        let t := if first && p0.run = 0 then s.raise { src := 5, srcInst := BitVec.ofNat 12 n, arg := .linkRetry (BitVec.ofNat 4 n) f.seq } else s
        (t.setPort n { p0 with resend := rest, owed := p0.owed.drop 2, given := p0.given + given, nakDue := false, out := some f'
                               run := if first && p0.run ≠ 255 then p0.run + 1 else p0.run }).count 0x0505 n 1
      | [] =>
        let s := s.startMsg n
        let p := s.port n
        let msg := p.nextMsg
        let slots := p.nextSlots
        let base : SlPort := { p with owed := p.owed.drop 2, given := p.given + given, nakDue := false }
        if (slots = [] && msg = .none) || 256 ≤ p.retry.length then
          s.setPort n { base with out := some { ftype := 2, seq := p.txSeq - 1, ack := p.rxSeq, nak := p.nakDue, cr := cr, slots := [], msg := .none } }
        else
          let f : Frame := { ftype := 1, seq := p.txSeq, ack := p.rxSeq, nak := p.nakDue, cr := cr, slots := slots.map (·.slot), msg := msg }
          let outs := match msg with
            | .close st _ => p.outs.remove st.toNat
            | _ => p.outs
          let t := s.setPort n { base with
            txSeq := p.txSeq + 1, retry := p.retry ++ [{ f with cr := [] }], out := some f, outs := outs, msgq := p.msgq.erase msg
            txq := slots.foldl (fun l x => l.erase x) p.txq
            sentVc := slots.foldl (fun l x => l.modify x.slot.vc.toNat (· + 1)) p.sentVc }
          let t1 := t.each slots (fun u x => u.freeBuf x.buf)
          let fwd := (slots.filter (fun x => x.buf.isSome)).length
          let t2 := if slots = [] then t1 else t1.count 0x0500 n (256 * slots.length)
          if fwd = 0 then t2 else t2.count 0x0502 n (256 * fwd)

/-! ## Receiving (R267, R269) -/

/-- Receive slots that credits of a port's virtual channels cover: those occupied and those whose credit is yet to be returned. -/
def SlPort.taken (p : SlPort) : List Nat :=
  (List.range 5).map (fun vc => p.rxVc.getD vc 0 + ((p.owed.filter (fun e => e.1.toNat = vc)).map (fun e => e.2.toNat)).sum)

/-- A slot that has arrived: into the message it belongs to, on to the port its stream leaves by, or out of the buffer with no stream. A
slot for which no credit holds space is not accepted (R31, R268). -/
def State.takeSlot (s : State) (n : Nat) (x : SlotRef) : State :=
  let vc := x.vc.toNat
  let key := n * 4096 + x.stream.toNat
  let p := s.port n
  if p.given = 0 || !hasCredit p.taken vc then s
  else
  let t := s.setPort n { p with rxVc := p.rxVc.modify vc (· + 1), given := p.given - 1 }
  match t.sl.rx.lookup key, t.sl.fwd.lookup key with
  | some r, _ => ({ t with sl.rx := t.sl.rx.insert key { r with data := r.data ++ x.data } }).freeBuf (some (n, vc))
  | none, some o =>
    let q := t.port (o / 4096)
    let out := match p.ins.lookup x.stream.toNat, s.route ((p.ins.lookup x.stream.toNat).elim 0 (·.src.toNat)) ((p.ins.lookup x.stream.toNat).elim 0 (·.dst.toNat)) (n / 6) with
      | some m, some h => vcFor m h (some (n % 6 / 2)) vc
      | _, _ => vc
    t.setPort (o / 4096) { q with txq := q.txq ++
      [{ slot := { vc := BitVec.ofNat 3 out, stream := BitVec.ofNat 12 (o % 4096), data := x.data }, buf := some (n, vc) }] }
  | none, none => t.freeBuf (some (n, vc))

/-- What a received ACK and the returned credits do: acknowledged frames leave the retry buffer, a NAK resends the rest in order. -/
def SlPort.acked (p : SlPort) (f : Frame) : SlPort :=
  let left := p.retry.filter (fun g => decide (2048 ≤ (f.ack - g.seq).toNat))
  let p1 : SlPort := { p with
    retry := left, run := if left.length < p.retry.length then 0 else p.run
    resend := if f.nak then left else p.resend.filter (fun g => decide (2048 ≤ (f.ack - g.seq).toNat))
    sentVc := f.cr.foldl (fun l e => l.modify e.1.toNat (· - e.2.toNat)) p.sentVc }
  p1

/-- SL_FRAME_RX: codewords are corrected or not and counted; a frame over an uncorrectable codeword, or with a bad CRC, is discarded and
answered with NAK, and every frame after it until the resent one comes. A good frame's ACK, NAK and credits are taken; a data frame
in order is acknowledged and its slots taken; its MSG item is a row of its own. A retrain request starts a retrain (R267 to R270). -/
def execSlFrameRx (port : Fin 12) (symbolErrors : List Nat) (crcOk : Bool) (f : Frame) (s : State) : Out :=
  s.event fun s =>
    let n := port.val
    if !(s.port n).trained then s
    else
      let corr := (symbolErrors.filter (fun e => decide (1 ≤ e ∧ e ≤ 15))).length
      let bad := (symbolErrors.filter (fun e => decide (15 < e))).length
      let s1 := if corr = 0 then s else s.count 0x0503 n corr
      let s2 := if bad = 0 then s1 else s1.count 0x0504 n bad
      let p := s2.port n
      if bad ≠ 0 || !crcOk then s2.setPort n { p with nakWait := true, nakDue := true }
      else if f.ftype = 5 then (s2.setPort n { p with run := 0, resend := p.retry }).count 0x0506 n 1
      else if f.ftype ≠ 1 ∧ f.ftype ≠ 2 then s2
      else if f.ftype = 1 ∧ f.seq = p.rxSeq + 1 then
        let s3 := s2.setPort n { p.acked f with rxSeq := f.seq, nakWait := false }
        let s4 := if f.slots = [] then s3 else s3.count 0x0501 n (256 * f.slots.length)
        s4.each (f.slots.filter (fun x => decide (x.vc.toNat < 5))) (fun t x => t.takeSlot n x)
      else if p.nakWait then s2
      else
        let lost := (f.ftype = 2 && f.seq ≠ p.rxSeq) || (f.ftype = 1 && decide ((f.seq - p.rxSeq).toNat < 2048 ∧ f.seq ≠ p.rxSeq))
        s2.setPort n { p.acked f with nakWait := lost, nakDue := p.nakDue || lost }

/-! ## Messages (R280 to R284, R328) -/

/-- Whether this module relays a message for an entered forerunner (R328). -/
def State.relays (s : State) (n : Nat) (m : MsgOpen) : Bool :=
  (s.entered m.dst.toNat && s.sl.sysmap.any (fun k => s.relayFor k m.dst.toNat (n / 6) k.x.toNat = s.moduleNum.toNat))
    || (s.entered m.src.toNat && n % 6 / 2 = 0 && (s.port n).peer = m.src)

/-- SL_MESSAGE_OPEN: a message opens a stream: here it reserves space, elsewhere it goes on by its route without being decrypted, on a
stream of the next link; for an entered forerunner it is taken whole first. With no stream or route free it waits (R278, R280, R282,
R328). -/
def execSlMessageOpen (port : Fin 12) (m : MsgOpen) (s : State) : Out :=
  s.event fun s =>
    let n := port.val
    let p := s.port n
    let st := m.stream.toNat
    let key := n * 4096 + st
    if !p.trained || p.ins.has st || m.bytes = 0 || decide (262144 < m.bytes.toNat) || m.rsv ≠ 0 || s.sl.sysmap.isNone then s
    else
      let t := s.setPort n { p with ins := p.ins.insert st m }
      let t : State := { t with sl.drained := if m.jtag = 0 then t.sl.drained else t.sl.drained.filter (fun r => r ≠ switchOf n) }
      if m.dst = s.moduleNum then { t with sl.rx := t.sl.rx.insert key { hdr := m, data := [] } }
      else if s.relays n m then { t with sl.rx := t.sl.rx.insert key { hdr := m, data := [], relay := true } }
      else match s.route m.src.toNat m.dst.toNat (n / 6) with
        | some h =>
          let o := s.exitPort h.port
          match (s.port o).freeOut with
          | some so =>
            let q := t.port o
            ({ t with sl.fwd := t.sl.fwd.insert key (o * 4096 + so) }).setPort o
              { q with outs := q.outs.insert so (key + 1), msgq := q.msgq ++ [Msg.open_ { m with stream := BitVec.ofNat 12 so }] }
          | none => s
        | none => s

/-- A message's bytes are written at a virtual address of the destination bib: into the tile whose backing place holds it, at the tile's
home, with the checks of any access (R194, R282), or into the pages themselves. -/
def State.applyWrite (s : State) (m : MsgOpen) (data : List Byte) : State :=
  let va := m.va.toNat
  match s.tensorAt m.dbib va with
  | some (c, k, i) =>
    let r := k.tensor i
    let t := tileOf m.dbib i ((va - tnVa r) / tileBytesOf (tnFmt r))
    let off := (va - tnVa r) % tileBytesOf (tnFmt r)
    match s.tileHdr t with
    | some h =>
      match checkTile h t (tnFmt r) h.home with
      | .violation st => s.violate c st 0 0 (t.tile.setWidth 128)
      | .lost => s.notifyLost h.id
      | _ =>
        let h' : TileHdr := { h with terms := 0, version := h.version + 1, epoch := (s.bib m.dbib).curEpoch }
        ((((s.setBytes (homeKey h.home + off) data).tileOut h).tileIn h').setTile t h')
    | none => s.violate c .bounds 0 0 (t.tile.setWidth 128)
  | none =>
    match s.vaFault m.dbib va data.length true with
    | some (.fail st) => s.violate ((s.runningOf m.dbib).headD 256) st 0 0 (m.va.setWidth 128)
    | some _ => s
    | none => s.vaWrite m.dbib va data

/-- A message's W40 values are added into the sum tile at its address, by TERM (R89, R282). -/
def State.applyAdd (s : State) (m : MsgOpen) (data : List Byte) : State :=
  let va := m.va.toNat
  match s.tensorAt m.dbib va with
  | some (c, k, i) =>
    let r := k.tensor i
    let t := tileOf m.dbib i ((va - tnVa r) / tileBytesOf (tnFmt r))
    match s.tileHdr t with
    | some h => s.addTile k t h (BitVec.ofNat 8 c) m.term m.rnd m.seed (((List.range (data.length / 5)).map (fun i => leNat ((data.drop (5 * i)).take 5))).map (BitVec.ofNat 40))
    | none => s.violate c .bounds 0 0 (t.tile.setWidth 128)
  | none => s.violate ((s.runningOf m.dbib).headD 256) .bounds 0 0 (m.va.setWidth 128)

/-- A message's candidate goes into its list (R158, Table 7.4). -/
def State.applyCand (s : State) (m : MsgOpen) (data : List Byte) : State :=
  let w := leNat data
  s.insertCand 0 m.dbib { list := BitVec.ofNat 24 (bits w 104 24), dist := BitVec.ofNat 40 (bits w 64 40), index := BitVec.ofNat 40 (bits w 24 40) }

/-- Whether a domain of the message's bib is held, the tile it goes to is being moved, or its page is not there: its commit waits, in the
space reserved for it (R32, R189, R195). -/
def State.msgWaits (s : State) (m : MsgOpen) : Bool :=
  (s.runningOf m.dbib).any s.held || match s.tensorAt m.dbib m.va.toNat with
  | some (_, k, i) =>
    let r := k.tensor i
    (s.tileHdr (tileOf m.dbib i ((m.va.toNat - tnVa r) / tileBytesOf (tnFmt r)))).any (fun h => h.state = 1)
  | none =>
    match m.kind.toNat, s.vaFault m.dbib m.va.toNat m.bytes.toNat true with
    | 0, some .halt => true
    | 0, some .wait => true
    | _, _ => false

/-- A message that commits: by its KIND (Table 13.7); a collective chunk's patch is a row of its own. -/
def State.applyMsg (s : State) (m : MsgOpen) (data : List Byte) : State :=
  match m.kind.toNat with
  | 0 => s.applyWrite m data
  | 1 => s.applyAdd m data
  | 2 => s.applyCand m data
  | _ => s

/-- The link key under which a message came, by the job record that its tag names. -/
def State.rxKey (s : State) (m : MsgOpen) : Option (BitVec 256) :=
  (s.sl.jobs.find? (fun e => e.2.args.jtag = m.jtag && e.2.args.bib = m.dbib)).bind (fun e => s.bibs.linkKeys.lookup (2 * e.1 + m.epoch.toNat))

/-- SL_MESSAGE_COMMIT: a message closes. Elsewhere the close follows the message, or a relayed one is sent on whole. Here its tag checks
and only then the data is written, added or inserted; a failed tag discards it, counts, and suspends the bib with ST_AUTH (R282, R328). -/
def execSlMessageCommit (port : Fin 12) (stream : BitVec 12) (tag : BitVec 128) (tagOk : Bool) (s : State) : Out :=
  s.event fun s =>
    let n := port.val
    let st := stream.toNat
    let key := n * 4096 + st
    match (s.port n).ins.lookup st with
    | none => s
    | some m =>
      match s.sl.fwd.lookup key, s.sl.rx.lookup key with
      | some o, _ => (s.sendMsg (o / 4096) (.close (BitVec.ofNat 12 (o % 4096)) tag)).endIn n st
      | none, some x =>
        if x.relay then
          match s.route m.src.toNat m.dst.toNat (n / 6) with
          | some h =>
            let o := s.exitPort h.port
            match (s.port o).freeOut with
            | some so =>
              let t : State := { s with sl.rx := s.sl.rx.remove key }
              ((t.queueMsg o so (vcFor m h none 2) m x.data tag).count 0x0502 o m.bytes.toNat).endIn n st
            | none => s
          | none => s
        else match tagOk, s.rxKey m with
          | true, some k =>
            if s.msgWaits m then s
            else
              let t : State := { s with sl.rx := s.sl.rx.remove key }
              (t.endIn n st).applyMsg m (openText k m (x.data.take m.bytes.toNat))
          | _, _ =>
            let t : State := { s with sl.rx := s.sl.rx.remove key }
            ((t.endIn n st).count 0x0508 n 1).suspend m.dbib .auth 0
      | none, none => s.endIn n st

/-- SL_ABORT_RX: an abort reaches a stream: its reserved space is discarded here, or the abort goes on (R284). -/
def execSlAbortRx (port : Fin 12) (stream : BitVec 12) (s : State) : Out :=
  s.event fun s =>
    match (s.port port.val).ins.lookup stream.toNat with
    | some m => s.abortIn port.val (stream.toNat, m)
    | none => s

/-! ## Collectives (R285 to R287) -/

/-- One element of a chunk with this module's own contribution: added and rounded once, or the greater or lesser (Table 13.9). -/
def chunkElem (op : Nat) (rnd : Rnd) (a own : BitVec 40) : BitVec 40 × Bool :=
  match op with
  | 0 => addW40 rnd own a
  | 1 => (max40 a own, false)
  | _ => (min40 a own, false)

/-- Whether a TERM is one of R287: 0x0010_0000 × stage + ring position, stages 1 to 3, positions 1 to 15. -/
def collectiveTerm (t : BitVec 32) : Bool :=
  decide (1 ≤ t.toNat / 2 ^ 20 ∧ t.toNat / 2 ^ 20 ≤ 3 ∧ 1 ≤ t.toNat % 2 ^ 20 ∧ t.toNat % 2 ^ 20 ≤ 15)

/-- COLLECTIVE_CHUNK_RX: a patch of a collective arrives: a reduction takes this module's own contribution by TERM and goes on, or at the last
stage is delivered to the pipeline behind the port; a gathered patch is written into the writing buffer and goes on. A sum that is
not finite flags the step and the tile (R105, R260, R287). `onward` names the ports of the plan. -/
def execCollectiveChunkRx (port : Fin 12) (slot : BitVec 8) (binding : BitVec 12) (patch : BitVec 40) (ch : Chunk) (onward : List (Fin 12)) (s : State) : Out :=
  s.event fun s =>
    let c := slot.toNat
    let b := binding.toNat
    let p := patch.toNat
    match s.course c with
    | none => s
    | some k =>
      match s.jobOf k.bib with
      | none => s
      | some (_, jb) =>
        let bd := k.binds.getD b 0
        if k.binds.length ≤ b ∨ k.patchCount bd ≤ p ∨ !(s.port port.val).trained ∨ s.held c then s
        else match ch with
          | .reduce op vals own term sr seed last =>
            if !collectiveTerm term then s
            else
            let elem (i : Nat) : Nat := elementIndex (k.tensor (bdTensor bd)) (p / 1024) (patchElem p i)
            let rnd (i : Nat) : Rnd := if sr then .sr (rand32 (s.seed k.bib seed.toNat) (BitVec.ofNat 32 (bdTensor bd)) (BitVec.ofNat 40 (elem i)) term) else .rne
            let r := (vals.zip own).zipIdx.map (fun e => chunkElem op.toNat (rnd e.2) e.1.1 e.1.2)
            let bad := r.any (·.2)
            let s1 := s.flagStep slot (16 + port.val) bad
            if last then
              let t := tileOf k.bib (bdTensor bd) (p / 1024)
              let s2 := match s1.tileHdr t with
                | some h => if bad then s1.setTile t { h with nonfin := true } else s1
                | none => s1
              { s2 with sl.chunks := s2.sl.chunks.insert (chunkKey c b p) (port.val, r.map (·.1)) }
            else s1.sendChunk jb k.bib (r.flatMap (fun e => leBytes 5 e.1.toNat)) onward
          | .gather codes scale =>
            let t := s.writingTile c k bd p
            match s.tileHdr t with
            | some h =>
              if h.state = 1 then s
              else
                let s1 := s.writePatch h.home (k.workFmt bd) p (codes.map (·.toNat)) scale
                let s2 := if (s1.upd.emitted.read [] c).contains (b, p) then s1 else s1.emit c b p
                s2.sendChunk jb k.bib (gatherImage (k.workFmt bd) (codes.map (·.toNat)) scale) onward
            | none => s.violate c .bounds 0 0 (patch.setWidth 128)

end Sys2Proof.Machine
end

