-- ==== Sys2Proof/Machine/Jobs.lean ====
section
/-! DEFINITION. Jobs on this module: JOB_CONFIG and JOB_END (R279, R283, R318, R320 to R322, R327). -/

namespace Sys2Proof.Machine

/-- The rank of job coordinates (R279). -/
def rankOf (a : JobArgs) : Nat := a.jxc.toNat + (a.jxm.toNat + 1) * (a.jyc.toNat + (a.jym.toNat + 1) * a.jzc.toNat)

/-- Whether the tables of a job configuration lie in their ranges: one member for each rank, this module's own with its bib, at most 256
mirror entries, a tag that is not Zilunzor's, intervals of at least one step (Tables 13.6, 13.8, 15.9). -/
def jobInRange (a : JobArgs) : Bool :=
  decide (a.members.length = (a.jxm.toNat + 1) * (a.jym.toNat + 1) * (a.jzm.toNat + 1) ∧ a.jxc.toNat ≤ a.jxm.toNat
      ∧ a.jyc.toNat ≤ a.jym.toNat ∧ a.jzc.toNat ≤ a.jzm.toNat ∧ a.mirrors.length ≤ 256 ∧ a.jtag ≠ 0)
    && (a.members[rankOf a]?).any (fun m => m.bib = a.bib)
    && a.members.all (fun m => m.feeds.length ≤ 4)
    && a.fixedNb.all (fun n => decide (1 ≤ n.toNat ∧ n.toNat ≤ 4096)) && a.fixedNl.all (fun n => n ≠ 0)
    && a.mirrors.all (fun m => decide (-16 ≤ m.ox ∧ m.ox < 16 ∧ -16 ≤ m.oy ∧ m.oy < 16 ∧ -8 ≤ m.oz ∧ m.oz < 8))

/-- Pages of one secured copy in T2 of a bib's resident training course: blocks, scale records, step record and seeds (Table 15.2). -/
def State.copyPages (s : State) (b : BitVec 12) : Nat :=
  match s.trainSlot b with
  | some (_, k) =>
    let n := ((s.ownedPatches k).map (fun e => stateBytes (k.binds.getD e.1 0))).sum + 16 * chScaleRecs k.hdr + 64 + 128
    ceilDiv n (2 ^ 21)
  | none => 0

/-- A free job record. -/
def State.freeJob (s : State) : Option Nat := (List.range 256).find? (fun i => !s.sl.jobs.has i)

/-- JOB_CONFIG: the job record with its member and mirror tables, policy and reservations is installed, the buddy offset chosen and the
intervals computed (R279, R283, R318, R321, R322, R327). With no offset under which no pair shares a feed it is refused with
ST_FAULT and the pairs, unless FORCE is set. -/
def execJobConfig (c : Hdr) (a : JobArgs) (s : State) : Out :=
  s.command 0x0301 c fun s c =>
    if a.mirrors.any (fun m => m.act = 3) then s.reply c .version
    else if !jobInRange a || a.jobId ≠ c.jobId then s.reply c .bounds
    else if (s.bib a.bib).state = .free ∨ a.bib = 0 then s.reply c .noBib
    else if (s.bib a.bib).state = .clearing ∨ s.sl.jobs.any (fun _ j => j.args.jobId = a.jobId || j.args.jtag = a.jtag || j.args.bib = a.bib) then s.reply c .busy
    else if (s.bib a.bib).args.t2Quota.toNat < (s.bib a.bib).t2Used + 4 * s.copyPages a.bib then s.reply c .quota
    else
      let jb : Job := { args := a, rank := BitVec.ofNat 11 (rankOf a) }
      let (o, pairs) := jb.chooseOffset
      match s.freeJob, o with
      | none, _ => s.reply c .busy
      | some i, some x =>
        if pairs ≠ [] ∧ !a.force then s.replyAs c .fault true 0 (.sharedPairs pairs)
        else
          let t : State := { s with sl.jobs := s.sl.jobs.insert i jb }
          let t1 := t.setSecStat i { state := 1, forced := decide (pairs ≠ []), buddy := some x }
          let t2 := (if pairs = [] then t1 else t1.raise (sharedFeedEvent jb x pairs.length)).newIntervals i jb
          t2.replyAs c .ok true (if pairs = [] then 0 else 0x000D) .none
      | some i, none =>
        let t : State := { s with sl.jobs := s.sl.jobs.insert i jb }
        ((t.setSecStat i { state := 1 }).newIntervals i jb).reply c .ok

/-- JOB_END: the job ends on this member: its runs are cancelled, its record, link keys and T2 copies go (R347, Table 16.7). A SECURE that
waited for its next step ends with a status that the spec leaves open. -/
def execJobEnd (c : Hdr) (s : State) : Out :=
  s.command 0x0302 c fun s c =>
    match s.jobNamed c with
    | none => s.reply c .bounds
    | some (j, jb) =>
      let t := s.each (s.domainsOf jb.args.bib) State.cancelRun
      let t1 : State := { t with
        sl.jobs := t.sl.jobs.remove j
        bibs.linkKeys := t.bibs.linkKeys.keep (fun i _ => i / 2 ≠ j)
        sec.stats := t.sec.stats.remove j
        sec.copies := t.sec.copies.filter (fun x => x.job ≠ c.jobId || decide (2 ≤ x.kind))
        sl.outgoing := t.sl.outgoing.filter (fun o => o.bib ≠ jb.args.bib) }
      let t2 := (t1.complete (.secure c.jobId) (Config.openStatus t1.freeCtr) .none).used
      t2.wakeUpdate.reply c .ok

end Sys2Proof.Machine
end

