-- ==== Sys2Proof/Machine/CourseFile.lean ====
section
/-! DEFINITION. The course file and its load checks (R57, R101, R152, R162 to R168, R170, R172 to R174, R206, R207, R219, R250, R251, R287,
Tables 8.1 to 8.10a). -/

namespace Sys2Proof.Machine

/-! ## Sections (R163, Tables 8.2, 8.3) -/

/-- A directory entry of Table 8.2. -/
structure Section where
  kind  : Nat
  off   : Nat
  bytes : Nat
  count : Nat
  rsv   : Nat
  deriving DecidableEq, Repr

/-- The integer of `n` bytes at an offset of a file (R7). -/
def fileNat (f : List Byte) (off n : Nat) : Nat := leNat ((f.drop off).take n)

/-- Records of `n` bytes from an offset on. -/
def fileRecs (f : List Byte) (off n count : Nat) : List Nat := (List.range count).map (fun i => fileNat f (off + n * i) n)

/-- The course header (Table 8.1). -/
def fileHdr (f : List Byte) : Nat := fileNat f 0 64

/-- Directory entry `i`. -/
def fileSection (f : List Byte) (i : Nat) : Section :=
  let r := fileNat f (64 + 16 * i) 16
  { kind := bits r 120 8, rsv := bits r 96 24, off := bits r 64 32, bytes := bits r 32 32, count := bits r 0 32 }

/-- The directory. -/
def fileSections (f : List Byte) : List Section := (List.range (chSections (fileHdr f))).map (fileSection f)

/-- The section of a type. -/
def findSection (l : List Section) (kind : Nat) : Option Section := l.find? (fun x => x.kind = kind)

/-- Bytes of a record of a section type (Table 8.3); the program section's is that of its bindings. -/
def recordBytes (kind : Nat) : Nat :=
  match kind with
  | 0x01 => 32 | 0x02 => 64 | 0x03 => 32 | 0x04 => 24 | 0x05 => 16 | 0x06 => 8 | 0x07 => 16 | 0x08 => 16 | 0x09 => 8
  | 0x0A => 4 | 0x0B => 16 | 0x0C => 4 | 0x0D => 32 | _ => 64

/-- The records of the section of a type. -/
def sectionRecs (f : List Byte) (l : List Section) (kind : Nat) : List Nat :=
  match findSection l kind with
  | some x => fileRecs f x.off (recordBytes kind) x.count
  | none => []

/-- Whether the length of a section is what its records take: streams are followed by block-list entries (R206), programs by bindings
(R250). A reserved type has no records that could tell; `fileReserved` refuses it (R9, R163). -/
def sectionSize (f : List Byte) (x : Section) : Bool :=
  if x.kind = 0x03 then decide (32 * x.count ≤ x.bytes ∧ (x.bytes - 32 * x.count) % 8 = 0)
  else if x.kind = 0x0D then decide (x.bytes = 64 + 640 * (bits (fileNat f x.off 64) 500 4 + 1) + 32 * x.count)
  else if x.kind = 0x0E then decide (x.bytes = 64)
  else if x.kind = 0 ∨ 0x0E < x.kind then true
  else decide (x.bytes = recordBytes x.kind * x.count)

/-- MAGIC, section layout and LENGTH (R162, R163, Table 8.10). -/
def fileLayout (f : List Byte) (len : Nat) : Bool :=
  let h := fileHdr f
  let l := fileSections f
  let kinds := l.map (·.kind)
  let apart (x y : Section) : Bool := x.kind = y.kind || decide (x.off + x.bytes ≤ y.off ∨ y.off + y.bytes ≤ x.off)
  decide (64 ≤ len ∧ bits h 480 32 = 0x45535243 ∧ bits h 432 32 = len ∧ len % 64 = 0
      ∧ 1 ≤ chSections h ∧ chSections h ≤ 32 ∧ 64 + 16 * chSections h ≤ len)
    && l.all (fun x => decide (x.off % 64 = 0 ∧ 64 + 16 * chSections h ≤ x.off ∧ x.off + x.bytes ≤ len) && sectionSize f x && l.all (apart x))
    && kinds.eraseDups.length = kinds.length
    && [0x01, 0x02, 0x07, 0x09, 0x0E].all kinds.contains
    && (chScaleRecs h = 0 || kinds.contains 0x08) && (chGates h = 0 || kinds.contains 0x0A)
    && (findSection l 0x0E).any (fun x => x.off + x.bytes = len)
    && (findSection l 0x09).any (fun x => x.count = 4)

/-! ## The records of a file -/

/-- The programs, constants and bindings of section 0x0D (R250). -/
def fileProgs (f : List Byte) (l : List Section) : List (List Nat) × List (List Nat) × List Nat :=
  match findSection l 0x0D with
  | some x =>
    let n := bits (fileNat f x.off 64) 500 4 + 1
    ((List.range n).map (fun i => fileRecs f (x.off + 64 + 640 * i) 8 64),
      (List.range n).map (fun i => fileRecs f (x.off + 64 + 640 * i + 512) 8 16),
      fileRecs f (x.off + 64 + 640 * n) 32 x.count)
  | none => ([], [], [])

/-- The course of a file, before patches and relocation. -/
def fileCourse (f : List Byte) (b : BitVec 12) (m : Nat) : Course :=
  let l := fileSections f
  let p := fileProgs f l
  { bib := b, hdr := fileHdr f, segs := sectionRecs f l 0x01, uses := sectionRecs f l 0x02, streams := sectionRecs f l 0x03
    blocks := (match findSection l 0x03 with
      | some x => fileRecs f (x.off + 32 * x.count) 8 ((x.bytes - 32 * x.count) / 8)
      | none => [])
    convs := sectionRecs f l 0x04, patches := sectionRecs f l 0x05, conflicts := sectionRecs f l 0x06, tensors := sectionRecs f l 0x07
    gates := sectionRecs f l 0x0A, lists := sectionRecs f l 0x0B, locker := sectionRecs f l 0x09, stages := sectionRecs f l 0x0C
    progs := p.1, consts := p.2.1, binds := p.2.2, gateMap := [], hdrBase := []
    digest := (match findSection l 0x0E with
      | some x => fileNat f x.off 64
      | none => 0)
    members := m }

/-! ## Reserved fields and codes (R9, Table 8.10) -/

/-- Whether a format code is one of Table 4.1. -/
def fmtKnown (c : Nat) : Bool := (fmtOf c).isSome

/-- Whether a use record holds a reserved bit or code. -/
def useReserved (r : Nat) : Bool :=
  decide (bits r 0 92 ≠ 0 ∨ 6 < usMode r ∨ 1 < usOrient r ∨ usRoute r = 3 ∨ usAcc r = 3)
    || !fmtKnown (usOpFmt r) || !fmtKnown (usStFmt r) || !fmtKnown (usOutFmt r)

/-- Whether a stream declaration holds a reserved bit or code (Table 10.1). -/
def streamReserved (r : Nat) : Bool := decide (bits r 252 4 ≠ 0 ∨ bits r 0 24 ≠ 0 ∨ stDispose r = 3 ∨ 6 < stMxFmt r)

/-- Whether a scale record of a file holds a reserved bit or code (Table 5.1). -/
def scaleReserved (r : Nat) : Bool :=
  decide (bits r 0 10 ≠ 0 ∨ 12 < bits r 20 4 ∨ bits r 18 2 = 3 ∨ 1 < bits r 16 2) || !fmtKnown (bits r 12 4)

/-- Whether an instruction word holds a reserved bit or names a reserved operation or source (R251, Tables 12.3 to 12.5). -/
def instrReserved (w : Nat) : Bool :=
  let src (c : Nat) : Bool := decide (c ≤ 0x17 ∨ (0x20 ≤ c ∧ c ≤ 0x2F))
  let op := bits w 58 6
  decide (0x12 < op ∨ bits w 0 36 ≠ 0) || !src (bits w 48 6) || !src (bits w 42 6) || !src (bits w 36 6)

/-- The words of a program that are read: up to and including its first END, or all of them (R250). -/
def programRead (p : List Nat) : List Nat := p.take ((programWords p).length + 1)

/-- Whether the program section holds a reserved bit or code, or another UVER than 1. -/
def progReserved (f : List Byte) (l : List Section) (k : Course) : Bool :=
  match findSection l 0x0D with
  | some x =>
    let h := fileNat f x.off 64
    decide (bits h 504 8 ≠ 1 ∨ bits h 0 488 ≠ 0) || k.progs.any (fun p => (programRead p).any instrReserved)
      || k.consts.any (fun c => c.any (fun w => decide (2 ^ 40 ≤ w)))
      || k.binds.any (fun r => decide (bits r 0 121 ≠ 0 ∨ bdF1 r = 3 ∨ bdF2 r = 3))
  | none => false

/-- ARCH, FMT_VER, nonzero reserved fields and reserved codes anywhere in the file. -/
def fileReserved (f : List Byte) (k : Course) : Bool :=
  let l := fileSections f
  let h := k.hdr
  decide (bits h 472 8 ≠ 1 ∨ bits h 464 8 ≠ 1 ∨ bits h 0 216 ≠ 0 ∨ chWidth h = 3 ∨ chKind h = 3)
    || l.any (fun x => decide (x.rsv ≠ 0 ∨ x.kind = 0 ∨ 0x0E < x.kind))
    || k.tensors.any (fun r => decide (bits r 0 33 ≠ 0 ∨ tnLayout r = 3) || !fmtKnown (tnFmt r))
    || k.segs.any (fun r => decide (bits r 252 4 ≠ 0 ∨ bits r 0 5 ≠ 0))
    || k.uses.any useReserved
    || k.streams.any streamReserved
    || k.streams.any (fun r => stDest r = 3 && decide (2 ^ 48 ≤ k.blocks.getD (stBlFirst r) 0))
    || k.convs.any (fun r => decide (bits r 189 3 ≠ 0))
    || k.patches.any (fun r => decide (bits r 0 13 ≠ 0 ∨ paKind r = 0 ∨ 0xA < paKind r))
    || k.conflicts.any (fun r => decide (bits r 0 10 ≠ 0 ∨ bits r 60 4 = 0 ∨ 9 < bits r 60 4 ∨ bits r 26 2 = 3))
    || (sectionRecs f l 0x08).any scaleReserved
    || k.locker.any (fun r => decide (bits r 62 2 ≠ 0 ∨ bits r 24 4 ≠ 0 ∨ bits r 0 4 ≠ 0 ∨ 1 < bits r 60 2))
    || k.gates.any (fun r => decide (bits r 0 5 ≠ 0))
    || k.lists.any (fun r => decide (bits r 80 13 ≠ 0 ∨ bits r 0 24 ≠ 0))
    || progReserved f l k

/-! ## Ranges (Table 8.10) -/

/-- Whether a local gate number is declared, or names none. -/
def Course.gateIn (k : Course) (g : Nat) : Bool := decide (g < chGates k.hdr ∨ g = noGate)

/-- The header's own ranges and its gates (Table 8.1, R168). -/
def Course.hdrIn (k : Course) (scales : Nat) : Bool :=
  let h := k.hdr
  decide (1 ≤ chSDecl h ∧ chSDecl h ≤ 96 ∧ chGates h ≤ 4096 ∧ chScaleRecs h ≤ 16384 ∧ 1 ≤ chSegments h ∧ chStepEnd h < chSegments h
      ∧ 1 ≤ chTensors h ∧ k.segs.length = chSegments h ∧ k.tensors.length = chTensors h ∧ k.gates.length = chGates h
      ∧ scales = chScaleRecs h ∧ k.stages.length ≤ chSDecl h ∧ ¬ (chWidth h = 2 ∧ 24 < chSDecl h))
    && (if chKind h = 0 then decide (chVerdict h < chGates h ∧ chScaleGate h = noGate)
      else decide (chVerdict h = noGate ∧ (chScaleGate h < chGates h ∨ (chScaleGate h = noGate ∧ chScaleRecs h = 0))))

/-- A segment descriptor's ranges (Table 8.5, R166). -/
def Course.segIn (k : Course) (i r : Nat) : Bool :=
  decide (1 ≤ sgS r ∧ sgS r ≤ 96 ∧ sgFirst r < 96 ∧ sgLoopTo r ≤ i ∧ 1 ≤ sgUseCount r ∧ sgUseFirst r + sgUseCount r ≤ k.uses.length
      ∧ sgConfFirst r + sgConfCount r ≤ max k.conflicts.length (if sgConfCount r = 0 then sgConfFirst r else 0)
      ∧ sgStrmFirst r + sgStrmCount r ≤ max k.streams.length (if sgStrmCount r = 0 then sgStrmFirst r else 0)
      ∧ sgSram r ≤ 1280 * carveWidth (chWidth k.hdr) ∧ (sgStepEnd r ↔ i = chStepEnd k.hdr))
    && k.gateIn (sgWaitA r) && k.gateIn (sgWaitB r) && k.gateIn (sgSigA r) && k.gateIn (sgSigB r)

/-- A use record's ranges and references (Table 8.6). -/
def Course.useIn (k : Course) (r : Nat) : Bool :=
  let t := k.tensors.length
  decide ((usStn r < 96 ∨ usStn r = 0x7F) ∧ usVisits r ≤ 96 ∧ (usGroup r < chScaleRecs k.hdr ∨ usGroup r = noGroup)
      ∧ (usConv r < k.convs.length ∨ usConv r = noConv) ∧ usOpTensor r < t ∧ usStTensor r < t
      ∧ (if usRoute r = 2 then usOutTensor r < max 1 k.lists.length else usOutTensor r < t))
    && k.gateIn (usWait r) && k.gateIn (usSig r)

/-- A convolution descriptor's ranges, with the element size of a use that names it (R152, Table 7.2). -/
def convIn (r eb : Nat) : Bool :=
  let taps := bits r 86 9
  let cnt := bits r 95 9
  decide (1 ≤ bits r 176 13 ∧ bits r 176 13 ≤ 4096 ∧ 1 ≤ bits r 163 13 ∧ bits r 163 13 ≤ 4096 ∧ 1 ≤ bits r 150 13 ∧ bits r 150 13 ≤ 4096
    ∧ 1 ≤ bits r 116 10 ∧ 1 ≤ cnt ∧ cnt ≤ 256 ∧ 1 ≤ taps ∧ taps ≤ 256 ∧ 1 ≤ bits r 73 5 ∧ bits r 73 5 ≤ 16 ∧ 1 ≤ bits r 68 5
    ∧ bits r 68 5 ≤ 16 ∧ taps * cnt ≤ 256 ∧ bits r 78 8 + taps ≤ bits r 73 5 * bits r 68 5 ∧ (bits r 104 12 + cnt) * eb ≤ 8 * bits r 116 10)

/-- Every convolution descriptor, alone and for each use that names it. -/
def Course.convsIn (k : Course) : Bool :=
  k.convs.all (fun r => convIn r 0) && k.uses.all (fun u => usConv u = noConv ||
    convIn (k.convs.getD (usConv u) 0) (((fmtOf (usOpFmt u)).elim 0 elemBits) / 8))

/-- Units of a memory kind (Table 8.8). -/
def memUnits (mem : Nat) : Nat := [0, 384, 64, 256, 256, 8, 8, 2, 12, 8].getD mem 0

/-- The innermost loop that holds a segment: the index of its looping segment; the last segment outside all loops. -/
def Course.loopEnd (k : Course) (i : Nat) : Nat :=
  let ls := (List.range k.segs.length).filter (fun j => decide (sgLoopTo (k.seg j) < j ∧ sgLoopTo (k.seg j) ≤ i ∧ i ≤ j))
  let span (j : Nat) : Nat := j - sgLoopTo (k.seg j)
  (ls.foldl (fun (m : Option Nat) j => match m with
    | none => some j
    | some b => if span j < span b then some j else some b) none).getD (k.segs.length - 1)

/-- A stream declaration's ranges (R206, R207). -/
def Course.streamIn (k : Course) (decl r : Nat) : Bool :=
  let free := stDest r = 2 || stDest r = 3
  decide (stTensor r < k.tensors.length ∧ 1 ≤ stBlCount r ∧ stBlFirst r + stBlCount r ≤ k.blocks.length ∧ stClose r < k.segs.length
      ∧ (if stDispose r = 1 then 1 ≤ stLast r else stLast r = 0)
      ∧ (if free then stResMin r = 0 ∧ stResMax r = 0 else 1 ≤ stResMin r ∧ stResMin r ≤ stResMax r)
      ∧ (stDest r = 1 → 1 ≤ stStnDiv r ∧ 1 ≤ stStnMod r))
    && (((k.blocks.drop (stBlFirst r)).take (stBlCount r)).drop (if stDest r = 3 then 1 else 0)).all (fun b => decide (1 ≤ blCount b ∧ 1 ≤ blStep b))
    && (k.items decl).all (fun t => decide (t < tnRows (k.tensor (stTensor r)) * tnCols (k.tensor (stTensor r))))
    && (k.openers decl).all (fun o => decide (o ≤ stClose r ∧ stClose r ≤ k.loopEnd o))

/-- A scale record of the file: its format a converter's, its hardware-kept fields zero (Table 5.1). -/
def scaleIn (r : Nat) : Bool :=
  decide (1 ≤ bits r 12 4 ∧ bits r 12 4 ≤ 5 ∧ bits r 104 8 ≠ 0xFF ∧ bits r 112 16 = 0 ∧ bits r 96 8 = 0 ∧ bits r 32 64 = 0
    ∧ bits r 28 4 = 0 ∧ bits r 10 2 = 0)

/-- The sources that an operation names, and what it says of moments (R251, Table 12.5). -/
def instrSrcs (w : Nat) : List Nat :=
  let op := bits w 58 6
  let a := bits w 48 6
  let b := bits w 42 6
  let c := bits w 36 6
  if op = 0 then [] else if op ≤ 3 ∨ op = 5 ∨ op = 6 then [a, b] else if op = 4 ∨ op = 9 then [a, b, c] else [a]

/-- A binding with its program (R251). -/
def Course.bindIn (k : Course) (r : Nat) : Bool :=
  let t := k.tensors.length
  let ws := programWords (k.progs.getD (bdProg r) [])
  let has1 := decide (bdS1 r ≠ noTensor)
  let has2 := decide (bdS2 r ≠ noTensor)
  let n (op : Nat) : Nat := (ws.filter (fun w => bits w 58 6 = op)).length
  decide (bdTensor r < t ∧ bdWc1 r < t ∧ bdS0 r < t ∧ (bdS1 r < t ∨ bdS1 r = noTensor) ∧ (bdS2 r < t ∨ bdS2 r = noTensor)
      ∧ bdProg r < k.progs.length ∧ (has1 ↔ bdF1 r ≠ 0) ∧ (has2 ↔ bdF2 r ≠ 0)
      ∧ n 0x10 = 1 ∧ n 0x11 = has1.toNat ∧ n 0x12 = has2.toNat
      ∧ tnRows (k.tensor (bdWc1 r)) = tnRows (k.tensor (bdTensor r)) ∧ tnCols (k.tensor (bdWc1 r)) = tnCols (k.tensor (bdTensor r)))
    && ws.all (fun w => (has1 || !(instrSrcs w).contains 0x12) && (has2 || !(instrSrcs w).contains 0x13)
      && (decide (bits w 58 6 < 0x10) || decide (bits w 48 6 < 0x10)))

/-- Everything of Table 8.10 that ends a load with ST_BOUNDS and does not depend on a patch. -/
def Course.inBounds (k : Course) (scales : List Nat) (f : List Byte) : Bool :=
  k.hdrIn scales.length
    && k.segs.zipIdx.all (fun e => k.segIn e.2 e.1)
    && k.uses.all k.useIn
    && k.tensors.all (fun r => decide (1 ≤ tnRows r ∧ 1 ≤ tnCols r ∧ tnVa r % 64 = 0))
    && k.convsIn
    && k.conflicts.all (fun r => decide (1 ≤ bits r 28 12 ∧ bits r 40 20 + bits r 28 12 ≤ memUnits (bits r 60 4) ∧ 1 ≤ bits r 10 8))
    && k.gates.all (fun r => decide (1 ≤ gdWd r ∧ 1 ≤ gdTarget r))
    && k.lists.all (fun r => decide (1 ≤ bits r 105 11 ∧ bits r 105 11 ≤ 1024))
    && k.locker.all (fun r => decide (bits r 14 10 ≤ 512 ∧ bits r 4 10 ≤ 512))
    && k.streams.zipIdx.all (fun e => k.streamIn e.2 e.1)
    && scales.all scaleIn
    && k.binds.all k.bindIn
    && (findSection (fileSections f) 0x0C).all (fun x => decide (1 ≤ x.count))
    && (match findSection (fileSections f) 0x0D with
      | some x => decide (1 ≤ x.count ∧ x.count ≤ 4095 ∧ bits (fileNat f x.off 64) 488 12 = x.count)
      | none => true)

/-! ## Formats -/

/-- Whether an MX stream is a row of Table 4.7. -/
def mxKnown (mx fmt : Nat) (egress : Bool) : Bool :=
  match mx with
  | 1 => fmt = 1
  | 2 => fmt = 2
  | 3 => fmt = 3
  | 4 => fmt = 1 && !egress
  | 5 => fmt = 4
  | 6 => fmt = 5
  | _ => false

/-- The checks that end a load with ST_FORMAT: R101, output formats against their groups, MX streams, adds into one sum that disagree
(R287), bindings (R251). -/
def Course.formatsIn (k : Course) (scales : List Nat) : Bool :=
  let adds := k.uses.filter (fun u => usAcc u = 2)
  scales.all (fun r => !(bits r 16 2 = 1 && bits r 12 4 = 2))
    && k.uses.all (fun u => usGroup u = noGroup || usOutFmt u = bits (scales.getD (usGroup u) 0) 12 4)
    && k.streams.all (fun r => if stDest r = 3 then mxKnown (stMxFmt r) (tnFmt (k.tensor (stTensor r))) (stMxDir r) else stMxFmt r = 0)
    && adds.all (fun u => adds.all (fun v => usOutTensor u ≠ usOutTensor v || (usRnd u = usRnd v && usSeed u = usSeed v)))
    && k.binds.all (fun r =>
      let lay (t : Nat) : Bool := t = noTensor || tnLayout (k.tensor t) = 2
      (fmtOf (tnFmt (k.tensor (bdTensor r)))).any hasScale && tnFmt (k.tensor (bdWc1 r)) = tnFmt (k.tensor (bdTensor r))
        && lay (bdS0 r) && lay (bdS1 r) && lay (bdS2 r))

/-! ## Quotas (R134, R207, R219, R294) -/

/-- The most declarations that can be open at once, over segment indices (R207). -/
def Course.mostOpen (k : Course) : Nat :=
  (List.range k.segs.length).foldl (fun m i => max m (((List.range k.streams.length).filter (fun d => k.spans d i)).length)) 0

/-- R219: at every segment index, the RES_MIN of covering streams and the RES_MAX of kept streams closed before fit each pool. -/
def Course.poolsFit (k : Course) (a : BibArgs) : Bool :=
  let ds := (List.range k.streams.length).filter (fun d => decide (stDest (k.stream d) < 2))
  let need (pool i : Nat) : Nat := (ds.map (fun d =>
    let r := k.stream d
    if !samePool (k.stream pool) r then 0
    else if k.spans d i then stResMin r * k.itemBytes d
    else if stDispose r = 0 ∧ stClose r < i then stResMax r * k.itemBytes d else 0)).sum
  ds.all (fun p => (List.range k.segs.length).all (fun i =>
    need p i ≤ k.poolBytes a p (carveWidth (chWidth k.hdr)) || !(stDest (k.stream p) = 0 || k.spans p i)))

/-- Courses of a bib that are resident. -/
def State.coursesOf (s : State) (b : BitVec 12) : List (Nat × Course) := s.crs.courses.filter (fun e => e.2.bib = b)

/-- Free module gates, lowest first. -/
def State.freeGates (s : State) (n : Nat) : List Nat := ((List.range 32768).filter (fun g => (s.gate g).state = 0)).take n

/-- The quota checks of a load (Table 8.10, R134, R207, R294). -/
def State.loadFits (s : State) (k : Course) : Bool :=
  let mine := s.coursesOf k.bib
  let a := (s.bib k.bib).args
  let open_ := k.mostOpen
  let slots (p : Nat → Bool) : Nat := ((s.lift.reserved.filter (fun e => p e.1)).map (·.2)).sum
  decide (mine.length + 1 ≤ a.courses.toNat)
    && (List.range 4).all (fun d => decide (s.lkr.keepRsv.read 0 d + s.lkr.workRsv.read 0 d + (k.lockerUnits d).1 + (k.lockerUnits d).2 ≤ 512))
    && (s.freeGates (chGates k.hdr)).length = chGates k.hdr
    && decide ((mine.map (fun e => chScaleRecs e.2.hdr)).sum + chScaleRecs k.hdr ≤ 16384)
    && decide (slots (fun _ => true) + open_ ≤ 4096)
    && decide (slots (fun c => mine.any (fun e => e.1 = c)) + open_ ≤ a.streams.toNat)
    && k.poolsFit a

/-- Whether the pages of every tensor agree in PROT (R203). -/
def State.protAgrees (s : State) (k : Course) : Bool :=
  k.tensors.all (fun r =>
    let n := if tnLayout r = 0 then tnRows r * tnCols r * tileBytesOf (tnFmt r) else tnRows r * tnCols r * 65536
    let es := (pagesOf (tnVa r) n).map (s.pte k.bib)
    es.all (fun e => e.state = 0 || e.prot = (es.find? (fun x => x.state ≠ 0)).any (·.prot)))

/-- The status that ends a load, if a check fails (Table 8.10, in its order; log entry 33). -/
def State.loadFault (s : State) (f : List Byte) (len : Nat) (k : Course) (digestOk : Bool) : Option Status :=
  let scales := sectionRecs f (fileSections f) 0x08
  if !fileLayout f len then some .format
  else if fileReserved f k then some .version
  else if !digestOk then some .auth
  else if !k.inBounds scales f then some .bounds
  else if !((List.range (chSDecl k.hdr)).all (fun n => s.patchesFit k (n + 1))) || !s.protAgrees k then some .bounds
  else if !k.formatsIn scales then some .format
  else if !s.loadFits k then some .quota
  else none

end Sys2Proof.Machine
end

