-- ==== Sys2Proof/Machine/Load.lean ====
section
/-! DEFINITION. Courses come and go: LOAD, UNLOAD, and the operator's orders to a course's update (R160, R169, R172, R173, R183, R252,
R261, R294, R361). -/

namespace Sys2Proof.Machine

/-! ## Loading (R172, R173, Table 8.11) -/

/-- The scale record of a group at load (Table 5.1). -/
def loadScale (r : Nat) : ScaleRec :=
  { scale := BitVec.ofNat 8 (bits r 104 8), h := BitVec.ofNat 4 (bits r 24 4), hBase := BitVec.ofNat 4 (bits r 24 4)
    srate := BitVec.ofNat 4 (bits r 20 4), sweep := BitVec.ofNat 2 (bits r 18 2), policy := BitVec.ofNat 2 (bits r 16 2)
    fmt := BitVec.ofNat 4 (bits r 12 4) }

/-- A list at load: empty, THRESH at +∞ or −∞ (R157, Table 7.5). -/
def loadList (r : Nat) : TopList :=
  { bib := BitVec.ofNat 12 (bits r 116 12), k := BitVec.ofNat 11 (bits r 105 11), sense := bitAt r 93
    thresh := BitVec.ofNat 40 (w40.infCode (bitAt r 93)) }

/-- The gates of a course are drawn from the free ones and armed (R173, Table 8.14). -/
def State.armGates (s : State) (k : Course) : State :=
  s.each k.gateMap.zipIdx (fun t e =>
    let r := k.gates.getD e.2 0
    t.setGate e.1 { bib := k.bib, scope := gdScope r, state := 1, target := BitVec.ofNat 16 (gdTarget r), wd := BitVec.ofNat 10 (gdWd r) })

/-- The locker areas of a course are reserved (R134). -/
def State.takeLocker (s : State) (k : Course) : State :=
  s.each [0, 1, 2, 3] (fun t d =>
    let (keep, work) := k.lockerUnits d
    { t with lkr.keepRsv := t.lkr.keepRsv.write 0 d (t.lkr.keepRsv.read 0 d + keep)
             lkr.workRsv := t.lkr.workRsv.write 0 d (t.lkr.workRsv.read 0 d + work)
             lkr.reserved := t.lkr.reserved.write 0 d (t.lkr.reserved.read 0 d + keep + work) })

/-- The header bases that the loader assigns: tensors with tiles, one after the other (R192). -/
def Course.bases (k : Course) : List Nat :=
  (k.tensors.foldl (fun (a : List Nat × Nat) r => (a.1 ++ [a.2], if tnLayout r = 0 then a.2 + tnRows r * tnCols r else a.2)) ([], 0)).1

/-- A course whose checks have passed becomes resident in a slot: patched, its gates relocated, headers, locker areas, scale table, lists
and stream slots taken; the domain's counters start (R134, R157, R173, R192, R207, R361). -/
def State.install (s : State) (c : Nat) (k0 : Course) (scales : List Nat) : State :=
  let k1 : Course := { k0 with gateMap := s.freeGates (chGates k0.hdr), hdrBase := k0.bases }
  let k := s.patched k1 (chSDecl k1.hdr)
  let t := (((s.clearCounters (fun id inst => domainCounter id && decide (inst = c))).setCourse c k).armGates k).takeLocker k
  let t1 := t.each scales.zipIdx (fun t e => t.setScale c e.2 (loadScale e.1))
  let t2 := t1.each k.lists.zipIdx (fun t e => { t with mem.lists := t.mem.lists.insert (k.bib.toNat * 2 ^ 24 + e.2) (loadList e.1) })
  let t3 := t2.addHeaders k
  { t3 with lift.reserved := t3.lift.reserved.write 0 c k.mostOpen }

/-- Pages that a bib's headers and lists have taken come off its T2 quota (R157, R192). -/
def State.chargeHeaders (s t : State) (b : BitVec 12) : State :=
  let r := t.bib b
  t.setBib b { r with t2Used := r.t2Used + t.headerPages b - s.headerPages b }

/-- Stage distances that a course declares and a run's D(0, j) does not have: each adds one to STAGE_DIFF (R169). -/
def State.countLoadStages (s : State) (c : Nat) (k : Course) (ds : List Nat) : State :=
  let n := stageDiff ds k.stages
  let t := s.setCourse c { k with dist := ds }
  if n = 0 then t else t.count 0x080A c n

/-- D(0, j) of the run that the scheduler would grant now (R169; log entry 32). -/
def State.loadDistances (s : State) (k : Course) : List Nat :=
  match s.grant k (s.bib k.bib).args [] with
  | some o => stageDistances (rinkOfDie s.cfg (o.run.headD 0 / 26)) (carveWidth (chWidth k.hdr)) o.run
  | none => []

/-- LOAD: a course file in the bib's T2 pages is checked and becomes resident in the slot; the reply carries D(0, j), and section
0x0C is compared with it (R169). A check that fails
ends the load with its status and takes nothing (R172). -/
def execLoad (c : Hdr) (va : BitVec 48) (len : BitVec 32) (digestOk : Bool) (s : State) : Out :=
  s.command 0x0201 c fun s c =>
    let n := len.toNat
    let inT2 := (pagesOf va.toNat n).all (fun p => (s.pte c.bib p).tier = 2)
    match s.vaFault c.bib va.toNat n false with
    | some (.fail st) => s.reply c st
    | some _ => s.reply c .busy
    | none =>
      if !inT2 then s.reply c .bounds
      else if (s.course c.slot.toNat).isSome ∨ 256 ≤ s.crs.courses.length then s.reply c .busy
      else
        let f := s.vaRead c.bib va.toNat n
        let k := fileCourse f c.bib (s.jobM c.bib)
        match s.loadFault f n k digestOk with
        | some st => s.reply c st
        | none =>
          let t := s.chargeHeaders (s.install c.slot.toNat k (sectionRecs f (fileSections f) 0x08)) c.bib
          if (t.bib c.bib).args.t2Quota.toNat < (t.bib c.bib).t2Used then s.reply c .quota
          else
            let ds := s.loadDistances k
            let u := match t.course c.slot.toNat with
              | some k' => t.countLoadStages c.slot.toNat k' ds
              | none => t
            u.replyWith c (.distances ds)

/-- UNLOAD: a resident course that does not run and has no blocked wait leaves its slot (R183). -/
def execUnload (c : Hdr) (s : State) : Out :=
  s.command 0x0202 c fun s c =>
    s.onCourse c fun k =>
      if (s.domain c.slot.toNat).isSome ∨ k.gateMap.any (fun n => (s.gate n).waits ≠ []) then s.reply c .busy
      else (s.dropCourse c.slot.toNat k).reply c .ok

/-! ## Orders to a course (R252, R261) -/

/-- FREEZE: the freeze table of a slot's course, one bit for each binding, taken at the next step-end token (R261). -/
def execFreeze (c : Hdr) (table : List Bool) (s : State) : Out :=
  s.command 0x0205 c fun s c =>
    s.onCourse c fun k =>
      if table.length ≠ k.binds.length then s.reply c .bounds
      else ({ s with upd.freezeNext := s.upd.freezeNext.insert c.slot.toNat table }).reply c .ok

/-- CONSTS: the constants K0 to K15 of a program are replaced at the next step-end token (R252). -/
def execConsts (c : Hdr) (prog : BitVec 4) (ks : List (BitVec 40)) (s : State) : Out :=
  s.command 0x0206 c fun s c =>
    s.onCourse c fun k =>
      if k.progs.length ≤ prog.toNat ∨ ks.length ≠ 16 then s.reply c .bounds
      else ({ s with upd.constsNext := s.upd.constsNext ++ [(c.slot, prog.toNat, ks.map BitVec.toNat)] }).reply c .ok

end Sys2Proof.Machine
end

