-- ==== Sys2Proof/Machine/Locker.lean ====
section
/-! DEFINITION. The locker: entries, their spill and return, and what a step's end or a loss does to them (R134 to R142). -/

namespace Sys2Proof.Machine

/-! ## Entries and spill pages (R134 to R136) -/

/-- Bytes of an entry (Table 6.5). -/
def entrySize (kind fmt : Nat) : Nat :=
  match kind with
  | 1 => tileBytesOf fmt
  | 2 => 8192
  | 3 => 8192
  | 4 => 16384
  | _ => 32768

/-- A slot's entries of a die in a spill tier, those on their way there included. -/
def State.entriesIn (s : State) (c die tier : Nat) : List LkrEntry :=
  s.lkr.entries.filter (fun e => e.slot.toNat = c && e.die = die && e.spillTo tier)

/-- The most pages of a tier that the locker may hold for a die (Table 6.4, R139). -/
def State.spillMost (s : State) (k : Course) (c die tier : Nat) : Nat :=
  if tier = 1 then k.lockerT1 die else bits (k.locker.getD die 0) 42 18 + s.lkr.extraT2.read 0 c

/-- The spill page of a tier that takes an entry of `n` bytes: the first with room for it whole, or a new one within the locker's pages and
the bib's quota (R134 to R136). -/
def State.spillPage (s : State) (k : Course) (c die tier n : Nat) : Option Nat :=
  let l := s.entriesIn c die tier
  let used (p : Nat) : Nat := ((l.filter (fun e => e.page = p)).map (·.size)).sum
  match (List.range (l.length + 1)).find? (fun p => decide (used p + n ≤ 2 ^ 21)) with
  | some p =>
    let old := l.any (fun e => e.page = p)
    if old ∨ (((l.map (·.page)).eraseDups).length < s.spillMost k c die tier ∧ (s.quotaBib k.bib).quotaFor tier (die * 2 ^ 12)) then some p else none
  | none => none

/-- The tier and page that an entry of `n` bytes is spilled to: T1 while its pages last, then T2; none when both are full (R136). -/
def State.spillTier (s : State) (k : Course) (c die n : Nat) : Option (Nat × Nat) :=
  [1, 2].findSome? (fun t => (s.spillPage k c die t n).map (fun p => (t, p)))

/-- The spill of one entry begins: bytes count, the first spill of a step is recorded as R140 says. Its place changes at the commit of its
move (R137). -/
def State.spill (s : State) (k : Course) (c : Nat) (e : LkrEntry) (tier page : Nat) : State :=
  let s1 : State := { s with lkr.entries := s.lkr.entries.map (fun x =>
    if x.seq = e.seq then { x with tier := 3, dst := BitVec.ofNat 2 tier, page := page } else x) }
  let s2 := s1.count (if tier = 1 then 0x080D else 0x080E) c e.size
  let mark := c * 4 + tier
  if s2.lkr.marks.contains mark || (tier = 1 && bits (k.locker.getD e.die 0) 60 2 = 1) then s2
  else
    ({ s2 with lkr.marks := mark :: s2.lkr.marks }).raise
      { bib := e.bib, slot := BitVec.ofNat 8 c, src := 1, srcInst := BitVec.ofNat 12 e.die, arg := .lockerSpill (BitVec.ofNat 2 e.die) (BitVec.ofNat 2 tier) }

/-- The oldest entries are spilled until `need` bytes are on their way out. With T1 and T2 full the domain holds under cause 5 and its bib
receives ST_QUOTA (R139). -/
def State.makeRoom (s : State) (k : Course) (c die : Nat) : Nat → List LkrEntry → State
  | _, [] => s
  | need, e :: l =>
    if need = 0 then s
    else match s.spillTier k c die e.size with
      | some (tier, page) => (s.spill k c e tier page).makeRoom k c die (need - e.size) l
      | none => if (s.hold c).cause.getLsbD 5 then s else (s.raiseHold c 5).notify k.bib .quota 0

/-! ## What entries keep (R123, R127) -/

/-- What an entry about to be written finds: what it is to keep, that it must wait, or a violation. -/
inductive EntryData
  | ready (d : List Byte)
  | wait
  | bad (st : Status)

/-- The bytes of a plane of 65,536 elements of `w` bits, the first in the lowest bits. -/
def planeBytes (t : Table Nat) (w : Nat) : List Byte :=
  (List.range (8192 * w)).map (fun i =>
    BitVec.ofNat 8 ((List.range (8 / w)).foldl (fun a j => a + t.read 0 (i * (8 / w) + j) * 2 ^ (j * w)) 0))

/-- What an entry of a kind keeps: a boundary tile's bytes at its home, or a plane all of whose elements post-units have written. -/
def State.entryData (s : State) (k : Course) (slot : BitVec 8) (kind fmt : Nat) (tensor : BitVec 32) (unit : BitVec 24) : EntryData :=
  if kind = 1 then
    (match s.tileHdr (tileOf k.bib tensor.toNat unit.toNat) with
    | some h =>
      if h.fmt.toNat ≠ fmt then .bad .format
      else if h.state ≠ 0 ∨ 2 ≤ h.home.tier.toNat then .wait
      else .ready (s.bytesAt (homeKey h.home) (tileBytesOf fmt))
    | none => .bad .bounds)
  else match s.arr.planes.lookup (planeKey slot tensor unit) with
    | some t => if t.length = 65536 then .ready (planeBytes t (entrySize kind fmt / 8192)) else .wait
    | none => .wait

/-- LOCKER_ENTRY_WRITE: a segment writes an entry to the keep area if it has room; if not, room is made and the writer waits (R136). A
reserved kind or format code, or READS of 0, is a violation (R9, Table 6.6). The place of an entry within its space is not stated: a free
value. -/
def execLockerEntryWrite (slot : BitVec 8) (seg : BitVec 20) (die : Fin 4) (kind fmt : BitVec 4) (reads : BitVec 2) (tensor : BitVec 32)
    (unit : BitVec 24) (mb : BitVec 8) (s : State) : Out :=
  s.event fun s =>
    let c := slot.toNat
    match s.course c, s.domain c with
    | some k, some d =>
      match d.live.lookup seg.toNat with
      | some l =>
        if !d.running || d.suspended then s
        else if kind = 0 ∨ 5 < kind.toNat ∨ (kind = 1 ∧ (fmtOf fmt.toNat).isNone) then s.violate c .version seg.toNat 0 (kind.setWidth 128)
        else if reads = 0 then s.violate c .bounds seg.toNat 0 0
        else match s.entryData k slot kind.toNat fmt.toNat tensor unit with
          | .wait => s
          | .bad st => s.violate c st seg.toNat 0 (unit.setWidth 128)
          | .ready data =>
            let n := entrySize kind.toNat fmt.toNat
            let keep := bits (k.locker.getD die.val 0) 14 10 * 65536
            let here := s.lkr.entries.filter (fun e => e.slot = slot && e.die = die.val && e.tier = 0)
            let leaving := ((s.lkr.entries.filter (fun e => e.slot = slot && e.die = die.val && e.tier = 3)).map (·.size)).sum
            let used := (here.map (·.size)).sum
            if used + leaving + n ≤ keep then
              { s with
                lkr.entries := s.lkr.entries ++ [{ kind := kind, tier := 0, reads := reads, bib := k.bib, tensor := tensor, unit := unit, mb := mb
                                                   home := s.freeVal 34, slot := slot, die := die.val, size := n, seq := s.lkr.next
                                                   step := l.step, data := data }]
                lkr.next := s.lkr.next + 1
                arr.planes := if kind = 1 then s.arr.planes else s.arr.planes.remove (planeKey slot tensor unit)
                freeCtr := s.freeCtr + 1 }
            else s.makeRoom k c die.val (used + n - keep) here
      | none => s
    | _, _ => s

/-! ## Reads (R137, R138, R141, R142) -/

/-- Items of a slot's open streams that name a unit of a tensor: how many there are, and how many have arrived. -/
def State.unitItems (s : State) (c : Nat) (k : Course) (tensor unit : Nat) : Nat × Nat :=
  (s.strmsOf c).foldl (fun a x =>
    if stTensor (k.stream x.2.decl.toNat) = tensor ∧ 2 ≤ x.2.state.toNat ∧ x.2.state.toNat ≤ 4 then
      let l := (k.items x.2.decl.toNat).zipIdx.filter (fun e => e.1 = unit)
      (a.1 + l.length, a.2 + (l.filter (fun e => (x.2.items.lookup e.2).any (·.committed))).length)
    else a) (0, 0)

/-- What has been read from an entry is at hand: a boundary tile's bytes at the tile's home, a plane's for its post-units. -/
def State.handOut (s : State) (e : LkrEntry) : State :=
  if e.kind = 1 then
    (match s.tileHdr (tileOf e.bib e.tensor.toNat e.unit.toNat) with
    | some h => s.setBytes (homeKey h.home) e.data
    | none => s)
  else { s with lkr.readOut := s.lkr.readOut.insert (readKey e.slot e.tensor e.unit e.mb) e.data }

/-- Whether a read of an entry must wait for its tile, in motion or out of T0 and T1. -/
def State.tileAway (s : State) (e : LkrEntry) : Bool :=
  e.kind = 1 && (s.tileHdr (tileOf e.bib e.tensor.toNat e.unit.toNat)).any (fun h => h.state ≠ 0 || decide (2 ≤ h.home.tier.toNat))

/-- An entry that cannot be read back is lost: its bib receives ST_DATA_LOST naming it, and the step is neither committed nor skipped
(R142). -/
def State.loseEntry (s : State) (e : LkrEntry) : State :=
  let c := e.slot.toNat
  let t : State := { s with lkr.entries := s.lkr.entries.filter (fun x => x.seq ≠ e.seq)
                            crs.domains := s.crs.domains.each (fun i d => if i = c then { d with lost := true } else d) }
  (if e.tier = 1 then t.count 0x0204 e.die 1 else t).notifyOf e.bib .dataLost 0 (.lost e.tensor (e.unit.setWidth 40) e.mb)

/-- LOCKER_ENTRY_READ: a read of an entry in the keep area or T1, or in T2 once its stream has brought it: READS falls, at 0 the
entry is freed. A moving entry makes the read wait; a freed one, or one in T2 that no open stream names, is not the bib's; an unreadable one
is lost (R137, R138, R141, R142, R209). The items of a unit's entries come in SEQ order. -/
def execLockerEntryRead (slot : BitVec 8) (die : Fin 4) (tensor : BitVec 32) (unit : BitVec 24) (mb : BitVec 8) (readable : Bool) (s : State) : Out :=
  s.event fun s =>
    let c := slot.toNat
    let notHome := s.violate c .notHome 0 0 (BitVec.ofNat 128 (tensor.toNat + unit.toNat * 2 ^ 32 + mb.toNat * 2 ^ 56))
    match s.lkr.entries.find? (fun e => e.slot = slot && e.die = die.val && e.tensor = tensor && e.unit = unit && e.mb = mb) with
    | none => notHome
    | some e =>
      let items := (s.course c).elim (0, 0) (fun k => s.unitItems c k tensor.toNat unit.toNat)
      let older := (s.lkr.entries.filter (fun x => x.slot = slot && x.tensor = tensor && x.unit = unit && x.tier = 2 && decide (x.seq < e.seq))).length
      if e.tier = 2 ∧ items.1 ≤ older then notHome
      else if e.tier = 3 ∨ (e.tier = 2 ∧ items.2 ≤ older) ∨ s.tileAway e then s
      else if !readable then s.loseEntry e
      else
        let es := if e.reads.toNat ≤ 1 then s.lkr.entries.filter (fun x => x.seq ≠ e.seq)
          else s.lkr.entries.map (fun x => if x.seq = e.seq then { x with reads := x.reads - 1 } else x)
        let t := ({ s with lkr.entries := es }).handOut e
        if e.tier = 0 then t else t.count (if e.tier = 1 then 0x080F else 0x0810) c e.size

end Sys2Proof.Machine
end

