-- ==== Sys2Proof/Machine/Mx.lean ====
section
/-! DEFINITION. Conversion between OCP MX v1.0 and square-block tiles (R91 to R96, R212). -/

namespace Sys2Proof.Machine

/-- Element bits of an MX format code (Table 4.7, Table 10.1). -/
def mxBits (mx : Nat) : Nat := if mx = 3 ∨ mx = 4 then 6 else if mx = 5 then 4 else 8

/-- The tile format of an MX format code (Table 4.7). -/
def mxFmt (mx : Nat) : Fmt :=
  match mx with
  | 1 => .e4m3
  | 2 => .e5m2
  | 3 => .e3m2
  | 4 => .e4m3
  | 5 => .e2m1
  | _ => .int8

/-- The value of an MX element without its block scale. -/
def mxValue (mx code : Nat) : Val := if mx = 4 then e2m3.fin (bitAt code 5) (code % 32) else decodeElem (mxFmt mx) code

/-- The exponent of a block scale: an MXINT8 element carries a factor of 2^-6 (R94). -/
def mxExp (mx x : Nat) : Int := if mx = 6 then (x : Int) - 6 else x

/-- Whether a tile format has no NaN (R93). -/
def noNan (f : Fmt) : Bool := f = .e3m2 || f = .e2m1 || f = .int8

/-- What the converter writes for one element shifted by 2^d, and whether its value changed. -/
def mxRound (f : Fmt) (v : Val) (d : Int) : Nat × Bool :=
  match v with
  | .fin x =>
    let y := x.shift d
    let (code, _) := drainEncode f 127 (.fin y)
    let z := (decodeElem f code).dy
    (code, z.lt y || y.lt z)
  | v => ((drainEncode f 127 v).1, false)

/-- A patch at ingest: its scale byte, its codes in order, and how many values changed (R92 to R94). `elem` and `scale` give the MX
element and block scale of an element of the patch; `open_` stands for a scale and codes that the spec leaves open: the scale of
a patch of NaN rows, the elements of a patch that is NaN by its scale. -/
def mxPatch (mx : Nat) (elem scale : Nat → Nat → Nat) (open_ : Nat) : Nat × List Nat × Nat :=
  let f := mxFmt mx
  let cells := (List.range 64).map (fun i => (elem (i / 8) (i % 8), scale (i / 8) (i % 8)))
  let scales := (cells.map (·.2)).filter (fun x => x ≠ 0xFF)
  let p : Nat := scales.foldl (fun m x => max m (max (mxExp mx x) 0).toNat) 0
  let nanRow := cells.any (fun e => e.2 = 0xFF)
  if nanRow && noNan f then (0xFF, cells.map (fun _ => open_ % 2 ^ elemBits f), 0)
  else
    let rs := cells.map (fun e =>
      if e.2 = 0xFF then ((drainEncode f 127 .nan).1, false) else mxRound f (mxValue mx e.1) (mxExp mx e.2 - p))
    (if scales = [] then open_ % 255 else p, rs.map (·.1), (rs.filter (·.2)).length)

/-- The block scale of four patch scales at egress (R94, R95). -/
def mxBlock (mx : Nat) (ps : List Nat) : Nat :=
  if ps.contains 0xFF then 0xFF
  else
    let x := ps.foldl max 0
    if mx = 6 then min (x + 6) 0xFE else x

/-- An element at egress, and whether its value changed (R94, R95). DESIGN CHOICE (log 58): in a block whose scale is 0xFF the
element's bits are a free value and count as no change; R95 gives the block's scale only. -/
def mxOut (mx block p code open_ : Nat) : Nat × Bool :=
  let f := mxFmt mx
  if block = 0xFF then (open_ % 2 ^ elemBits f, false) else mxRound f (decodeElem f code) ((p : Int) - mxExp mx block)

/-- A byte of MX data in a bib's T2 pages. -/
def State.mxByte (s : State) (b : BitVec 12) (va : Nat) : Byte :=
  match s.xlate b va false false with
  | .ok h => s.byte (homeKey h)
  | _ => 0

/-- A byte of MX data is written to a bib's T2 pages. -/
def State.setMxByte (s : State) (b : BitVec 12) (va : Nat) (x : Byte) : State :=
  match s.xlate b va true false with
  | .ok h => s.setByte (homeKey h) x
  | _ => s

/-- The `n` bits at bit `i` of the MX data at `va`. -/
def State.mxBitsAt (s : State) (b : BitVec 12) (va i n : Nat) : Nat :=
  bits ((s.mxByte b (va + i / 8)).toNat + 256 * (s.mxByte b (va + i / 8 + 1)).toNat) (i % 8) n

/-- The `n` bits at bit `i` of the MX data at `va` are written. -/
def State.setMxBits (s : State) (b : BitVec 12) (va i n v : Nat) : State :=
  let w := setBits ((s.mxByte b (va + i / 8)).toNat + 256 * (s.mxByte b (va + i / 8 + 1)).toNat) (i % 8) n v
  let t := s.setMxByte b (va + i / 8) (BitVec.ofNat 8 w)
  if i % 8 + n ≤ 8 then t else t.setMxByte b (va + i / 8 + 1) (BitVec.ofNat 8 (w / 256))

/-- Where a stream's MX data stands: its address, the tensor's rows and columns of elements, the axis and the format (R212). -/
structure MxData where
  va   : Nat
  rows : Nat
  cols : Nat
  axis : Bool
  mx   : Nat

/-- The first bit of element (r, c). -/
def MxData.elemAt (m : MxData) (r c : Nat) : Nat := (r * m.cols + c) * mxBits m.mx

/-- The byte of the scale of element (r, c)'s block, blocks in row-major order after the elements. -/
def MxData.scaleAt (m : MxData) (r c : Nat) : Nat :=
  m.rows * m.cols * mxBits m.mx / 8 + (if m.axis then r / 32 * m.cols + c else r * (m.cols / 32) + c / 32)

/-- The block of element (r, c) within its tile, as the row's operands number them. -/
def MxData.blockOf (m : MxData) (r c : Nat) : Nat := if m.axis then r / 32 * 256 + c else r * 8 + c / 32

/-- One patch of a tile is ingested, and values that changed are added up. -/
def State.ingestPatch (s : State) (mx : Nat) (home : Nat) (elem scale : Nat → Nat → Nat) (n pr pc : Nat) : State × Nat :=
  let e (r c : Nat) : Nat := elem (8 * pr + r) (8 * pc + c)
  let sc (r c : Nat) : Nat := scale (8 * pr + r) (8 * pc + c)
  let open_ := Config.dataFree 8 (mx :: (List.range 64).flatMap (fun i => [e (i / 8) (i % 8), sc (i / 8) (i % 8)]))
  let (p, codes, lost) := mxPatch mx e sc open_.toNat
  let t := s.setByte (home + scaleByteOf (8 * pr) (8 * pc)) (BitVec.ofNat 8 p)
  (t.each codes.zipIdx (fun t e => t.setElem home (mxFmt mx) (8 * pr + e.2 / 8) (8 * pc + e.2 % 8) e.1), n + lost)

/-- Ingest of one tile at its home. -/
def State.ingest (s : State) (mx home : Nat) (elem scale : Nat → Nat → Nat) : State × Nat :=
  (List.range 1024).foldl (fun (a : State × Nat) i => a.1.ingestPatch mx home elem scale a.2 (i / 32) (i % 32)) (s, 0)

/-- Egress of one tile to MX data in T2 pages; elements that changed are counted. -/
def State.egress (s : State) (b : BitVec 12) (m : MxData) (home r0 c0 : Nat) : State × Nat :=
  let f := mxFmt m.mx
  let scaleOf (r c : Nat) : Nat := (s.byte (home + scaleByteOf r c)).toNat
  (List.range 65536).foldl (fun (a : State × Nat) i =>
    let r := i / 256
    let c := i % 256
    let four := if m.axis then (List.range 4).map (fun j => scaleOf (r / 32 * 32 + 8 * j) c) else (List.range 4).map (fun j => scaleOf r (c / 32 * 32 + 8 * j))
    let block := mxBlock m.mx four
    let (code, lost) := mxOut m.mx block (scaleOf r c) (s.elemAt home f r c)
      (Config.dataFree 8 [m.mx, block, scaleOf r c, s.elemAt home f r c]).toNat
    let t := (a.1.setMxBits b m.va (m.elemAt (r0 + r) (c0 + c)) (mxBits m.mx) code).setMxByte b (m.va + m.scaleAt (r0 + r) (c0 + c)) (BitVec.ofNat 8 block)
    (t, a.2 + lost.toNat)) (s, 0)

/-- MX_CONVERT: the next item of a DEST 3 stream is converted at its home, from or to the bib's T2 pages; from the host window the
data are the row's operands, to it they leave the module. Ingest writes the tile (TERMS 0, VERSION + 1); no home moves (R212). The
tile's bytes count in LIFT_MX_B (Table 10.8); a poisoned tile is not read (R194). -/
def execMxConvert (strm : BitVec 12) (item : BitVec 24) (scales elems : List (BitVec 8)) (s : State) : Out :=
  s.event fun s =>
    match s.strm strm.toNat with
    | some x =>
      match s.course x.slot.toNat, s.domain x.slot.toNat with
      | some k, some dom =>
        let d := k.stream x.decl.toNat
        let tn := k.tensor (stTensor d)
        let idx := (k.items x.decl.toNat).getD item.toNat 0
        let t := tileOf k.bib (stTensor d) idx
        let m : MxData := { va := bits (k.blocks.getD (stBlFirst d) 0) 0 48, rows := 256 * tnRows tn, cols := 256 * tnCols tn
                            axis := stAxis d, mx := stMxFmt d }
        if stDest d ≠ 3 ∨ x.state ≠ 2 ∨ x.next ≠ item ∨ (k.items x.decl.toNat).length ≤ item.toNat ∨ !s.mayRun x.slot.toNat then s
        else match s.tileHdr t with
          | none => s.violate x.slot.toNat .bounds dom.pc 0 (item.setWidth 128)
          | some h =>
            let c := x.slot.toNat
            let home := homeKey h.home
            let r0 := idx / tnCols tn * 256
            let c0 := idx % tnCols tn * 256
            let inT2 : Bool := match s.xlate k.bib m.va (stMxDir d) false with
              | .ok _ => true
              | _ => false
            if h.state = 1 then s
            else if h.state = 2 then s.notifyLost t
            else if stMxDir d && h.poison then s.notify k.bib .fault 0
            else if h.fmt.toNat ≠ fmtCode (mxFmt m.mx) then s.violate c .format dom.pc 0 (item.setWidth 128)
            else
              let (u, n) := if stMxDir d then (if inT2 then s.egress k.bib m home r0 c0 else s.egress k.bib { m with va := 2 ^ 48 } home r0 c0)
                else if inT2 then s.ingest m.mx home (fun r c => s.mxBitsAt k.bib m.va (m.elemAt (r0 + r) (c0 + c)) (mxBits m.mx))
                  (fun r c => (s.mxByte k.bib (m.va + m.scaleAt (r0 + r) (c0 + c))).toNat)
                else s.ingest m.mx home (fun r c => (elems.getD (r * 256 + c) 0).toNat % 2 ^ mxBits m.mx) (fun r c => (scales.getD (m.blockOf r c) 0).toNat)
              let u0 := if n = 0 then u else u.count (if stMxDir d then 0x0819 else 0x0818) c n
              let u1 := u0.count 0x0904 c (tileBytesOf h.fmt.toNat)
              let u2 := u1.setStrm strm.toNat { x with next := x.next + 1, done := x.done + 1 }
              if stMxDir d then u2
              else
                let h' := { h with terms := 0, version := h.version + 1, epoch := (s.bib k.bib).curEpoch, poison := false }
                ((u2.tileOut h).tileIn h').setTile t h'
      | _, _ => s
    | none => s

end Sys2Proof.Machine
end

