-- ==== Sys2Proof/Machine/Power.lean ====
section
/-! DEFINITION. Feeds, the power-on sequence, loss of power, trip and pins (chapter 18). -/

namespace Sys2Proof.Machine

/-- FEED_PRESENT: a feed rises to 47.0 V or above (Table 18.1); it starts nothing (R384). -/
def execFeedPresent (b : Bool) (vin : BitVec 16) (s : State) : Out :=
  .next (if 4700 ≤ vin.toNat then s.setFeed b { s.feed b with present := true, vin := vin } else s)

/-- FEED_LOST: a feed falls below 46.0 V: LOST is set and stays set, and the module goes on from the other feed (R383). -/
def execFeedLost (b : Bool) (vin : BitVec 16) (s : State) : Out :=
  .next (if vin.toNat < 4600 then
    let t := s.setFeed b { s.feed b with present := false, lost := true, vin := vin }
    if t.fed then t else t.unfed
  else s)

/-- BOTH_FEEDS_LOST: both feeds below 46.0 V within one 1 ms window (R383). -/
def execBothFeedsLost (s : State) : Out :=
  let a := { s.pwr.feedA with present := false, lost := true, vin := 0 }
  let b := { s.pwr.feedB with present := false, lost := true, vin := 0 }
  .next ({ s with pwr.feedA := a, pwr.feedB := b }).unfed

/-- PWR_EN_ASSERT: the rails start on a rising edge that follows at least 1 ms of PWR_EN low with a feed present (R384). -/
def execPwrEnAssert (lowUs : Nat) (s : State) : Out :=
  let t := { s with pwr.pwrEn := true }
  .next (if s.pwr.stage = .dark ∧ s.pwr.pwrEn = false ∧ s.fed ∧ 1000 ≤ lowUs
    then { t with pwr.stage := .rising .vaux } else t)

/-- PWR_EN_NEGATE: with RESET_N asserted the rails fall in reverse order (R385); with RESET_N negated the module goes dark
as for two lost feeds (R383). -/
def execPwrEnNegate (s : State) : Out :=
  let t := { s with pwr.pwrEn := false }
  .next (match s.pwr.stage with
    | .good => if s.pwr.resetN then t.lose .holdup else t.allOff
    | .rising _ => t.allOff
    | _ => t)

/-- The identities of a feed as S3 reads them: a memory that cannot be read gives zeros and ID_OK = 0 (R382). -/
def Feed.identify (f : Feed) (i : Option (BitVec 32 × BitVec 32)) : Feed :=
  match i with
  | some (c, r) => { f with circuit := c, source := r, idOk := c ≠ 0 && r ≠ 0 }
  | none => { f with circuit := 0, source := 0, idOk := false }

/-- RAIL_IN_REGULATION: S3 starts the time base from zero and reads the feed identities; S4 to S6 follow; after VCORE,
PWR_GOOD is asserted (Table 18.3). VFLASH and VPHY of S4 may come in either order. -/
def execRailInRegulation (rail : Rail) (idA idB : Option (BitVec 32 × BitVec 32)) (s : State) : Out :=
  .next (match s.pwr.stage, rail with
    | .rising .vaux, .vaux =>
      { s with clk := {}, pwr.stage := .rising .vflash, pwr.feedA := s.pwr.feedA.identify idA, pwr.feedB := s.pwr.feedB.identify idB }
    | .rising .vflash, .vflash => { s with pwr.stage := if s.pwr.phyUp then .rising .vdram else .rising .vphy }
    | .rising .vflash, .vphy => { s with pwr.phyUp := true }
    | .rising .vphy, .vphy => { s with pwr.stage := .rising .vdram, pwr.phyUp := true }
    | .rising .vdram, .vdram => { s with pwr.stage := .rising .vcore }
    | .rising .vcore, .vcore => { s with pwr.stage := .good, pwr.pwrGood := true, pwr.reset := true }
    | _, _ => s)

/-- RAIL_START_TIMEOUT: a rail of the sequence not in regulation by its max stops the sequence with every rail off;
THERM_TRIP_N stays high (R384). -/
def execRailStartTimeout (rail : Rail) (s : State) : Out :=
  .next (match s.pwr.stage with
    | .rising r => if r = rail || (r = .vflash && rail = .vphy && !s.pwr.phyUp) then s.allOff else s
    | _ => s)

/-- RAIL_REGULATION_LOSS: after PWR_GOOD it negates PWR_GOOD; the hold-up keeps VFLASH, and nothing is latched; with VAUX
itself everything ends at once (R397). -/
def execRailRegulationLoss (rail : Rail) (s : State) : Out :=
  .next (match s.pwr.stage with
    | .good => if rail = .vaux then s.allOff else s.lose .holdup
    | _ => s)

/-- HOLDUP_EXPIRY: the flash and auxiliary rails fall (R383, R397). A tripped module with a feed keeps VAUX and its latch;
with none it loses both (R390). -/
def execHoldupExpiry (s : State) : Out :=
  .next (match s.pwr.stage with
    | .holdup => s.allOff
    | .tripped => if s.fed then s else s.allOff
    | _ => s)

/-- RESET_N_NEGATE: from 1 ms after PWR_GOOD on, module reset is negated at once; before, it is held until then (R384),
and BOOT_ROM_START finds it so. -/
def execResetNNegate (sinceGoodUs : Nat) (s : State) : Out :=
  let t := { s with pwr.resetN := true }
  .next (if s.pwr.pwrGood && decide (1000 ≤ sinceGoodUs) then { t with pwr.reset := false } else t)

/-- RESET_N_ASSERT: module reset is held (Table 18.8). -/
def execResetNAssert (s : State) : Out := .next ({ s with pwr.resetN := false }).moduleReset

/-- THERMAL_TRIP: a temperature at or above its trip level for 100 µs: THERM_TRIP_N is latched, and every rail but VAUX and
the flash hold-up goes off (R390). -/
def execThermalTrip (rinkTj hubTj stackTj nearTj tOut : BitVec 8) (s : State) : Out :=
  let hot := decide (115 ≤ rinkTj.toNat ∨ 115 ≤ hubTj.toNat ∨ 115 ≤ stackTj.toNat ∨ 110 ≤ nearTj.toNat ∨ 65 ≤ tOut.toNat)
  let on := match s.pwr.stage with
    | .good => true
    | .rising r => decide (r ≠ .vaux)
    | _ => false
  .next (if hot && on then
    let t := s.lose .tripped
    { t with pwr.thermTripN := false }
  else s)

/-- TRIP_LATCH_CLEAR: PWR_EN has been low for 1 s: the latch clears, and VAUX falls with the rest (R390). -/
def execTripLatchClear (s : State) : Out :=
  .next (if s.pwr.stage = .tripped ∧ s.pwr.pwrEn = false then s.allOff else s)

/-- PERST_ASSERT: PERST# resets the PCIe endpoint and nothing else (R391). -/
def execPerstAssert (s : State) : Out := .next { s with pwr.perst := true, pwr.pcieUp := false }

end Sys2Proof.Machine
end

