-- ==== Sys2Proof/Machine/Vcore.lean ====
section
/-! DEFINITION. The time base, VCORE, the beat monitors and the throttle limits (chapter 2, R387, R389), the heartbeat and
the service cores (R273, R349). -/

namespace Sys2Proof.Machine

/-! ## Throttle limits (R396) -/

/-- A step down: a released limit becomes active two steps below ACTUAL; an active one goes two steps below the lower of
itself and ACTUAL; none below 0x00. -/
def stepDown (lim : Option (BitVec 8)) (actual : BitVec 8) : Option (BitVec 8) :=
  match lim with
  | none => some (BitVec.ofNat 8 (actual.toNat - 2))
  | some l => some (BitVec.ofNat 8 (min l.toNat actual.toNat - 2))

/-- A step up raises an active limit by one step; at TARGET it is released. -/
def stepUp (lim : Option (BitVec 8)) (target : BitVec 8) : Option (BitVec 8) :=
  match lim with
  | none => none
  | some l => if target.toNat ≤ l.toNat + 1 then none else some (BitVec.ofNat 8 (l.toNat + 1))

/-- A limit that stands at or above TARGET after a write of TARGET is released. -/
def releaseAt (lim : Option (BitVec 8)) (target : BitVec 8) : Option (BitVec 8) :=
  match lim with
  | none => none
  | some l => if target.toNat ≤ l.toNat then none else some l

/-- The lesser of a set point and a limit, if the limit is active. -/
def atMost (v : Nat) (lim : Option (BitVec 8)) : Nat :=
  match lim with
  | none => v
  | some l => min v l.toNat

/-- The set point in force (R35). -/
def Vcore.least (v : Vcore) : Nat :=
  atMost (atMost (atMost (min v.target.toNat v.ceil.toNat) v.limJ) v.limF) v.limC

/-- Whether an active limit stands at `a`. -/
def standsAt (lim : Option (BitVec 8)) (a : Nat) : Bool :=
  match lim with
  | none => false
  | some l => l.toNat = a

/-- The value of CAUSE (R387): 0x1 under hold duty; else, below TARGET, the lowest limit's code, ties to the lowest code. -/
def Vcore.causeFor (v : Vcore) (a : Nat) : BitVec 4 :=
  if v.duty ≠ 0 then 1
  else if a < v.target.toNat then
    (if standsAt v.limJ a then 1 else if standsAt v.limF a then 2 else if standsAt v.limC a then 3 else 4)
  else 0

/-- ACTUAL_SETTLE: ACTUAL is the least of TARGET and the active limits (R35), with CAUSE and CEILING as R387 states. -/
def Vcore.settle (v : Vcore) : Vcore :=
  let a := v.least
  { v with actual := BitVec.ofNat 8 a, cause := v.causeFor a
           ceiling := decide (v.ceil.toNat < v.target.toNat ∧ v.ceil.toNat = a), atFloor := v.atFloor && a = 0 }

/-- THROTTLE of Table 2.3. -/
def Vcore.throttle (v : Vcore) : Bool := decide (v.actual.toNat < v.target.toNat)

/-- SLEWING of Table 2.3. -/
def Vcore.slewing (v : Vcore) : Bool := v.rail ≠ v.actual

/-- A write of TARGET (Table 2.3, R35, R396): above 0x30 it is stored as 0x30; limits at or above it are released, but for
the junction limit under hold duty, which R37 keeps at 0x00. -/
def Vcore.writeTarget (v : Vcore) (target : BitVec 8) : Vcore :=
  let t : BitVec 8 := if 0x30 < target.toNat then 0x30 else target
  ({ v with target := t, limJ := if v.duty ≠ 0 then v.limJ else releaseAt v.limJ t, limF := releaseAt v.limF t
            limC := releaseAt v.limC t }).settle

/-- THROTTLE_LOOP_EVAL: the first row of Table 2.5 whose condition holds for the hottest Rink-die junction. -/
def Vcore.loop (v : Vcore) (tj : Nat) : Vcore :=
  if v.duty ≠ 0 then
    if 105 ≤ tj then { v with duty := min 90 (v.duty + 10), limJ := some 0 }
    else if 102 ≤ tj then { v with limJ := some 0 }
    else { v with duty := v.duty - 10, limJ := some 0 }
  else if 103 ≤ tj ∧ v.actual ≠ 0 then { v with limJ := stepDown v.limJ v.actual }
  else if 105 ≤ tj ∧ v.atFloor then { v with duty := 10, limJ := some 0 }
  else if 100 ≤ tj then v
  else { v with limJ := stepUp v.limJ v.target }

/-- FEED_CURRENT_EVAL (R387): PIN in W, currents in 10 mA. -/
def Vcore.feedCurrent (v : Vcore) (pin iinA iinB : Nat) : Vcore :=
  if 3600 ≤ pin ∨ 8000 ≤ iinA ∨ 8000 ≤ iinB then { v with limF := stepDown v.limF v.actual }
  else if 3500 ≤ pin then v
  else { v with limF := stepUp v.limF v.target }

/-- The chassis thermal-alert limit (R389). -/
def Vcore.chassis (v : Vcore) (alertN : Bool) : Vcore :=
  if alertN then { v with limC := stepUp v.limC v.target } else { v with limC := stepDown v.limC v.actual }

/-- CEILING_STEP (R26): a die above 2,050 Mbeat/s takes the ceiling one step below ACTUAL; otherwise it is the highest set
point that satisfies R26, as the controller finds it. -/
def Vcore.ceilingStep (v : Vcore) (rates : List (BitVec 16)) (ceil : BitVec 8) : Vcore :=
  if rates.any (fun r => decide (2050 < r.toNat)) then { v with ceil := BitVec.ofNat 8 (v.actual.toNat - 1) }
  else { v with ceil := ceil }

/-- A beat monitor after a window (R34, Table 2.4). -/
def BeatMon.window (m : BeatMon) (rate : BitVec 16) (tj : BitVec 8) : BeatMon :=
  { rate := rate, tj := tj, rateMin := if rate.toNat < m.rateMin.toNat then rate else m.rateMin }

/-- The four monitors after a window. -/
def monsAfter : Nat → List (BitVec 16) → List (BitVec 8) → Table BeatMon → Table BeatMon
  | k, r :: rs, t :: ts, m => monsAfter (k + 1) rs ts (m.write {} k ((m.read {} k).window r t))
  | _, _, _, m => m

/-- The largest of a list of bytes. -/
def hottest (l : List (BitVec 8)) : Nat := l.foldl (fun m t => max m t.toNat) 0

/-- Junctions that the Rink dies' monitors report. -/
def State.rinkTjs (s : State) : List (BitVec 8) := (List.range 4).map (fun k => (s.vc.mons.read {} k).tj)

/-- Temperatures of the near tiers. -/
def State.nearTjs (s : State) : List (BitVec 8) := (List.range 4).map (fun k => (s.mem.near.read {} k).tj)

/-- THERM_ALERT_DRIVE (R389): low at a threshold, released two degrees below every one of them, else as it is. -/
def State.driveAlert (s : State) : State :=
  let r := hottest s.rinkTjs
  let n := hottest s.nearTjs
  let t := s.pwr.modPwr.tOut.toNat
  if 100 ≤ r ∨ 95 ≤ n ∨ 60 ≤ t then { s with pwr.thermAlertN := false }
  else if r ≤ 98 ∧ n ≤ 93 ∧ t ≤ 58 then { s with pwr.thermAlertN := true }
  else s

/-- CHASSIS_ALERT: CHASSIS_ALERT_N changes level; its limit moves in the windows that follow (R389). -/
def execChassisAlert (level : Bool) (s : State) : Out :=
  .next (({ s with pwr.chassisAlertN := level, vc := s.vc.settle }).driveAlert)

/-- VCORE_TARGET_WRITE: Zilunzor writes TARGET (R35). -/
def execVcoreTargetWrite (target : BitVec 8) (s : State) : Out :=
  s.event fun s => { s with vc := s.vc.writeTarget target }

/-- VCORE: the operator's command writes TARGET (Table 16.7, R35). -/
def execVcore (c : Hdr) (target : BitVec 8) (s : State) : Out :=
  s.command 0x0505 c fun s c => ({ s with vc := s.vc.writeTarget target }).reply c .ok

/-- VCORE_SLEW_STEP: the rail moves one 5 mV step towards ACTUAL (R35); it raises no hold (R36). -/
def execVcoreSlewStep (s : State) : Out :=
  s.event fun s =>
    let v := s.vc.settle
    let r := if v.rail.toNat < v.actual.toNat then v.rail + 1 else if v.actual.toNat < v.rail.toNat then v.rail - 1 else v.rail
    { s with vc := { v with rail := r } }

/-- Registers that a window fills (Tables 2.4, 18.2, 18.2a). -/
def State.readings (s : State) (r : Readings) : State :=
  let fa := s.pwr.feedA
  let fb := s.pwr.feedB
  let m := s.pwr.modPwr
  { s with
    vc.mons := monsAfter 0 r.rate r.tj s.vc.mons
    pwr.feedA := { fa with vin := r.vinA, iin := r.iinA, iinMax := if fa.iinMax.toNat < r.iinA.toNat then r.iinA else fa.iinMax }
    pwr.feedB := { fb with vin := r.vinB, iin := r.iinB, iinMax := if fb.iinMax.toNat < r.iinB.toNat then r.iinB else fb.iinMax }
    pwr.modPwr := { m with pin := r.pin, pinMax := if m.pinMax.toNat < r.pin.toNat then r.pin else m.pinMax, tIn := r.tIn, tOut := r.tOut } }

/-- The rail controller over one window (R26, R35, R37, R387, R389). -/
def Vcore.window (v : Vcore) (r : Readings) (alertN : Bool) : Vcore :=
  let v1 := v.loop (hottest r.tj)
  let v2 := v1.feedCurrent r.pin.toNat r.iinA.toNat r.iinB.toNat
  let v3 := v2.chassis alertN
  let v4 := v3.ceilingStep r.rate r.ceil
  let v5 := v4.settle
  { v5 with atFloor := v5.actual = 0 }

/-- The ticks of the piece that the hold duty holds of each window of 1,000 ticks (R34, R38). -/
def Vcore.pieceTicks (v : Vcore) : Nat := 10 * v.duty

/-- BEAT_MONITOR_WINDOW: a 1 ms window ends (R34); each loop acts once, and under hold duty the piece that starts the next
window holds every domain for the duty's part of it (R38). -/
def execBeatMonitorWindow (r : Readings) (s : State) : Out :=
  s.event fun s =>
    let t := (s.readings r).driveAlert
    let u := { t with vc := t.vc.window r t.pwr.chassisAlertN }
    if u.vc.duty = 0 then u
    else
      let w : State := { u with vc.piece := some u.vc.pieceTicks }
      w.each w.runningSlots (fun w c => w.raiseHold c 4)

/-- HOLD_DUTY_PIECE_END: the ticks of the thermal piece have passed and cause 4 clears on every domain (R29, R38). -/
def execHoldDutyPieceEnd (s : State) : Out :=
  s.event fun s =>
    if s.vc.piece = some 0 then
      let t : State := { s with vc.piece := none }
      t.each t.runningSlots (fun w c => w.clearHold c 4)
    else s

/-! ## The time base (R28, R29) -/

/-- The time base after `n` nanoseconds, the epoch counting wraps. -/
def Clock.after (k : Clock) (n : Nat) : Clock :=
  { ts := BitVec.ofNat 64 (k.ts.toNat + n), epoch := if 2 ^ 64 ≤ k.ts.toNat + n then k.epoch + 1 else k.epoch, ahead := k.ahead }

/-- The time base after the reference cycles that end at the first timestamp past 2^64; it is then ahead of the last tick token
by as much. -/
def Clock.wrap (k : Clock) : Clock :=
  let n := 10 * ((2 ^ 64 - k.ts.toNat + 9) / 10)
  { k.after n with ahead := k.ahead + n }

/-- The time base at the next tick token, 1,000 ns of timestamp after the last (R28). -/
def Clock.tick (k : Clock) : Clock := { k.after (1000 - k.ahead) with ahead := k.ahead - 1000 }

/-- TIMESTAMP_WRAP: the reference cycle of 10 ns that carries the timestamp past 2^64, on which the epoch counts up (R28). It
falls inside the tick that holds it; TICK_TOKEN then counts the rest of that tick. -/
def execTimestampWrap (s : State) : Out :=
  .next (if s.vauxUp && decide (2 ^ 64 ≤ s.clk.ts.toNat + 1000) then { s with clk := s.clk.wrap } else s)

/-- Time under the causes of a hold in one microsecond: each active cause counts its own (R185), CURRENT grows and
saturates (Table 8.17). -/
def State.tickHold (s : State) (c : Nat) : State :=
  let h := s.hold c
  if h.cause = 0 then s
  else
    let t := s.setHold c { h with current := if h.current = 0xFFFFFFFF then h.current else h.current + 1 }
    t.each (setBitsFrom 7 0 h.cause.toNat) (fun u n => u.count (0x0800 + n) c 1000)

/-! ## Heartbeat and service cores (R273, R349) -/

/-- HEARTBEAT_TOGGLE: core 0 toggles the heartbeat, unless a whole row of cores has failed (R349). -/
def execHeartbeatToggle (s : State) : Out :=
  s.event fun s =>
    if s.zilUp && !s.boot.rowLost then { s with sl.heartbeat := true, sl.toggle := !s.sl.toggle, sl.quiet := 0 } else s

/-- HEARTBEAT_LOSS: 1 ms without a toggle, 1,000 ticks, drops the heartbeat term of every switch drive (R29, R273). -/
def execHeartbeatLoss (s : State) : Out :=
  s.event fun s => if 1000 ≤ s.sl.quiet then { s with sl.heartbeat := false } else s

/-- The next core of the same row of Table 16.10a. -/
def nextCore (k : Nat) : Nat := k / 4 * 4 + (k % 4 + 1) % 4

/-- SERVICE_CORE_HANG: a hung core is restarted, its duties pass to the next core of its row; when a whole row fails, core
0 stops toggling the heartbeat and the module becomes a lost member (R349). -/
def execServiceCoreHang (core : Fin 16) (wholeRow : Bool) (s : State) : Out :=
  s.event fun s =>
    if wholeRow then { s with boot.rowLost := true }
    else { s with boot.duty := s.boot.duty.insert core.val (nextCore core.val) }

end Sys2Proof.Machine
end

