-- ==== Sys2Proof/Machine/Registers.lean ====
section
/-! DEFINITION. Writes of the service register block, by the access codes of Table 0.4 (R8 to R10; log entry 38). -/

namespace Sys2Proof.Machine

/-- Which register of a row of registers lies at an offset: `n` of them from `base`, `stride` apart. -/
def regIndex (base stride n off : Nat) : Option Nat :=
  if base ≤ off ∧ (off - base) % stride = 0 ∧ (off - base) / stride < n then some ((off - base) / stride) else none

/-- A w1c bit after a write of `w` (Table 0.4). -/
def w1c (b w : Bool) : Bool := b && !w

/-- RINK_CFG (Table 3.5): REJECT is w1c, REQUEST rw; a REJECT that this write sets stays set (R10). -/
def State.writeRinkCfg (s : State) (v : BitVec 128) : State :=
  ({ s with rink.cfg.reject := w1c s.rink.cfg.reject (v.getLsbD 13) }).writeRequest (v.extractLsb' 0 4)

/-- STN_CTL_p (Table 3.6): FAULT is w1c, WITHDRAW rw. -/
def State.writeStnCtl (s : State) (p : Nat) (v : BitVec 128) : State :=
  (s.setStn p { s.stn p with fault := (s.stn p).fault &&& ~~~ v.extractLsb' 52 4 }).writeWithdraw p (v.getLsbD 59)

/-- HOLD_STAT_c (Table 8.17): LIMIT is rw, 0 stored as 1; PAUSE is rw. -/
def State.writeHoldStat (s : State) (c : Nat) (v : BitVec 128) : State :=
  let lim : BitVec 16 := v.extractLsb' 32 16
  (s.setHold c { s.hold c with limit := if lim = 0 then 1 else lim }).writePause c (v.getLsbD 63)

/-- STK_ECC_s (Table 9.13): SECOND is w1c. -/
def State.writeStkEcc (s : State) (i : Nat) (v : BitVec 128) : State :=
  s.setStack i { s.stack i with second := w1c (s.stack i).second (v.getLsbD 50) }

/-- UPD_SLOT_c (Table 12.9): CLIP, CLIP_EN and CLIP_ARMED are rw. -/
def State.writeUpdSlot (s : State) (c : Nat) (v : BitVec 128) : State :=
  s.writeClip c (v.extractLsb' 96 32) (v.getLsbD 95) (v.getLsbD 94)

/-- SL_PORT_n (Table 13.11): DRAIN is rw, PATTERN wo. A write that leaves DRAIN as it is changes nothing of the port's drain. -/
def State.writeSlPort (s : State) (n : Nat) (v : BitVec 128) : State :=
  let t := if v.getLsbD 57 = (s.port n).drain then s else s.writeDrain n (v.getLsbD 57)
  if v.getLsbD 56 then t.writePattern n else t

/-- PF_CTL (Table 17.4): DONE is w1c, START wo. -/
def State.writePfCtl (s : State) (v : BitVec 128) : State :=
  let t : State := { s with pf.done := w1c s.pf.done (v.getLsbD 61) }
  if v.getLsbD 63 then t.pfRequest else t

/-- FEED_f (Table 18.2): LOST is w1c. -/
def State.writeFeedReg (s : State) (f : Nat) (v : BitVec 128) : State :=
  let b := decide (f = 1)
  s.setFeed b { s.feed b with lost := w1c (s.feed b).lost (v.getLsbD 58) }

/-- A write of `v` to the register at an offset: rw and wo fields take their value or trigger their action, a 1 clears a w1c bit,
r, rc and reserved fields ignore it (R8, R9). A register that has only such fields, and an offset with no register, change nothing. -/
def State.writeRegister (s : State) (off : Nat) (v : BitVec 128) : State :=
  if off = 0 then { s with vc := s.vc.writeTarget (v.extractLsb' 16 8) }
  else if off = 0x100 then s.writeRinkCfg v
  else if off = 0x7200 then s.writePfCtl v
  else match regIndex 0x200 0x20 104 off with
  | some p => s.writeStnCtl p v
  | none => match regIndex 0x2000 8 256 off with
  | some c => s.writeHoldStat c v
  | none => match regIndex 0x3040 8 8 off with
  | some i => s.writeStkEcc i v
  | none => match regIndex 0x4000 0x10 256 off with
  | some c => s.writeUpdSlot c v
  | none => match regIndex 0x5000 8 12 off with
  | some n => s.writeSlPort n v
  | none => match regIndex 0x5100 8 6 off with
  | some i => s.writeJoin i (v.getLsbD 52)
  | none => match regIndex 0x7300 8 2 off with
  | some f => s.writeFeedReg f v
  | none => match regIndex 0x10000 0x10 4096 off with
  | some n => if v.getLsbD 7 then s.writeCancel n else s
  | none => s

/-- REGISTER_WRITE: Zilunzor writes a register of the service register block. -/
def execRegisterWrite (off : BitVec 32) (val : BitVec 128) (s : State) : Out :=
  s.event fun s => s.writeRegister off.toNat val

end Sys2Proof.Machine
end

