-- ==== Sys2Proof/Machine/Selftest.lean ====
section
/-! DEFINITION. Self-test, field repair, calibration on request, the JTAG port, the end of start-up, RESET (R20, R64, R67, R245, R355,
R359, R371 to R380). -/

namespace Sys2Proof.Machine

/-! ## Units under test (Table 17.7) -/

/-- The number of a unit under test. -/
def unitKey (unit inst : Nat) : Nat := unit * 4096 + inst

/-- Instances of a unit code; a code that Table 17.7 does not have has none. -/
def unitCount (unit : Nat) : Nat :=
  match unit with
  | 1 => 104
  | 2 => 8
  | 3 => 12
  | 4 => 16
  | 5 => 1
  | 15 => 1
  | _ => 0

/-- TEST_STAT as a word (Table 17.9). -/
def TestStat.word (t : TestStat) : BitVec 64 :=
  BitVec.ofNat 64 (t.unit.toNat * 2 ^ 56 + t.inst.toNat * 2 ^ 44 + t.state.toNat * 2 ^ 41 + t.part.toNat * 2 ^ 37 + t.row.toNat * 2 ^ 28
    + t.col.toNat * 2 ^ 21 + t.qtr.toNat * 2 ^ 19)

/-- Whether a station of a die is under test. -/
def State.dieTesting (s : State) (die : Nat) : Bool := s.test.running.any (fun k => decide (k / 4096 = 1 ∧ k % 4096 / 26 = die))

/-- Whether the condition under which a unit's test begins holds (R371, R373): a withdrawn station on a die with no other under test, a
drained ring for a port, no other lodge channel under test, no running bib for the start-up set. -/
def State.testReady (s : State) (unit inst : Nat) : Bool :=
  match unit with
  | 1 => (s.stn inst).wdDone && !s.dieTesting (inst / 26)
  | 2 => true
  | 3 => s.patternFree inst
  | 4 => !s.test.running.any (fun k => k / 4096 = 4)
  | 15 => !s.anyRunning
  | _ => false

/-- A test begins: TEST_STAT shows it running; a stack's test slots and a port's patterns start. -/
def State.beginTest (s : State) (unit inst : Nat) : State :=
  let key := unitKey unit inst
  let t : State := { s with test := { s.test with
    waiting := s.test.waiting.filter (fun k => k ≠ key), running := s.test.running ++ [key]
    stat := { unit := BitVec.ofNat 4 unit, inst := BitVec.ofNat 12 inst, state := 2 } } }
  match unit with
  | 2 => t.setStack inst { t.stack inst with tests := 0, tested := false }
  | 3 => t.startPattern inst
  | _ => t

/-- SELFTEST: a unit that Table 17.7 does not have, or a position fused out, is out of bounds; one under test is busy. A withdrawn station is
tested at once, any other is withdrawn first; other units wait for their condition; code 0x5 runs at the next start-up (R373). -/
def execSelftest (c : Hdr) (unit : BitVec 4) (inst : BitVec 12) (s : State) : Out :=
  s.command 0x0507 c fun s c =>
    let u := unit.toNat
    let i := inst.toNat
    let key := unitKey u i
    if unitCount u ≤ i ∨ (u = 1 ∧ (s.stnMap (i / 26)).failed.getLsbD (i % 26)) then s.reply c .bounds
    else if s.test.running.contains key then s.reply c .busy
    else if u = 5 then ({ s with test.startup := true }).defer c (.selftest unit inst)
    else if u = 1 && s.testReady 1 i then
      let t := s.beginTest 1 i
      { t with cmd.waiting := t.cmd.waiting ++ [(.selftest unit inst, c)] }
    else
      let set := u = 1 && !(s.stn i).withdraw
      let t := if set then s.writeWithdraw i true else s
      let t1 : State := { t with test := { t.test with
        waiting := if t.test.waiting.contains key then t.test.waiting else t.test.waiting ++ [key]
        byTest := if set then t.test.byTest ++ [i] else t.test.byTest
        stat := { unit := unit, inst := inst, state := 1 } } }
      t1.defer c (.selftest unit inst)

/-- SELFTEST_START: a deferred test begins once its condition is met (R373). -/
def execSelftestStart (unit : BitVec 4) (inst : BitVec 12) (s : State) : Out :=
  s.event fun s =>
    if s.test.waiting.contains (unitKey unit.toNat inst.toNat) && s.testReady unit.toNat inst.toNat
    then s.beginTest unit.toNat inst.toNat else s

/-! ## Field repair (R64, R67) -/

/-- The pads of a row map, lowest first, each with its FIELD bit. -/
def RowMap.pads (r : RowMap) : List (Nat × Bool) :=
  [(r.pad0.toNat, r.field.getLsbD 0), (r.pad1.toNat, r.field.getLsbD 1), (r.pad2.toNat, r.field.getLsbD 2), (r.pad3.toNat, r.field.getLsbD 3)]

/-- A row map with the pads of a list in ascending order. -/
def RowMap.ofPads (l : List (Nat × Bool)) : RowMap :=
  let p := l.mergeSort (fun a b => decide (a.1 ≤ b.1))
  let at_ (i : Nat) : Nat × Bool := p.getD i (0, false)
  { pad0 := BitVec.ofNat 9 (at_ 0).1, pad1 := BitVec.ofNat 9 (at_ 1).1, pad2 := BitVec.ofNat 9 (at_ 2).1, pad3 := BitVec.ofNat 9 (at_ 3).1
    field := maskOf 4 ((List.range 4).filter (fun i => (at_ i).2)) }

/-- PADQ of a quarter. -/
def ColMap.pad (m : ColMap) (q : Nat) : BitVec 7 :=
  match q with
  | 0 => m.pq0
  | 1 => m.pq1
  | 2 => m.pq2
  | _ => m.pq3

/-- PADQ of a quarter set by field repair. -/
def ColMap.setPad (m : ColMap) (q : Nat) (c : BitVec 7) : ColMap :=
  let m := { m with field := m.field ||| maskOf 4 [q] }
  match q with
  | 0 => { m with pq0 := c }
  | 1 => { m with pq1 := c }
  | 2 => { m with pq2 := c }
  | _ => { m with pq3 := c }

/-- EV_REPAIR of a station: the part and the position repaired. -/
def stnRepair (p part detail : Nat) : Event :=
  { src := 2, srcInst := BitVec.ofNat 12 p, arg := .repair (BitVec.ofNat 4 part) (BitVec.ofNat 12 p) (BitVec.ofNat 64 detail) }

/-- A position is fused out. Where it was active, an inactive one that has not failed takes its place, and with none left the die is lost;
an inactive position is only marked failed, the 24 active ones stay (R20, R67). Which of two spares takes the place is not stated: a
free value chooses (log 5). -/
def State.fuseOut (s : State) (p : Nat) : State :=
  let d := p / 26
  let m := s.stnMap d
  let spare := (List.range 26).filter (fun i => i ≠ p % 26 && !m.active.getLsbD i && !m.failed.getLsbD i)
  let bad := m.failed ||| maskOf 26 [p % 26]
  if !m.active.getLsbD (p % 26) then
    ({ s with rink.maps := s.rink.maps.insert d { m with failed := bad } }).raise (stnRepair p 0 p)
  else match spare with
  | [] => ({ s with rink.maps := s.rink.maps.insert d { failed := bad, active := m.active &&& ~~~ maskOf 26 [p % 26] } }).losePart 9 d
  | a :: l =>
    let i := (a :: l).getD ((s.freeVal 1).toNat % (a :: l).length) a
    let m' : StnMap := { failed := bad, active := (m.active &&& ~~~ maskOf 26 [p % 26]) ||| maskOf 26 [i] }
    (({ s with rink.maps := s.rink.maps.insert d m' }).used).raise (stnRepair p 0 (26 * d + i))

/-- FIELD_REPAIR: what a located fault needs: a row with a pad still at 256 or above, a column of a quarter whose pad is still 64, else the
position (R64, R67). Which pad row becomes active is not stated: a free value chooses. -/
def State.repair (s : State) (p : Nat) (o : TestOutcome) : State :=
  let r := s.rink.rows.read {} p
  let k := s.rink.cols.read {} p
  let high := r.pads.filter (fun e => decide (256 ≤ e.1))
  if o.part = 1 ∧ high ≠ [] ∧ o.row.toNat < 260 ∧ !(r.pads.map (·.1)).contains o.row.toNat then
    let i := (s.freeVal 2).toNat % high.length
    let pads := (r.pads.erase (high.getD i (0, false))) ++ [(o.row.toNat, true)]
    (({ s with rink.rows := s.rink.rows.write {} p (RowMap.ofPads pads) }).used).raise (stnRepair p 1 o.row.toNat)
  else if o.part = 2 ∧ k.pad o.qtr.toNat = 64 ∧ o.col.toNat < 64 then
    ({ s with rink.cols := s.rink.cols.write {} p (k.setPad o.qtr.toNat o.col) }).raise (stnRepair p 2 (65 * o.qtr.toNat + o.col.toNat))
  else s.fuseOut p

/-- A tested station goes back to the carve scheduler unbound; WITHDRAW is cleared unless the operator had set it (R374). One whose
withdrawal was cancelled during the test is the scheduler's already (R68). -/
def State.returnStn (s : State) (p : Nat) : State :=
  let r := s.stn p
  let t := if r.wdDone then s.setStn p { r with bib0 := 0, bib1 := 0, bib2 := 0, bib3 := 0 } else s
  if t.test.byTest.contains p then
    ({ t with test.byTest := t.test.byTest.filter (fun x => x ≠ p) }).writeWithdraw p false
  else t

/-- A test is over: TEST_STAT holds its result, the balances are checked, the requests receive it (R333, R373, R374). -/
def State.endTest (s : State) (unit : BitVec 4) (inst : BitVec 12) (st : TestStat) : State :=
  let key := unitKey unit.toNat inst.toNat
  let t : State := { s with test := { s.test with
    stat := st, running := s.test.running.filter (fun k => k ≠ key), second := s.test.second.filter (fun k => k ≠ key) } }
  (t.complete (.selftest unit inst) .ok (.testStat st.word)).auditCheck

/-- SELFTEST_DONE: a test ends: counted; a station that passes returns, one that fails is repaired and tested once more, and stays withdrawn
after a second failure, with EV_REPAIR (R374). A station whose WD_DONE has gone since is not repaired: the test ends as failed (R67).
A stack's test has run all its pieces, a port's its pattern. -/
def execSelftestDone (unit : BitVec 4) (inst : BitVec 12) (o : TestOutcome) (s : State) : Out :=
  s.event fun s =>
    let u := unit.toNat
    let i := inst.toNat
    let key := unitKey u i
    if !s.test.running.contains key || (u = 2 && !(s.stack i).tested) || (u = 3 && (s.port i).pattern) then s
    else
      let c1 := s.count 0x0106 0 1
      let t := if o.pass then c1 else c1.count 0x0107 0 1
      let again := s.test.second.contains key
      let found : TestStat := { unit := unit, inst := inst, part := o.part, row := o.row, col := o.col, qtr := o.qtr }
      if u ≠ 1 then t.endTest unit inst { found with state := if o.pass then 3 else 5 }
      else if o.pass then (t.returnStn i).endTest unit inst (if again then { t.test.stat with state := 4 } else { unit := unit, inst := inst, state := 3 })
      else if again then (t.raise (stnRepair i 0 0)).endTest unit inst { found with state := 5 }
      else if !(t.stn i).wdDone then t.endTest unit inst { found with state := 5 }
      else
        let v := t.repair i o
        { v with test := { v.test with second := v.test.second ++ [key], stat := { found with state := 2 } } }

/-! ## Calibration on request (R377) -/

/-- CALIBRATE: brings a stack's, a flash channel's or a port's calibration forward; it waits for its slot, gap or retrain. Requests for one
unit complete together. Units that no row of R377 has are out of bounds. -/
def execCalibrate (c : Hdr) (unit : BitVec 4) (inst : BitVec 12) (s : State) : Out :=
  s.command 0x0508 c fun s c =>
    if !([2, 3, 4].contains unit.toNat) ∨ unitCount unit.toNat ≤ inst.toNat then s.reply c .bounds
    else s.defer c (.calibrate unit inst)

/-! ## The end of start-up (Table 16.12, B8 to B11) -/

/-- Whether a boot row has been reached. -/
def State.reached (s : State) (r : BootRow) : Bool := s.boot.rows.contains r

/-- A boot row is reached. -/
def State.atRow (s : State) (r : BootRow) : State := { s with boot.rows := s.boot.rows ++ [r] }

/-- The part code of Table 17.6. -/
def partCode : LostPart → Nat
  | .rinkDie => 9
  | .nearTier => 10
  | .stackBase => 11
  | .hub => 12
  | .join => 13

/-- STARTUP_SELFTEST_DONE: B8: stations that failed are repaired or fused out, a part lost beyond repair makes the module failed (R20, R67,
R355). Tests that waited for a start-up have run. -/
def execStartupSelftestDone (failed : List (Fin 104 × TestOutcome)) (lost : Option (LostPart × BitVec 12)) (s : State) : Out :=
  s.event fun s =>
    if !s.reached .b7 || s.reached .b8 then s
    else
      let c1 := s.count 0x0106 0 1
      let c2 := if failed = [] && lost.isNone then c1 else c1.count 0x0107 0 1
      let t := c2.each failed (fun t e => t.repair e.1.val e.2)
      let t1 := match lost with
        | some (part, inst) => t.losePart (partCode part) inst.toNat
        | none => t
      { t1.atRow .b8 with test.startup := false
                          test.stat := { unit := 0xF, state := if failed = [] && lost.isNone then 3 else if lost.isNone then 4 else 5 } }

/-- LODGE_READY: B9: the translation layer has rebuilt its map (R245); LODGE_STAT says how the lodge is. -/
def execLodgeReady (s : State) : Out :=
  s.event fun s =>
    if !s.reached .b7 || s.reached .b9 || !s.lodge.started then s
    else
      let st := s.lodge.stat
      ({ s.atRow .b9 with lodge.stat := { st with state := if st.state ≠ 0 then st.state else if st.lost then 3 else 1 } }).lodgeStat

/-- LOOPBACK_TRAINED: B10: every port has trained in loopback and every switch is in LOOP (R274). -/
def execLoopbackTrained (s : State) : Out :=
  s.event fun s =>
    if !s.reached .b7 || s.reached .b10 then s
    else if (List.range 6).all (fun i => (s.byp i).state = .loop && s.bothTrained i) then s.atRow .b10 else s

/-- MODULE_READY: B11: after B8 to B10 the balances hold, READY is set and polling begins; a trial slot becomes ACTIVE (R353, R355). A
balance that fails, or a failed module, is not ready. -/
def execModuleReady (s : State) : Out :=
  s.event fun s =>
    if s.boot.ready || !s.reached .b8 || !s.reached .b9 || !s.reached .b10 then s
    else
      let t := s.auditCheck
      if t.rink.failed then t
      else
        let b := if t.boot.stat.trial then t.boot.writeRec { t.boot.cur with active := t.boot.stat.slot, try_ := false } else t.boot
        { t with boot := { b with ready := true, rows := t.boot.rows ++ [.b11], stat := { t.boot.stat with stage := 5 } } }

/-! ## RESET (R359) -/

/-- An orderly shutdown: the log's new entries and a map snapshot go to the lodge where it is ready and takes programs (R245, R359, R370). -/
def State.shutdown (s : State) : State :=
  if decide (1 ≤ s.lodge.stat.state.toNat ∧ s.lodge.stat.state.toNat ≤ 3) then
    let id := s.lodge.objs.foldl (fun m e => max m (e.1 + 1)) 0
    let t := if s.log.up then s.flushLog else s
    let u : State := match t.object id with
      | some o => { t.setObject id { o with copies := 2, cseq := t.lodge.cseq + 1 } with lodge.cseq := t.lodge.cseq + 1 }
      | none => t
    { u with lodge.progBytes := 0 }
  else s

/-- RESET: a map snapshot where the lodge takes programs, the FINAL reply, then module reset; ST_BUSY while a bib runs
without FORCE, or in a live update (R359, Table 16.5). The chassis controller's always acts as FORCE. -/
def execReset (c : Hdr) (force : Bool) (s : State) : Out :=
  s.command 0x0509 c fun s c =>
    if s.updating then s.reply c .busy
    else if s.anyRunning && !force && c.role ≠ 2 then s.reply c .busy
    else
      let t := s.shutdown.moduleReset
      { t with cmd.sent := [s.mkReply c .ok true 0 .none] }

/-! ## The JTAG port (R378 to R380) -/

/-- An instruction of the port with what its data register holds; without power nothing happens. -/
def State.jtag (s : State) (ir : JtagIr) (dr : Nat) : State :=
  if s.vauxUp then { s with test.ir := ir, test.dr := BitVec.ofNat 128 dr } else s

/-- JTAG_IDCODE: version 0x1, part 0x0512, manufacturer 0x535. -/
def execJtagIdcode (s : State) : Out := .next (s.jtag .idcode 0x10512A6B)

/-- JTAG_BYPASS: also what every instruction refused while locked acts as. -/
def execJtagBypass (s : State) : Out := .next (s.jtag .bypass 0)

/-- JTAG_SAMPLE_PRELOAD: the pins' values are sampled. -/
def execJtagSamplePreload (pins : BitVec 64) (s : State) : Out := .next (s.jtag .sample pins.toNat)

/-- JTAG_EXTEST: only while module reset is asserted; otherwise BYPASS. -/
def execJtagExtest (pins : BitVec 64) (s : State) : Out :=
  .next (if s.vauxUp && s.pwr.reset then { s.jtag .extest pins.toNat with test.pins := pins } else s.jtag .bypass 0)

/-- JTAG_CHALLENGE: the value that the root of trust drew at this reset. -/
def execJtagChallenge (s : State) : Out := .next (s.jtag .challenge s.test.challenge.toNat)

/-- JTAG_TOKEN: an unlock token whose every check holds takes effect at the next reset, for that one boot; any other is ignored. A shipped
module never accepts SCOPE bit 2 (R379, R380). -/
def execJtagToken (magicOk : Bool) (tver : BitVec 8) (serial : BitVec 64) (challenge : BitVec 128) (scope : BitVec 8) (rsvZero sigOk : Bool) (s : State) : Out :=
  let t := s.jtag .token 0
  .next (if s.vauxUp && magicOk && tver = 1 && serial = Config.serial && challenge = s.test.challenge && rsvZero && sigOk && decide (scope.toNat < 4)
    then { t with test.nextScope := some scope } else t)

end Sys2Proof.Machine
end

