-- ==== Sys2Proof/Machine/RegRead.lean ====
section
/-! DEFINITION. The words that the registers of the service register block read as, and reads of rc fields (R8 to R10; log entry 38). -/

namespace Sys2Proof.Machine

/-- A register word of its fields, each by lowest bit, width and value; every other bit, a rsv or wo field, reads 0 (R8). -/
def regWord (l : List (Nat × Nat × Nat)) : BitVec 128 :=
  BitVec.ofNat 128 (l.foldl (fun n e => n + e.2.2 % 2 ^ e.2.1 * 2 ^ e.1) 0)

/-- VCORE_CTL (Table 2.3). -/
def Vcore.word (v : Vcore) : BitVec 128 :=
  regWord [(16, 8, v.target.toNat), (8, 8, v.actual.toNat), (4, 4, v.cause.toNat), (3, 1, (v.duty ≠ 0 : Bool).toNat), (2, 1, v.ceiling.toNat)
    , (1, 1, v.throttle.toNat), (0, 1, v.slewing.toNat)]

/-- BEAT_MON_k (Table 2.4). -/
def BeatMon.word (m : BeatMon) : BitVec 128 := regWord [(32, 16, m.rate.toNat), (24, 8, m.tj.toNat), (0, 16, m.rateMin.toNat)]

/-- RINK_CFG (Table 3.5). -/
def RinkCfg.word (r : RinkCfg) : BitVec 128 :=
  regWord [(13, 1, r.reject.toNat), (12, 1, r.busy.toNat), (8, 4, r.active.toNat), (0, 4, r.request.toNat)]

/-- STN_CTL_p (Table 3.6). -/
def Stn.word (r : Stn) : BitVec 128 :=
  regWord [(60, 2, r.width.toNat), (59, 1, r.withdraw.toNat), (58, 1, r.wdDone.toNat), (52, 4, r.fault.toNat), (48, 4, r.clearing.toNat)
    , (36, 12, r.bib3.toNat), (24, 12, r.bib2.toNat), (12, 12, r.bib1.toNat), (0, 12, r.bib0.toNat)]

/-- STN_ROWMAP_p (Table 3.8). -/
def RowMap.word (r : RowMap) : BitVec 128 :=
  regWord [(36, 4, r.field.toNat), (27, 9, r.pad3.toNat), (18, 9, r.pad2.toNat), (9, 9, r.pad1.toNat), (0, 9, r.pad0.toNat)]

/-- STN_COLMAP_p (Table 3.9). -/
def ColMap.word (r : ColMap) : BitVec 128 :=
  regWord [(28, 4, r.field.toNat), (21, 7, r.pq3.toNat), (14, 7, r.pq2.toNat), (7, 7, r.pq1.toNat), (0, 7, r.pq0.toNat)]

/-- STN_MAP_d (Table 3.10). -/
def StnMap.word (r : StnMap) : BitVec 128 := regWord [(32, 26, r.failed.toNat), (0, 26, r.active.toNat)]

/-- LOCKER_STAT_d (Table 6.7): areas reserved, the units that entries and running segments take, entries that move. -/
def State.lockerWord (s : State) (d : Nat) : BitVec 128 :=
  let here := s.lkr.entries.filter (fun e => e.die = d)
  let kept := ((here.filter (fun e => e.tier = 0)).map (·.size)).sum
  regWord [(48, 10, s.lkr.keepRsv.read 0 d), (38, 10, s.lkr.workRsv.read 0 d), (28, 10, (kept + 65535) / 65536)
    , (18, 10, (s.crs.domains.map (fun e => e.2.workUsed d)).sum), (0, 16, (here.filter (fun e => e.tier = 3)).length)]

/-- HOLD_STAT_c (Table 8.17). -/
def Hold.word (h : Hold) : BitVec 128 :=
  regWord [(63, 1, h.pause.toNat), (48, 8, h.cause.toNat), (32, 16, h.limit.toNat), (0, 32, h.current.toNat)]

/-- NT_STAT_d (Table 9.9). -/
def NearTier.word (n : NearTier) : BitVec 128 :=
  regWord [(48, 8, n.tj.toNat), (40, 8, n.tjMax.toNat), (38, 2, n.band.toNat), (37, 1, n.burst.toNat)]

/-- STK_ECC_s (Table 9.13). -/
def Stack.word (k : Stack) : BitVec 128 :=
  regWord [(55, 1, k.marked.toNat), (51, 4, k.mdie.toNat), (50, 1, k.second.toNat), (46, 4, k.ldie.toNat)]

/-- LODGE_STAT (Table 11.12). -/
def LodgeStat.word (l : LodgeStat) : BitVec 128 :=
  regWord [(56, 3, l.state.toNat), (49, 7, l.rebuild.toNat), (42, 7, l.free.toNat), (35, 7, l.wear.toNat), (34, 1, l.lost.toNat)
    , (30, 4, l.lostCh.toNat), (14, 16, l.snapAge.toNat)]

/-- LODGE_CH_c (Table 11.13). -/
def LodgeCh.word (c : LodgeCh) : BitVec 128 :=
  regWord [(48, 16, c.dead.toNat), (32, 16, c.grown.toNat), (16, 16, c.peMax.toNat), (0, 16, c.peMin.toNat)]

/-- UPD_SLOT_c (Table 12.9). -/
def UpdSlot.word (u : UpdSlot) : BitVec 128 :=
  regWord [(96, 32, u.clip.toNat), (95, 1, u.clipEn.toNat), (94, 1, u.clipArmed.toNat), (91, 1, u.curState.toNat), (90, 1, u.curWc.toNat)
    , (88, 2, u.phase.toNat), (84, 4, u.pin1.toNat), (80, 4, u.pin0.toNat), (32, 48, u.step.toNat), (0, 32, u.updated.toNat)]

/-- SL_PORT_n (Table 13.11). -/
def SlPort.word (p : SlPort) : BitVec 128 :=
  regWord [(61, 3, p.state.toNat), (58, 3, p.ver.toNat), (57, 1, p.drain.toNat), (48, 8, p.lanes.toNat), (37, 11, p.peer.toNat)
    , (29, 8, p.run.toNat), (17, 12, p.fibreNs.toNat)]

/-- The code of a switch state (Table 13.5). -/
def SwState.code : SwState → Nat
  | .bypass => 0
  | .loop => 1
  | .opening => 2
  | .train => 3
  | .joined => 4
  | .closing => 5

/-- BYP_rd (Table 13.12). -/
def Byp.word (b : Byp) : BitVec 128 :=
  regWord [(53, 3, SwState.code b.state), (52, 1, b.join.toNat), (48, 4, b.reason.toNat), (47, 1, b.open_.toNat), (36, 11, b.peerP.toNat)
    , (25, 11, b.peerM.toNat)]

/-- AUDIT_STAT (Table 15.8). -/
def AuditStat.word (a : AuditStat) : BitVec 128 :=
  regWord [(50, 7, a.failed.toNat), (47, 3, a.last.toNat), (15, 32, a.diff.toNat), (0, 15, a.at_.toNat)]

/-- SEC_STAT_j (Table 15.9). -/
def SecStat.word (x : SecStat) : BitVec 128 :=
  regWord [(124, 4, x.state.toNat), (123, 1, x.forced.toNat), (122, 1, x.coord.toNat), (109, 13, x.nb.toNat), (87, 22, x.nl.toNat)
    , (76, 11, x.failRank.toNat), (32, 32, x.buddyAge.toNat), (0, 32, x.lodgeAge.toNat)]

/-- BOOT_STAT (Table 16.12a). -/
def BootStat.word (b : BootStat) : BitVec 128 :=
  regWord [(61, 3, b.stage.toNat), (60, 1, b.slot.toNat), (59, 1, b.trial.toNat), (56, 3, b.refused.toNat), (55, 1, b.refSlot.toNat)
    , (52, 3, b.update.toNat)]

/-- PF_CTL (Table 17.4). -/
def PhotoFinish.word (p : PhotoFinish) : BitVec 128 :=
  regWord [(62, 1, p.busy.toNat), (61, 1, p.done.toNat), (60, 1, p.buf.toNat), (52, 8, p.snap.toNat), (32, 16, p.tepoch.toNat)
    , (0, 32, p.tsLow.toNat)]

/-- FEED_f (Table 18.2). -/
def Feed.word (f : Feed) : BitVec 128 :=
  regWord [(59, 1, f.present.toNat), (58, 1, f.lost.toNat), (57, 1, f.idOk.toNat), (32, 16, f.vin.toNat), (16, 16, f.iin.toNat)
    , (0, 16, f.iinMax.toNat)]

/-- MOD_PWR (Table 18.2a). -/
def ModPwr.word (m : ModPwr) : BitVec 128 :=
  regWord [(32, 16, m.pin.toNat), (16, 16, m.pinMax.toNat), (8, 8, m.tIn.toNat), (0, 8, m.tOut.toNat)]

/-- LIFT_STRM_n (Table 10.7); a free slot reads 0. -/
def Strm.word (x : Strm) : BitVec 128 :=
  regWord [(116, 12, x.bib.toNat), (108, 8, x.slot.toNat), (88, 20, x.decl.toNat), (85, 3, x.state.toNat), (83, 2, x.cls.toNat)
    , (65, 18, x.held.toNat), (64, 1, x.cap.toNat), (40, 24, x.next.toNat), (16, 24, x.done.toNat), (8, 8, x.unwinds.toNat)]

/-- The word that the register at an offset reads as; an offset with no register has none. -/
def State.readRegister (s : State) (off : Nat) : Option (BitVec 128) :=
  if off = 0 then some (Vcore.word s.vc)
  else if off = 0x100 then some (RinkCfg.word s.rink.cfg)
  else if off = 0x3100 then some (LodgeStat.word s.lodge.stat)
  else if off = 0x6000 then some (AuditStat.word s.sec.audit)
  else if off = 0x7000 then some (BootStat.word s.boot.stat)
  else if off = 0x7200 then some (PhotoFinish.word s.pf)
  else if off = 0x7220 then some (s.test.stat.word.setWidth 128)
  else if off = 0x7310 then some (ModPwr.word s.pwr.modPwr)
  else
    let rows : List (Nat × Nat × Nat × (Nat → BitVec 128)) :=
      [(0x10, 8, 4, fun k => BeatMon.word (s.vc.mons.read {} k)), (0x110, 8, 4, fun d => StnMap.word (s.stnMap d))
        , (0x200, 0x20, 104, fun p => Stn.word (s.stn p)), (0x208, 0x20, 104, fun p => RowMap.word (s.rink.rows.read {} p))
        , (0x210, 0x20, 104, fun p => ColMap.word (s.rink.cols.read {} p)), (0x1000, 8, 4, s.lockerWord)
        , (0x2000, 8, 256, fun c => Hold.word (s.hold c)), (0x3000, 8, 4, fun d => NearTier.word (s.near d))
        , (0x3040, 8, 8, fun i => Stack.word (s.stack i)), (0x3140, 8, 16, fun c => LodgeCh.word (s.lodgeCh c))
        , (0x4000, 0x10, 256, fun c => UpdSlot.word (s.updSlot c)), (0x5000, 8, 12, fun n => SlPort.word (s.port n))
        , (0x5100, 8, 6, fun i => Byp.word (s.byp i)), (0x7300, 8, 2, fun f => Feed.word (s.feed (f = 1)))
        , (0x8000, 0x10, 256, fun j => SecStat.word (s.secStat j)), (0x10000, 0x10, 4096, fun n => ((s.strm n).map Strm.word).getD 0)]
    rows.findSome? (fun e => (regIndex e.1 e.2.1 e.2.2.1 off).map e.2.2.2)

/-- The state after a read of the register at an offset: an rc field is back at its Reset value (R8, R10). -/
def State.afterRead (s : State) (off : Nat) : State :=
  match regIndex 0x10 8 4 off with
  | some k => { s with vc.mons := s.vc.mons.write {} k { s.vc.mons.read {} k with rateMin := 0xFFFF } }
  | none => match regIndex 0x3000 8 4 off with
  | some d => s.setNear d { s.near d with tjMax := 0 }
  | none => match regIndex 0x7300 8 2 off with
  | some f => s.setFeed (decide (f = 1)) { s.feed (decide (f = 1)) with iinMax := 0 }
  | none => if off = 0x7310 then { s with pwr.modPwr.pinMax := 0 } else s

/-- RC_FIELD_READ: Zilunzor reads the register at an offset, and its rc field resets; an offset with no register changes nothing. -/
def execRcFieldRead (off : BitVec 32) (s : State) : Out :=
  s.event fun s =>
    match s.readRegister off.toNat with
    | some v => { s.afterRead off.toNat with cmd.readBack := v }
    | none => s

end Sys2Proof.Machine
end

