-- ==== Sys2Proof/Machine/Tick.lean ====
section
/-! DEFINITION. Tick tokens: the timestamp's advance, the time-weighted counters, and the units that a token reaches (R28, R29). -/

namespace Sys2Proof.Machine

/-- A stream's part of a microsecond: time under a hold moves its dues, and a stream that waits to open or for a slot counts
(R213, R220, Table 10.8). -/
def State.tickStrm (s : State) (n : Nat) : State :=
  match s.strm n with
  | some x =>
    let c := x.slot.toNat
    let t := if s.held c then s.setStrm n { x with heldNs := x.heldNs + 1000 } else s
    if x.state = 1 then t.count 0x0908 c 1000
    else if s.slotStarved n x then t.count 0x0909 c 1000
    else t
  | none => s

/-- The time under cause 0, which the lift counts too (Table 10.8). -/
def State.tickLate (s : State) (c : Nat) : State :=
  if (s.hold c).cause.getLsbD 0 then s.count 0x0906 c 1000 else s

/-- Counters of time spent below TARGET, under hold duty, and under the ceiling (Table 17.2). -/
def State.tickVcore (s : State) : State :=
  let t1 := if s.vc.throttle then s.count 0x0100 0 1 else s
  let t2 := if s.vc.duty ≠ 0 then t1.count 0x0101 0 1 else t1
  if s.vc.ceiling then t2.count 0x0102 0 1 else t2

/-- Durations that count tick tokens beside the watchdogs and the lift: a near tier's time since its last burst began (R199), a run
request's wait (R296), the piece of a thermal hold (R38), the time since the heartbeat toggled (R273). -/
def State.tickUnits (s : State) : State :=
  { s with
    mem.near := (List.range 4).foldl (fun t k => t.write {} k { t.read {} k with since := (t.read {} k).since + 1 }) s.mem.near
    crs.requests := s.crs.requests.map (fun r => { r with ticks := r.ticks + 1 })
    vc.piece := s.vc.piece.map (· - 1)
    sl.quiet := s.sl.quiet + 1 }

/-- TICK_TOKEN: 1,000 ns of timestamp have passed, and hub 0 sends a tick token, which reaches every unit within 400 ns (R28).
Time-weighted counters count it, and durations that name no unit of their own advance with it. -/
def execTickToken (s : State) : Out :=
  .next (if s.vauxUp then
    let t : State := { s with clk := s.clk.tick }
    if t.up then
      let holds := t.crs.holds.map (·.1)
      (((t.tickVcore.each holds State.tickHold).each holds State.tickLate).each (t.lift.strm.map (·.1)) State.tickStrm).tickUnits
    else t
  else s)

/-- TICK_ARRIVAL: a tick token reaches a unit and its enforced durations advance: the watchdog of a gate, the wait cycles of the lift,
the interval of photo finishes; a poll that falls due is HOST_POLL_TIMER (R29, R182, R221, R344, R367). -/
def execTickArrival (u : TickUnit) (s : State) : Out :=
  s.event fun s =>
    match u with
    | .gate n => s.tickGate n.toNat
    | .lift => s.tickLift
    | .sideband => s.tickSideband
    | .poller =>
      let s : State := { s with cmd.polled := false }
      s.each (s.bibs.recs.map (fun e => BitVec.ofNat 12 e.1)) (fun t b => t.setRing b (t.ring b).tick)

end Sys2Proof.Machine
end

