-- ==== Sys2Proof/Machine/Transfer.lean ====
section
/-! DEFINITION. Data in and out: PUT, GET, OBJECT, sealed data blocks (R194, R203, R241 to R243, R302, R305 to R307). -/

namespace Sys2Proof.Machine

/-! ## Bytes at virtual addresses, tiles at their homes -/

/-- The tile whose backing place holds a virtual address, with the byte's offset in it (R164). -/
def State.tileAt (s : State) (b : BitVec 12) (va : Nat) : Option (TileId × Nat) :=
  (s.tensorAt b va).map (fun e =>
    let r := e.2.1.tensor e.2.2
    (tileOf b e.2.2 ((va - tnVa r) / tileBytesOf (tnFmt r)), (va - tnVa r) % tileBytesOf (tnFmt r)))

/-- The tiles that `n` bytes from `va` up touch. -/
def State.tilesAt (s : State) (b : BitVec 12) (va n : Nat) : List TileId :=
  ((List.range n).filterMap (fun i => (s.tileAt b (va + i)).map (·.1))).eraseDups

/-- The number of the byte that a virtual address names: in its tile at the tile's home, else in its page. -/
def State.byteAt (s : State) (b : BitVec 12) (va : Nat) : Option Nat :=
  match s.tileAt b va with
  | some (t, off) => (s.tileHdr t).map (fun h => homeKey h.home + off)
  | none => s.vaKey b va

/-- What stands against a transfer of `n` bytes at `va`: the page's outcome of Table 9.3, a tile lost or, for a read, poisoned (R194); a tile
or page in motion makes it busy (log entry 36). -/
def State.transferFault (s : State) (b : BitVec 12) (va n : Nat) (write : Bool) : Option Status :=
  match s.vaFault b va n write with
  | some (.fail st) => some st
  | some _ => some .busy
  | none =>
    (s.tilesAt b va n).findSome? (fun t =>
      match s.tileHdr t with
      | some h => if h.state = 1 then some .busy else if h.state = 2 then some .dataLost else if h.poison && !write then some .fault else none
      | none => some .bounds)

/-- Bytes are stored; written tiles and pages are under the bib's current epoch (R193, R203). -/
def State.putBytes (s : State) (b : BitVec 12) (va : Nat) (data : List Byte) : State :=
  let t := s.each data.zipIdx (fun t e => match s.byteAt b (va + e.2) with
    | some k => t.setByte k e.1
    | none => t)
  let t1 := t.each (s.tilesAt b va data.length) (fun t i => match t.tileHdr i with
    | some h =>
      let h' : TileHdr := { h with terms := 0, version := h.version + 1, epoch := (t.bib b).curEpoch }
      ((t.tileOut h).tileIn h').setTile i h'
    | none => t)
  t1.each (pagesOf va data.length) (fun t p => t.touchPage b p)

/-- `n` bytes from a virtual address up. -/
def State.getBytes (s : State) (b : BitVec 12) (va n : Nat) : List Byte :=
  (List.range n).map (fun i => ((s.byteAt b (va + i)).map s.byte).getD 0)

/-! ## The commands (Table 16.7) -/

/-- Whether a host transfer of a bib has no key yet (R302). -/
def State.noHostKey (s : State) (c : Hdr) : Bool := c.path = .host && (s.keysOf c.bib).host.isNone

/-- What a command does to a lodge object of its bib: an unknown one is out of bounds, another bib's is not its own. -/
def State.onObject (s : State) (c : Hdr) (id : Nat) (f : LObj → State) : State :=
  match s.object id with
  | none => s.reply c .bounds
  | some o => if o.bib = c.bib then f o else s.reply c .notHome

/-- PUT: data moves in from the window or the Ethernet to a virtual address, or is appended to an object whose commit has not begun. -/
def execPut (c : Hdr) (dst : Place) (data : List Byte) (s : State) : Out :=
  s.command 0x0401 c fun s c =>
    if s.noHostKey c then s.reply c .auth
    else match dst with
      | .va a =>
        (match s.transferFault c.bib a.toNat data.length true with
        | some st => s.reply c st
        | none => (s.putBytes c.bib a.toNat data).reply c .ok)
      | .object id => s.onObject c id fun o =>
          if o.first.isSome then s.reply c .busy else (s.setObject id { o with bytes := o.bytes ++ data }).reply c .ok

/-- Sealed blocks that `n` bytes take (R306). -/
def blocksFor (n : Nat) : Nat := (n + 4047) / 4048

/-- A reply with data; over the host port it goes in sealed blocks with the module's SEQ, counted (R306, R307). -/
def State.sendBytes (s : State) (c : Hdr) (data : List Byte) : State :=
  let n := blocksFor data.length
  let t := if c.path = .host ∧ n ≠ 0 then
      (s.setReplay c.bib { s.replay c.bib with txSeq := (s.replay c.bib).txSeq + BitVec.ofNat 64 n }).count 0x0704 c.bib.toNat n
    else s
  t.replyWith c (.bytes data)

/-- GET: data moves out from a virtual address or an object. -/
def execGet (c : Hdr) (src : Place) (len : Nat) (s : State) : Out :=
  s.command 0x0402 c fun s c =>
    if s.noHostKey c then s.reply c .auth
    else match src with
      | .va a =>
        (match s.transferFault c.bib a.toNat len false with
        | some st => s.reply c st
        | none => s.sendBytes c (s.getBytes c.bib a.toNat len))
      | .object id => s.onObject c id fun o =>
          if o.lost then s.reply c .dataLost
          else if o.bytes.length < len then s.reply c .bounds
          else s.sendBytes c (o.bytes.take len)

/-- OBJECT: an object is created, its commit begins, answered when its record's first copy reports, or it is deleted (R241 to R243). A
read-only lodge commits nothing (ST_FAULT). -/
def execObject (c : Hdr) (act : ObjAct) (id : Nat) (kind : BitVec 8) (s : State) : Out :=
  s.command 0x0403 c fun s c =>
    match act with
    | .create =>
      if kind = 0 ∨ 6 < kind.toNat then s.reply c .version
      else if (s.object id).isSome then s.reply c .busy
      else (s.setObject id { bib := c.bib, kind := kind.toNat, job := c.jobId }).reply c .ok
    | .commit => s.onObject c id fun o =>
        if o.first.isSome then s.reply c .busy
        else if s.lodgeReadOnly then s.reply c .fault
        else
          let t := s.beginCommit id
          { t with cmd.waiting := t.cmd.waiting ++ [(.object id, c)] }
    | .delete => s.onObject c id fun o =>
        if o.first.isSome ∧ o.copies = 0 then s.reply c .busy
        else
          let t := s.dropUnits (o.first.getD 0) (o.first.elim 0 (fun _ => o.units + 1))
          ({ t with lodge.objs := t.lodge.objs.remove id }).reply c .ok

/-- HOST_BLOCK_RX: a sealed data block read from the host window arrives. Accepted, it enters the replay record and counts, and its contents
go to the row that takes them (log entry 37); refused, it counts, the command that named it receives ST_AUTH, and a use or stream that
read it suspends the bib with ST_AUTH (R306, R307). -/
def execHostBlockRx (bib : BitVec 12) (sl : Seal) (cmd : Option Hdr) (s : State) : Out :=
  s.event fun s =>
    let u := s.takeSeal bib sl
    if u.2 then u.1
    else match cmd with
      | some c => u.1.reply c .auth
      | none => u.1.suspend bib .auth 0

end Sys2Proof.Machine
end

