-- ==== Sys2Proof/Machine/Verdict.lean ====
section
/-! DEFINITION. The step's verdict, its exchange, commit and skip (R105 to R109, R168, R178 to R181, R257, R288, R310, R320). -/

namespace Sys2Proof.Machine

/-! ## The exchange (R106, R288) -/

/-- The verdict gate of a slot's course: its module gate and local number. -/
def State.verdictGate (s : State) (c : Nat) : Option (Nat × Nat) :=
  (s.course c).bind (fun k => (k.gateNo (chVerdict k.hdr)).map (fun n => (n, chVerdict k.hdr)))

/-- The module gate of a local gate of a job's course: of the running course of the bib, or while none runs of its first with such a gate
of job scope (R160, R181). -/
def State.jobGate (s : State) (b : BitVec 12) (local_ : Nat) : Option Nat :=
  let l := s.crs.courses.filter (fun e => e.2.bib = b && (e.2.gateNo local_).any (fun n => (s.gate n).scope))
  let runs := l.filter (fun e => (s.domain e.1).any (·.running))
  ((runs ++ l).head?).bind (fun e => e.2.gateNo local_)

/-- SL_CONTROL_RX: a gate control message arrives on VC 0; the first copy of its round on either rail is used, a second changes nothing
(R288). The verdict gate's waits for its round to be taken. -/
def execSlControlRx (port : Fin 12) (jtag : BitVec 16) (gate : BitVec 13) (epoch : BitVec 8) (value : Bool) (s : State) : Out :=
  s.event fun s =>
    match s.sl.jobs.find? (fun e => e.2.args.jtag = jtag) with
    | some (_, j) =>
      match s.jobGate j.args.bib gate.toNat with
      | some n =>
        let v := s.exch n epoch
        let got := v.got.read 0 port.val + 1
        let other := v.got.read 0 ((port.val + 6) % 12)
        let v1 : Verdict := { v with got := v.got.insert port.val got }
        if got ≤ other then s.setExch n epoch v1
        else if s.isVerdict n then s.setExch n epoch { v1 with inbox := v1.inbox ++ [(port.val % 6, value)] }
        else ((s.setExch n epoch v1).advanceExch (some j) n gate.toNat epoch).settleGate n
      | none => s
    | none => s

/-- VERDICT_ROUND_RX: the verdict gate takes the message of the present round from its + or − neighbour and ORs it in (R106). -/
def execVerdictRoundRx (slot : BitVec 8) (plus : Bool) (overflow : Bool) (s : State) : Out :=
  s.event fun s =>
    match s.course slot.toNat, s.verdictGate slot.toNat with
    | some k, some (n, l) =>
      match s.jobOf k.bib with
      | some (_, j) =>
        let epoch := (s.gate n).epoch
        let v := s.exch n epoch
        let e := (2 * j.roundDim (v.rounds j) + (!plus).toNat, overflow)
        if v.inbox.contains e then
          (s.setExch n epoch { v with inbox := v.inbox.erase e, overflow := v.overflow || overflow }).advanceExch (some j) n l epoch
        else s
      | none => s
    | _, _ => s

/-! ## The local verdict (R105) -/

/-- Norm accumulators of a slot: their exact sum goes to Zilunzor, and they clear (R262). -/
def State.takeNorm (s : State) (c : Nat) : State :=
  let sum := ((List.range 12).map (fun p => s.upd.norm.read 0 (c * 12 + p))).sum
  { s with upd.norm := s.upd.norm.keep (fun k _ => k / 12 ≠ c), upd.sums := s.upd.sums.insert c sum }

/-- LOCAL_VERDICT_FORM: every flag source has passed the step-end token: the pipelines have updated every owned patch. The sources that
reported overflow are the flagged groups and the units with non-finite results of adds, reductions, updates or the loss; the verdict gate
is signalled with the result and its exchange begins (R105, R106, R181, R257). Update maps, CLIP_ARMED and the norm accumulators clear. -/
def execLocalVerdictForm (slot : BitVec 8) (s : State) : Out :=
  s.event fun s =>
    let c := slot.toNat
    match s.course c, s.domain c, s.verdictGate c with
    | some k, some d, some (n, l) =>
      let g := s.gate n
      let v := s.exch n g.epoch
      if !d.running || d.suspended || d.lost || d.tokens = 0 || v.formed || g.state ≠ 1
          || (s.updated c).length ≠ (s.ownedPatches k).length || s.upd.lanes.any (fun _ x => x.any (fun y => y.slot = slot)) then s
      else
        let s := s.collect c (d.tokenNo - d.tokens)
        let sources := (s.flaggedIn c).length + ((s.upd.nonfin.filter (fun x => x.1 = slot)).eraseDups).length
        let u := s.updSlot c
        let s1 := (if u.clipEn then s.takeNorm c else s).setUpdSlot c { u with clipArmed := false, phase := 2, updated := 0 }
        let s2 : State := { s1 with upd.map := s1.upd.map.remove c, upd.nonfin := s1.upd.nonfin.filter (fun x => x.1 ≠ slot) }
        let s3 := if g.count ≠ g.target then s2.setGate n { g with count := g.count + 1, counted := g.counted + 1 } else s2
        (s3.setExch n g.epoch { v with formed := true, overflow := v.overflow || decide (sources ≠ 0), sources := sources }).advanceExch
          ((s3.jobOf k.bib).map (·.2)) n l g.epoch
    | _, _, _ => s

/-! ## The step's end (R107, R257, V7 of Table 5.3) -/

/-- LINK_KEY_FLIP: KEPOCH flips to a derived epoch, with EV_KEY_ROTATE; the old key is erased after the following committed step (R310). -/
def State.flipKey (s : State) (j : Nat) (jb : Job) : State :=
  if jb.rotating then
    let t : State := { s with sl.jobs := s.sl.jobs.insert j { jb with kepoch := !jb.kepoch, rotating := false, oldLive := true, mseq := 0 } }
    t.raise { bib := jb.args.bib, arg := .keyRotate true 2 (BitVec.ofNat 32 (!jb.kepoch).toNat) jb.args.jobId }
  else if jb.oldLive then
    { s with sl.jobs := s.sl.jobs.insert j { jb with oldLive := false }, bibs.linkKeys := s.bibs.linkKeys.remove (2 * j + (!jb.kepoch).toNat) }
  else s

/-- Securing at a committed step: at multiples of N_b and N_l, when an operator has asked, and first after a resume (R320, R324). -/
def State.secureAt (s : State) (j : Nat) (jb : Job) (c : Nat) (k : Course) : State :=
  let st := s.secStat j
  let n := (s.updSlot c).step.toNat
  let inc (x : BitVec 32) : BitVec 32 := if x = 0xFFFFFFFF then x else x + 1
  let s1 := s.setSecStat j { st with buddyAge := inc st.buddyAge, lodgeAge := inc st.lodgeAge, secureNow := false, after := false }
  let lodge := st.secureNow || (st.nl ≠ 0 && n % st.nl.toNat = 0)
  let s2 := if lodge || st.after || (st.nb ≠ 0 && n % st.nb.toNat = 0) then s1.startSecuring j jb c k lodge else s1
  if st.secureNow then s2.complete (.secure jb.args.jobId) (if s.lodgeReadOnly then .fault else .ok) .none else s2

/-- Whether the job's verdict is held and every all-gather of the step is complete: V6 and E5 (Table 5.3, R260). -/
def State.verdictReady (s : State) (c : Nat) (k : Course) (n : Nat) : Bool :=
  (s.exch n (s.gate n).epoch).ready && (s.upd.emitted.read [] c).length = k.allPatches

/-- The step's exchange and working buffer are done with, and the gate's epoch completes. -/
def State.closeStep (s : State) (c n : Nat) : State :=
  let t : State := { s with upd.emitted := s.upd.emitted.remove c
                            upd.staged := s.upd.staged.each (fun _ l => l.filter (fun e => e.1.toNat ≠ c)) }
  (t.setUpdSlot c { t.updSlot c with phase := 0 }).completeVerdict n

/-- STEP_COMMIT: on a clean verdict slot and working-copy buffer flip and STEP rises, the scale records update, a derived link key comes
into use, securing begins where it is due (R102, R257, R310, R320). -/
def execStepCommit (slot : BitVec 8) (s : State) : Out :=
  s.event fun s =>
    let c := slot.toNat
    match s.course c, s.domain c, s.verdictGate c with
    | some k, some d, some (n, _) =>
      if !d.running || d.suspended || d.lost || d.tokens = 0 || !s.verdictReady c k n || (s.exch n (s.gate n).epoch).overflow then s
      else
        let u := s.updSlot c
        let s1 := s.setUpdSlot c { u with curState := !u.curState, curWc := !u.curWc, step := u.step + 1 }
        let s2 := (s1.endScales c (fun _ => true)).closeStep c n
        let s3 := s2.setDomain c { d with tokens := d.tokens - 1, stepsDone := d.stepsDone + 1, skips := 0, inputSeq := d.inputSeq + 1 }
        match s3.jobOf k.bib with
        | some (j, jb) => ((s3.secureAt j jb c k).flipKey j jb) |> fun t => t.startOrder j ((t.sl.jobs.lookup j).getD jb) (u.step + 1)
        | none => s3
    | _, _, _ => s

/-- STEP_SKIP: on an overflow verdict slots and buffers stay, the skip is recorded and counted, the scale records update; the eighth in a
row suspends the bib with the limit bit (R102, R107, R108). -/
def execStepSkip (slot : BitVec 8) (s : State) : Out :=
  s.event fun s =>
    let c := slot.toNat
    match s.course c, s.domain c, s.verdictGate c with
    | some k, some d, some (n, _) =>
      let v := s.exch n (s.gate n).epoch
      if !d.running || d.suspended || d.lost || d.tokens = 0 || !s.verdictReady c k n || !v.overflow then s
      else
        let skips := d.skips + 1
        let e : Event := { bib := k.bib, slot := slot
                           arg := .overflowSkip (s.updSlot c).step (BitVec.ofNat 16 (min v.sources 0xFFFF)) (BitVec.ofNat 8 skips) (decide (8 ≤ skips)) }
        let s1 := ((s.endScales c (fun _ => false)).closeStep c n).raise e
        let s2 := (s1.count 0x0817 c 1).setDomain c { d with tokens := d.tokens - 1, stepsDone := d.stepsDone + 1, skips := skips
                                                             inputSeq := if chReplay k.hdr then d.inputSeq else d.inputSeq + 1 }
        if 8 ≤ skips then s2.suspend k.bib .fault 0x0003 else s2
    | _, _, _ => s

/-- SCALE_GATE_BOUNDARY: each completed epoch of the scale gate of a course without a verdict is a step boundary: the step's samples enter
their windows, flagged groups take the skipped branch of R102, the others the clean one (R112, R168). -/
def execScaleGateBoundary (slot : BitVec 8) (s : State) : Out :=
  s.event fun s =>
    let c := slot.toNat
    match s.course c, s.domain c with
    | some k, some d =>
      if chKind k.hdr = 0 || d.boundary = 0 then s
      else
        let s := s.collect c d.stepNo
        let flagged := s.flaggedIn c
        (s.setDomain c { d with boundary := d.boundary - 1, ords := [] }).endScales c (fun g => !flagged.contains g)
    | _, _ => s

end Sys2Proof.Machine
end

