-- ==== Sys2Proof/Machine/Dispatch.lean ====
section
/-! DEFINITION. The one dispatch: every command of the table to its meaning. -/

namespace Sys2Proof.Machine

/-- What command `i` does to everything but the queue. -/
def exec (i : Instr) (s : State) : Host.Outcome State Fault Refusal :=
  match i with
  | .hello c low high => Sys2Proof.Machine.execHello c low high s
  | .identity c => Sys2Proof.Machine.execIdentity c s
  | .quote c nonce tries => Sys2Proof.Machine.execQuote c nonce tries s
  | .events c first count => Sys2Proof.Machine.execEvents c first count s
  | .counters c names => Sys2Proof.Machine.execCounters c names s
  | .replies c tag => Sys2Proof.Machine.execReplies c tag s
  | .opkey c key => Sys2Proof.Machine.execOpkey c key s
  | .admitBib c a => Sys2Proof.Machine.execAdmitBib c a s
  | .keys c ct links => Sys2Proof.Machine.execKeys c ct links s
  | .quota c a => Sys2Proof.Machine.execQuota c a s
  | .seeds c set => Sys2Proof.Machine.execSeeds c set s
  | .keyrot c => Sys2Proof.Machine.execKeyrot c s
  | .resume c => Sys2Proof.Machine.execResume c s
  | .release c nonce => Sys2Proof.Machine.execRelease c nonce s
  | .map c a => Sys2Proof.Machine.execMap c a s
  | .load c va len digestOk => Sys2Proof.Machine.execLoad c va len digestOk s
  | .unload c => Sys2Proof.Machine.execUnload c s
  | .run c steps inputSeq => Sys2Proof.Machine.execRun c steps inputSeq s
  | .cancel c => Sys2Proof.Machine.execCancel c s
  | .freeze c table => Sys2Proof.Machine.execFreeze c table s
  | .consts c prog ks => Sys2Proof.Machine.execConsts c prog ks s
  | .limit c lim => Sys2Proof.Machine.execLimit c lim s
  | .jobConfig c a => Sys2Proof.Machine.execJobConfig c a s
  | .jobEnd c => Sys2Proof.Machine.execJobEnd c s
  | .secure c setIntervals nb nl => Sys2Proof.Machine.execSecure c setIntervals nb nl s
  | .swap c rank module => Sys2Proof.Machine.execSwap c rank module s
  | .regrow c fores => Sys2Proof.Machine.execRegrow c fores s
  | .put c dst data => Sys2Proof.Machine.execPut c dst data s
  | .get c src len => Sys2Proof.Machine.execGet c src len s
  | .object c act id kind => Sys2Proof.Machine.execObject c act id kind s
  | .sysmap c dx dy dz sysid x y z => Sys2Proof.Machine.execSysmap c dx dy dz sysid x y z s
  | .join c rail dim on => Sys2Proof.Machine.execJoin c rail dim on s
  | .drain c port on => Sys2Proof.Machine.execDrain c port on s
  | .rink c cfg => Sys2Proof.Machine.execRink c cfg s
  | .vcore c target => Sys2Proof.Machine.execVcore c target s
  | .withdraw c stn on => Sys2Proof.Machine.execWithdraw c stn on s
  | .selftest c unit inst => Sys2Proof.Machine.execSelftest c unit inst s
  | .calibrate c unit inst => Sys2Proof.Machine.execCalibrate c unit inst s
  | .reset c force => Sys2Proof.Machine.execReset c force s
  | .fwStage c images => Sys2Proof.Machine.execFwStage c images s
  | .fwActivate c => Sys2Proof.Machine.execFwActivate c s
  | .fwSlot c slotB => Sys2Proof.Machine.execFwSlot c slotB s
  | .svnAdvance c min => Sys2Proof.Machine.execSvnAdvance c min s
  | .hostPollTimer bib => Sys2Proof.Machine.execHostPollTimer bib s
  | .commandBlockRead bib sl h => Sys2Proof.Machine.execCommandBlockRead bib sl h s
  | .ethDatagramRx port d => Sys2Proof.Machine.execEthDatagramRx port d s
  | .i3cPacketRx h => Sys2Proof.Machine.execI3cPacketRx h s
  | .replyPost bib => Sys2Proof.Machine.execReplyPost bib s
  | .hostBarWrite fn => Sys2Proof.Machine.execHostBarWrite fn s
  | .hostBlockRx bib sl cmd => Sys2Proof.Machine.execHostBlockRx bib sl cmd s
  | .perstAssert => Sys2Proof.Machine.execPerstAssert s
  | .registerWrite off val => Sys2Proof.Machine.execRegisterWrite off val s
  | .rcFieldRead off => Sys2Proof.Machine.execRcFieldRead off s
  | .vcoreTargetWrite target => Sys2Proof.Machine.execVcoreTargetWrite target s
  | .rinkCfgRequestWrite cfg => Sys2Proof.Machine.execRinkCfgRequestWrite cfg s
  | .stnWithdrawWrite stn on => Sys2Proof.Machine.execStnWithdrawWrite stn on s
  | .holdPauseWrite slot on => Sys2Proof.Machine.execHoldPauseWrite slot on s
  | .liftStreamCancel strm => Sys2Proof.Machine.execLiftStreamCancel strm s
  | .pfStartWrite => Sys2Proof.Machine.execPfStartWrite s
  | .slPortDrainWrite port on => Sys2Proof.Machine.execSlPortDrainWrite port on s
  | .slPatternStart port => Sys2Proof.Machine.execSlPatternStart port s
  | .bypJoinWrite rail dim on => Sys2Proof.Machine.execBypJoinWrite rail dim on s
  | .clipWrite slot clip => Sys2Proof.Machine.execClipWrite slot clip s
  | .scaleRecordWrite slot group hBase srate sweep policy fmt => Sys2Proof.Machine.execScaleRecordWrite slot group hBase srate sweep policy fmt s
  | .feedPresent b vin => Sys2Proof.Machine.execFeedPresent b vin s
  | .feedLost b vin => Sys2Proof.Machine.execFeedLost b vin s
  | .bothFeedsLost => Sys2Proof.Machine.execBothFeedsLost s
  | .pwrEnAssert lowUs => Sys2Proof.Machine.execPwrEnAssert lowUs s
  | .pwrEnNegate => Sys2Proof.Machine.execPwrEnNegate s
  | .railInRegulation rail idA idB => Sys2Proof.Machine.execRailInRegulation rail idA idB s
  | .railStartTimeout rail => Sys2Proof.Machine.execRailStartTimeout rail s
  | .railRegulationLoss rail => Sys2Proof.Machine.execRailRegulationLoss rail s
  | .holdupExpiry => Sys2Proof.Machine.execHoldupExpiry s
  | .resetNNegate sinceGoodUs => Sys2Proof.Machine.execResetNNegate sinceGoodUs s
  | .resetNAssert => Sys2Proof.Machine.execResetNAssert s
  | .chassisAlert level => Sys2Proof.Machine.execChassisAlert level s
  | .thermalTrip rinkTj hubTj stackTj nearTj tOut => Sys2Proof.Machine.execThermalTrip rinkTj hubTj stackTj nearTj tOut s
  | .tripLatchClear => Sys2Proof.Machine.execTripLatchClear s
  | .timestampWrap => Sys2Proof.Machine.execTimestampWrap s
  | .tickToken => Sys2Proof.Machine.execTickToken s
  | .tickArrival u => Sys2Proof.Machine.execTickArrival u s
  | .beatMonitorWindow r => Sys2Proof.Machine.execBeatMonitorWindow r s
  | .vcoreSlewStep => Sys2Proof.Machine.execVcoreSlewStep s
  | .holdDutyPieceEnd => Sys2Proof.Machine.execHoldDutyPieceEnd s
  | .heartbeatToggle => Sys2Proof.Machine.execHeartbeatToggle s
  | .heartbeatLoss => Sys2Proof.Machine.execHeartbeatLoss s
  | .serviceCoreHang core wholeRow => Sys2Proof.Machine.execServiceCoreHang core wholeRow s
  | .carveGrant slot => Sys2Proof.Machine.execCarveGrant slot s
  | .carveWaitTimeout slot => Sys2Proof.Machine.execCarveWaitTimeout slot s
  | .runEnd slot => Sys2Proof.Machine.execRunEnd slot s
  | .segmentStart slot seg work => Sys2Proof.Machine.execSegmentStart slot seg work s
  | .segmentFinish slot seg => Sys2Proof.Machine.execSegmentFinish slot seg s
  | .stepEndToken slot => Sys2Proof.Machine.execStepEndToken slot s
  | .useStart slot seg use off pass x => Sys2Proof.Machine.execUseStart slot seg use off pass x s
  | .useFinish slot off => Sys2Proof.Machine.execUseFinish slot off s
  | .gateSignal gate epoch => Sys2Proof.Machine.execGateSignal gate epoch s
  | .gateWait gate epoch slot => Sys2Proof.Machine.execGateWait gate epoch slot s
  | .gateWatchdogTrip gate => Sys2Proof.Machine.execGateWatchdogTrip gate s
  | .operandRelease stn q tap => Sys2Proof.Machine.execOperandRelease stn q tap s
  | .anchorForm stn q tp => Sys2Proof.Machine.execAnchorForm stn q tp s
  | .cellFire stn row col => Sys2Proof.Machine.execCellFire stn row col s
  | .weightLoadHandshake stn q => Sys2Proof.Machine.execWeightLoadHandshake stn q s
  | .loadComplete stn q => Sys2Proof.Machine.execLoadComplete stn q s
  | .swapMarkerRelease stn q tap => Sys2Proof.Machine.execSwapMarkerRelease stn q tap s
  | .drainRound stn q lane => Sys2Proof.Machine.execDrainRound stn q lane s
  | .postunitAccept stn q lane => Sys2Proof.Machine.execPostunitAccept stn q lane s
  | .longSumAdd stn q lane => Sys2Proof.Machine.execLongSumAdd stn q lane s
  | .rowReductionAdd stn q id term last => Sys2Proof.Machine.execRowReductionAdd stn q id term last s
  | .hopTransfer stn next q => Sys2Proof.Machine.execHopTransfer stn next q s
  | .tileInject die stn q => Sys2Proof.Machine.execTileInject die stn q s
  | .tileRetire stn q => Sys2Proof.Machine.execTileRetire stn q s
  | .carveFaultDetect stn q kind => Sys2Proof.Machine.execCarveFaultDetect stn q kind s
  | .carveDrainDone stn q => Sys2Proof.Machine.execCarveDrainDone stn q s
  | .carveClearDone stn q => Sys2Proof.Machine.execCarveClearDone stn q s
  | .quarterCheckDone stn q pass => Sys2Proof.Machine.execQuarterCheckDone stn q pass s
  | .rinkReconfigure => Sys2Proof.Machine.execRinkReconfigure s
  | .stationWithdrawn stn => Sys2Proof.Machine.execStationWithdrawn stn s
  | .holdRaise slot cause => Sys2Proof.Machine.execHoldRaise slot cause s
  | .holdStopped slot => Sys2Proof.Machine.execHoldStopped slot s
  | .holdDrained slot => Sys2Proof.Machine.execHoldDrained slot s
  | .holdClear slot cause => Sys2Proof.Machine.execHoldClear slot cause s
  | .holdLongTimeout slot => Sys2Proof.Machine.execHoldLongTimeout slot s
  | .ntRefreshSlot die => Sys2Proof.Machine.execNtRefreshSlot die s
  | .ntBandChange die tj => Sys2Proof.Machine.execNtBandChange die tj s
  | .ntBurstLead die => Sys2Proof.Machine.execNtBurstLead die s
  | .ntBurstEnd die => Sys2Proof.Machine.execNtBurstEnd die s
  | .stackServiceSlot stack => Sys2Proof.Machine.execStackServiceSlot stack s
  | .stackTestSlot stack last => Sys2Proof.Machine.execStackTestSlot stack last s
  | .stackVerifyScrub stack line corrected => Sys2Proof.Machine.execStackVerifyScrub stack line corrected s
  | .stackLineUe stack line owner => Sys2Proof.Machine.execStackLineUe stack line owner s
  | .stackDieMark stack die line => Sys2Proof.Machine.execStackDieMark stack die line s
  | .baseW40Add t slot src => Sys2Proof.Machine.execBaseW40Add t slot src s
  | .baseGatherScatter dir bib lines => Sys2Proof.Machine.execBaseGatherScatter dir bib lines s
  | .topkInsert stack bib cand => Sys2Proof.Machine.execTopkInsert stack bib cand s
  | .baseZeroFill tile home bytes => Sys2Proof.Machine.execBaseZeroFill tile home bytes s
  | .baseVerify stack lines bad => Sys2Proof.Machine.execBaseVerify stack lines bad s
  | .headerOperation t slot seg write fmt home hcrc => Sys2Proof.Machine.execHeaderOperation t slot seg write fmt home hcrc s
  | .translationWalkDone bib page slot write strm => Sys2Proof.Machine.execTranslationWalkDone bib page slot write strm s
  | .pageMove bib page tier frame => Sys2Proof.Machine.execPageMove bib page tier frame s
  | .moveRequest id t dst mover => Sys2Proof.Machine.execMoveRequest id t dst mover s
  | .moveHeaderSet id => Sys2Proof.Machine.execMoveHeaderSet id s
  | .moveDataDone id => Sys2Proof.Machine.execMoveDataDone id s
  | .moveCommit id => Sys2Proof.Machine.execMoveCommit id s
  | .moveRelease id => Sys2Proof.Machine.execMoveRelease id s
  | .moveFailure id atSource => Sys2Proof.Machine.execMoveFailure id atSource s
  | .lockerEntryWrite slot seg die kind fmt reads tensor unit mb => Sys2Proof.Machine.execLockerEntryWrite slot seg die kind fmt reads tensor unit mb s
  | .lockerEntryRead slot die tensor unit mb readable => Sys2Proof.Machine.execLockerEntryRead slot die tensor unit mb readable s
  | .streamOpen slot decl strm => Sys2Proof.Machine.execStreamOpen slot decl strm s
  | .streamClose strm => Sys2Proof.Machine.execStreamClose strm s
  | .liftIssue strm dst mover => Sys2Proof.Machine.execLiftIssue strm dst mover s
  | .itemRead strm item => Sys2Proof.Machine.execItemRead strm item s
  | .itemLate strm item => Sys2Proof.Machine.execItemLate strm item s
  | .streamHalt strm item va => Sys2Proof.Machine.execStreamHalt strm item va s
  | .streamResume strm => Sys2Proof.Machine.execStreamResume strm s
  | .streamUnwind strm other => Sys2Proof.Machine.execStreamUnwind strm other s
  | .mxConvert strm item scales elems => Sys2Proof.Machine.execMxConvert strm item scales elems s
  | .localVerdictForm slot => Sys2Proof.Machine.execLocalVerdictForm slot s
  | .verdictRoundRx slot plus overflow => Sys2Proof.Machine.execVerdictRoundRx slot plus overflow s
  | .stepCommit slot => Sys2Proof.Machine.execStepCommit slot s
  | .stepSkip slot => Sys2Proof.Machine.execStepSkip slot s
  | .scaleGateBoundary slot => Sys2Proof.Machine.execScaleGateBoundary slot s
  | .gradientPatchArrival pipe slot binding patch grad => Sys2Proof.Machine.execGradientPatchArrival pipe slot binding patch grad s
  | .stateStageRead pipe slot binding patch => Sys2Proof.Machine.execStateStageRead pipe slot binding patch s
  | .updateProgramEnd pipe group => Sys2Proof.Machine.execUpdateProgramEnd pipe group s
  | .slotBCommit pipe onward => Sys2Proof.Machine.execSlotBCommit pipe onward s
  | .clipArm slot clip => Sys2Proof.Machine.execClipArm slot clip s
  | .slFrameTx port => Sys2Proof.Machine.execSlFrameTx port s
  | .slFrameRx port symbolErrors crcOk f => Sys2Proof.Machine.execSlFrameRx port symbolErrors crcOk f s
  | .slRetrain port failed => Sys2Proof.Machine.execSlRetrain port failed s
  | .slPortDown port => Sys2Proof.Machine.execSlPortDown port s
  | .slTrainDone port neighbour cap good fibreNs => Sys2Proof.Machine.execSlTrainDone port neighbour cap good fibreNs s
  | .slLinkLoss port => Sys2Proof.Machine.execSlLinkLoss port s
  | .slMessageOpen port m => Sys2Proof.Machine.execSlMessageOpen port m s
  | .slMessageCommit port stream tag tagOk => Sys2Proof.Machine.execSlMessageCommit port stream tag tagOk s
  | .slAbortRx port stream => Sys2Proof.Machine.execSlAbortRx port stream s
  | .slControlRx port jtag gate epoch value => Sys2Proof.Machine.execSlControlRx port jtag gate epoch value s
  | .collectiveChunkRx port slot binding patch c onward => Sys2Proof.Machine.execCollectiveChunkRx port slot binding patch c onward s
  | .patternTestEnd port errors => Sys2Proof.Machine.execPatternTestEnd port errors s
  | .ringDrainComplete rail dim => Sys2Proof.Machine.execRingDrainComplete rail dim s
  | .bypassToLoop rail dim => Sys2Proof.Machine.execBypassToLoop rail dim s
  | .bypassOpenStart rail dim => Sys2Proof.Machine.execBypassOpenStart rail dim s
  | .bypassOpeningDone rail dim => Sys2Proof.Machine.execBypassOpeningDone rail dim s
  | .bypassJoined rail dim => Sys2Proof.Machine.execBypassJoined rail dim s
  | .bypassTrainTimeout rail dim => Sys2Proof.Machine.execBypassTrainTimeout rail dim s
  | .bypassDriveLoss rail dim => Sys2Proof.Machine.execBypassDriveLoss rail dim s
  | .bypassClosingDone rail dim => Sys2Proof.Machine.execBypassClosingDone rail dim s
  | .switchStuckCheck rail dim => Sys2Proof.Machine.execSwitchStuckCheck rail dim s
  | .linkKeyRotate job => Sys2Proof.Machine.execLinkKeyRotate job s
  | .keyRotateTimer bib => Sys2Proof.Machine.execKeyRotateTimer bib s
  | .keySweepItem bib stack => Sys2Proof.Machine.execKeySweepItem bib stack s
  | .keyRetire bib => Sys2Proof.Machine.execKeyRetire bib s
  | .kemPairReady bib => Sys2Proof.Machine.execKemPairReady bib s
  | .scrubPagesDone bib badFrames => Sys2Proof.Machine.execScrubPagesDone bib badFrames s
  | .scrubComplete bib => Sys2Proof.Machine.execScrubComplete bib s
  | .lodgeUnitReadDone place ok => Sys2Proof.Machine.execLodgeUnitReadDone place ok s
  | .lodgeStripeProgrammed blk wl die failedCh units => Sys2Proof.Machine.execLodgeStripeProgrammed blk wl die failedCh units s
  | .lodgeEraseDone ch die blk ok => Sys2Proof.Machine.execLodgeEraseDone ch die blk ok s
  | .lodgeWearLevelTimer ch die low high => Sys2Proof.Machine.execLodgeWearLevelTimer ch die low high s
  | .lodgeRetentionScan ch die blk worst ageDays => Sys2Proof.Machine.execLodgeRetentionScan ch die blk worst ageDays s
  | .lodgeDieDead ch die => Sys2Proof.Machine.execLodgeDieDead ch die s
  | .lodgeChannelLost ch => Sys2Proof.Machine.execLodgeChannelLost ch s
  | .lodgePageRebuild bib page lun fromT2 waiting => Sys2Proof.Machine.execLodgePageRebuild bib page lun fromT2 waiting s
  | .lodgePeerFetchDone bib page ok => Sys2Proof.Machine.execLodgePeerFetchDone bib page ok s
  | .pageInRequest bib page lun frame => Sys2Proof.Machine.execPageInRequest bib page lun frame s
  | .commitRecordProgrammed id copy ok => Sys2Proof.Machine.execCommitRecordProgrammed id copy ok s
  | .lodgeStart => Sys2Proof.Machine.execLodgeStart s
  | .buddyCopyComplete job rank step kind => Sys2Proof.Machine.execBuddyCopyComplete job rank step kind s
  | .memberLost job rank => Sys2Proof.Machine.execMemberLost job rank s
  | .recoveryPlan job step fore => Sys2Proof.Machine.execRecoveryPlan job step fore s
  | .forerunnerEntryStep job row => Sys2Proof.Machine.execForerunnerEntryStep job row s
  | .recoveryResume job => Sys2Proof.Machine.execRecoveryResume job s
  | .spreadPath job dim planes m => Sys2Proof.Machine.execSpreadPath job dim planes m s
  | .pfMarkerArrive unit => Sys2Proof.Machine.execPfMarkerArrive unit s
  | .pfMarkerReturn => Sys2Proof.Machine.execPfMarkerReturn s
  | .pfCopyDone => Sys2Proof.Machine.execPfCopyDone s
  | .pfPeriodicTimer => Sys2Proof.Machine.execPfPeriodicTimer s
  | .eventLogEntry => Sys2Proof.Machine.execEventLogEntry s
  | .logFlushTimer => Sys2Proof.Machine.execLogFlushTimer s
  | .selftestStart unit inst => Sys2Proof.Machine.execSelftestStart unit inst s
  | .selftestDone unit inst o => Sys2Proof.Machine.execSelftestDone unit inst o s
  | .bootRomStart => Sys2Proof.Machine.execBootRomStart s
  | .bootLoaderVerified => Sys2Proof.Machine.execBootLoaderVerified s
  | .bootMemoryTrained => Sys2Proof.Machine.execBootMemoryTrained s
  | .bootMemoryZeroed => Sys2Proof.Machine.execBootMemoryZeroed s
  | .bootImagesVerified => Sys2Proof.Machine.execBootImagesVerified s
  | .zilunzorRunning => Sys2Proof.Machine.execZilunzorRunning s
  | .startupSelftestDone failed lost => Sys2Proof.Machine.execStartupSelftestDone failed lost s
  | .lodgeReady => Sys2Proof.Machine.execLodgeReady s
  | .loopbackTrained => Sys2Proof.Machine.execLoopbackTrained s
  | .moduleReady => Sys2Proof.Machine.execModuleReady s
  | .trialBootTimeout => Sys2Proof.Machine.execTrialBootTimeout s
  | .liveUpdateImageRead => Sys2Proof.Machine.execLiveUpdateImageRead s
  | .liveUpdatePauseDone => Sys2Proof.Machine.execLiveUpdatePauseDone s
  | .liveUpdateHandover refused => Sys2Proof.Machine.execLiveUpdateHandover refused s
  | .liveUpdateHealthy => Sys2Proof.Machine.execLiveUpdateHealthy s
  | .liveUpdateRevert => Sys2Proof.Machine.execLiveUpdateRevert s
  | .jtagIdcode => Sys2Proof.Machine.execJtagIdcode s
  | .jtagBypass => Sys2Proof.Machine.execJtagBypass s
  | .jtagSamplePreload pins => Sys2Proof.Machine.execJtagSamplePreload pins s
  | .jtagExtest pins => Sys2Proof.Machine.execJtagExtest pins s
  | .jtagChallenge => Sys2Proof.Machine.execJtagChallenge s
  | .jtagToken magicOk tver serial challenge scope rsvZero sigOk => Sys2Proof.Machine.execJtagToken magicOk tver serial challenge scope rsvZero sigOk s
  | .onfiZqCalibration ch => Sys2Proof.Machine.execOnfiZqCalibration ch s

end Sys2Proof.Machine
end

