-- ==== Sys2Proof/Safety.lean ====
section
/-! DEFINITION. The words claims are stated in: what it means for a command to answer, for a packet to be accepted, for a reply
to be formed, and the invariants of the block. -/

namespace Sys2Proof.Machine

/-- The canonical form of memory: numbers strictly rising, no listed byte 0, which is what an unlisted byte reads (log entry 3). -/
def Memory.wf (m : Table Byte) : Bool := m.canonical 0

/-- The memory of a state is in canonical form. -/
def State.memoryWf (s : State) : Prop := Memory.wf s.mem.bytes = true

/-- Command `i` on `s` answers a next state that satisfies `P`. -/
def Answers (i : Instr) (s : State) (P : State → Prop) : Prop := ∃ t, exec i s = .next t ∧ P t

/-- Packet `c` of opcode `op` is accepted: its path takes it at this stage and from its role, and every check of Table 16.3
that the header decides passes (R336, R340). -/
def State.accepts (s : State) (op : Nat) (c : Hdr) : Prop :=
  s.serves op c.path = true ∧ pathTakes c.path c.role = true ∧ s.firstFailure op c = none

/-- The state in which an accepted command starts: its packet has left the intake (R340, R345). -/
def State.started (s : State) (op : Nat) (c : Hdr) : State := s.leaveIntake { c with opcode := BitVec.ofNat 16 op }

/-- The newest reply on the path of a packet: host replies wait for their ring, others have been sent (R341, R343). -/
def State.newest (s : State) (p : Path) : Option Reply :=
  match p with
  | .host => s.cmd.outbox.getLast?
  | _ => s.cmd.sent.getLast?

/-- The newest reply is packet `c`'s, with this status, FINAL bit and result (Table 16.4). -/
def State.answered (s : State) (op : Nat) (c : Hdr) (st : Status) (final : Bool) (r : Result) : Prop :=
  ∃ rep, s.newest c.path = some rep ∧ rep.opcode = BitVec.ofNat 16 op ∧ rep.bib = c.bib ∧ rep.slot = c.slot ∧ rep.tag = c.tag
    ∧ rep.status = st ∧ rep.final = final ∧ rep.result = r

/-- Packet `c` gets the FINAL reply `st` with no result. -/
def State.replied (s : State) (op : Nat) (c : Hdr) (st : Status) : Prop := s.answered op c st true .none

end Sys2Proof.Machine
end

