-- ==== Sys2Proof/WellFormed.lean ====
section
/-! DEFINITION. Well-formed commands: operands whose numbers and lengths are those of a unit the module has. A value that the
spec answers with a status is well formed: the reply is its effect. -/

namespace Sys2Proof

/-- A place that the lodge has (Table 11.3). -/
def LodgePlace.legal (p : LodgePlace) : Bool := decide (p.blk.toNat ≤ 1241 ∧ p.wl.toNat ≤ 510 ∧ p.pg ≠ 3)

/-- A chunk of one patch of 64 elements (Table 13.9). -/
def Chunk.whole (c : Chunk) : Bool :=
  match c with
  | .reduce _ vals own .. => decide (vals.length = 64 ∧ own.length = 64)
  | .gather codes _ => decide (codes.length = 64)

/-- Whether a command's operands are well formed. -/
def Instr.wf (i : Instr) : Bool :=
  match i with
  | .beatMonitorWindow r => decide (r.rate.length = 4 ∧ r.tj.length = 4)
  | .useStart _ _ _ off _ x => decide (off.toNat ≤ 95 ∧ x.col.toNat % 32 = 0)
  | .gradientPatchArrival _ _ _ _ grad => decide (grad.length = 64)
  | .slFrameRx _ _ _ f => decide (f.slots.length ≤ 6 ∧ f.cr.length ≤ 2)
  | .collectiveChunkRx _ _ _ _ c _ => decide (c.whole)
  | .patternTestEnd _ errors => decide (errors.length = 8)
  | .lodgeUnitReadDone place _ => decide (place.legal)
  | .lodgeStripeProgrammed blk wl _ _ units => decide (blk.toNat ≤ 1241 ∧ wl.toNat ≤ 510 ∧ units.all (fun u => u.1.legal))
  | .lodgeEraseDone _ _ blk _ => decide (blk.toNat ≤ 1241)
  | .lodgeWearLevelTimer _ _ low high => decide (low.toNat ≤ 1241 ∧ high.toNat ≤ 1241)
  | .lodgeRetentionScan _ _ blk _ _ => decide (blk.toNat ≤ 1241)
  | .hello .. | .identity .. | .quote .. | .events .. | .counters .. | .replies .. | .opkey .. | .admitBib .. | .keys ..
  | .quota .. | .seeds .. | .keyrot .. | .resume .. | .release .. | .map .. | .load .. | .unload .. | .run .. | .cancel ..
  | .freeze .. | .consts .. | .limit .. | .jobConfig .. | .jobEnd .. | .secure .. | .swap .. | .regrow .. | .put ..
  | .get .. | .object .. | .sysmap .. | .join .. | .drain .. | .rink .. | .vcore .. | .withdraw .. | .selftest ..
  | .calibrate .. | .reset .. | .fwStage .. | .fwActivate .. | .fwSlot .. | .svnAdvance .. | .hostPollTimer ..
  | .commandBlockRead .. | .ethDatagramRx .. | .i3cPacketRx .. | .replyPost .. | .hostBarWrite .. | .hostBlockRx ..
  | .perstAssert | .registerWrite .. | .rcFieldRead .. | .vcoreTargetWrite .. | .rinkCfgRequestWrite ..
  | .stnWithdrawWrite .. | .holdPauseWrite .. | .liftStreamCancel .. | .pfStartWrite | .slPortDrainWrite ..
  | .slPatternStart .. | .bypJoinWrite .. | .clipWrite .. | .scaleRecordWrite .. | .feedPresent .. | .feedLost ..
  | .bothFeedsLost | .pwrEnAssert .. | .pwrEnNegate | .railInRegulation .. | .railStartTimeout .. | .railRegulationLoss ..
  | .holdupExpiry | .resetNNegate .. | .resetNAssert | .chassisAlert .. | .thermalTrip .. | .tripLatchClear
  | .timestampWrap | .tickToken | .tickArrival .. | .vcoreSlewStep | .holdDutyPieceEnd | .heartbeatToggle | .heartbeatLoss
  | .serviceCoreHang .. | .carveGrant .. | .carveWaitTimeout .. | .runEnd .. | .segmentStart .. | .segmentFinish ..
  | .stepEndToken .. | .useFinish .. | .gateSignal .. | .gateWait .. | .gateWatchdogTrip .. | .operandRelease ..
  | .anchorForm .. | .cellFire .. | .weightLoadHandshake .. | .loadComplete .. | .swapMarkerRelease .. | .drainRound ..
  | .postunitAccept .. | .longSumAdd .. | .rowReductionAdd .. | .hopTransfer .. | .tileInject .. | .tileRetire ..
  | .carveFaultDetect .. | .carveDrainDone .. | .carveClearDone .. | .quarterCheckDone .. | .rinkReconfigure
  | .stationWithdrawn .. | .holdRaise .. | .holdStopped .. | .holdDrained .. | .holdClear .. | .holdLongTimeout ..
  | .ntRefreshSlot .. | .ntBandChange .. | .ntBurstLead .. | .ntBurstEnd .. | .stackServiceSlot .. | .stackTestSlot ..
  | .stackVerifyScrub .. | .stackLineUe .. | .stackDieMark .. | .baseW40Add .. | .baseGatherScatter .. | .topkInsert ..
  | .baseZeroFill .. | .baseVerify .. | .headerOperation .. | .translationWalkDone .. | .pageMove .. | .moveRequest ..
  | .moveHeaderSet .. | .moveDataDone .. | .moveCommit .. | .moveRelease .. | .moveFailure .. | .lockerEntryWrite ..
  | .lockerEntryRead .. | .streamOpen .. | .streamClose .. | .liftIssue .. | .itemRead .. | .itemLate .. | .streamHalt ..
  | .streamResume .. | .streamUnwind .. | .mxConvert .. | .localVerdictForm .. | .verdictRoundRx .. | .stepCommit ..
  | .stepSkip .. | .scaleGateBoundary .. | .stateStageRead .. | .updateProgramEnd .. | .slotBCommit .. | .clipArm ..
  | .slFrameTx .. | .slRetrain .. | .slPortDown .. | .slTrainDone .. | .slLinkLoss .. | .slMessageOpen ..
  | .slMessageCommit .. | .slAbortRx .. | .slControlRx .. | .ringDrainComplete .. | .bypassToLoop .. | .bypassOpenStart ..
  | .bypassOpeningDone .. | .bypassJoined .. | .bypassTrainTimeout .. | .bypassDriveLoss .. | .bypassClosingDone ..
  | .switchStuckCheck .. | .linkKeyRotate .. | .keyRotateTimer .. | .keySweepItem .. | .keyRetire .. | .kemPairReady ..
  | .scrubPagesDone .. | .scrubComplete .. | .lodgeDieDead .. | .lodgeChannelLost .. | .lodgePageRebuild ..
  | .lodgePeerFetchDone .. | .pageInRequest .. | .commitRecordProgrammed .. | .lodgeStart | .buddyCopyComplete ..
  | .memberLost .. | .recoveryPlan .. | .forerunnerEntryStep .. | .recoveryResume .. | .spreadPath .. | .pfMarkerArrive ..
  | .pfMarkerReturn | .pfCopyDone | .pfPeriodicTimer | .eventLogEntry | .logFlushTimer | .selftestStart ..
  | .selftestDone .. | .bootRomStart | .bootLoaderVerified | .bootMemoryTrained | .bootMemoryZeroed | .bootImagesVerified
  | .zilunzorRunning | .startupSelftestDone .. | .lodgeReady | .loopbackTrained | .moduleReady | .trialBootTimeout
  | .liveUpdateImageRead | .liveUpdatePauseDone | .liveUpdateHandover .. | .liveUpdateHealthy | .liveUpdateRevert
  | .jtagIdcode | .jtagBypass | .jtagSamplePreload .. | .jtagExtest .. | .jtagChallenge | .jtagToken ..
  | .onfiZqCalibration .. => true

/-- The packet that a command row carries in; an event row carries none. -/
def Instr.packet (i : Instr) : Option Hdr :=
  match i with
  | .hello c .. | .identity c | .quote c .. | .events c .. | .counters c .. | .replies c .. | .opkey c .. | .admitBib c ..
  | .keys c .. | .quota c .. | .seeds c .. | .keyrot c | .resume c | .release c .. | .map c .. | .load c .. | .unload c
  | .run c .. | .cancel c | .freeze c .. | .consts c .. | .limit c .. | .jobConfig c .. | .jobEnd c | .secure c ..
  | .swap c .. | .regrow c .. | .put c .. | .get c .. | .object c .. | .sysmap c .. | .join c .. | .drain c .. | .rink c ..
  | .vcore c .. | .withdraw c .. | .selftest c .. | .calibrate c .. | .reset c .. | .fwStage c .. | .fwActivate c
  | .fwSlot c .. | .svnAdvance c .. => some c
  | .hostPollTimer .. | .commandBlockRead .. | .ethDatagramRx .. | .i3cPacketRx .. | .replyPost .. | .hostBarWrite ..
  | .hostBlockRx .. | .perstAssert | .registerWrite .. | .rcFieldRead .. | .vcoreTargetWrite .. | .rinkCfgRequestWrite ..
  | .stnWithdrawWrite .. | .holdPauseWrite .. | .liftStreamCancel .. | .pfStartWrite | .slPortDrainWrite ..
  | .slPatternStart .. | .bypJoinWrite .. | .clipWrite .. | .scaleRecordWrite .. | .feedPresent .. | .feedLost ..
  | .bothFeedsLost | .pwrEnAssert .. | .pwrEnNegate | .railInRegulation .. | .railStartTimeout .. | .railRegulationLoss ..
  | .holdupExpiry | .resetNNegate .. | .resetNAssert | .chassisAlert .. | .thermalTrip .. | .tripLatchClear
  | .timestampWrap | .tickToken | .tickArrival .. | .beatMonitorWindow .. | .vcoreSlewStep | .holdDutyPieceEnd
  | .heartbeatToggle | .heartbeatLoss | .serviceCoreHang .. | .carveGrant .. | .carveWaitTimeout .. | .runEnd ..
  | .segmentStart .. | .segmentFinish .. | .stepEndToken .. | .useStart .. | .useFinish .. | .gateSignal .. | .gateWait ..
  | .gateWatchdogTrip .. | .operandRelease .. | .anchorForm .. | .cellFire .. | .weightLoadHandshake .. | .loadComplete ..
  | .swapMarkerRelease .. | .drainRound .. | .postunitAccept .. | .longSumAdd .. | .rowReductionAdd .. | .hopTransfer ..
  | .tileInject .. | .tileRetire .. | .carveFaultDetect .. | .carveDrainDone .. | .carveClearDone .. | .quarterCheckDone ..
  | .rinkReconfigure | .stationWithdrawn .. | .holdRaise .. | .holdStopped .. | .holdDrained .. | .holdClear ..
  | .holdLongTimeout .. | .ntRefreshSlot .. | .ntBandChange .. | .ntBurstLead .. | .ntBurstEnd .. | .stackServiceSlot ..
  | .stackTestSlot .. | .stackVerifyScrub .. | .stackLineUe .. | .stackDieMark .. | .baseW40Add .. | .baseGatherScatter ..
  | .topkInsert .. | .baseZeroFill .. | .baseVerify .. | .headerOperation .. | .translationWalkDone .. | .pageMove ..
  | .moveRequest .. | .moveHeaderSet .. | .moveDataDone .. | .moveCommit .. | .moveRelease .. | .moveFailure ..
  | .lockerEntryWrite .. | .lockerEntryRead .. | .streamOpen .. | .streamClose .. | .liftIssue .. | .itemRead ..
  | .itemLate .. | .streamHalt .. | .streamResume .. | .streamUnwind .. | .mxConvert .. | .localVerdictForm ..
  | .verdictRoundRx .. | .stepCommit .. | .stepSkip .. | .scaleGateBoundary .. | .gradientPatchArrival ..
  | .stateStageRead .. | .updateProgramEnd .. | .slotBCommit .. | .clipArm .. | .slFrameTx .. | .slFrameRx ..
  | .slRetrain .. | .slPortDown .. | .slTrainDone .. | .slLinkLoss .. | .slMessageOpen .. | .slMessageCommit ..
  | .slAbortRx .. | .slControlRx .. | .collectiveChunkRx .. | .patternTestEnd .. | .ringDrainComplete .. | .bypassToLoop ..
  | .bypassOpenStart .. | .bypassOpeningDone .. | .bypassJoined .. | .bypassTrainTimeout .. | .bypassDriveLoss ..
  | .bypassClosingDone .. | .switchStuckCheck .. | .linkKeyRotate .. | .keyRotateTimer .. | .keySweepItem ..
  | .keyRetire .. | .kemPairReady .. | .scrubPagesDone .. | .scrubComplete .. | .lodgeUnitReadDone ..
  | .lodgeStripeProgrammed .. | .lodgeEraseDone .. | .lodgeWearLevelTimer .. | .lodgeRetentionScan .. | .lodgeDieDead ..
  | .lodgeChannelLost .. | .lodgePageRebuild .. | .lodgePeerFetchDone .. | .pageInRequest .. | .commitRecordProgrammed ..
  | .lodgeStart | .buddyCopyComplete .. | .memberLost .. | .recoveryPlan .. | .forerunnerEntryStep .. | .recoveryResume ..
  | .spreadPath .. | .pfMarkerArrive .. | .pfMarkerReturn | .pfCopyDone | .pfPeriodicTimer | .eventLogEntry
  | .logFlushTimer | .selftestStart .. | .selftestDone .. | .bootRomStart | .bootLoaderVerified | .bootMemoryTrained
  | .bootMemoryZeroed | .bootImagesVerified | .zilunzorRunning | .startupSelftestDone .. | .lodgeReady | .loopbackTrained
  | .moduleReady | .trialBootTimeout | .liveUpdateImageRead | .liveUpdatePauseDone | .liveUpdateHandover ..
  | .liveUpdateHealthy | .liveUpdateRevert | .jtagIdcode | .jtagBypass | .jtagSamplePreload .. | .jtagExtest ..
  | .jtagChallenge | .jtagToken .. | .onfiZqCalibration .. => none

/-- The opcode of a command row (Table 16.7); an event row has none. -/
def Instr.opcode (i : Instr) : Option Nat :=
  match i with
  | .hello .. => some 0x0001 | .identity .. => some 0x0002 | .quote .. => some 0x0003 | .events .. => some 0x0004
  | .counters .. => some 0x0005 | .replies .. => some 0x0006 | .opkey .. => some 0x0007 | .admitBib .. => some 0x0101
  | .keys .. => some 0x0102 | .quota .. => some 0x0103 | .seeds .. => some 0x0104 | .keyrot .. => some 0x0105
  | .resume .. => some 0x0106 | .release .. => some 0x0107 | .map .. => some 0x0108 | .load .. => some 0x0201
  | .unload .. => some 0x0202 | .run .. => some 0x0203 | .cancel .. => some 0x0204 | .freeze .. => some 0x0205
  | .consts .. => some 0x0206 | .limit .. => some 0x0207 | .jobConfig .. => some 0x0301 | .jobEnd .. => some 0x0302
  | .secure .. => some 0x0303 | .swap .. => some 0x0304 | .regrow .. => some 0x0305 | .put .. => some 0x0401
  | .get .. => some 0x0402 | .object .. => some 0x0403 | .sysmap .. => some 0x0501 | .join .. => some 0x0502
  | .drain .. => some 0x0503 | .rink .. => some 0x0504 | .vcore .. => some 0x0505 | .withdraw .. => some 0x0506
  | .selftest .. => some 0x0507 | .calibrate .. => some 0x0508 | .reset .. => some 0x0509 | .fwStage .. => some 0x0601
  | .fwActivate .. => some 0x0602 | .fwSlot .. => some 0x0603 | .svnAdvance .. => some 0x0604
  | .hostPollTimer .. | .commandBlockRead .. | .ethDatagramRx .. | .i3cPacketRx .. | .replyPost .. | .hostBarWrite ..
  | .hostBlockRx .. | .perstAssert | .registerWrite .. | .rcFieldRead .. | .vcoreTargetWrite .. | .rinkCfgRequestWrite ..
  | .stnWithdrawWrite .. | .holdPauseWrite .. | .liftStreamCancel .. | .pfStartWrite | .slPortDrainWrite ..
  | .slPatternStart .. | .bypJoinWrite .. | .clipWrite .. | .scaleRecordWrite .. | .feedPresent .. | .feedLost ..
  | .bothFeedsLost | .pwrEnAssert .. | .pwrEnNegate | .railInRegulation .. | .railStartTimeout .. | .railRegulationLoss ..
  | .holdupExpiry | .resetNNegate .. | .resetNAssert | .chassisAlert .. | .thermalTrip .. | .tripLatchClear
  | .timestampWrap | .tickToken | .tickArrival .. | .beatMonitorWindow .. | .vcoreSlewStep | .holdDutyPieceEnd
  | .heartbeatToggle | .heartbeatLoss | .serviceCoreHang .. | .carveGrant .. | .carveWaitTimeout .. | .runEnd ..
  | .segmentStart .. | .segmentFinish .. | .stepEndToken .. | .useStart .. | .useFinish .. | .gateSignal .. | .gateWait ..
  | .gateWatchdogTrip .. | .operandRelease .. | .anchorForm .. | .cellFire .. | .weightLoadHandshake .. | .loadComplete ..
  | .swapMarkerRelease .. | .drainRound .. | .postunitAccept .. | .longSumAdd .. | .rowReductionAdd .. | .hopTransfer ..
  | .tileInject .. | .tileRetire .. | .carveFaultDetect .. | .carveDrainDone .. | .carveClearDone .. | .quarterCheckDone ..
  | .rinkReconfigure | .stationWithdrawn .. | .holdRaise .. | .holdStopped .. | .holdDrained .. | .holdClear ..
  | .holdLongTimeout .. | .ntRefreshSlot .. | .ntBandChange .. | .ntBurstLead .. | .ntBurstEnd .. | .stackServiceSlot ..
  | .stackTestSlot .. | .stackVerifyScrub .. | .stackLineUe .. | .stackDieMark .. | .baseW40Add .. | .baseGatherScatter ..
  | .topkInsert .. | .baseZeroFill .. | .baseVerify .. | .headerOperation .. | .translationWalkDone .. | .pageMove ..
  | .moveRequest .. | .moveHeaderSet .. | .moveDataDone .. | .moveCommit .. | .moveRelease .. | .moveFailure ..
  | .lockerEntryWrite .. | .lockerEntryRead .. | .streamOpen .. | .streamClose .. | .liftIssue .. | .itemRead ..
  | .itemLate .. | .streamHalt .. | .streamResume .. | .streamUnwind .. | .mxConvert .. | .localVerdictForm ..
  | .verdictRoundRx .. | .stepCommit .. | .stepSkip .. | .scaleGateBoundary .. | .gradientPatchArrival ..
  | .stateStageRead .. | .updateProgramEnd .. | .slotBCommit .. | .clipArm .. | .slFrameTx .. | .slFrameRx ..
  | .slRetrain .. | .slPortDown .. | .slTrainDone .. | .slLinkLoss .. | .slMessageOpen .. | .slMessageCommit ..
  | .slAbortRx .. | .slControlRx .. | .collectiveChunkRx .. | .patternTestEnd .. | .ringDrainComplete .. | .bypassToLoop ..
  | .bypassOpenStart .. | .bypassOpeningDone .. | .bypassJoined .. | .bypassTrainTimeout .. | .bypassDriveLoss ..
  | .bypassClosingDone .. | .switchStuckCheck .. | .linkKeyRotate .. | .keyRotateTimer .. | .keySweepItem ..
  | .keyRetire .. | .kemPairReady .. | .scrubPagesDone .. | .scrubComplete .. | .lodgeUnitReadDone ..
  | .lodgeStripeProgrammed .. | .lodgeEraseDone .. | .lodgeWearLevelTimer .. | .lodgeRetentionScan .. | .lodgeDieDead ..
  | .lodgeChannelLost .. | .lodgePageRebuild .. | .lodgePeerFetchDone .. | .pageInRequest .. | .commitRecordProgrammed ..
  | .lodgeStart | .buddyCopyComplete .. | .memberLost .. | .recoveryPlan .. | .forerunnerEntryStep .. | .recoveryResume ..
  | .spreadPath .. | .pfMarkerArrive .. | .pfMarkerReturn | .pfCopyDone | .pfPeriodicTimer | .eventLogEntry
  | .logFlushTimer | .selftestStart .. | .selftestDone .. | .bootRomStart | .bootLoaderVerified | .bootMemoryTrained
  | .bootMemoryZeroed | .bootImagesVerified | .zilunzorRunning | .startupSelftestDone .. | .lodgeReady | .loopbackTrained
  | .moduleReady | .trialBootTimeout | .liveUpdateImageRead | .liveUpdatePauseDone | .liveUpdateHandover ..
  | .liveUpdateHealthy | .liveUpdateRevert | .jtagIdcode | .jtagBypass | .jtagSamplePreload .. | .jtagExtest ..
  | .jtagChallenge | .jtagToken .. | .onfiZqCalibration .. => none

end Sys2Proof
end

