-- ==== Sys2Proof/Certificates/Slice0/Obligations.lean ====
section
/-! DEFINITION. The statements for the provers: what the commands do, what they leave alone, and what every step keeps. -/

open Sys2Proof Sys2Proof.Machine

/-! ## Feeds, rails, reset and the pins (chapter 18) -/

/-- FEED_PRESENT and FEED_LOST write the feed's register and nothing else while the other feed is present; BOTH_FEEDS_LOST takes a module
past S7 dark, and the lodge's cells keep what they hold. The power-on sequence of Table 18.3: PWR_EN starts it under R384, each rail in
regulation starts the next, S3 starts the time base and reads the feed identities, S7 asserts PWR_GOOD, and RESET_N releases module reset
1 ms after it. How the rails fall: a rail late at start and PWR_EN negated in reset end everything; PWR_EN negated while running and a
rail lost after PWR_GOOD leave the hold-up, which expires into the dark; nothing is latched but by a trip, and PWR_EN low for 1 s clears
the latch (R381, R383 to R385, R390, R397, Table 18.2). -/
def Obligations.FeedAndPowerSequenceRows : Prop :=
  (∀ s b vin, 4700 ≤ vin.toNat →
    exec (.feedPresent b vin) s = .next (s.setFeed b { s.feed b with present := true, vin := vin })) ∧
  (∀ s b vin, vin.toNat < 4600 → (s.feed (!b)).present = true →
    exec (.feedLost b vin) s = .next (s.setFeed b { s.feed b with present := false, lost := true, vin := vin })) ∧
  (∀ s, s.pwr.stage = .good → Answers .bothFeedsLost s fun t =>
    t.pwr.pwrGood = false ∧ t.pwr.stage = .holdup ∧ t.clk = s.clk ∧ t.crs = {} ∧ t.bibs = {} ∧ t.ctr = [] ∧ t.pending = s.pending
      ∧ t.lodge.tags = s.lodge.tags ∧ t.lodge.objs = s.lodge.objs ∧ t.boot.images = s.boot.images) ∧
  (∀ s low, s.pwr.stage = .dark → s.pwr.pwrEn = false → s.fed = true → 1000 ≤ low →
    exec (.pwrEnAssert low) s = .next { s with pwr.pwrEn := true, pwr.stage := .rising .vaux }) ∧
  (∀ s low, low < 1000 → exec (.pwrEnAssert low) s = .next { s with pwr.pwrEn := true }) ∧
  (∀ s ca ra cb rb, s.pwr.stage = .rising .vaux → Answers (.railInRegulation .vaux (some (ca, ra)) (some (cb, rb))) s fun t =>
    t.clk = { ts := 0, epoch := 0 } ∧ t.pwr.stage = .rising .vflash ∧ t.pwr.feedA.circuit = ca ∧ t.pwr.feedA.source = ra
      ∧ t.pwr.feedB.circuit = cb ∧ t.pwr.feedB.source = rb ∧ (t.pwr.feedA.idOk = true ↔ ca ≠ 0 ∧ ra ≠ 0)
      ∧ t = { s with clk := t.clk, pwr := t.pwr }) ∧
  (∀ s a b, s.pwr.stage = .rising .vphy →
    exec (.railInRegulation .vphy a b) s = .next { s with pwr.stage := .rising .vdram, pwr.phyUp := true }) ∧
  (∀ s a b, s.pwr.stage = .rising .vdram →
    exec (.railInRegulation .vdram a b) s = .next { s with pwr.stage := .rising .vcore }) ∧
  (∀ s a b, s.pwr.stage = .rising .vcore →
    exec (.railInRegulation .vcore a b) s = .next { s with pwr.stage := .good, pwr.pwrGood := true, pwr.reset := true }) ∧
  (∀ s us, s.pwr.pwrGood = true → 1000 ≤ us →
    exec (.resetNNegate us) s = .next { s with pwr.resetN := true, pwr.reset := false }) ∧
  (∀ s us, us < 1000 → exec (.resetNNegate us) s = .next { s with pwr.resetN := true }) ∧
  (∀ s r, s.pwr.stage = .rising r → Answers (.railStartTimeout r) s fun t =>
    t.pwr.stage = .dark ∧ t.pwr.pwrGood = false ∧ t.pwr.thermTripN = true ∧ t.clk = {}) ∧
  (∀ s r, s.pwr.stage = .good → r ≠ .vaux → Answers (.railRegulationLoss r) s fun t =>
    t.pwr.stage = .holdup ∧ t.pwr.pwrGood = false ∧ t.pwr.thermTripN = s.pwr.thermTripN ∧ t.clk = s.clk) ∧
  (∀ s, s.pwr.stage = .good → s.pwr.resetN = true → Answers .pwrEnNegate s fun t =>
    t.pwr.stage = .holdup ∧ t.pwr.pwrGood = false ∧ t.pwr.pwrEn = false) ∧
  (∀ s, s.pwr.stage = .good → s.pwr.resetN = false → Answers .pwrEnNegate s fun t =>
    t.pwr.stage = .dark ∧ t.pwr.pwrGood = false ∧ t.pwr.pwrEn = false) ∧
  (∀ s, s.pwr.stage = .holdup → Answers .holdupExpiry s fun t => t.pwr.stage = .dark ∧ t.clk = {}) ∧
  (∀ s a b c d e, s.pwr.stage = .good → 115 ≤ a.toNat ∨ 115 ≤ b.toNat ∨ 115 ≤ c.toNat ∨ 110 ≤ d.toNat ∨ 65 ≤ e.toNat →
    Answers (.thermalTrip a b c d e) s fun t => t.pwr.stage = .tripped ∧ t.pwr.thermTripN = false ∧ t.pwr.pwrGood = false) ∧
  (∀ s, s.pwr.stage = .tripped → s.pwr.pwrEn = false → Answers .tripLatchClear s fun t =>
    t.pwr.stage = .dark ∧ t.pwr.thermTripN = true) ∧
  (∀ s, Answers .resetNAssert s fun t =>
    t.pwr.resetN = false ∧ t.pwr.reset = true ∧ t.clk = s.clk ∧ t.crs = {} ∧ t.bibs = {} ∧ t.ctr = [] ∧ t.upd = {} ∧ t.boot.rows = []
      ∧ t.cmd.opkey = s.cmd.opkey ∧ t.lodge.tags = s.lodge.tags ∧ t.boot.images = s.boot.images ∧ t.boot.svn = s.boot.svn) ∧
  (∀ s, exec .perstAssert s = .next { s with pwr.perst := true, pwr.pcieUp := false })

/-! ## VCORE, the time base and the service cores (chapter 2, R273, R349) -/

/-- TARGET takes a write up to 0x30, ACTUAL is then at most TARGET, the rail slews by one step towards ACTUAL, and neither row touches
anything but VCORE's registers. A window of the beat monitors writes RATE and TJ of each die, keeps the least rate and the highest
readings, and moves no register of another unit while no hold duty is in force (R34, R35, Tables 2.3, 2.4, 18.2, 18.2a). -/
def Obligations.VcoreAndWindowRows : Prop :=
  (∀ s x, s.up = true → Answers (.vcoreTargetWrite x) s fun t =>
    t.vc.target.toNat = min x.toNat 0x30 ∧ t.vc.actual.toNat ≤ t.vc.target.toNat ∧ t.vc.mons = s.vc.mons ∧ t.vc.rail = s.vc.rail
      ∧ t = { s with vc := t.vc }) ∧
  (∀ s c x, s.accepts 0x0505 c → Answers (.vcore c x) s fun t =>
    t.vc.target.toNat = min x.toNat 0x30 ∧ t.vc.actual.toNat ≤ t.vc.target.toNat ∧ t.replied 0x0505 c .ok
      ∧ t = { s with vc := t.vc, cmd := t.cmd }) ∧
  (∀ s, s.up = true → s.vc.rail.toNat < s.vc.settle.actual.toNat → Answers .vcoreSlewStep s fun t =>
    t.vc.rail.toNat = s.vc.rail.toNat + 1 ∧ t = { s with vc := t.vc }) ∧
  (∀ s, s.up = true → s.vc.settle.actual.toNat < s.vc.rail.toNat → Answers .vcoreSlewStep s fun t =>
    t.vc.rail.toNat = s.vc.rail.toNat - 1 ∧ t = { s with vc := t.vc }) ∧
  (∀ s level, Answers (.chassisAlert level) s fun t =>
    t.pwr.chassisAlertN = level ∧ t.vc.target = s.vc.target ∧ t = { s with pwr := t.pwr, vc := t.vc }) ∧
  (∀ s r, s.up = true → r.rate.length = 4 → r.tj.length = 4 → Answers (.beatMonitorWindow r) s fun t =>
    (∀ k, k < 4 → (t.vc.mons.read {} k).rate = r.rate.getD k 0 ∧ (t.vc.mons.read {} k).tj = r.tj.getD k 0
      ∧ (t.vc.mons.read {} k).rateMin.toNat = min (s.vc.mons.read {} k).rateMin.toNat (r.rate.getD k 0).toNat)
    ∧ t.pwr.feedA.iin = r.iinA ∧ t.pwr.feedA.iinMax.toNat = max s.pwr.feedA.iinMax.toNat r.iinA.toNat
    ∧ t.pwr.modPwr.pin = r.pin ∧ t.pwr.modPwr.pinMax.toNat = max s.pwr.modPwr.pinMax.toNat r.pin.toNat
    ∧ (t.vc.duty = 0 → t = { s with vc := t.vc, pwr := t.pwr }) ∧ (t.vc.duty ≠ 0 → t.vc.piece = some (10 * t.vc.duty)))

/-- The time base, the heartbeat and the cores: in the last microsecond before 2^64 the timestamp wraps to a value below 10 and the epoch
rises by one, a tick token advances it by 1,000 ns less what a wrap has gone ahead, enforced durations count its tokens, a token at the
sideband edge starts the photo finish that waits, one at the poller advances the poll intervals, 1,000 tokens without a toggle drop the
heartbeat, and the end of a hold-duty piece clears cause 4 of every running domain (R28, R29, R34, R38, R273, R344, R349, R367).
A row out of its condition changes nothing: the model's choice (log entry 64). -/
def Obligations.TimeBaseAndHeartbeatRows : Prop :=
  (∀ s, s.vauxUp = true → 2 ^ 64 ≤ s.clk.ts.toNat + 1000 → Answers .timestampWrap s fun t =>
    t.clk.epoch = s.clk.epoch + 1 ∧ t.clk.ts.toNat < 10 ∧ t = { s with clk := t.clk }) ∧
  (∀ s, s.clk.ts.toNat + 1000 < 2 ^ 64 → exec .timestampWrap s = .next s) ∧
  (∀ s, s.up = true → s.zilUp = true → s.boot.rowLost = false →
    exec .heartbeatToggle s = .next { s with sl.heartbeat := true, sl.toggle := !s.sl.toggle, sl.quiet := 0 }) ∧
  (∀ s, s.up = true → 1000 ≤ s.sl.quiet → exec .heartbeatLoss s = .next { s with sl.heartbeat := false }) ∧
  (∀ s, s.sl.quiet < 1000 → exec .heartbeatLoss s = .next s) ∧
  (∀ s core, s.up = true → exec (.serviceCoreHang core true) s = .next { s with boot.rowLost := true }) ∧
  (∀ s core, s.up = true → Answers (.serviceCoreHang core false) s fun t =>
    t.boot.duty.lookup core.val = some (core.val / 4 * 4 + (core.val % 4 + 1) % 4) ∧ t = { s with boot.duty := t.boot.duty }) ∧
  (∀ s, s.up = true → s.vc.piece = some 0 → Answers .holdDutyPieceEnd s fun t =>
    (∀ c, c ∈ s.runningSlots → ((t.hold c).cause).getLsbD 4 = false) ∧ t.vc.piece = none
      ∧ t = { s with crs.holds := t.crs.holds, vc := t.vc }) ∧
  (∀ s, s.vc.piece ≠ some 0 → exec .holdDutyPieceEnd s = .next s) ∧
  (∀ s, s.vauxUp = true → Answers .tickToken s fun t =>
    t.clk.ts = s.clk.ts + BitVec.ofNat 64 (1000 - s.clk.ahead) ∧ t.mem.bytes = s.mem.bytes ∧ t.mem.hdrs = s.mem.hdrs
      ∧ (s.up = true → t.sl.quiet = s.sl.quiet + 1 ∧ t.vc.piece = s.vc.piece.map (· - 1) ∧ ∀ d, d < 4 → (t.near d).since = (s.near d).since + 1)
      ∧ (s.up = false → t = { s with clk := t.clk })) ∧
  (∀ s, s.up = true → s.pf.again = true → s.pf.busy = false → s.pfTooSoon = false → Answers (.tickArrival .sideband) s fun t =>
    t.pf.busy = true ∧ t.pf.again = false ∧ t.pf.taking = s.pf.snap + 1 ∧ t = { s with pf := t.pf }) ∧
  (∀ s b r, s.up = true → s.bibs.recs = [(BitVec.toNat (w := 12) b, r)] → Answers (.tickArrival .poller) s fun t =>
    t.ring b = (s.ring b).tick ∧ (∀ x, x ≠ b → t.ring x = s.ring x) ∧ t.cmd.polled = false
      ∧ t = { s with cmd.rings := t.cmd.rings, cmd.polled := false })

/-! ## The service register block (R8 to R10) -/

/-- REGISTER_WRITE sets rw fields, clears the w1c bits written 1 and leaves r, rc and reserved fields; an offset with no register
takes no write (R8, R9; that one write carries the whole register is the model's reading, log entry 38).
A row out of its condition changes nothing: the model's choice (log entry 64). -/
def Obligations.RegisterWriteFollowsAccessCodes : Prop :=
  (∀ s v, s.up = true →
    exec (.registerWrite 0 v) s = .next { s with vc := s.vc.writeTarget (v.extractLsb' 16 8) }) ∧
  (∀ s v p, s.up = true → p < 104 → Answers (.registerWrite (BitVec.ofNat 32 (0x200 + 0x20 * p)) v) s fun t =>
    (t.stn p).fault = (s.stn p).fault &&& ~~~ v.extractLsb' 52 4 ∧ (t.stn p).withdraw = v.getLsbD 59
      ∧ (t.stn p).width = (s.stn p).width ∧ (t.stn p).clearing = (s.stn p).clearing ∧ (t.stn p).bib0 = (s.stn p).bib0
      ∧ (∀ q, q ≠ p → t.stn q = s.stn q) ∧ t = { s with rink.stn := t.rink.stn }) ∧
  (∀ s v c, s.up = true → c < 256 → Answers (.registerWrite (BitVec.ofNat 32 (0x2000 + 8 * c)) v) s fun t =>
    (t.hold c).limit = (if v.extractLsb' 32 16 = 0 then 1 else v.extractLsb' 32 16) ∧ (t.hold c).pause = v.getLsbD 63
      ∧ t.mem = s.mem ∧ t.rink = s.rink) ∧
  (∀ s v i, s.up = true → i < 8 → Answers (.registerWrite (BitVec.ofNat 32 (0x3040 + 8 * i)) v) s fun t =>
    (t.stack i).second = ((s.stack i).second && !v.getLsbD 50) ∧ (t.stack i).mdie = (s.stack i).mdie
      ∧ (t.stack i).poison = (s.stack i).poison ∧ t = { s with mem.stks := t.mem.stks }) ∧
  (∀ s v b, s.up = true → Answers (.registerWrite (if b then 0x7308 else 0x7300) v) s fun t =>
    t = s.setFeed b { s.feed b with lost := (s.feed b).lost && !v.getLsbD 58 }) ∧
  (∀ s v off, 0x20000 ≤ off.toNat → exec (.registerWrite off v) s = .next s)

/-- RC_FIELD_READ returns the word of the register at its offset, every field at its place and every other bit zero, and leaves its rc field at
its Reset value, all ones for the least rate and zero for a highest reading; it changes nothing else, and an offset with no register
changes nothing. Zilunzor's writes of RINK_CFG, STN_CTL, HOLD_STAT, PF_CTL and UPD_SLOT fields
each leave every other register alone (R8, R10, R58, R68, R184, R262, R367, Tables 3.5, 3.6, 8.17).
A row out of its condition changes nothing: the model's choice (log entry 64). -/
def Obligations.RcFieldReadAndFieldWriteRows : Prop :=
  (∀ s k, s.up = true → k < 4 → Answers (.rcFieldRead (BitVec.ofNat 32 (0x10 + 8 * k))) s fun t =>
    t.cmd.readBack = BeatMon.word (s.vc.mons.read {} k) ∧ (t.vc.mons.read {} k).rateMin = 0xFFFF
      ∧ (t.vc.mons.read {} k).rate = (s.vc.mons.read {} k).rate ∧ (∀ j, j ≠ k → t.vc.mons.read {} j = s.vc.mons.read {} j)
      ∧ t = { s with vc.mons := t.vc.mons, cmd.readBack := t.cmd.readBack }) ∧
  (∀ s d, s.up = true → d < 4 → Answers (.rcFieldRead (BitVec.ofNat 32 (0x3000 + 8 * d))) s fun t =>
    t.cmd.readBack = NearTier.word (s.near d) ∧ (t.near d).tjMax = 0 ∧ (t.near d).tj = (s.near d).tj
      ∧ t = { s with mem.near := t.mem.near, cmd.readBack := t.cmd.readBack }) ∧
  (∀ s, s.up = true → exec (.rcFieldRead 0x7310) s
    = .next { s with cmd.readBack := ModPwr.word s.pwr.modPwr, pwr.modPwr.pinMax := 0 }) ∧
  (∀ s, s.up = true → exec (.rcFieldRead 0x100) s = .next { s with cmd.readBack := RinkCfg.word s.rink.cfg }) ∧
  (∀ s p, s.up = true → p < 104 → exec (.rcFieldRead (BitVec.ofNat 32 (0x200 + 0x20 * p))) s
    = .next { s with cmd.readBack := Stn.word (s.stn p) }) ∧
  (∀ s off, 0x20000 ≤ off.toNat → exec (.rcFieldRead off) s = .next s) ∧
  (∀ s cfg, s.up = true → cfg ≠ 0 → cfg.toNat ≤ 5 → exec (.rinkCfgRequestWrite cfg) s
    = .next { s with rink.cfg.request := cfg, rink.cfg.busy := decide (cfg ≠ s.rink.cfg.active) }) ∧
  (∀ s cfg, s.up = true → cfg = 0 ∨ 5 < cfg.toNat → exec (.rinkCfgRequestWrite cfg) s = .next { s with rink.cfg.reject := true }) ∧
  (∀ s p on, s.up = true → exec (.stnWithdrawWrite p on) s
    = .next (s.setStn p.val { s.stn p.val with withdraw := on, wdDone := (s.stn p.val).wdDone && on })) ∧
  (∀ s c d, s.up = true → s.domain c.toNat = some d → d.running = true → Answers (.holdPauseWrite c true) s fun t =>
    (t.hold c.toNat).pause = true ∧ (t.hold c.toNat).cause.getLsbD 3 = true ∧ t.domain c.toNat = some d
      ∧ t = { s with crs.holds := t.crs.holds, ctr := t.ctr, log := t.log }) ∧
  (∀ s c, s.up = true → s.domain c.toNat = none → Answers (.holdPauseWrite c false) s fun t =>
    (t.hold c.toNat).pause = false ∧ t = { s with crs.holds := t.crs.holds }) ∧
  (∀ s, s.up = true → s.pf.busy = false → s.pfTooSoon = false → Answers .pfStartWrite s fun t =>
    t.pf.busy = true ∧ t.pf.taking = s.pf.snap + 1 ∧ t.pf.tepoch = s.clk.epoch ∧ t.pf.tsLow = s.clk.ts.setWidth 32 ∧ t.pf.done = s.pf.done
      ∧ t = { s with pf := t.pf }) ∧
  (∀ s c k x, s.up = true → s.course c.toNat = some k → Answers (.clipWrite c x) s fun t =>
    (t.updSlot c.toNat).clip = x ∧ (t.updSlot c.toNat).clipArmed = true ∧ (t.updSlot c.toNat).clipEn = (s.updSlot c.toNat).clipEn
      ∧ (t.updSlot c.toNat).step = (s.updSlot c.toNat).step ∧ t = { s with upd.slots := t.upd.slots }) ∧
  (∀ s c g h sr w po f x, s.up = true → s.scaleRec c.toNat g.toNat = some x → s.crs.domains = [] → sr.toNat ≤ 12 → w ≠ 3
    → po.toNat ≤ 1 → f ≠ 0 → f.toNat ≤ 5 → ¬(po = 1 ∧ f = 2) → Answers (.scaleRecordWrite c g h sr w po f) s fun t =>
      (∃ y, t.scaleRec c.toNat g.toNat = some y ∧ y.hBase = h ∧ y.srate = sr ∧ y.sweep = w ∧ y.policy = po ∧ y.fmt = f ∧ y.scale = x.scale
        ∧ y.h.toNat = max x.h.toNat h.toNat) ∧ t.cmd.writeStatus = .ok ∧ t = { s with crs.scales := t.crs.scales, cmd.writeStatus := .ok }) ∧
  (∀ s c g h sr w x, s.up = true → s.scaleRec c.toNat g.toNat = some x → sr.toNat ≤ 12 → w ≠ 3 →
    exec (.scaleRecordWrite c g h sr w 1 2) s = .next { s with cmd.writeStatus := .format })

/-! ## Packets and replies (chapter 16) -/

/-- HELLO agrees on version 1, the only one, when the sender's range holds it, returning the identity record; otherwise it gets
ST_VERSION. IDENTITY returns the same record (R346, R350, Table 16.10). -/
def Obligations.HelloAgreesOnVersionOne : Prop :=
  (∀ s c low high, s.accepts 0x0001 c → low.toNat ≤ 1 → 1 ≤ high.toNat → Answers (.hello c low high) s fun t =>
    t.answered 0x0001 c .ok true (.identity 1 s.identity) ∧ t = { s with cmd := t.cmd }) ∧
  (∀ s c low high, s.accepts 0x0001 c → 1 < low.toNat ∨ high = 0 → Answers (.hello c low high) s fun t =>
    t.replied 0x0001 c .version ∧ t = { s with cmd := t.cmd }) ∧
  (∀ s c, s.accepts 0x0002 c → Answers (.identity c) s fun t =>
    t.answered 0x0002 c .ok true (.identity 1 s.identity) ∧ t = { s with cmd := t.cmd })

/-- QUOTE signs the quote body with the nonce and returns the bib's encapsulation key; more than 128 tries of the signer get ST_BUSY.
EVENTS returns the ring's entries from the index on, REPLIES the newest kept reply of a TAG, OPKEY installs the key while no bib is
admitted, running or suspended, and is ST_BUSY otherwise, and COUNTERS begins a photo finish (R314, R338, R339, R367, R370). -/
def Obligations.RecordCommandsAnswer : Prop :=
  (∀ s c nonce n, s.accepts 0x0003 c → n ≤ 128 → c.bib = 0 ∨ (s.keysOf c.bib).ke ≠ none → Answers (.quote c nonce n) s fun t =>
    (∃ sig cert, t.answered 0x0003 c .ok true (.quote (s.quoteBody c.bib nonce) sig cert (s.keysOf c.bib).ek))
      ∧ t = { s with cmd := t.cmd }) ∧
  (∀ s c nonce n, s.accepts 0x0003 c → 128 < n → Answers (.quote c nonce n) s fun t =>
    t.replied 0x0003 c .busy ∧ t = { s with cmd := t.cmd }) ∧
  (∀ s c first n, s.accepts 0x0004 c → Answers (.events c first n) s fun t =>
    (∃ es, t.answered 0x0004 c .ok true (.entries es)
      ∧ ∀ e, e ∈ es ↔ (∃ k, (k, e) ∈ s.log.ring) ∧ first.toNat ≤ e.index.toNat ∧ e.index.toNat < first.toNat + n)
      ∧ t = { s with cmd := t.cmd, log.returned := t.log.returned }) ∧
  (∀ s c tag, s.accepts 0x0006 c → (∀ r ∈ s.cmd.kept.read [] (keptKey c), r.tag ≠ tag) → Answers (.replies c tag) s fun t =>
    t.replied 0x0006 c .bounds ∧ t = { s with cmd := t.cmd }) ∧
  (∀ s c tag r, s.accepts 0x0006 c → (s.cmd.kept.read [] (keptKey c)).reverse.find? (fun x => x.tag = tag) = some r →
    Answers (.replies c tag) s fun t => t.answered 0x0006 c .ok true (keptResult r) ∧ t = { s with cmd := t.cmd }) ∧
  (∀ s c key, s.accepts 0x0007 c → (∀ k r, (k, r) ∈ s.bibs.recs → r.state = .free ∨ r.state = .clearing) → Answers (.opkey c key) s fun t =>
    t.cmd.opkey = some key ∧ t.replied 0x0007 c .ok ∧ t = { s with cmd := t.cmd }) ∧
  (∀ s c key k r, s.accepts 0x0007 c → (k, r) ∈ s.bibs.recs → r.state = .admitted ∨ r.state = .running ∨ r.state = .suspended →
    Answers (.opkey c key) s fun t => t.cmd.opkey = s.cmd.opkey ∧ t.replied 0x0007 c .busy ∧ t = { s with cmd := t.cmd }) ∧
  (∀ s c names, s.accepts 0x0005 c → (∀ n ∈ names, isCounter n.toNat = true) → s.pf.busy = false → s.pfTooSoon = false →
    Answers (.counters c names) s fun t => t.pf.busy = true ∧ t.pf.taking = s.pf.snap + 1 ∧ (∃ d, (d, names) ∈ t.pf.askers ∧ d.tag = c.tag)
      ∧ t = { s with cmd := t.cmd, pf := t.pf })

/-- A packet that fails a check of Table 16.3 that its header decides gets the first failing check's status as its FINAL reply, and no
command of Table 16.7 has any other effect then. A packet whose role its path does not take is counted in counter 0x0705 and gets no
reply; a packet that no unit serves in the present stage changes nothing (Tables 16.1, 16.3, R354, R355).
A row out of its condition changes nothing: the model's choice (log entry 64). -/
def Obligations.PacketChecks : Prop :=
  (∀ i s c op st, i.packet = some c → i.opcode = some op → s.serves op c.path = true → pathTakes c.path c.role = true →
    s.firstFailure op c = some st → Answers i s fun t => t.replied op c st ∧ t = { s with cmd := t.cmd }) ∧
  (∀ i s c op, i.packet = some c → i.opcode = some op → s.serves op c.path = true → pathTakes c.path c.role = false →
    Answers i s fun t => t.counter 0x0705 0 = (s.counter 0x0705 0).plus 1 ∧ t.cmd.sent = s.cmd.sent ∧ t.cmd.outbox = s.cmd.outbox
      ∧ t = { s with cmd := t.cmd, ctr := t.ctr, log := t.log }) ∧
  (∀ i s c op, i.packet = some c → i.opcode = some op → s.serves op c.path = false → exec i s = .next s)

/-- The host path: a poll whose interval has passed, at most one in a microsecond, asks for the next slot, a new sealed block that passes every check is taken in, its SEQ enters the replay record and
the next slot follows; a reply is posted while fewer than 64 lie beyond RDONE; BAR writes only count. The Ethernet and sideband paths: an
authentic operator packet that passes every check takes a posted buffer and is taken in with its OSEQ; with no posted space a datagram is
discarded and counted; a chassis packet is taken in where the stage serves it (R305, R307, R338, R343 to R345, R354).
A row out of its condition changes nothing: the model's choice (log entry 64). -/
def Obligations.IntakePathRows : Prop :=
  (∀ s b, s.up = true → s.boot.ready = true → (s.bib b).args.vf ≠ 0 → (s.bib b).state ≠ .free → (s.bib b).state ≠ .clearing →
    s.cmd.polled = false → (s.ring b).interval ≤ (s.ring b).ticks → Answers (.hostPollTimer b) s fun t =>
      t.ring b = { s.ring b with asked := true, ticks := 0 } ∧ (∀ x, x ≠ b → t.ring x = s.ring x)
        ∧ t = { s with cmd.rings := t.cmd.rings, cmd.polled := true }) ∧
  (∀ s b, (s.ring b).ticks < (s.ring b).interval ∨ s.cmd.polled = true → exec (.hostPollTimer b) s = .next s) ∧
  (∀ s b k h, s.up = true → (s.ring b).asked = true → s.cmd.paused = false → ((s.ring b).posted - (s.ring b).rdone).toNat < 64 →
    s.waitingOf b < 16 → (s.ring b).isNew b k = true → h.role = 0 → h.pver = 1 → s.sealCheck b k = .accept → opRoles h.opcode.toNat ≠ [] →
    h.bib = b → s.firstFailure h.opcode.toNat { h with path := .host } = none → Answers (.commandBlockRead b k h) s fun t =>
      t.cmd.intake = s.cmd.intake ++ [{ h with path := .host }] ∧ (t.ring b).next = ((s.ring b).next + 1) % 64 ∧ (t.ring b).rdone = h.rdone
        ∧ (t.ring b).asked = false ∧ k.seq.toNat < (t.replay b).h ∧ t.cmd.outbox = s.cmd.outbox ∧ t.mem = s.mem ∧ t.bibs.recs = s.bibs.recs) ∧
  (∀ s b rep, s.up = true → s.nextReply b = some rep → ((s.ring b).posted - (s.ring b).rdone).toNat < 64 → Answers (.replyPost b) s fun t =>
    (t.ring b).posted = (s.ring b).posted + 1 ∧ (t.ring b).ring.getLast? = some rep ∧ (t.replay b).txSeq = (s.replay b).txSeq + 1
      ∧ t.cmd.outbox = s.cmd.outbox.erase rep ∧ t.counter 0x0704 b.toNat = (s.counter 0x0704 b.toNat).plus 1 ∧ t.mem = s.mem) ∧
  (∀ s f, s.up = true → Answers (.hostBarWrite f) s fun t =>
    t.counter 0x0700 0 = (s.counter 0x0700 0).plus 1 ∧ t = { s with ctr := t.ctr, log := t.log }) ∧
  (∀ s p h, s.up = true → s.boot.ready = true → s.ethUsed p.val < 4096 → h.role = 1 → h.pver = 1 → s.operatorOk h true = true →
    s.firstFailure h.opcode.toNat { h with path := .eth p } = none → Answers (.ethDatagramRx p (.operator h true)) s fun t =>
      t.cmd.intake = s.cmd.intake ++ [{ h with path := .eth p }] ∧ t.cmd.oseq = some h.oseq ∧ t.ethUsed p.val = s.ethUsed p.val + 1
        ∧ t = { s with cmd := t.cmd }) ∧
  (∀ s p d, s.up = true → s.boot.ready = false ∨ 4096 ≤ s.ethUsed p.val → Answers (.ethDatagramRx p d) s fun t =>
    t.counter 0x0707 p.val = (s.counter 0x0707 p.val).plus 1 ∧ t = { s with ctr := t.ctr, log := t.log }) ∧
  (∀ s p h, s.up = true → s.boot.ready = true → s.ethUsed p.val < 4096 → h.role = 1 → h.pver = 1 →
    Answers (.ethDatagramRx p (.operator h false)) s fun t =>
      t.counter 0x0706 p.val = (s.counter 0x0706 p.val).plus 1 ∧ t = { s with ctr := t.ctr, log := t.log }) ∧
  (∀ s h, s.up = true → s.serves h.opcode.toNat .i3c = true → h.role = 2 → s.firstFailure h.opcode.toNat { h with path := .i3c } = none →
    Answers (.i3cPacketRx h) s fun t => t.cmd.intake = s.cmd.intake ++ [{ h with path := .i3c }] ∧ t = { s with cmd := t.cmd })

/-! ## Bibs, keys, page maps, release and scrub (chapters 9 and 14) -/

/-- ADMIT writes the bib record, starts the bib's counters and its KEM pair; QUOTA writes the quotas and limits and leaves the record's
other fields; beyond the module's memory neither changes anything. A raised T2 quota ends cause 5 of the bib's domains. SEEDS are in
force at once with no run in progress, and wait for its next step-end token else (R139, R205, R294, R302, R304, R361). -/
def Obligations.AdmitQuotaAndSeeds : Prop :=
  (∀ s c a, s.accepts 0x0101 c → inRange a = true → s.test.unlocked = none → s.quotasFit c.bib a = true → s.vfTaken c.bib a = false →
    Answers (.admitBib c a) s fun t => t.bib c.bib = { state := .admitted, args := a } ∧ t.keysOf c.bib = { kemDue := true }
      ∧ (∀ id, bibCounter id = true → t.counter id c.bib.toNat = {}) ∧ (∀ b, b ≠ c.bib → t.bib b = s.bib b) ∧ t.replied 0x0101 c .ok
      ∧ t = { s with bibs := t.bibs, cmd := t.cmd, ctr := t.ctr }) ∧
  (∀ s c a, s.accepts 0x0101 c → inRange a = true → s.test.unlocked = none → s.quotasFit c.bib a = false →
    Answers (.admitBib c a) s fun t => t.replied 0x0101 c .quota ∧ t = { s with cmd := t.cmd }) ∧
  (∀ s b, s.up = true → (s.keysOf b).kemDue = true → Answers (.kemPairReady b) s fun t =>
    (∃ ek dk, t.keysOf b = { s.keysOf b with kemDue := false, ek := some ek, dk := some dk })
      ∧ t = { s with bibs.keys := t.bibs.keys, freeCtr := t.freeCtr }) ∧
  (∀ s c a, s.accepts 0x0103 c → inRange a = true → s.quotasFit c.bib a = true → a.t2Quota ≤ (s.bib c.bib).args.t2Quota →
    Answers (.quota c a) s fun t => t.bib c.bib = { s.bib c.bib with args := { (s.bib c.bib).args with
          sMin := a.sMin, courses := a.courses, carves := a.carves, streams := a.streams, liftShare := a.liftShare, t2Quota := a.t2Quota
          t1Quota0 := a.t1Quota0, t1Quota1 := a.t1Quota1, t1Quota2 := a.t1Quota2, t1Quota3 := a.t1Quota3 } }
      ∧ t.replied 0x0103 c .ok ∧ t = { s with bibs := t.bibs, cmd := t.cmd }) ∧
  (∀ s c a, s.accepts 0x0103 c → inRange a = true → s.quotasFit c.bib a = true → (s.bib c.bib).args.t2Quota < a.t2Quota →
    Answers (.quota c a) s fun t => (t.bib c.bib).args.t2Quota = a.t2Quota ∧ t.replied 0x0103 c .ok
      ∧ (∀ i k, s.course i = some k → k.bib = c.bib → ((t.hold i).cause).getLsbD 5 = false)
      ∧ t = { s with bibs := t.bibs, cmd := t.cmd, crs.holds := t.crs.holds, lkr.extraT2 := t.lkr.extraT2 }) ∧
  (∀ s c set, s.accepts 0x0104 c → set.length = 16 → s.runningOf c.bib = [] → Answers (.seeds c set) s fun t =>
    t.bibs.seeds.lookup c.bib.toNat = some set ∧ t.replied 0x0104 c .ok ∧ t = { s with bibs := t.bibs, cmd := t.cmd }) ∧
  (∀ s c set, s.accepts 0x0104 c → set.length = 16 → s.runningOf c.bib ≠ [] → Answers (.seeds c set) s fun t =>
    t.bibs.seedsNext.lookup c.bib.toNat = some set ∧ t.bibs.seeds = s.bibs.seeds ∧ t.replied 0x0104 c .ok
      ∧ t = { s with bibs := t.bibs, cmd := t.cmd })

/-- KEYS forms K_E and what is derived from it and erases the decapsulation key; a link key whose tag fails ends it with ST_AUTH and no
key kept. A rotation puts generation n + 1 into the other slot and flips the current epoch; the sweep takes one item at a time from the
old epoch's count to the new one's; with no item left the old key is zeroised. A job's link key rotates into its other epoch (R302, R303,
R308, R310). -/
def Obligations.KeyRows : Prop :=
  (∀ s c ct w dk j, s.accepts 0x0102 c → (s.keysOf c.bib).dk = some dk → w.wver = 1 → w.rsv = 0 → w.bib = c.bib → w.tagOk = true →
    s.keyJob c.bib w = some j → Answers (.keys c ct [w]) s fun t =>
      (∃ ke, t.keysOf c.bib = { s.keysOf c.bib with dk := none, ke := some ke, data0 := some (Config.dataKey ke 0), data1 := none, gen := 0
                                                    host := some (Config.hostKey ke c.bib), kw := some (Config.wrapKey ke c.bib) }
        ∧ t.bibs.linkKeys.lookup (2 * j + w.epoch.toNat) = some (Config.unwrap (Config.wrapKey ke c.bib) w.nonce w.ct))
      ∧ (t.replay c.bib).h = 0 ∧ t.replied 0x0102 c .ok ∧ t = { s with bibs := t.bibs, cmd := t.cmd }) ∧
  (∀ s c ct w dk j, s.accepts 0x0102 c → (s.keysOf c.bib).dk = some dk → w.wver = 1 → w.rsv = 0 → w.bib = c.bib → w.tagOk = false →
    s.keyJob c.bib w = some j → Answers (.keys c ct [w]) s fun t =>
      t.keysOf c.bib = { s.keysOf c.bib with ek := none, dk := none } ∧ t.bibs.linkKeys = s.bibs.linkKeys ∧ t.replied 0x0102 c .auth
        ∧ t = { s with bibs := t.bibs, cmd := t.cmd }) ∧
  (∀ s c ke, s.accepts 0x0105 c → (s.bib c.bib).rotating = false → (s.keysOf c.bib).ke = some ke → Answers (.keyrot c) s fun t =>
    t.bib c.bib = { s.bib c.bib with curEpoch := !(s.bib c.bib).curEpoch, rotating := true }
      ∧ (t.keysOf c.bib).gen = (s.keysOf c.bib).gen + 1
      ∧ (if (s.bib c.bib).curEpoch then (t.keysOf c.bib).data0 else (t.keysOf c.bib).data1) = some (Config.dataKey ke ((s.keysOf c.bib).gen + 1))
      ∧ t.replied 0x0105 c .ok ∧ t = { s with bibs := t.bibs, cmd := t.cmd, log := t.log }) ∧
  (∀ s b ke, s.up = true → (s.bib b).state = .admitted ∨ (s.bib b).state = .running ∨ (s.bib b).state = .suspended →
    (s.bib b).rotating = false → (s.keysOf b).ke = some ke → Answers (.keyRotateTimer b) s fun t =>
      t.bib b = { s.bib b with curEpoch := !(s.bib b).curEpoch, rotating := true }
        ∧ t.log.flight = s.log.flight ++ [{ bib := b, arg := .keyRotate false 0 ((s.keysOf b).gen + 1) 0 }]
        ∧ t = { s with bibs := t.bibs, log := t.log }) ∧
  (∀ s b k h, s.up = true → (s.bib b).rotating = true → (s.bib b).state = .running → s.oldTile b 3 = some (k, h) →
    Answers (.keySweepItem b 3) s fun t => t.mem.hdrs.lookup k = some { h with epoch := (s.bib b).curEpoch } ∧ t.mem.bytes = s.mem.bytes
      ∧ t = { s with mem := t.mem }) ∧
  (∀ s b p u, s.up = true → (s.bib b).rotating = true → (s.bib b).state = .running → s.oldUnit b = some (p, u) → s.lodgeReadOnly = false →
    Answers (.keySweepItem b 8) s fun t =>
      t.lodge.tags.lookup p = some { u with epoch := (s.bib b).curEpoch, seq := s.lodge.seq + 1 } ∧ t.lodge.seq = s.lodge.seq + 1
        ∧ t.mem.bytes = s.mem.bytes ∧ t = { s with mem := t.mem, lodge := t.lodge }) ∧
  (∀ s b, s.up = true → (s.bib b).rotating = true → (s.bib b).state = .running → (s.keysOf b).due = false →
    (∀ i, i < 9 → s.items b (!(s.bib b).curEpoch) i = 0) → Answers (.keyRetire b) s fun t =>
      t.bib b = { s.bib b with rotating := false }
        ∧ (if (s.bib b).curEpoch then (t.keysOf b).data0 else (t.keysOf b).data1) = none
        ∧ t.log.flight = s.log.flight ++ [{ bib := b, arg := .keyRotate false 1 ((s.keysOf b).gen - 1) 0 }]
        ∧ t = { s with bibs := t.bibs, log := t.log }) ∧
  (∀ s job jb k, s.up = true → s.sl.jobs.lookup job.toNat = some jb → jb.rotating = false → jb.oldLive = false →
    s.bibs.linkKeys.lookup (2 * job.toNat + jb.kepoch.toNat) = some k → Answers (.linkKeyRotate job) s fun t =>
      t.bibs.linkKeys.lookup (2 * job.toNat + (!jb.kepoch).toNat) = some (Config.nextKey k jb.args.jobId)
        ∧ t.bibs.linkKeys.lookup (2 * job.toNat + jb.kepoch.toNat) = some k
        ∧ t.sl.jobs.lookup job.toNat = some { jb with rotating := true } ∧ t = { s with bibs := t.bibs, sl := t.sl })

/-- MAP maps a page to a free frame within its owner's quota, zero filled as every free frame is, with the rights it names; beyond the
quota nothing is mapped. PAGE_MOVE is stated with the moves (R189, R190, Table 9.14). -/
def Obligations.MapWritesThePageTable : Prop :=
  (∀ s c a, s.accepts 0x0108 c → a.map = true → a.shared = [] → a.count = 1 → a.page.toNat + 1 ≤ 2 ^ 27 → a.tier = 1 ∨ a.tier = 2 →
    a.owner ≠ 0 → (s.bib a.owner).state = .running → (s.pte a.owner a.page.toNat).state = 0 →
    s.frameFree a.tier.toNat a.frame.toNat = true → (s.quotaBib a.owner).quotaFor a.tier.toNat a.frame.toNat = true →
    (∀ e ∈ s.crs.courses, e.2.bib ≠ a.owner) → Answers (.map c a) s fun t =>
      t.pte a.owner a.page.toNat = { epoch := (s.bib a.owner).curEpoch, prot := a.prot, wr := a.wr, tier := a.tier, frame := a.frame, state := 1 }
        ∧ t.mem.owners.lookup (frameKey a.tier.toNat a.frame.toNat) = some a.owner ∧ t.mem.bytes = s.mem.bytes
        ∧ (∀ b p, pageKey b p ≠ pageKey a.owner a.page.toNat → t.pte b p = s.pte b p) ∧ t.replied 0x0108 c .ok
        ∧ t = { s with mem := t.mem, bibs := t.bibs, cmd := t.cmd }) ∧
  (∀ s c a, s.accepts 0x0108 c → a.map = true → a.shared = [] → a.count = 1 → a.page.toNat + 1 ≤ 2 ^ 27 → a.tier = 1 ∨ a.tier = 2 →
    a.owner ≠ 0 → (s.bib a.owner).state = .running → (s.pte a.owner a.page.toNat).state = 0 →
    s.frameFree a.tier.toNat a.frame.toNat = true → (s.quotaBib a.owner).quotaFor a.tier.toNat a.frame.toNat = false →
    Answers (.map c a) s fun t => t.replied 0x0108 c .quota ∧ t = { s with cmd := t.cmd })

/-- RELEASE makes the bib CLEARING and begins its scrub, but is busy while another bib maps a page it owns; SCRUB_PAGES_DONE erases its
keys, zero fills its frames and forgets its pages and tiles; SCRUB_COMPLETE answers with the certificate and frees the bib and its
courses; RESUME admits a suspended bib again (R293, R311, R312, Table 14.9). -/
def Obligations.ReleaseScrubAndResume : Prop :=
  (∀ s c nonce, s.accepts 0x0107 c → s.ownsShared c.bib = false → Answers (.release c nonce) s fun t =>
    (t.bib c.bib).state = .clearing ∧ (∃ z, t.bibs.scrubs.lookup c.bib.toNat = some z ∧ z.nonce = nonce ∧ z.pages = false ∧ z.hdr.tag = c.tag)
      ∧ (∀ n x, t.strm n = some x → x.bib ≠ c.bib) ∧ (∀ e ∈ t.lkr.entries, e.bib ≠ c.bib) ∧ t.mem.bytes = s.mem.bytes) ∧
  (∀ s c nonce, s.accepts 0x0107 c → s.ownsShared c.bib = true → Answers (.release c nonce) s fun t =>
    t.replied 0x0107 c .busy ∧ t = { s with cmd := t.cmd }) ∧
  (∀ s b z, s.up = true → s.bibs.scrubs.lookup b.toNat = some z → (s.bib b).state = .clearing → z.pages = false → s.stillHeld b = false →
    Answers (.scrubPagesDone b []) s fun t =>
      t.keysOf b = { gen := (s.keysOf b).gen } ∧ (∃ y, t.bibs.scrubs.lookup b.toNat = some y ∧ y.pages = true ∧ y.pass = true ∧ y.nonce = z.nonce)
        ∧ (∀ p, p < 2 ^ 27 → t.pte b p = {}) ∧ (∀ f, t.mem.owners.lookup f ≠ some b)
        ∧ (∀ f i, s.mem.owners.lookup f = some b → i < 2 ^ 21 → t.byte (byteKey (f / 2 ^ 29) (f % 2 ^ 29 * 2 ^ 21) + i) = 0)
        ∧ (∀ k h, t.mem.hdrs.lookup k = some h → h.id.bib ≠ b) ∧ t.log = s.log) ∧
  (∀ s b z, s.up = true → s.bibs.scrubs.lookup b.toNat = some z → z.pages = true → z.hdr.opcode ≠ 0 →
    Answers (.scrubComplete b) s fun t =>
      t.bib b = {} ∧ t.keysOf b = {} ∧ t.bibs.scrubs.lookup b.toNat = none ∧ t.bibs.seeds.lookup b.toNat = none
        ∧ (∃ sig, t.answered z.hdr.opcode.toNat z.hdr .ok true (.cert (s.certBody b z) sig))
        ∧ (∀ i k, t.course i = some k → k.bib ≠ b) ∧ t.mem = s.mem ∧ t.boot = s.boot) ∧
  (∀ s c, s.accepts 0x0106 c → s.jobOf c.bib = none → Answers (.resume c) s fun t =>
    (t.bib c.bib).state = .admitted ∧ (t.bib c.bib).why = .ok ∧ t.replied 0x0106 c .ok ∧ t.mem.bytes = s.mem.bytes)

/-! ## Courses and runs (chapters 3 and 8) -/

/-- LOAD makes a course whose checks pass resident in an empty slot, compares its declared stage distances and answers with D(0, j); a failed check is the reply and takes
nothing. FREEZE, CONSTS and LIMIT order what they name, LIMIT 0 being stored as 1, and touch nothing else (R172, R173, R186, R252,
R261). -/
def Obligations.CourseCommandRows : Prop :=
  (∀ s c va len ok, s.accepts 0x0201 c →
    let u := s.started 0x0201 c
    let f := u.vaRead c.bib va.toNat len.toNat
    let k := fileCourse f c.bib (u.jobM c.bib)
    let r := (u.chargeHeaders (u.install c.slot.toNat k (sectionRecs f (fileSections f) 0x08)) c.bib).bib c.bib
    u.vaFault c.bib va.toNat len.toNat false = none → (∀ p ∈ pagesOf va.toNat len.toNat, (u.pte c.bib p).tier = 2) →
    u.course c.slot.toNat = none → u.crs.courses.length < 256 → u.loadFault f len.toNat k ok = none → r.t2Used ≤ r.args.t2Quota.toNat →
    Answers (.load c va len ok) s fun t =>
      (∃ x, t.course c.slot.toNat = some x ∧ x.bib = c.bib ∧ x.digest = k.digest ∧ x.gateMap = u.freeGates (chGates k.hdr))
        ∧ (∀ i, i ≠ c.slot.toNat → t.course i = s.course i) ∧ t.answered 0x0201 c .ok true (.distances (u.loadDistances k))
        ∧ t.counter 0x080A c.slot.toNat = ({} : Counter).plus (stageDiff (u.loadDistances k) k.stages)
        ∧ (stageDiff (u.loadDistances k) k.stages = 0 → t.log = s.log)
        ∧ t.mem.bytes = s.mem.bytes ∧ t.mem.ptes = s.mem.ptes ∧ t.rink = s.rink) ∧
  (∀ s c va len ok st, s.accepts 0x0201 c →
    let u := s.started 0x0201 c
    let f := u.vaRead c.bib va.toNat len.toNat
    u.vaFault c.bib va.toNat len.toNat false = none → (∀ p ∈ pagesOf va.toNat len.toNat, (u.pte c.bib p).tier = 2) →
    u.course c.slot.toNat = none → u.crs.courses.length < 256 → u.loadFault f len.toNat (fileCourse f c.bib (u.jobM c.bib)) ok = some st →
    Answers (.load c va len ok) s fun t => t.replied 0x0201 c st ∧ t = { s with cmd := t.cmd }) ∧
  (∀ s c k table, s.accepts 0x0205 c → s.course c.slot.toNat = some k → k.bib = c.bib → table.length = k.binds.length →
    Answers (.freeze c table) s fun t => t.upd.freezeNext.lookup c.slot.toNat = some table ∧ t.upd.freeze = s.upd.freeze
      ∧ t.replied 0x0205 c .ok ∧ t = { s with upd := t.upd, cmd := t.cmd }) ∧
  (∀ s c k prog ks, s.accepts 0x0206 c → s.course c.slot.toNat = some k → k.bib = c.bib → prog.toNat < k.progs.length → ks.length = 16 →
    Answers (.consts c prog ks) s fun t => t.upd.constsNext = s.upd.constsNext ++ [(c.slot, prog.toNat, ks.map BitVec.toNat)]
      ∧ t.replied 0x0206 c .ok ∧ t = { s with upd := t.upd, cmd := t.cmd }) ∧
  (∀ s c k lim, s.accepts 0x0207 c → s.course c.slot.toNat = some k → k.bib = c.bib → Answers (.limit c lim) s fun t =>
    t.hold c.slot.toNat = { s.hold c.slot.toNat with limit := if lim = 0 then 1 else lim } ∧ t.replied 0x0207 c .ok
      ∧ t = { s with crs.holds := t.crs.holds, cmd := t.cmd })

/-- UNLOAD frees a course's gates, its locker areas and entries, its slot, and those records of its bib's scale table that no other course of
the bib declares; of a running course, or with a wait blocked on one of
its gates, it gets ST_BUSY and changes nothing (R183). -/
def Obligations.UnloadFreesTheCourse : Prop :=
  (∀ s c k, s.accepts 0x0202 c → s.course c.slot.toNat = some k → k.bib = c.bib → s.domain c.slot.toNat = none →
    (∀ n ∈ k.gateMap, (s.gate n).waits = []) → Answers (.unload c) s fun t =>
      t.course c.slot.toNat = none ∧ (∀ n ∈ k.gateMap, t.gate n = {}) ∧ (∀ n, n ∉ k.gateMap → t.gate n = s.gate n)
        ∧ (∀ e ∈ t.lkr.entries, e.slot ≠ c.slot) ∧ (∀ g, g < 16384 → (∀ e ∈ s.crs.courses, e.1 ≠ c.slot.toNat → e.2.bib = c.bib → chScaleRecs e.2.hdr ≤ g) →
            t.crs.scales.lookup (groupKey c.bib g) = none)
        ∧ (∀ e ∈ s.crs.courses, e.1 ≠ c.slot.toNat → e.2.bib = c.bib → ∀ g, g < chScaleRecs e.2.hdr → g < 16384 →
            t.crs.scales.lookup (groupKey c.bib g) = s.crs.scales.lookup (groupKey c.bib g))
        ∧ (∀ d, d < 4 → t.lkr.keepRsv.read 0 d = s.lkr.keepRsv.read 0 d - (k.lockerUnits d).1
            ∧ t.lkr.workRsv.read 0 d = s.lkr.workRsv.read 0 d - (k.lockerUnits d).2)
        ∧ (∀ i, i ≠ c.slot.toNat → t.course i = s.course i) ∧ t.replied 0x0202 c .ok ∧ t.mem = s.mem ∧ t.bibs = s.bibs ∧ t.rink = s.rink) ∧
  (∀ s c k, s.accepts 0x0202 c → s.course c.slot.toNat = some k → k.bib = c.bib →
    ((s.domain c.slot.toNat).isSome = true ∨ ∃ n ∈ k.gateMap, (s.gate n).waits ≠ []) →
    Answers (.unload c) s fun t => t.replied 0x0202 c .busy ∧ t = { s with cmd := t.cmd })

/-- RUN requests stations for the course of its slot and waits with ST_DEFERRED when none can be granted at once; a grant binds the
quarters of every station of the run, starts the domain with S stations and makes the bib RUNNING; a run whose steps are done or that is
cancelled ends, its slot has no domain and its RUN gets its FINAL reply (R160, R293, R295 to R297, R341). -/
def Obligations.RunRows : Prop :=
  (∀ s c k steps seq, s.accepts 0x0203 c → s.course c.slot.toNat = some k → k.bib = c.bib → (∀ e ∈ s.crs.domains, e.2.bib ≠ c.bib) →
    (s.grant k (s.bib c.bib).args (s.barredFor s.crs.requests)).isSome = false → Answers (.run c steps seq) s fun t =>
      (∃ d, t.domain c.slot.toNat = some d ∧ d.bib = c.bib ∧ d.running = false ∧ d.steps = steps.toNat ∧ d.inputSeq = seq ∧ d.runHdr.tag = c.tag)
        ∧ t.crs.requests = s.crs.requests ++ [{ slot := c.slot, bib := c.bib, prio := (s.bib c.bib).args.prio, waited := false }]
        ∧ t.answered 0x0203 c .deferred false .none
        ∧ t = { s with crs.domains := t.crs.domains, crs.requests := t.crs.requests, cmd := t.cmd }) ∧
  (∀ s c k e steps seq, s.accepts 0x0203 c → s.course c.slot.toNat = some k → k.bib = c.bib → e ∈ s.crs.domains → e.2.bib = c.bib →
    Answers (.run c steps seq) s fun t => t.replied 0x0203 c .busy ∧ t = { s with cmd := t.cmd }) ∧
  (∀ s slot r k d o, s.up = true → s.crs.requests.find? (fun r => r.slot = slot) = some r → s.course slot.toNat = some k →
    s.domain slot.toNat = some d → (∀ x ∈ earlier s.crs.requests slot, s.couldMeet x = false) → (s.bib r.bib).state = .admitted →
    s.grant k (s.bib r.bib).args (s.barredFor (earlier s.crs.requests slot)) = some o → Answers (.carveGrant slot) s fun t =>
      let w := carveWidth (chWidth k.hdr)
      (∃ x, t.domain slot.toNat = some x ∧ x.running = true ∧ x.suspended = false ∧ x.run = o.run ∧ x.s = o.run.length ∧ x.quarter = o.q ∧ x.w = w
          ∧ x.live = [] ∧ x.stepsDone = d.stepsDone)
        ∧ t.bib r.bib = { s.bib r.bib with state := .running } ∧ (∀ b, b ≠ r.bib → t.bib b = s.bib b)
        ∧ (∀ p ∈ o.run, (t.stn p).width = widthCode w ∧ ∀ q ∈ groupQuarters o.q w, (t.stn p).bibOf q = r.bib)
        ∧ (∀ p, p ∉ o.run → t.stn p = s.stn p) ∧ (∀ x ∈ t.crs.requests, x.slot ≠ slot) ∧ t.mem = s.mem) ∧
  (∀ s slot, s.up = true → exec (.carveWaitTimeout slot) s
    = .next { s with crs.requests := s.crs.requests.map (fun r => if r.slot = slot ∧ 1000000 ≤ r.ticks then { r with waited := true } else r) }) ∧
  (∀ s slot k d, s.up = true → s.course slot.toNat = some k → s.domain slot.toNat = some d → d.running = true → d.live = [] → d.tokens = 0 →
    d.steps ≠ 0 → d.steps ≤ d.stepsDone → (s.bib d.bib).state = .running → Answers (.runEnd slot) s fun t =>
      t.domain slot.toNat = none ∧ t.bib d.bib = { s.bib d.bib with state := .admitted } ∧ (∀ b, b ≠ d.bib → t.bib b = s.bib b)
        ∧ t.replied d.runHdr.opcode.toNat d.runHdr .ok ∧ (t.hold slot.toNat).cause = 0 ∧ t.mem = s.mem) ∧
  (∀ s c k d, s.accepts 0x0204 c → s.course c.slot.toNat = some k → k.bib = c.bib → s.domain c.slot.toNat = some d →
    Answers (.cancel c) s fun t => t.domain c.slot.toNat = none ∧ t.replied 0x0204 c .ok
      ∧ (∀ e ∈ t.lkr.entries, e.bib ≠ d.bib) ∧ (∀ r ∈ t.crs.requests, r.slot ≠ c.slot) ∧ t.mem.bytes = s.mem.bytes)

/-- A segment starts when its fence, gates, stations and streams allow, with S of the start; one that names a station beyond the run, or that
allocates more than the locker work area, is a course violation at the run's first carve; it finishes when every use has delivered its
last result, issues its signals and clears its writer tags; a step-end token, which waits while the domain is held, frees the locker entries of its step and puts ordered seeds in
force (R141, R165, R168, R175, R178, R193, R304).
A row out of its condition changes nothing: the model's choice (log entry 64). -/
def Obligations.SequencerRows : Prop :=
  (∀ s slot seg work k d, s.up = true → s.course slot.toNat = some k → s.domain slot.toNat = some d → s.mayRun slot.toNat = true →
    d.next k = some seg.toNat → sgPatchPoint (k.seg seg.toNat) = false ∨ s.leaving d = [] →
    sgFirst (k.seg seg.toNat) + sgS (k.seg seg.toNat) ≤ d.s → d.workFits k work = true → sgFence (k.seg seg.toNat) = false ∨ d.live = [] →
    d.live.has seg.toNat = false → s.gateOpen k (sgWaitA (k.seg seg.toNat)) (d.passes.read 0 seg.toNat) = true →
    s.gateOpen k (sgWaitB (k.seg seg.toNat)) (d.passes.read 0 seg.toNat) = true → d.stationsFree k seg.toNat = true →
    s.streamsOpen slot.toNat (k.seg seg.toNat) = true → s.changeStops d = false →
    (∀ r ∈ segOffsets (k.seg seg.toNat), d.run.getD r 0 ∉ s.leaving d) → Answers (.segmentStart slot seg work) s fun t =>
      (∃ x, t.domain slot.toNat = some x ∧ (∃ l, x.live.lookup seg.toNat = some l ∧ l.ord = d.ord ∧ l.s = d.s ∧ l.work = work ∧ l.step = d.stepNo ∧ l.begun = [] ∧ l.done = [])
          ∧ x.ord = d.ord + 1
          ∧ x.passes.read 0 seg.toNat = d.passes.read 0 seg.toNat + 1 ∧ x.run = d.run ∧ x.stepsDone = d.stepsDone)
        ∧ t = { s with crs.domains := t.crs.domains }) ∧
  (∀ s slot seg work k d, s.up = true → s.course slot.toNat = some k → s.domain slot.toNat = some d → s.mayRun slot.toNat = true →
    d.bib = k.bib → d.next k = some seg.toNat → sgPatchPoint (k.seg seg.toNat) = false ∨ s.leaving d = [] →
    d.s < sgFirst (k.seg seg.toNat) + sgS (k.seg seg.toNat) ∨ d.workFits k work = false → sgFence (k.seg seg.toNat) = false ∨ d.live = [] →
    d.live.has seg.toNat = false → s.gateOpen k (sgWaitA (k.seg seg.toNat)) (d.passes.read 0 seg.toNat) = true →
    s.gateOpen k (sgWaitB (k.seg seg.toNat)) (d.passes.read 0 seg.toNat) = true → d.stationsFree k seg.toNat = true →
    s.streamsOpen slot.toNat (k.seg seg.toNat) = true → s.changeStops d = false →
    (∀ r ∈ segOffsets (k.seg seg.toNat), d.run.getD r 0 ∉ s.leaving d) →
    Answers (.segmentStart slot seg work) s fun t => (t.bib k.bib).state = .suspended ∧ (t.bib k.bib).why = .fault
      ∧ (d.quarter < 4 → ((t.stn (d.run.headD 0)).fault).getLsbD d.quarter = true) ∧ (∃ x, t.domain slot.toNat = some x ∧ x.suspended = true ∧ x.ord = d.ord ∧ x.passes = d.passes)
      ∧ t.log.flight.length = s.log.flight.length + 1 ∧ t.mem.bytes = s.mem.bytes) ∧
  (∀ s slot seg k d l, s.up = true → s.course slot.toNat = some k → s.domain slot.toNat = some d → d.live.lookup seg.toNat = some l →
    d.running = true → d.suspended = false → l.allDone k seg.toNat = true → Answers (.segmentFinish slot seg) s fun t =>
      t.domain slot.toNat = some { d with
          live := d.live.remove seg.toNat, finishes := d.finishes.insert seg.toNat (d.finishes.read 0 seg.toNat + 1)
          ends := if sgStepEnd (k.seg seg.toNat) then d.ends ++ [l.ord] else d.ends }
        ∧ (∀ n, k.gateNo (sgSigA (k.seg seg.toNat)) = some n → (n, BitVec.ofNat 8 (d.passes.read 0 seg.toNat - 1)) ∈ t.crs.signals)
        ∧ (∀ n, k.gateNo (sgSigB (k.seg seg.toNat)) = some n → (n, BitVec.ofNat 8 (d.passes.read 0 seg.toNat - 1)) ∈ t.crs.signals)
        ∧ (∀ e ∈ t.mem.hdrs, e.2.wslot = slot → e.2.wseg = seg → e.2.wact = false)
        ∧ t = { s with crs.domains := t.crs.domains, crs.signals := t.crs.signals, mem.hdrs := t.mem.hdrs }) ∧
  (∀ s slot k d o rest, s.up = true → s.course slot.toNat = some k → s.domain slot.toNat = some d → d.ends = o :: rest → d.running = true →
    d.suspended = false → s.held slot.toNat = false → (∀ e ∈ d.live, o < e.2.ord) → Answers (.stepEndToken slot) s fun t =>
      (∃ x, t.domain slot.toNat = some x ∧ x.ends = rest ∧ x.tokens = (if chKind k.hdr = 0 then d.tokens + 1 else d.tokens)
          ∧ x.stepsDone = (if chKind k.hdr = 0 then d.stepsDone else d.stepsDone + 1))
        ∧ (∀ e, e ∈ t.lkr.entries ↔ e ∈ s.lkr.entries ∧ (e.slot ≠ slot ∨ d.tokenNo < e.step)) ∧ (∀ l, s.bibs.seedsNext.lookup k.bib.toNat = some l → t.bibs.seeds.lookup k.bib.toNat = some l)
        ∧ t.mem.bytes = s.mem.bytes ∧ t.bibs.recs = s.bibs.recs) ∧
  (∀ s slot, s.up = true → s.held slot.toNat = true → exec (.stepEndToken slot) s = .next s)

/-- A use that passes every check, in matrix mode or in a distance mode, injected, gathered or lapping, comes to stand on its carve behind the
uses begun before it, with its record's values. A use whose last result is delivered leaves its carve, counts its pass and signals its gate
(R47, R80, R154, R165, R167, R178, R193, R194). -/
def Obligations.UseRows : Prop :=
  (∀ s slot seg use off pass x k d l fo fs fu hs (ho hu : Option TileHdr), s.up = true → s.course slot.toNat = some k →
    s.domain slot.toNat = some d → d.live.lookup (BitVec.toNat seg) = some l → s.mayRun slot.toNat = true → BitVec.toNat off < sgS (k.seg seg.toNat) →
    l.nextUse k seg.toNat off.toNat = some (BitVec.toNat use, BitVec.toNat pass) →
    let r := k.use use.toNat
    let p := d.run.getD (sgFirst (k.seg seg.toNat) + off.toNat) 0
    let ck := 4 * p + d.quarter
    let injects := usVisits r ≠ 0 ∧ usGathers r = false
    let desc := k.convs.getD (usConv r) 0
    let find (tensor : Nat) (idx : Int) (fmt : Nat) (read : Bool) := s.access ck slot.toNat k seg.toNat use.toNat tensor idx fmt read
    s.gateOpen k (usWait r) (d.usePass.read 0 (use.toNat * 128 + off.toNat)
      + ((s.usesOf ck).filter (fun u => u.slot = slot && u.use = use.toNat)).length) = true →
    usStn r = 0x7F ∨ usStn r < sgS (k.seg seg.toNat) → fmtOf (usOpFmt r) = some fo → fmtOf (usStFmt r) = some fs → fmtOf (usOutFmt r) = some fu →
    find (s.resolve slot.toNat k (usStTensor r)) (tileRef (usStBase r) (usStDs r) (usStDi r) off.toNat pass.toNat) (usStFmt r) true = .good hs →
    (injects → ∃ h, ho = some h ∧
      find (s.resolve slot.toNat k (usOpTensor r)) (tileRef (usOpBase r) (usOpDs r) (usOpDi r) off.toNat pass.toNat) (usOpFmt r) true = .good h) →
    (¬injects → ho = none) →
    (usRoute r = 0 ∧ s.mirrorOf k.bib (BitVec.ofNat 24 (usOutTensor r)) = none → ∃ h, hu = some h ∧
      find (usOutTensor r) (tileRef (usOutBase r) (usOutDs r) (usOutDi r) off.toNat pass.toNat) (usOutFmt r) false = .good h) →
    (¬(usRoute r = 0 ∧ s.mirrorOf k.bib (BitVec.ofNat 24 (usOutTensor r)) = none) → hu = none) →
    (∀ f ∈ x.post, ∀ e ∈ puTiles (postExpr f), ∃ h, find e.1.toNat (e.2.toNat : Int) (tnFmt (k.tensor e.1.toNat)) true = .good h) →
    (usGathers r = true → s.planeFault k.bib desc (p / 26) = none ∧ planeFmt fo = true) →
    (usMode r = 0 ∧ pairing fo fs = true) ∨ (usMode r ≠ 0 ∧ fo = .int8 ∧ fs = .int8 ∧ usOrient r = 0 ∧ (fu = .fp32 ∨ fu = .w40)
      ∧ (∀ h, h = hs ∨ ho = some h → s.oneScale h.home (s.byte (homeKey hs.home)) = true)
      ∧ (usGathers r = true → s.planeScale k.bib (cvPlane desc) = s.byte (homeKey hs.home))) →
    (usRoute r = 1 → planeFmt fu = true ∨ fu = .w40) →
    (hasScale fu = true → ∃ y, s.scaleRec slot.toNat (usGroup r) = some y ∧ y.fmt.toNat = usOutFmt r) →
    (usSeed r = 15 → ∀ f ∈ x.post, puDrops (postExpr f) = false) →
    (usAcc r ≠ 2 → ∀ h, hu = some h → h.wact = true → h.wslot = slot ∧ h.wseg = seg) →
    (injects → s.queueRoom ck (tileBytes fo) = true) → Answers (.useStart slot seg use off pass x) s fun t =>
      (t.usesOf ck).length = (s.usesOf ck).length + 1
        ∧ (∃ u ∈ t.usesOf ck, u.slot = slot ∧ u.seg = seg.toNat ∧ u.use = use.toNat ∧ u.off = sgFirst (k.seg seg.toNat) + off.toNat ∧ u.pass = pass.toNat
            ∧ u.ord = (s.feeder ck).uses ∧ u.opFmt = fo ∧ u.stFmt = fs ∧ u.outFmt = fu ∧ u.mode = BitVec.ofNat 4 (usMode r) ∧ u.opT = usOpT r
            ∧ u.visits = usVisits r ∧ u.kUse = usK r ∧ u.x = x ∧ u.accepted = 0 ∧ (∀ y, s.scaleRec slot.toNat (usGroup r) = some y → u.pOut = y.scale))
        ∧ (t.feeder ck).uses = (s.feeder ck).uses + 1
        ∧ (∃ y, t.domain slot.toNat = some y ∧ y.live.lookup seg.toNat = some { l with begun := l.begun.insert off.toNat (l.begun.read 0 off.toNat + 1) })
        ∧ t.mem.bytes = s.mem.bytes ∧ t.bibs = s.bibs) ∧
  (∀ s slot off k d u rest l, s.up = true → s.course slot.toNat = some k → s.domain slot.toNat = some d →
    let ck := 4 * d.run.getD (BitVec.toNat off) 0 + d.quarter
    let st := u.off - sgFirst (k.seg u.seg)
    s.usesOf ck = u :: rest → u.slot = slot → d.live.lookup u.seg = some l → s.useDone ck u = true → Answers (.useFinish slot off) s fun t =>
      t.usesOf ck = rest.filter (fun v => v.ord ≠ u.ord) ∧ t.domain slot.toNat = some { d with
          usePass := d.usePass.insert (u.use * 128 + st) (d.usePass.read 0 (u.use * 128 + st) + 1), unwinds := 0
          live := d.live.insert u.seg { l with done := l.done.insert st (l.done.read 0 st + 1) } }
        ∧ (∀ n, k.gateNo (usSig (k.use u.use)) = some n → (n, BitVec.ofNat 8 (d.usePass.read 0 (u.use * 128 + st))) ∈ t.crs.signals)
        ∧ t.mem.bytes = s.mem.bytes ∧ t.bibs = s.bibs ∧ t.rink = s.rink)

/-! ## Gates and holds (chapter 8) -/

/-- A gate counts a signal of its epoch, or of the next in NEXT; at TARGET a module-scope gate completes, its epoch advances and the
waits for it are released; a third epoch is an over-commit, for which the bib receives ST_QUOTA; a wait blocks unless its epoch has
completed; the watchdog trips after WD ms (R178 to R180, R182).
A row out of its condition changes nothing: the model's choice (log entry 64). -/
def Obligations.GateRows : Prop :=
  (∀ s gate e, s.up = true → (s.gate gate.toNat).state = 1 → e = (s.gate gate.toNat).epoch →
    (s.gate gate.toNat).count + 1 ≠ (s.gate gate.toNat).target → (s.gate gate.toNat).count ≠ (s.gate gate.toNat).target →
    Answers (.gateSignal gate e) s fun t =>
      t.gate gate.toNat = { s.gate gate.toNat with count := (s.gate gate.toNat).count + 1, counted := (s.gate gate.toNat).counted + 1 }
        ∧ (∀ n, n ≠ gate.toNat → t.gate n = s.gate n) ∧ t = { s with crs.gates := t.crs.gates, crs.signals := t.crs.signals }) ∧
  (∀ s gate e, s.up = true → (s.gate gate.toNat).state = 1 → (s.gate gate.toNat).scope = false → e = (s.gate gate.toNat).epoch →
    (s.gate gate.toNat).count ≠ (s.gate gate.toNat).target → (s.gate gate.toNat).count + 1 = (s.gate gate.toNat).target →
    (s.gate gate.toNat).next = 0 → (s.gate gate.toNat).target ≠ 0 → Answers (.gateSignal gate e) s fun t =>
      (t.gate gate.toNat).epoch = e + 1 ∧ (t.gate gate.toNat).count = 0 ∧ (∀ w ∈ (t.gate gate.toNat).waits, w.1 ≠ e)
        ∧ t = { s with crs.gates := t.crs.gates, crs.signals := t.crs.signals, crs.domains := t.crs.domains }) ∧
  (∀ s gate e, s.up = true → (s.gate gate.toNat).state = 1 → e = (s.gate gate.toNat).epoch + 1 →
    (s.gate gate.toNat).next.toNat < (s.gate gate.toNat).target.toNat → (s.gate gate.toNat).next.toNat < 511 →
    Answers (.gateSignal gate e) s fun t =>
      t.gate gate.toNat = { s.gate gate.toNat with next := (s.gate gate.toNat).next + 1, counted := (s.gate gate.toNat).counted + 1 }
        ∧ t = { s with crs.gates := t.crs.gates, crs.signals := t.crs.signals }) ∧
  (∀ s gate e c l k, s.up = true → (s.gate gate.toNat).state = 1 → e ≠ (s.gate gate.toNat).epoch → e ≠ (s.gate gate.toNat).epoch + 1 →
    s.gateSlot gate.toNat = some (c, l) → s.course c = some k → (s.bib k.bib).state = .running → Answers (.gateSignal gate e) s fun t =>
      (t.bib k.bib).state = .suspended ∧ (t.bib k.bib).why = .quota ∧ t.gate gate.toNat = s.gate gate.toNat) ∧
  (∀ s gate e slot, s.up = true → (s.gate gate.toNat).state = 1 → e = (s.gate gate.toNat).epoch ∨ e = (s.gate gate.toNat).epoch + 1 →
    Answers (.gateWait gate e slot) s fun t => (e, slot) ∈ (t.gate gate.toNat).waits ∧ (t.gate gate.toNat).count = (s.gate gate.toNat).count
      ∧ t = { s with crs.gates := t.crs.gates }) ∧
  (∀ s gate e slot, s.up = true → (s.gate gate.toNat).state = 1 → (s.gate gate.toNat).passed e = true →
    exec (.gateWait gate e slot) s = .next s) ∧
  (∀ s gate c l k, s.up = true → (s.gate gate.toNat).state = 1 → (s.gate gate.toNat).waits ≠ [] →
    1000 * (s.gate gate.toNat).wd.toNat ≤ max (s.gate gate.toNat).ticks (s.gate gate.toNat).ticksNext → s.gateSlot gate.toNat = some (c, l) → s.course c = some k →
    (s.bib k.bib).state = .running → Answers (.gateWatchdogTrip gate) s fun t =>
      (t.gate gate.toNat).state = 2 ∧ (t.bib k.bib).state = .suspended ∧ (t.bib k.bib).why = .fault ∧ t.mem.bytes = s.mem.bytes) ∧
  (∀ s gate, s.up = true → (s.gate gate.toNat).state = 1 →
    max (s.gate gate.toNat).ticks (s.gate gate.toNat).ticksNext < 1000 * (s.gate gate.toNat).wd.toNat →
    exec (.gateWatchdogTrip gate) s = .next s)

/-- H1 to H5 of Table 8.15: a cause is raised for a running domain, joins a hold in force and clears; feeders stop, sums drain; the hold
ends with its last cause; a hold beyond LIMIT is recorded once (R184 to R186).
A row out of its condition changes nothing: the model's choice (log entry 64). -/
def Obligations.HoldRows : Prop :=
  (∀ s slot cause d, s.up = true → s.domain slot.toNat = some d → d.running = true → Answers (.holdRaise slot cause) s fun t =>
    ((t.hold slot.toNat).cause).getLsbD cause.val = true
      ∧ (∀ i, i < 8 → i ≠ cause.val → ((t.hold slot.toNat).cause).getLsbD i = ((s.hold slot.toNat).cause).getLsbD i)
      ∧ ((s.hold slot.toNat).cause = 0 → t.counter 0x0807 slot.toNat = (s.counter 0x0807 slot.toNat).plus 1)
      ∧ t = { s with crs.holds := t.crs.holds, ctr := t.ctr, log := t.log }) ∧
  (∀ s slot, s.up = true → (s.hold slot.toNat).cause ≠ 0 →
    exec (.holdStopped slot) s = .next (s.setHold slot.toNat { s.hold slot.toNat with stopped := true })) ∧
  (∀ s slot d, s.up = true → s.domain slot.toNat = some d → (s.hold slot.toNat).stopped = true → s.sumsInFlight d = false →
    exec (.holdDrained slot) s = .next (s.setHold slot.toNat { s.hold slot.toNat with drained := true })) ∧
  (∀ s slot cause, s.up = true → ((s.hold slot.toNat).cause).getLsbD cause.val = true → (cause = 3 → (s.hold slot.toNat).pause = false) →
    (cause = 0 → ∀ e ∈ s.strmsOf slot.toNat, e.2.late = []) → Answers (.holdClear slot cause) s fun t => ((t.hold slot.toNat).cause).getLsbD cause.val = false
      ∧ (∀ i, i < 8 → i ≠ cause.val → ((t.hold slot.toNat).cause).getLsbD i = ((s.hold slot.toNat).cause).getLsbD i)
      ∧ (t.hold slot.toNat).limit = (s.hold slot.toNat).limit ∧ t = { s with crs.holds := t.crs.holds }) ∧
  (∀ s slot, s.up = true → (s.hold slot.toNat).pause = true → exec (.holdClear slot 3) s = .next s) ∧
  (∀ s slot e, s.up = true → e ∈ s.strmsOf slot.toNat → e.2.late ≠ [] → exec (.holdClear slot 0) s = .next s) ∧
  (∀ s slot, s.up = true → (s.hold slot.toNat).cause ≠ 0 → (s.hold slot.toNat).marked = false →
    100 * (s.hold slot.toNat).limit.toNat < (s.hold slot.toNat).current.toNat → Answers (.holdLongTimeout slot) s fun t =>
      t.hold slot.toNat = { s.hold slot.toNat with marked := true }
        ∧ (∃ e, t.log.flight = s.log.flight ++ [e] ∧ e.slot = slot ∧ e.arg = .holdLong (s.hold slot.toNat).cause (s.hold slot.toNat).current)
        ∧ t = { s with crs.holds := t.crs.holds, log := t.log }) ∧
  (∀ s slot, s.up = true → (s.hold slot.toNat).marked = true ∨ (s.hold slot.toNat).current.toNat ≤ 100 * (s.hold slot.toNat).limit.toNat →
    exec (.holdLongTimeout slot) s = .next s)

/-! ## The array of a station (chapters 3, 4 and 6) -/

/-- A feeder releases the element of its next token into a tap in skew order, zero and void at a pad, and the next use's first element
follows the last of the one before; the first element of a use that swaps carries the marker and needs every load-complete token; a load
handshake writes one row of the stationary tile into the back registers, zero at pads; the load-complete token comes after the last of 260
rows; an anchor is M + t (R46, R47, R50, R51, R64, R76, R78, Table 4.5).
A row out of its condition changes nothing: the model's choice (log entry 64). -/
def Obligations.ReleasesLoadsAndAnchors : Prop :=
  (∀ s stn q tap u token l, s.up = true →
    let ck := s.carveAt (Fin.val stn) (Fin.val q)
    let row := if u.trans then 0 else Fin.val tap
    let col := if u.trans then 65 * (ck % 4) + tap.val else 65 * (ck % 4)
    let e := match s.tapIndex ck u tap.val with
      | some i => s.lapElem u l token i
      | none => (0, 0, true)
    s.nextToken ck tap.val = some (u, token) → s.mayRun u.slot.toNat = true → (u.swap = true → token % 256 ≠ 0) → u.lap = some l →
    s.tapIndex ck u tap.val = none ∨ (l.src ≠ .stream ∧ s.lapReady l = true) → s.mayEnter ck u token = true →
    tap.val = 0 ∨ token < (s.feeder ck).released.read 0 (tap.val - 1) → (s.cell (ck / 4) row col).op = none →
    Answers (.operandRelease stn q tap) s fun t =>
      t.cell (ck / 4) row col = { s.cell (ck / 4) row col with op := some { code := e.1, scale := e.2.1, token := token, void := e.2.2, swap := false } }
        ∧ (t.feeder ck).released.read 0 tap.val = (if token % 256 + 1 = u.beats then 256 * (u.ord + 1) else token + 1)
        ∧ t = { s with arr.cells := t.arr.cells, arr.feeders := t.arr.feeders }) ∧
  (∀ s stn q tap u token l, s.up = true →
    let ck := s.carveAt (Fin.val stn) (Fin.val q)
    let row := if u.trans then 0 else Fin.val tap
    let col := if u.trans then 65 * (ck % 4) + tap.val else 65 * (ck % 4)
    let e := match s.tapIndex ck u tap.val with
      | some i => s.lapElem u l token i
      | none => (0, 0, true)
    s.nextToken ck tap.val = some (u, token) → s.mayRun u.slot.toNat = true → u.swap = true → token % 256 = 0 → u.lap = some l →
    s.tapIndex ck u tap.val = none ∨ (l.src ≠ .stream ∧ s.lapReady l = true) → s.mayEnter ck u token = true →
    tap.val = 0 ∨ token < (s.feeder ck).released.read 0 (tap.val - 1) → (s.cell (ck / 4) row col).op = none →
    s.loaded ck (s.carveW ck) u.gen = true → Answers (.swapMarkerRelease stn q tap) s fun t =>
      (t.cell (ck / 4) row col).op = some { code := e.1, scale := e.2.1, token := token, void := e.2.2, swap := true }
        ∧ ((s.feeder ck).entered + 1 = u.taps (s.carveW ck) → ∀ i, i < s.carveW ck → (t.feeder (ck + i)).loadDone = false)
        ∧ t = { s with arr.cells := t.arr.cells, arr.feeders := t.arr.feeders }) ∧
  (∀ s stn q tap u token, s.up = true →
    let ck := s.carveAt (Fin.val stn) (Fin.val q)
    s.nextToken ck (Fin.val tap) = some (u, token) → u.swap = true → token % 256 = 0 → s.loaded ck (s.carveW ck) u.gen = false →
    exec (.swapMarkerRelease stn q tap) s = .next s) ∧
  (∀ s stn q u h, s.up = true →
    let p := Fin.val stn
    let ck := s.carveAt p (Fin.val q)
    let f := s.feeder (4 * p + q.val)
    let row := f.loadRows
    let gen := if row = 0 then f.loads + 1 else f.loads
    (s.usesOf ck).find? (fun u => u.swap && u.gen = gen) = some u → s.tileHdr u.st = some h → f.loadDone = false → row < 260 → h.state = 0 →
    h.home.tier.toNat < 2 →
    (∀ i, i < 65 → (s.cell p row (65 * q.val + i)).backG ≤ (s.cell p row (65 * q.val + i)).frontG ∨ (s.cell p row (65 * q.val + i)).backG = gen) →
    Answers (.weightLoadHandshake stn q) s fun t =>
      (t.feeder (4 * p + q.val)).loadRows = row + 1 ∧ (t.feeder (4 * p + q.val)).loads = gen
        ∧ (∀ i, i < 65 → (t.cell p row (65 * q.val + i)).frontW = (s.cell p row (65 * q.val + i)).frontW
          ∧ ((t.cell p row (65 * q.val + i)).backW, (t.cell p row (65 * q.val + i)).backS)
            = (match s.logicalRow p row, s.logicalCol p (65 * q.val + i) with
              | some r, some n => s.stationary u h r (64 * (q.val - ck % 4) + n)
              | _, _ => (0, 0)))
        ∧ t = { s with arr.cells := t.arr.cells, arr.feeders := t.arr.feeders }) ∧
  (∀ s stn q, s.up = true → (s.feeder (4 * Fin.val stn + Fin.val q)).loadRows = 260 → exec (.loadComplete stn q) s
    = .next (s.setFeeder (4 * stn.val + q.val) { s.feeder (4 * stn.val + q.val) with loadDone := true })) ∧
  (∀ s stn q tp u l, s.up = true →
    let ck := s.carveAt (Fin.val stn) (Fin.val q)
    let w := s.carveW ck
    (s.usesOf ck).find? (fun u => u.mode = 0 && !s.arr.anchors.has (anchorKey (u.key ck) (BitVec.toNat tp))) = some u → u.lap = some l →
    s.weightsIn ck w u.gen = true → Answers (.anchorForm stn q tp) s fun t =>
      (∃ as, t.arr.anchors.lookup (anchorKey (u.key ck) tp.toNat) = some as
        ∧ (u.opFmt ≠ .bf16 → ∀ np, np < u.laneCount w / 8 →
          as.getD np 0 = (scaleMax (s.scalePairs ck w u l tp.toNat np)).getD 0 + pairT u.opFmt u.stFmt)
        ∧ (u.opFmt = .bf16 → ∀ i j, i < 8 → j < 256 → j < u.laneCount w →
          as.getD (256 * i + j) 0 = (pairMax (s.expPairs ck w u l (8 * tp.toNat + i) j)).getD 0 + pairT u.opFmt u.stFmt))
        ∧ t = { s with arr.anchors := t.arr.anchors })

/-- A cell fires once its operand and its sum are there and its outputs are free: both registers empty, the marker exchanges front and
back, the operand goes on to the next cell of its path, or from the last into the hop buffer or the retire queue, and the sum, with its
product added unless the element is void or the cell idle, to the next of its own, or from the last into its drain (R45, R46, R51, R53,
R77, R153). -/
def Obligations.CellsFire : Prop :=
  ∀ s stn row col u o x, s.up = true →
    let p := Fin.val stn
    let ck := s.carveAt p (Fin.val col / 65)
    let w := s.carveW ck
    let c := s.cell p (Fin.val row) col.val
    let lr := s.logicalRow p row.val
    let lc := (s.logicalCol p col.val).map (fun n => 64 * (col.val / 65 - ck % 4) + n)
    let first := 65 * (ck % 4)
    let last := first + 65 * w - 1
    let c1 : Cell := if o.swap then { c with frontW := c.backW, backW := c.frontW, frontS := c.backS, backS := c.frontS
                                             frontG := c.backG, backG := c.frontG } else c
    let idle := o.void = true ∨ lc = none ∨ (∀ r, lr = some r → u.kUse ≤ r) ∨ (u.opFmt = .bf16 ∧ u.mode = 0 ∧ ∀ n, lc = some n → n % 2 = 1)
    let opEdge := if u.trans then row.val = 259 else col.val = last
    let sumEdge := if u.trans then col.val = last else row.val = 259
    let opAt := if u.trans then (row.val + 1, col.val) else (row.val, col.val + 1)
    let sumAt := if u.trans then (row.val, col.val + 1) else (row.val + 1, col.val)
    let tap := if u.trans then col.val - first else row.val
    c.op = some o → s.useFor ck o.token = some u →
    s.sumAt ck u (if u.trans then decide (col.val = first) else decide (row.val = 0)) (if u.trans then lr else lc) o c = some x →
    (opEdge → s.edgeFree ck u = true) → (¬opEdge → (s.cell p opAt.1 opAt.2).op = none) →
    (sumEdge → ∀ l, u.laneOf lr lc = some l → s.arr.drainIn.has (laneKey ck l) = false) → (¬sumEdge → (s.cell p sumAt.1 sumAt.2).sum = none) →
    Answers (.cellFire stn row col) s fun t =>
      t.cell p row.val col.val = { c1 with op := none, sum := none }
        ∧ (¬opEdge → (t.cell p opAt.1 opAt.2).op = some o)
        ∧ (opEdge → ∀ l i, u.lap = some l → s.tapIndex ck u tap = some i →
            let e := (i, { o with token := o.token % 256, swap := false }, l)
            if s.lapsOn ck u then t.arr.hops.read [] ck = s.arr.hops.read [] ck ++ [e]
            else t.arr.retire.read [] (u.key ck) = s.arr.retire.read [] (u.key ck) ++ [e])
        ∧ (∃ y : PSum, y.token = x.token ∧ (idle → y.lanes = x.lanes) ∧ (¬idle → y.lanes = (cellStep u o c1 x.lanes).1)
            ∧ (¬sumEdge → (t.cell p sumAt.1 sumAt.2).sum = some y) ∧ (sumEdge → ∀ l, u.laneOf lr lc = some l → t.arr.drainIn.lookup (laneKey ck l) = some y))
        ∧ t = { s with arr := t.arr, ctr := t.ctr, log := t.log }

/-- A drain lane rounds each sum of its beat once, to its output format where the drain writes the result and else to W40; a lane takes results
in token order and writes the element and its scale byte, and no other byte; a long sum takes its terms in TERM order, a wrong TERM is a
violation; a row reduction likewise, a first partial being the tree sum of its lane group, and neither stores a byte (R48, R75, R83, R86, R88,
R89, R129). -/
def Obligations.DrainRows : Prop :=
  (∀ s stn q lane u x, s.up = true →
    let ck := s.carveAt (Fin.val stn) (Fin.val q)
    s.arr.drainIn.lookup (laneKey ck (BitVec.toNat lane)) = some x → s.useFor ck x.token = some u →
    s.arr.drainOut.has (laneKey ck lane.toNat) = false → Answers (.drainRound stn q lane) s fun t =>
      let fmt := if u.acc = 0 ∧ u.x.post = [] then u.outFmt else .w40
      t.arr.drainIn.lookup (laneKey ck lane.toNat) = none
        ∧ t.arr.drainOut.lookup (laneKey ck lane.toNat) = some (x.lanes.zipIdx.map (fun e =>
            { token := 256 * u.ord + (u.tokenOf x.token + e.2), code := (drainEncode fmt u.pOut.toNat (u.drainValue e.1)).1, fmt := fmt }))
        ∧ t.mem.bytes = s.mem.bytes ∧ t.arr.cells = s.arr.cells ∧ t.rink = s.rink) ∧
  (∀ s stn q lane u o rest h, s.up = true →
    let ck := s.carveAt (Fin.val stn) (Fin.val q)
    let key := laneKey ck (BitVec.toNat lane)
    s.arr.drainOut.read [] key = o :: rest → s.useFor ck o.token = some u → s.accepting u.slot.toNat = true → s.laneTurn ck u lane.toNat o.token = true →
    (s.arr.lanes.read {} key).result = none → u.acc = 0 → u.x.post = [] → u.route = 0 → s.mirrorOf u.out.bib u.tensor = none →
    s.tileHdr u.out = some h → h.state ≠ 1 → Answers (.postunitAccept stn q lane) s fun t =>
      let k := homeKey h.home
      let w := s.setElem k u.outFmt (o.token % 256) (u.outCol lane.toNat) o.code
      t.mem.bytes = (if hasScale u.outFmt then w.setByte (k + scaleByteOf (o.token % 256) (u.outCol lane.toNat)) u.pOut else w).mem.bytes
        ∧ (t.arr.lanes.read {} key).next = o.token + 1 ∧ t.arr.drainOut.read [] key = rest
        ∧ (∃ v ∈ t.usesOf ck, v.ord = u.ord ∧ v.accepted = u.accepted + 1)
        ∧ t = { s with arr := t.arr, mem.bytes := t.mem.bytes }) ∧
  (∀ s stn q lane u o rest, s.up = true →
    let ck := s.carveAt (Fin.val stn) (Fin.val q)
    let key := laneKey ck (BitVec.toNat lane)
    s.arr.drainOut.read [] key = o :: rest → s.useFor ck o.token = some u → s.accepting u.slot.toNat = true → s.laneTurn ck u lane.toNat o.token = true →
    (s.arr.lanes.read {} key).result = none → u.acc = 1 → Answers (.postunitAccept stn q lane) s fun t =>
      (t.arr.lanes.read {} key).result = some o ∧ (t.arr.lanes.read {} key).next = o.token + 1 ∧ t = { s with arr := t.arr }) ∧
  (∀ s stn q lane u o, s.up = true →
    let ck := s.carveAt (Fin.val stn) (Fin.val q)
    let key := laneKey ck (BitVec.toNat lane)
    let token := o.token % 256
    let sum := s.arr.sums.read {} (u.sumKey ck lane.toNat token)
    (s.arr.lanes.read {} key).result = some o → s.useFor ck o.token = some u → s.accepting u.slot.toNat = true → u.route ≠ 1 →
    u.term.toNat = sum.terms + 1 → u.x.last = .no → Answers (.longSumAdd stn q lane) s fun t =>
      t.arr.sums.lookup (u.sumKey ck lane.toNat token)
          = some { val := (addW40 (u.rnd (s.useSeed u) (s.element u token lane.toNat) u.term) sum.val (BitVec.ofNat 40 o.code)).1, terms := sum.terms + 1 }
        ∧ (t.arr.lanes.read {} key).result = none ∧ t.mem.bytes = s.mem.bytes
        ∧ t = { s with arr := t.arr, mem.hdrs := t.mem.hdrs }) ∧
  (∀ s stn q lane u o k, s.up = true →
    let ck := s.carveAt (Fin.val stn) (Fin.val q)
    let key := laneKey ck (BitVec.toNat lane)
    (s.arr.lanes.read {} key).result = some o → s.useFor ck o.token = some u → s.accepting u.slot.toNat = true → u.route ≠ 1 →
    u.term.toNat ≠ (s.arr.sums.read {} (u.sumKey ck lane.toNat (o.token % 256))).terms + 1 → s.course u.slot.toNat = some k →
    (s.bib k.bib).state = .running → Answers (.longSumAdd stn q lane) s fun t =>
      (t.bib k.bib).state = .suspended ∧ (t.bib k.bib).why = .fault ∧ t.arr.sums = s.arr.sums ∧ t.mem.bytes = s.mem.bytes) ∧
  (∀ s stn q id term last u, s.up = true →
    let ck := s.carveAt (Fin.val stn) (Fin.val q)
    let n := u.laneCount (s.carveW ck)
    let rows (v : UseCfg) (m : Bool) := s.arr.rows.read [] ((v.key ck * 256 + BitVec.toNat id) * 2 + m.toNat)
    let whole (v : UseCfg) (m : Bool) := decide ((rows v m).length = 256 * v.laneCount (s.carveW ck))
    let old := s.arr.red.read {} (u.redKey id)
    (s.usesOf ck).find? (fun v => whole v false || whole v true) = some u → whole u true = false → s.accepting u.slot.toNat = true → old.whole = false →
    BitVec.toNat term = old.terms + 1 → Answers (.rowReductionAdd stn q id term last) s fun t =>
      (∃ r, t.arr.red.lookup (u.redKey id) = some r ∧ r.terms = term.toNat ∧ r.whole = last
        ∧ ∀ i, i < 256 → r.vals.getD i 0 = (if old.terms = 0 then treeSum (laneGroup (rows u false) i n)
            else (addW40 .rne (old.vals.getD i 0) (treeSum (laneGroup (rows u false) i n))).1))
        ∧ t = { s with arr.rows := t.arr.rows, arr.red := t.arr.red }) ∧
  (∀ s stn q id term last u k, s.up = true →
    let ck := s.carveAt (Fin.val stn) (Fin.val q)
    let whole (v : UseCfg) (m : Bool) := decide ((s.arr.rows.read [] ((v.key ck * 256 + BitVec.toNat id) * 2 + m.toNat)).length = 256 * v.laneCount (s.carveW ck))
    (s.usesOf ck).find? (fun v => whole v false || whole v true) = some u → s.accepting u.slot.toNat = true → (s.arr.red.read {} (u.redKey id)).whole = false →
    BitVec.toNat term ≠ (s.arr.red.read {} (u.redKey id)).terms + 1 → s.course u.slot.toNat = some k →
    (s.bib k.bib).state = .running → Answers (.rowReductionAdd stn q id term last) s fun t =>
      (t.bib k.bib).state = .suspended ∧ (t.bib k.bib).why = .fault ∧ t.arr.red = s.arr.red ∧ t.mem.bytes = s.mem.bytes)

/-- The first element of a tile in a hop buffer makes the tile lap at the next station, with one visit fewer, and its elements then enter there
and leave the buffer; the oldest queued tile bound for a carve laps through the use that takes it; a tile leaves after its last visit and is
injected again at the start of a run that is shorter than its lap (R53 to R55, R60). -/
def Obligations.LapRows : Prop :=
  (∀ s stn next q e rest u tap, s.up = true →
    let dst := 4 * Fin.val next + Fin.val q
    s.arr.hops.read [] (4 * Fin.val stn + q.val) = e :: rest → s.mayRun e.2.2.slot.toNat = true →
    s.nextStation e.2.2.slot.toNat stn.val = some next.val → s.hopTaker dst e = some (u, tap) → u.lap = none → e.2.2.fmt = u.opFmt → u.mode = 0 →
    Answers (.hopTransfer stn next q) s fun t =>
      (∃ v ∈ t.usesOf dst, v.ord = u.ord ∧ v.lap = some { e.2.2 with visits := e.2.2.visits - 1, src := .stream }) ∧ t.arr.hops = s.arr.hops
        ∧ t = { s with arr := t.arr }) ∧
  (∀ s stn next q e rest u tap l, s.up = true →
    let dst := 4 * Fin.val next + Fin.val q
    let token := 256 * u.ord + e.2.1.token
    let row := if u.trans then 0 else tap
    let col := if u.trans then 65 * (dst % 4) + tap else 65 * (dst % 4)
    s.arr.hops.read [] (4 * Fin.val stn + q.val) = e :: rest → s.mayRun e.2.2.slot.toNat = true →
    s.nextStation e.2.2.slot.toNat stn.val = some next.val → s.hopTaker dst e = some (u, tap) → u.lap = some l →
    tap = 0 ∨ token < (s.feeder dst).released.read 0 (tap - 1) → (s.cell (dst / 4) row col).op = none →
    (u.swap = true → token % 256 = 0 → s.loaded dst (s.carveW dst) u.gen = true) → s.mayEnter dst u token = true →
    Answers (.hopTransfer stn next q) s fun t =>
      t.arr.hops.read [] (4 * stn.val + q.val) = rest
        ∧ (t.cell (dst / 4) row col).op = some { code := e.2.1.code, scale := e.2.1.scale, token := token, void := e.2.1.void
                                                 swap := u.swap && decide (token % 256 = 0) }
        ∧ t = { s with arr := t.arr }) ∧
  (∀ s die stn q e u head, s.up = true →
    let ck := 4 * Fin.val stn + Fin.val q
    (s.arr.inject.read [] (Fin.val die)).find? (fun e => e.2 = ck) = some e → s.injectTaker ck e.1 = some u → s.mayRun e.1.slot.toNat = true →
    s.lapReady e.1 = true → head = (match e.1.src with | .carried _ => e.1.head | _ => s.headOf e.1) → e.1.fmt = u.opFmt →
    u.mode = 0 ∨ ({ e.1 with head := head } : LapTile).oneScale u.pc = true → Answers (.tileInject die stn q) s fun t =>
      (∃ v ∈ t.usesOf ck, v.ord = u.ord ∧ v.lap = some { e.1 with head := head })
        ∧ t.arr.inject.read [] die.val = (s.arr.inject.read [] die.val).erase e
        ∧ t = { s with arr.uses := t.arr.uses, arr.inject := t.arr.inject }) ∧
  (∀ s stn q key es e, s.up = true →
    let ck := 4 * Fin.val stn + Fin.val q
    s.arr.retire.find? (fun e => e.1 % 512 = ck) = some (key, es) → es.head? = some e → e.2.2.visits ≤ 1 →
    (∀ u ∈ s.usesOf ck, u.ord = key / 512 → s.summed ck u = true) →
    exec (.tileRetire stn q) s = .next { s with arr.retire := s.arr.retire.remove key }) ∧
  (∀ s stn q key es e d p, s.up = true →
    let ck := 4 * Fin.val stn + Fin.val q
    let start := 4 * p + d.quarter
    s.arr.retire.find? (fun e => e.1 % 512 = ck) = some (key, es) → es.head? = some e → 1 < e.2.2.visits →
    (∀ u ∈ s.usesOf ck, u.ord = key / 512 → s.summed ck u = true) → s.domain e.2.2.slot.toNat = some d → d.run.head? = some p →
    State.queueRoom { s with arr.retire := s.arr.retire.remove key } start (tileBytes e.2.2.fmt) = true → Answers (.tileRetire stn q) s fun t =>
      (∃ l, (l, start) ∈ t.arr.inject.read [] (start / 4 / 26) ∧ l.tile = e.2.2.tile ∧ l.visits = e.2.2.visits - 1)
        ∧ t.arr.retire = s.arr.retire.remove key ∧ t = { s with arr.inject := t.arr.inject, arr.retire := t.arr.retire })

/-! ## Faults in carves, the Rink, withdrawal (chapter 3) -/

/-- A residue fault in a carve is counted, poisons and suspends (C1 to C3); its quarters drain (C4), are cleared with their bank, once the lift has moved out what it must (C5),
checked (C6) and, when they pass, unbound (C7); a quarter that fails sends its station to withdrawal; a fault in a shared part does so at
once (R62, R63, R69, Table 3.7). -/
def Obligations.CarveFaultRows : Prop :=
  (∀ s stn q b, s.up = true → (s.stn (Fin.val stn)).bibOf (Fin.val q) = b → b ≠ 0 → (s.bib b).state = .running →
    Answers (.carveFaultDetect stn q .residue) s fun t =>
      (t.bib b).state = .suspended ∧ (t.bib b).why = .fault ∧ ((t.stn stn.val).fault).getLsbD q.val = true
        ∧ (∀ i ∈ s.carveQuarters stn.val q.val, 4 * stn.val + i ∈ t.rink.draining ∧ t.arr.uses.lookup (4 * stn.val + i) = none)
        ∧ t.counter 0x0304 (4 * stn.val + q.val) = (s.counter 0x0304 (4 * stn.val + q.val)).plus 1 ∧ t.mem.bytes = s.mem.bytes) ∧
  (∀ s stn q, s.up = true → (s.stn (Fin.val stn)).bibOf (Fin.val q) = 0 → 4 * stn.val + q.val ∉ s.rink.checking →
    Answers (.carveFaultDetect stn q .sram) s fun t =>
      ((t.stn stn.val).fault).getLsbD q.val = true ∧ 4 * stn.val + q.val ∈ t.rink.clearing ∧ t = { s with rink := t.rink }) ∧
  (∀ s stn q, s.up = true → Answers (.carveFaultDetect stn q .shared) s fun t =>
    (t.stn (Fin.val stn)).withdraw = true ∧ (∀ i, i < 4 → ((t.stn stn.val).fault).getLsbD i = true) ∧ t.mem.bytes = s.mem.bytes) ∧
  (∀ s stn q, s.up = true → 4 * Fin.val stn + Fin.val q ∈ s.rink.draining →
    Answers (.carveDrainDone stn q) s fun t =>
      4 * stn.val + q.val ∉ t.rink.draining ∧ 4 * stn.val + q.val ∈ t.rink.clearing ∧ ((t.stn stn.val).clearing).getLsbD q.val = true
        ∧ (∀ row col, row < 260 → col < 260 → col / 65 = q.val → (t.cell stn.val row col).op = none ∧ (t.cell stn.val row col).sum = none)
        ∧ t.arr.hops.read [] (4 * stn.val + q.val) = [] ∧ t = { s with rink := t.rink, arr := t.arr }) ∧
  (∀ s stn q, s.up = true → 4 * Fin.val stn + Fin.val q ∈ s.rink.clearing → s.leavingBank stn.val q.val = false →
    Answers (.carveClearDone stn q) s fun t =>
    (∀ a, t.byte a = if bankKey stn.val q.val ≤ a ∧ a < bankKey stn.val q.val + 0x140000 then 0 else s.byte a)
      ∧ 4 * stn.val + q.val ∉ t.rink.clearing ∧ 4 * stn.val + q.val ∈ t.rink.checking ∧ ((t.stn stn.val).clearing).getLsbD q.val = false
      ∧ (∀ row col, row < 260 → col < 260 → col / 65 = q.val → t.cell stn.val row col = {}) ∧ t.bibs = s.bibs) ∧
  (∀ s stn q, s.up = true → 4 * Fin.val stn + Fin.val q ∈ s.rink.checking → Answers (.quarterCheckDone stn q true) s fun t =>
    (t.stn stn.val).bibOf q.val = 0 ∧ 4 * stn.val + q.val ∉ t.rink.checking ∧ (t.stn stn.val).withdraw = (s.stn stn.val).withdraw
      ∧ (∀ p, p ≠ stn.val → t.stn p = s.stn p) ∧ t = { s with rink := t.rink }) ∧
  (∀ s stn q, s.up = true → 4 * Fin.val stn + Fin.val q ∈ s.rink.checking → Answers (.quarterCheckDone stn q false) s fun t =>
    (t.stn stn.val).bibOf q.val = 0 ∧ (t.stn stn.val).withdraw = true ∧ t = { s with rink := t.rink })

/-- RINK requests a configuration from 1 to 5 and waits; once every domain there fits and stands still ACTIVE takes it; WITHDRAW marks an
active station and waits until no domain holds it and no tile is homed there; a position that is not active is out of bounds (R58, R68,
Table 3.5).
A row out of its condition changes nothing: the model's choice (log entry 64). -/
def Obligations.RinkAndWithdrawRows : Prop :=
  (∀ s c cfg, s.accepts 0x0504 c → cfg ≠ 0 → cfg.toNat ≤ 5 → cfg ≠ s.rink.cfg.active → Answers (.rink c cfg) s fun t =>
    t.rink.cfg = { s.rink.cfg with request := cfg, busy := true } ∧ t.answered 0x0504 c .deferred false .none
      ∧ t = { s with rink := t.rink, cmd := t.cmd }) ∧
  (∀ s c cfg, s.accepts 0x0504 c → cfg = s.rink.cfg.active → cfg ≠ 0 → cfg.toNat ≤ 5 → Answers (.rink c cfg) s fun t =>
    t.rink.cfg = { s.rink.cfg with request := cfg, busy := false } ∧ t.replied 0x0504 c .ok
      ∧ t = { s with rink := t.rink, cmd := t.cmd, freeCtr := t.freeCtr }) ∧
  (∀ s c cfg, s.accepts 0x0504 c → cfg = 0 ∨ 5 < cfg.toNat → Answers (.rink c cfg) s fun t =>
    t.replied 0x0504 c .bounds ∧ t = { s with cmd := t.cmd }) ∧
  (∀ s, s.up = true → s.rink.cfg.busy = true →
    (∀ e ∈ s.crs.domains, e.2.running = true → s.touchesChange e.2 = true → s.fits s.rink.cfg.request.toNat e.2 = true ∧ e.2.live = []) →
    Answers .rinkReconfigure s fun t => t.rink.cfg = { s.rink.cfg with active := s.rink.cfg.request, busy := false } ∧ t.rink.stn = s.rink.stn
      ∧ t = { s with rink := t.rink, crs.courses := t.crs.courses, cmd := t.cmd, ctr := t.ctr, log := t.log }) ∧
  (∀ s e, s.up = true → e ∈ s.crs.domains → e.2.running = true → s.touchesChange e.2 = true → e.2.live ≠ [] →
    exec .rinkReconfigure s = .next s) ∧
  (∀ s c stn, s.accepts 0x0506 c → BitVec.toNat stn < 104 → s.active stn.toNat = true → (s.stn stn.toNat).wdDone = false →
    Answers (.withdraw c stn true) s fun t => t.stn stn.toNat = { s.stn stn.toNat with withdraw := true } ∧ t.answered 0x0506 c .deferred false .none
      ∧ t = { s with rink := t.rink, cmd := t.cmd }) ∧
  (∀ s c stn, s.accepts 0x0506 c → BitVec.toNat stn < 104 → s.active stn.toNat = true → Answers (.withdraw c stn false) s fun t =>
    t.stn stn.toNat = { s.stn stn.toNat with withdraw := false, wdDone := false } ∧ t.replied 0x0506 c .ok
      ∧ t = { s with rink := t.rink, cmd := t.cmd, freeCtr := t.freeCtr }) ∧
  (∀ s c stn on, s.accepts 0x0506 c → 104 ≤ BitVec.toNat stn ∨ s.active stn.toNat = false → Answers (.withdraw c stn on) s fun t =>
    t.replied 0x0506 c .bounds ∧ t = { s with cmd := t.cmd }) ∧
  (∀ s stn, s.up = true → (s.stn (Fin.val stn)).withdraw = true → (s.stn stn.val).wdDone = false →
    (∀ e ∈ s.crs.domains, e.2.running = true → stn.val ∉ e.2.run) → (∀ q, q < 4 → s.quarterBusy stn.val q = false) → s.homesAt stn.val = false →
    Answers (.stationWithdrawn stn) s fun t => t.stn stn.val = { s.stn stn.val with wdDone := true } ∧ t = { s with rink := t.rink, cmd := t.cmd }) ∧
  (∀ s stn, s.up = true → s.homesAt (Fin.val stn) = true → exec (.stationWithdrawn stn) s = .next s)

/-! ## Near tiers, stacks and base engines (chapters 7 and 9) -/

/-- The near tier's refresh slots, bands and bursts: a band follows Table 9.8 with 2 °C of hysteresis, entry to a band makes a burst due, and each band has its
interval between bursts, which count; a burst raises cause 1 for the domains of its die and its end clears it for those on no other bursting die (R198, R199, Table 9.9).
A row out of its condition changes nothing: the model's choice (log entry 64). -/
def Obligations.NearTierRows : Prop :=
  (∀ s d, s.up = true → exec (.ntRefreshSlot d) s = .next (s.setNear d.val { s.near d.val with slot := (s.near d.val).slot + 1 })) ∧
  (∀ s d tj, s.up = true → Answers (.ntBandChange d tj) s fun t =>
    (t.near d.val).tj = tj ∧ (t.near d.val).tjMax.toNat = max (s.near d.val).tjMax.toNat tj.toNat
      ∧ (105 ≤ tj.toNat → (t.near d.val).band = 3)
      ∧ (95 < tj.toNat → tj.toNat < 98 → (s.near d.val).band = 0 → (t.near d.val).band = 1 ∧ (t.near d.val).due = true)
      ∧ (93 < tj.toNat → tj.toNat ≤ 95 → (s.near d.val).band = 1 → (t.near d.val).band = 1)
      ∧ (tj.toNat ≤ 93 → (t.near d.val).band = 0)
      ∧ (t.near d.val).burst = (s.near d.val).burst ∧ t = { s with mem.near := t.mem.near }) ∧
  (∀ s d, s.up = true → (s.near (Fin.val d)).band ≠ 0 → (s.near d.val).burst = false →
    (s.near d.val).due = true ∨ burstEvery (s.near d.val).band.toNat ≤ (s.near d.val).since + 1 → Answers (.ntBurstLead d) s fun t =>
    (t.near d.val).burst = true ∧ (t.near d.val).due = false ∧ (t.near d.val).since = 0
      ∧ (∀ c ∈ s.slotsOnDie d.val, ((t.hold c).cause).getLsbD 1 = true) ∧ (∀ c, c ∉ s.slotsOnDie d.val → t.hold c = s.hold c)
      ∧ t = { s with mem.near := t.mem.near, crs.holds := t.crs.holds, ctr := t.ctr, log := t.log }) ∧
  (∀ s d, s.up = true → (s.near (Fin.val d)).due = false → (s.near d.val).since + 1 < burstEvery (s.near d.val).band.toNat →
    exec (.ntBurstLead d) s = .next s) ∧
  (∀ s d, s.up = true → (s.near (Fin.val d)).burst = true → Answers (.ntBurstEnd d) s fun t =>
    (t.near d.val).burst = false ∧ t.counter 0x0201 d.val = (s.counter 0x0201 d.val).plus 1
      ∧ (∀ c ∈ s.slotsOnDie d.val, (∀ e, e < 4 → e ≠ d.val → (s.near e).burst = true → c ∉ s.slotsOnDie e) → ((t.hold c).cause).getLsbD 1 = false)
      ∧ t = { s with mem.near := t.mem.near, crs.holds := t.crs.holds, ctr := t.ctr, log := t.log })

/-- Stack rows: service slots calibrate and answer a waiting CALIBRATE, test slots count in a running test, the verify goes on by one line,
a new uncorrectable line is poisoned and counted once, a service line without a second copy fails the module, the fourth corrected line of
a DRAM die marks it; none of them stores a byte (R20, R201, R202, R375, R376, Tables 9.12, 9.13). -/
def Obligations.StackRows : Prop :=
  (∀ s k, s.up = true → Answers (.stackServiceSlot k) s fun t => (t.stack (Fin.val k)).calibs = (s.stack k.val).calibs + 1
    ∧ (∀ w ∈ t.cmd.waiting, w.1 ≠ .calibrate 2 (BitVec.ofNat 12 k.val)) ∧ t = { s with mem.stks := t.mem.stks, cmd := t.cmd }) ∧
  (∀ s k last, s.up = true → 2 * 4096 + Fin.val k ∈ s.test.running → exec (.stackTestSlot k last) s
    = .next (s.setStack k.val { s.stack k.val with tests := (s.stack k.val).tests + 1, tested := last })) ∧
  (∀ s k line die, s.up = true → Answers (.stackVerifyScrub k line (some die)) s fun t => (t.stack (Fin.val k)).verify = line + 1
    ∧ (t.stack k.val).ldie = die ∧ (die.toNat, line) ∈ (t.stack k.val).lines ∧ t.counter 0x0400 k.val = (s.counter 0x0400 k.val).plus 1 ∧ t = { s with mem.stks := t.mem.stks, ctr := t.ctr, log := t.log }) ∧
  (∀ s k line, s.up = true → exec (.stackVerifyScrub k line none) s = .next (s.setStack k.val { s.stack k.val with verify := line + 1 })) ∧
  (∀ s k line b tensor tile h, s.up = true → line ∉ (s.stack (Fin.val k)).poison →
    s.tileHdr { bib := b, tensor := tensor, tile := tile } = some h → Answers (.stackLineUe k line (.tile b tensor tile)) s fun t =>
      line ∈ (t.stack k.val).poison ∧ t.counter 0x0401 k.val = (s.counter 0x0401 k.val).plus 1
        ∧ t.tileHdr { bib := b, tensor := tensor, tile := tile } = some { h with state := 2 } ∧ t.mem.bytes = s.mem.bytes) ∧
  (∀ s k line, s.up = true → line ∈ (s.stack (Fin.val k)).poison → Answers (.stackLineUe k line (.service true)) s fun t =>
    t.ctr = s.ctr ∧ t = { s with mem.stks := t.mem.stks }) ∧
  (∀ s k line, s.up = true → Answers (.stackLineUe k line (.service false)) s fun t =>
    t.rink.failed = true ∧ (∀ e ∈ t.sl.ports, e.2.trained = false) ∧ (∀ b, (s.bib b).state = .running → (t.bib b).state = .suspended)
      ∧ t.mem.bytes = s.mem.bytes) ∧
  (∀ s k die line, s.up = true → (s.stack (Fin.val k)).marked = false → (die.toNat, line) ∉ (s.stack k.val).lines →
    ((s.stack k.val).lines.filter (fun e => e.1 = BitVec.toNat die)).length = 3 → Answers (.stackDieMark k die line) s fun t =>
      (t.stack k.val).marked = true ∧ (t.stack k.val).mdie = die ∧ t.counter 0x0400 k.val = (s.counter 0x0400 k.val).plus 1
        ∧ t = { s with mem.stks := t.mem.stks, ctr := t.ctr, log := t.log }) ∧
  (∀ s k die line, s.up = true → ((s.stack (Fin.val k)).lines.filter (fun e => e.1 = BitVec.toNat die)).length < 3 →
    Answers (.stackDieMark k die line) s fun t => (t.stack k.val).marked = (s.stack k.val).marked ∧ (t.stack k.val).mdie = (s.stack k.val).mdie
      ∧ t = { s with mem.stks := t.mem.stks, ctr := t.ctr, log := t.log })

/-- Base engines: an add with the next TERM raises TERMS and VERSION and touches no byte outside the sum tile; any other TERM suspends
the bib; a line copied within a stack arrives whole, a row added within one is summed there; a candidate enters its list, of which the first K entries stay; a zero fill
leaves zeros there and every other byte alone, and one that leaves its page or its tier is answered ST_BOUNDS or ST_NOT_HOME; a verify writes nothing (R89, R157, R158, R193, R200). -/
def Obligations.BaseEngineRows : Prop :=
  (∀ s t slot src vals term sr seed k h, s.up = true → s.course (BitVec.toNat slot) = some k → s.addend t slot src = some (vals, term, sr, seed) →
    s.tileHdr t = some h → s.mirrorOf t.bib t.tensor = none → h.state = 0 → h.id = t → h.reserved = false → h.fmt = 8 → h.poison = false →
    h.home.tier.toNat ≤ 2 → BitVec.toNat term = h.terms.toNat + 1 → Answers (.baseW40Add t slot src) s fun u =>
      (∃ x, u.tileHdr t = some x ∧ x.terms = term ∧ x.version = h.version + 1 ∧ x.home = h.home ∧ (h.nonfin = true → x.nonfin = true))
        ∧ (∀ a, a < homeKey h.home ∨ homeKey h.home + tileBytesOf 8 ≤ a → u.byte a = s.byte a)
        ∧ (sr = false → ∀ i, i < 65536 → u.elemAt (homeKey h.home) .w40 (i / 256) (i % 256)
            = (addW40 .rne (BitVec.ofNat 40 (s.elemAt (homeKey h.home) .w40 (i / 256) (i % 256))) (vals.getD i 0)).1.toNat)
        ∧ u = { s with mem := u.mem, upd.nonfin := u.upd.nonfin, arr.partials := u.arr.partials }) ∧
  (∀ s t slot src vals term sr seed k h, s.up = true → s.course (BitVec.toNat slot) = some k → s.addend t slot src = some (vals, term, sr, seed) →
    s.tileHdr t = some h → s.mirrorOf t.bib t.tensor = none → h.state = 0 → h.id = t → h.fmt = 8 → h.poison = false →
    BitVec.toNat term ≠ h.terms.toNat + 1 → (s.bib k.bib).state = .running → Answers (.baseW40Add t slot src) s fun u =>
      (u.bib k.bib).state = .suspended ∧ (u.bib k.bib).why = .fault ∧ u.mem.bytes = s.mem.bytes) ∧
  (∀ s bib src dst a b dir, s.up = true → s.memoryWf → s.xlate bib (BitVec.toNat src) false false = .ok a → s.xlate bib (BitVec.toNat dst) true false = .ok b →
    a.tier = 2 → b.tier = 2 → stackOf a = stackOf b → dir ≠ .scatterAdd → src.toNat % 2 ^ 21 + 64 ≤ 2 ^ 21 → dst.toNat % 2 ^ 21 + 64 ≤ 2 ^ 21 →
    Answers (.baseGatherScatter dir bib [(src, dst)]) s fun t =>
      (∀ i, i < 64 → t.byte (homeKey b + i) = s.byte (homeKey a + i))
        ∧ (∀ n, n < homeKey b ∨ homeKey b + 64 ≤ n → t.byte n = s.byte n) ∧ t = { s with mem.bytes := t.mem.bytes }) ∧
  (∀ s bib src dst a b, s.up = true → s.xlate bib (BitVec.toNat src) false false = .ok a → s.xlate bib (BitVec.toNat dst) true false = .ok b →
    a.tier = 2 → b.tier = 2 → stackOf a = stackOf b → src.toNat % 2 ^ 21 + 320 ≤ 2 ^ 21 → dst.toNat % 2 ^ 21 + 320 ≤ 2 ^ 21 →
    homeKey a + 320 ≤ homeKey b ∨ homeKey b + 320 ≤ homeKey a → Answers (.baseGatherScatter .scatterAdd bib [(src, dst)]) s fun t =>
      let v (k i : Nat) : BitVec 40 := BitVec.ofNat 40 (leNat (s.bytesAt (k + 5 * i) 5))
      (∀ i, i < 64 → t.bytesAt (homeKey b + 5 * i) 5 = leBytes 5 (addW40 .rne (v (homeKey b) i) (v (homeKey a) i)).1.toNat)
        ∧ (∀ n, n < homeKey b ∨ homeKey b + 320 ≤ n → t.byte n = s.byte n) ∧ t = { s with mem.bytes := t.mem.bytes }) ∧
  (∀ s stack bib cand l, s.up = true → s.mem.lists.lookup (BitVec.toNat bib * 2 ^ 24 + cand.list.toNat) = some l → l.bib = bib → isNan cand.dist = false →
    Answers (.topkInsert stack bib cand) s fun t =>
      (∃ x, t.mem.lists.lookup (bib.toNat * 2 ^ 24 + cand.list.toNat) = some x ∧ x.entries.length = min l.k.toNat (l.entries.length + 1)
        ∧ x.nanDrop = l.nanDrop ∧ x.k = l.k ∧ (l.entries.length < l.k.toNat → (cand.dist, cand.index) ∈ x.entries)
        ∧ ∀ e ∈ x.entries, e = (cand.dist, cand.index) ∨ e ∈ l.entries)
        ∧ t = { s with mem.lists := t.mem.lists, arr.cands := t.arr.cands }) ∧
  (∀ s stack bib cand l, s.up = true → s.mem.lists.lookup (BitVec.toNat bib * 2 ^ 24 + cand.list.toNat) = some l → l.bib = bib → isNan cand.dist = true →
    l.nanDrop ≠ 0xFFFF → Answers (.topkInsert stack bib cand) s fun t =>
      t.mem.lists.lookup (bib.toNat * 2 ^ 24 + cand.list.toNat) = some { l with nanDrop := l.nanDrop + 1 }
        ∧ t = { s with mem.lists := t.mem.lists, arr.cands := t.arr.cands }) ∧
  (∀ s id h home n, s.up = true → s.tileHdr id = some h → h.state ≠ 1 → h.home.tier = 2 → Answers (.baseZeroFill (some id) home n) s fun t =>
    (∀ a, t.byte a = if homeKey h.home ≤ a ∧ a < homeKey h.home + tileBytesOf h.fmt.toNat then 0 else s.byte a)
      ∧ (∃ x, t.tileHdr id = some x ∧ x.terms = 0 ∧ x.version = h.version + 1 ∧ x.poison = false) ∧ t.cmd.writeStatus = .ok
      ∧ t = { s with mem := t.mem, cmd.writeStatus := t.cmd.writeStatus }) ∧
  (∀ s id h home n, s.up = true → s.tileHdr id = some h → h.state ≠ 1 → h.home.tier ≠ 2 →
    exec (.baseZeroFill (some id) home n) s = .next { s with cmd.writeStatus := .notHome }) ∧
  (∀ s home n, s.up = true → home.tier = 2 → s.addrOk home = true → home.off.toNat % 2 ^ 21 + n ≤ 2 ^ 21 → Answers (.baseZeroFill none home n) s fun t =>
    (∀ a, t.byte a = if homeKey home ≤ a ∧ a < homeKey home + n then 0 else s.byte a) ∧ t.cmd.writeStatus = .ok
      ∧ t = { s with mem.bytes := t.mem.bytes, arr.sums := t.arr.sums, cmd.writeStatus := t.cmd.writeStatus }) ∧
  (∀ s home n, s.up = true → home.tier ≠ 2 ∨ s.addrOk home = false ∨ 2 ^ 21 < home.off.toNat % 2 ^ 21 + n →
    exec (.baseZeroFill none home n) s = .next { s with cmd.writeStatus := .bounds }) ∧
  (∀ s k lines bad l, s.up = true → l ∈ lines → l ∈ bad → Answers (.baseVerify k lines bad) s fun t =>
    l ∈ (t.stack (Fin.val k)).poison ∧ t = { s with mem.stks := t.mem.stks, ctr := t.ctr, log := t.log })

/-! ## One home at a time (chapter 9) -/

/-- An access to a tile is checked against its header: a write sets the writer tag and raises VERSION, a read changes nothing, a claim
that differs suspends the bib with ST_NOT_HOME recorded, a failed header CRC loses the tile; a walk caches a resident entry; a page move
carries every byte to the free frame and every entry that maps the old frame follows (R189, R193 to R195, R203, Table 8.18).
A row out of its condition changes nothing: the model's choice (log entry 64). -/
def Obligations.HeaderAndPageRows : Prop :=
  (∀ s id slot seg fmt home h, s.up = true → s.tileHdr id = some h → h.state = 0 → h.id = id → h.home = home → h.fmt = fmt → h.poison = false →
    h.reserved = false → home.tier.toNat ≤ 4 → h.wact = false → Answers (.headerOperation id slot seg true fmt home h.hcrc) s fun t =>
      (∃ x, t.tileHdr id = some x ∧ x.wact = true ∧ x.wslot = slot ∧ x.wseg = seg ∧ x.version = h.version + 1 ∧ x.terms = 0 ∧ x.home = home
        ∧ x.epoch = (s.bib id.bib).curEpoch) ∧ t.mem.bytes = s.mem.bytes ∧ t = { s with mem := t.mem }) ∧
  (∀ s id slot seg fmt home h, s.up = true → s.tileHdr id = some h → h.state = 0 → h.id = id → h.home = home → h.fmt = fmt → h.poison = false →
    h.reserved = false → home.tier.toNat ≤ 4 → exec (.headerOperation id slot seg false fmt home h.hcrc) s = .next s) ∧
  (∀ s id slot seg w fmt home h k, s.up = true → s.tileHdr id = some h → h.state ≠ 1 → h.home ≠ home → s.course (BitVec.toNat slot) = some k →
    (s.bib k.bib).state = .running → Answers (.headerOperation id slot seg w fmt home h.hcrc) s fun t =>
      (t.bib k.bib).state = .suspended ∧ (t.bib k.bib).why = .fault ∧ t.mem.bytes = s.mem.bytes) ∧
  (∀ s id slot seg w fmt home h hcrc, s.up = true → s.tileHdr id = some h → h.state ≠ 1 → hcrc ≠ h.hcrc →
    Answers (.headerOperation id slot seg w fmt home hcrc) s fun t =>
    t.tileHdr id = some { h with state := 2 } ∧ t.mem.bytes = s.mem.bytes) ∧
  (∀ s bib page slot w strm h, s.up = true → s.xlate bib (BitVec.toNat page * 2 ^ 21) w (Option.isSome strm) = .ok h →
    Answers (.translationWalkDone bib page slot w strm) s fun t =>
      pageKey bib page.toNat ∈ t.mem.cached ∧ t = { s with mem.cached := t.mem.cached }) ∧
  (∀ s bib page tier frame, s.up = true → s.memoryWf →
    let e := s.pte bib (BitVec.toNat page)
    e.state = 1 → s.frameFree (BitVec.toNat tier) (BitVec.toNat frame) = true → s.mem.owners.lookup (frameKey e.tier.toNat e.frame.toNat) = some bib →
    s.frameMoving e.tier.toNat e.frame.toNat = false →
    ((s.quotaBib bib).usePage e.tier.toNat e.frame.toNat false).quotaFor tier.toNat frame.toNat = true → Answers (.pageMove bib page tier frame) s fun t =>
      (t.pte bib page.toNat).tier = tier ∧ (t.pte bib page.toNat).frame = frame ∧ (t.pte bib page.toNat).epoch = (s.bib bib).curEpoch
        ∧ t.mem.owners.lookup (frameKey tier.toNat frame.toNat) = some bib ∧ pageKey bib page.toNat ∉ t.mem.cached
        ∧ (∀ i, i < 2 ^ 21 → t.byte (byteKey tier.toNat (frame.toNat * 2 ^ 21) + i) = s.byte (byteKey e.tier.toNat (e.frame.toNat * 2 ^ 21) + i))
        ∧ (∀ a, a < byteKey tier.toNat (frame.toNat * 2 ^ 21) ∨ byteKey tier.toNat (frame.toNat * 2 ^ 21) + 2 ^ 21 ≤ a → t.byte a = s.byte a)
        ∧ t = { s with mem := t.mem, bibs.recs := t.bibs.recs }) ∧
  (∀ s bib page tier frame, s.up = true → 4 < BitVec.toNat tier → Answers (.pageMove bib page tier frame) s fun t => t = { s with cmd := t.cmd })

/-- M1 to M6 of Table 9.6: a request to a place that is not backed is refused, one beyond the declared station SRAM is a violation, any other
reserves its slot, the header says that the tile moves, the bytes arrive, HOME changes with the commit
alone, the source slot is released; a failure before M5 leaves HOME at the source and is reissued once (R195 to R197). -/
def Obligations.MoveRows : Prop :=
  (∀ s id tile dst m h, s.up = true → s.tileHdr tile = some h → s.addrOkFor tile.bib dst = true → s.mem.moves.has id = false →
    s.moveOk (tileKey tile) h dst (Fin.val m) = true → s.scratchOver h dst = none → Answers (.moveRequest id tile dst m) s fun t =>
      (∃ mv, t.mem.moves.lookup id = some mv ∧ mv.tile = tileKey tile ∧ mv.src = h.home ∧ mv.dst = dst ∧ mv.phase = .accepted)
        ∧ t.tileHdr tile = some h ∧ (slotHome dst = true → (t.slotsOf (slotKey dst)).held = (s.slotsOf (slotKey dst)).held + 1)
        ∧ t.mem.bytes = s.mem.bytes ∧ t = { s with mem := t.mem }) ∧
  (∀ s id tile dst m, s.up = true → s.addrOkFor (TileId.bib tile) dst = false → Answers (.moveRequest id tile dst m) s fun t => t = { s with cmd := t.cmd }) ∧
  (∀ s id tile dst m h c seg k, s.up = true → s.tileHdr tile = some h → s.addrOkFor tile.bib dst = true → s.mem.moves.has id = false →
    s.moveOk (tileKey tile) h dst (Fin.val m) = true → s.scratchOver h dst = some (c, seg) → s.course c = some k → (s.bib k.bib).state = .running →
    Answers (.moveRequest id tile dst m) s fun t => (t.bib k.bib).state = .suspended ∧ (t.bib k.bib).why = .fault ∧ t.mem.moves = s.mem.moves) ∧
  (∀ s id mv h, s.up = true → s.mem.moves.lookup id = some mv → s.mem.hdrs.lookup mv.tile = some h → mv.phase = .accepted → h.state = 0 →
    Answers (.moveHeaderSet id) s fun t => t.mem.hdrs.lookup mv.tile = some { h with state := 1, prev := h.home }
      ∧ t.mem.moves.lookup id = some { mv with phase := .moving } ∧ t.mem.bytes = s.mem.bytes ∧ t = { s with mem := t.mem }) ∧
  (∀ s id mv h, s.up = true → s.memoryWf → s.mem.moves.lookup id = some mv → s.mem.hdrs.lookup mv.tile = some h → mv.phase = .moving →
    Answers (.moveDataDone id) s fun t =>
      (∀ i, i < tileBytesOf h.fmt.toNat → t.byte (homeKey mv.dst + i) = s.byte (homeKey mv.src + i))
        ∧ (∀ a, a < homeKey mv.dst ∨ homeKey mv.dst + tileBytesOf h.fmt.toNat ≤ a → t.byte a = s.byte a)
        ∧ t.mem.hdrs = s.mem.hdrs ∧ (∃ x, t.mem.moves.lookup id = some x ∧ x.phase = .arrived ∧ x.epoch = (s.bib h.id.bib).curEpoch)
        ∧ t = { s with mem := t.mem }) ∧
  (∀ s id mv h, s.up = true → s.mem.moves.lookup id = some mv → s.mem.hdrs.lookup mv.tile = some h → mv.phase = .arrived → mv.strm = none →
    Answers (.moveCommit id) s fun t => t.mem.hdrs.lookup mv.tile = some { h with home := mv.dst, state := 0, epoch := mv.epoch }
      ∧ t.mem.moves.lookup id = some { mv with phase := .committed } ∧ t.mem.bytes = s.mem.bytes ∧ t = { s with mem := t.mem }) ∧
  (∀ s id mv n x, s.up = true → s.mem.moves.lookup id = some mv → (s.mem.hdrs.lookup mv.tile).isSome = true → mv.phase = .arrived →
    mv.strm = some n → s.strm n = some x → mv.ret = 0 → Answers (.moveCommit id) s fun t =>
      (∃ y, t.strm n = some y ∧ y.done = x.done + 1 ∧ (∃ i, y.items.lookup mv.item = some i ∧ i.committed = true ∧ i.src = mv.src ∧ i.dst = mv.dst))
        ∧ t.mem.bytes = s.mem.bytes) ∧
  (∀ s id mv, s.up = true → s.mem.moves.lookup id = some mv → mv.phase = .committed → mv.strm = none → Answers (.moveRelease id) s fun t =>
    t.mem.moves.lookup id = none ∧ t.mem.hdrs = s.mem.hdrs ∧ t.mem.bytes = s.mem.bytes
      ∧ (slotHome mv.src = true → 0 < (s.slotsOf (slotKey mv.src)).held → (t.slotsOf (slotKey mv.src)).held = (s.slotsOf (slotKey mv.src)).held - 1)
      ∧ t = { s with mem := t.mem }) ∧
  (∀ s id mv h, s.up = true → s.mem.moves.lookup id = some mv → s.mem.hdrs.lookup mv.tile = some h → mv.phase = .moving → h.state = 1 →
    mv.reissued = false → Answers (.moveFailure id false) s fun t =>
      t.mem.hdrs.lookup mv.tile = some { h with state := 0 } ∧ t.mem.moves.lookup id = some { mv with phase := .accepted, reissued := true }
        ∧ t.counter 0x0403 mv.mover = (s.counter 0x0403 mv.mover).plus 1 ∧ t.mem.bytes = s.mem.bytes)

/-- The locker: an entry with room goes to the keep area under the next SEQ with what it keeps; an entry's read hands out what it kept, lowers
READS, and the last one frees it; a read of an entry that is not there suspends the bib, one that cannot be read back is lost with its step
(R127, R134 to R138, R141, R142). -/
def Obligations.LockerRows : Prop :=
  (∀ s slot seg die kind fmt reads tensor unit mb k d l data, s.up = true → s.course (BitVec.toNat slot) = some k → s.domain slot.toNat = some d →
    d.live.lookup (BitVec.toNat seg) = some l → d.running = true → d.suspended = false → BitVec.toNat kind ≠ 0 → BitVec.toNat kind ≤ 5 →
    (BitVec.toNat kind = 1 → (fmtOf (BitVec.toNat fmt)).isSome = true) → BitVec.toNat reads ≠ 0 →
    s.entryData k slot kind.toNat (BitVec.toNat fmt) tensor unit = .ready data →
    (∀ e ∈ s.lkr.entries, e.slot = slot → e.die = Fin.val die → e.tier ≠ 0 ∧ e.tier ≠ 3) →
    entrySize kind.toNat (BitVec.toNat fmt) ≤ bits (k.locker.getD die.val 0) 14 10 * 65536 →
    Answers (.lockerEntryWrite slot seg die kind fmt reads tensor unit mb) s fun t =>
      (∃ e, t.lkr.entries = s.lkr.entries ++ [e] ∧ e.kind = kind ∧ e.tier = 0 ∧ e.reads = reads ∧ e.bib = k.bib ∧ e.tensor = tensor ∧ e.unit = unit
        ∧ e.mb = mb ∧ e.slot = slot ∧ e.die = die.val ∧ e.size = entrySize kind.toNat fmt.toNat ∧ e.seq = s.lkr.next ∧ e.step = l.step ∧ e.data = data)
        ∧ t.lkr.next = s.lkr.next + 1 ∧ t = { s with lkr := t.lkr, arr.planes := t.arr.planes, freeCtr := t.freeCtr }) ∧
  (∀ s slot die tensor unit mb e, s.up = true →
    s.lkr.entries.find? (fun e => e.slot = slot && e.die = Fin.val die && e.tensor = tensor && e.unit = unit && e.mb = mb) = some e →
    e.tier = 0 → s.tileAway e = false → Answers (.lockerEntryRead slot die tensor unit mb true) s fun t =>
      (1 < e.reads.toNat → { e with reads := e.reads - 1 } ∈ t.lkr.entries ∧ t.lkr.entries.length = s.lkr.entries.length)
        ∧ (e.reads.toNat ≤ 1 → ∀ x ∈ t.lkr.entries, x.seq ≠ e.seq)
        ∧ (e.kind ≠ 1 → t.lkr.readOut.lookup (readKey slot tensor unit mb) = some e.data ∧ t.mem.bytes = s.mem.bytes)
        ∧ (∀ h, e.kind = 1 → s.tileHdr (tileOf e.bib tensor.toNat unit.toNat) = some h →
            t.mem.bytes = (s.setBytes (homeKey h.home) e.data).mem.bytes)
        ∧ t = { s with lkr.entries := t.lkr.entries, lkr.readOut := t.lkr.readOut, mem.bytes := t.mem.bytes }) ∧
  (∀ s slot die tensor unit mb e d, s.up = true →
    s.lkr.entries.find? (fun e => e.slot = slot && e.die = Fin.val die && e.tensor = tensor && e.unit = unit && e.mb = mb) = some e →
    e.tier = 0 → s.tileAway e = false → s.domain (BitVec.toNat slot) = some d → Answers (.lockerEntryRead slot die tensor unit mb false) s fun t =>
      (∀ x ∈ t.lkr.entries, x.seq ≠ e.seq) ∧ t.domain slot.toNat = some { d with lost := true }
        ∧ t = { s with lkr.entries := t.lkr.entries, crs.domains := t.crs.domains, cmd := t.cmd }) ∧
  (∀ s slot die tensor unit mb ok k, s.up = true →
    (∀ e ∈ s.lkr.entries, e.slot = slot → e.die = Fin.val die → e.tensor = tensor → e.unit = unit → e.mb ≠ mb) →
    s.course (BitVec.toNat slot) = some k → (s.bib k.bib).state = .running → Answers (.lockerEntryRead slot die tensor unit mb ok) s fun t =>
      (t.bib k.bib).state = .suspended ∧ (t.bib k.bib).why = .fault ∧ t.mem.bytes = s.mem.bytes)

/-! ## The lift (chapter 10) -/

/-- A stream opens when its pool has RES_MIN slots free and waits till then; its CLOSE segment's finish returns what it does not keep; the
mover issues its next item, or an item already at its destination is committed at once; CANCEL cancels it (R206 to R208, R210, R214, R220,
R223).
A row out of its condition changes nothing: the model's choice (log entry 64). -/
def Obligations.StreamLifeRows : Prop :=
  (∀ s slot decl strm k d, s.up = true → s.course (BitVec.toNat slot) = some k → s.domain slot.toNat = some d → s.mayRun slot.toNat = true →
    d.pc ∈ k.openers (BitVec.toNat decl) → s.lift.strm.has (BitVec.toNat strm) = false → (∀ e ∈ s.lift.strm, e.2.slot = slot → e.2.decl ≠ decl) →
    (s.strmsOf slot.toNat).length < s.lift.reserved.read 0 slot.toNat → Answers (.streamOpen slot decl strm) s fun t =>
      (∃ x, t.strm strm.toNat = some x ∧ x.slot = slot ∧ x.decl = decl ∧ x.bib = k.bib ∧ x.tOpen = s.clk.ts ∧ x.next = 0 ∧ x.items = []
        ∧ x.state = if s.canOpen k (s.bib k.bib).args strm.toNat decl.toNat d.w d.run then 2 else 1)
        ∧ t = { s with lift.strm := t.lift.strm }) ∧
  (∀ s strm x k d, s.up = true → s.strm (BitVec.toNat strm) = some x → s.course x.slot.toNat = some k → s.domain x.slot.toNat = some d →
    x.fin0 < d.finishes.read 0 (stClose (k.stream x.decl.toNat)) → 2 ≤ x.state.toNat → x.state.toNat ≤ 4 → x.items = [] →
    Answers (.streamClose strm) s fun t => t.strm strm.toNat = none ∧ t.mem.bytes = s.mem.bytes ∧ t.mem.hdrs = s.mem.hdrs) ∧
  (∀ s strm dst m x k d h j, s.up = true → s.strm (BitVec.toNat strm) = some x → s.course x.slot.toNat = some k → s.domain x.slot.toNat = some d →
    s.mayIssue x = true → (∀ e ∈ x.items, e.2.ret = 0) → x.state = 2 → x.pick = j → j < (k.items x.decl.toNat).length → x.items.has j = false →
    d.running = true → d.suspended = false → s.held x.slot.toNat = false ∨ x.owesLate = true → (∃ a, s.xlate k.bib (k.itemVa x.decl.toNat j) false true = .ok a) →
    s.mem.hdrs.lookup (tileKey (k.itemId x.decl.toNat j)) = some h → h.fmt.toNat = tnFmt (k.tensor (stTensor (k.stream x.decl.toNat))) →
    s.itemDst k d x.decl.toNat j dst = true → s.slotFree k (s.bib x.bib).args (BitVec.toNat strm) x d.w (k.itemStn d x.decl.toNat j) = true →
    s.moveOk (tileKey (k.itemId x.decl.toNat j)) h dst (Fin.val m) = true → Answers (.liftIssue strm dst m) s fun t =>
      (∃ id mv, t.mem.moves.lookup id = some mv ∧ mv.tile = tileKey (k.itemId x.decl.toNat j) ∧ mv.dst = dst ∧ mv.strm = some strm.toNat ∧ mv.item = j)
        ∧ (∃ y i, t.strm strm.toNat = some y ∧ y.items.lookup j = some i ∧ i.src = h.home ∧ i.dst = dst ∧ i.committed = false)
        ∧ t.mem.bytes = s.mem.bytes ∧ t.mem.hdrs = s.mem.hdrs) ∧
  (∀ s strm dst m x k, s.up = true → s.strm (BitVec.toNat strm) = some x → s.course x.slot.toNat = some k → 4 < (HomeAddr.tier dst).toNat →
    Answers (.liftIssue strm dst m) s fun t => t = { s with cmd := t.cmd }) ∧
  (∀ s strm x, s.up = true → s.strm (BitVec.toNat strm) = some x → x.items = [] → Answers (.liftStreamCancel strm) s fun t =>
    t.strm strm.toNat = none ∧ t.mem.bytes = s.mem.bytes) ∧
  (∀ s strm, s.up = true → s.strm (BitVec.toNat strm) = none → exec (.liftStreamCancel strm) s = .next s)

/-- A committed item is read; a consumer ready for an item that has not come makes its stream immediate and holds its domain under cause
0; a stream stops at an absent page and resumes at that item; after 64 ticks of a wait cycle a stream is unwound and capped, and a second
unwind without a use between is a course violation (R211, R216, R217, R221, R222). -/
def Obligations.StreamItemRows : Prop :=
  (∀ s strm item x k i, s.up = true → s.strm (BitVec.toNat strm) = some x → s.course x.slot.toNat = some k → x.items.lookup (BitVec.toNat item) = some i →
    i.committed = true → stDispose (k.stream x.decl.toNat) ≠ 2 → Answers (.itemRead strm item) s fun t =>
      (∃ y j, t.strm strm.toNat = some y ∧ y.items.lookup item.toNat = some j ∧ j.reads = i.reads + 1
        ∧ (i.ret = 0 → stDispose (k.stream x.decl.toNat) = 1 → stLast (k.stream x.decl.toNat) ≤ i.reads + 1 → j.ret = 1))
        ∧ t = { s with lift.strm := t.lift.strm }) ∧
  (∀ s strm item x k d, s.up = true → s.strm (BitVec.toNat strm) = some x → s.course x.slot.toNat = some k → s.domain x.slot.toNat = some d →
    d.running = true → d.suspended = false → 2 ≤ x.state.toNat → x.state.toNat ≤ 4 → BitVec.toNat item < (k.items x.decl.toNat).length →
    x.items.lookup item.toNat = none → item.toNat ∉ x.late → Answers (.itemLate strm item) s fun t =>
      (∃ y, t.strm strm.toNat = some y ∧ y.cls = 0 ∧ item.toNat ∈ y.late) ∧ ((t.hold x.slot.toNat).cause).getLsbD 0 = true
        ∧ t.counter 0x0905 x.slot.toNat = (s.counter 0x0905 x.slot.toNat).plus 1 ∧ t.mem = s.mem ∧ t.bibs = s.bibs) ∧
  (∀ s strm item va x k, s.up = true → s.strm (BitVec.toNat strm) = some x → s.course x.slot.toNat = some k → x.pick = BitVec.toNat item →
    item.toNat < (k.items x.decl.toNat).length → k.itemVa x.decl.toNat item.toNat / 2 ^ 21 = BitVec.toNat va / 2 ^ 21 →
    s.xlate k.bib (k.itemVa x.decl.toNat item.toNat) false true = .halt → x.state = 2 → Answers (.streamHalt strm item va) s fun t =>
      (∃ y, t.strm strm.toNat = some y ∧ y.state = 3 ∧ y.next = item)
        ∧ (∃ l, t.log.flight = s.log.flight ++ { bib := x.bib, slot := x.slot, src := 4, arg := .streamHalt strm item va } :: l)
        ∧ t = { s with lift.strm := t.lift.strm, log := t.log, ctr := t.ctr }) ∧
  (∀ s strm x k h, s.up = true → s.strm (BitVec.toNat strm) = some x → s.course x.slot.toNat = some k → x.state = 3 →
    s.xlate k.bib (k.itemVa x.decl.toNat x.next.toNat) false true = .ok h → (∀ y, s.tileHdr (k.itemId x.decl.toNat x.next.toNat) = some y → y.state ≠ 2) →
    Answers (.streamResume strm) s fun t => (∃ y, t.strm strm.toNat = some y ∧ y.state = 2 ∧ y.next = x.next)
      ∧ t = { s with lift.strm := t.lift.strm }) ∧
  (∀ s strm other x y k ky d, s.up = true → s.strm (BitVec.toNat strm) = some x → s.strm (BitVec.toNat other) = some y →
    s.course x.slot.toNat = some k → s.course y.slot.toNat = some ky → s.domain x.slot.toNat = some d → 64 ≤ s.lift.cycle.read 0 strm.toNat →
    64 ≤ s.lift.cycle.read 0 other.toNat → x.bib = y.bib → samePool (k.stream x.decl.toNat) (ky.stream y.decl.toNat) = true →
    s.oldestDue y ≤ s.oldestDue x → d.unwinds = 0 → Answers (.streamUnwind strm other) s fun t =>
      (∃ z, t.strm strm.toNat = some z ∧ z.cap = true ∧ z.unwinds.toNat = min 255 (x.unwinds.toNat + 1)
        ∧ ∀ j i, x.items.lookup j = some i → i.committed = true → i.ret = 0 → ∃ w, z.items.lookup j = some w ∧ w.ret = 3)
        ∧ t.domain x.slot.toNat = some { d with unwinds := 1 }
        ∧ t = { s with lift := t.lift, log := t.log, crs.domains := t.crs.domains }) ∧
  (∀ s strm other x y k ky d, s.up = true → s.strm (BitVec.toNat strm) = some x → s.strm (BitVec.toNat other) = some y →
    s.course x.slot.toNat = some k → s.course y.slot.toNat = some ky → s.domain x.slot.toNat = some d → 64 ≤ s.lift.cycle.read 0 strm.toNat →
    64 ≤ s.lift.cycle.read 0 other.toNat → x.bib = y.bib → samePool (k.stream x.decl.toNat) (ky.stream y.decl.toNat) = true →
    s.oldestDue y ≤ s.oldestDue x → d.unwinds ≠ 0 → (s.bib k.bib).state = .running → Answers (.streamUnwind strm other) s fun t =>
      (t.bib k.bib).state = .suspended ∧ (t.bib k.bib).why = .fault)

/-- The next item of a DEST 3 stream is converted where it stands: a tile ingested from the host window's data takes TERMS 0, the next
VERSION and the current epoch, its home does not move and no byte outside it changes; NEXT and DONE rise (R212). -/
def Obligations.MxConvertRow : Prop :=
  ∀ s strm item scales elems x k d h, s.up = true → s.strm (BitVec.toNat strm) = some x → s.course x.slot.toNat = some k → s.domain x.slot.toNat = some d →
    let r := k.stream x.decl.toNat
    let t := tileOf k.bib (stTensor r) ((k.items x.decl.toNat).getD (BitVec.toNat item) 0)
    stDest r = 3 → x.state = 2 → x.next = item → item.toNat < (k.items x.decl.toNat).length → s.mayRun x.slot.toNat = true → s.tileHdr t = some h →
    h.state = 0 → h.fmt.toNat = fmtCode (mxFmt (stMxFmt r)) → stMxDir r = false →
    (∀ a, s.xlate k.bib (bits (k.blocks.getD (stBlFirst r) 0) 0 48) false false ≠ .ok a) → Answers (.mxConvert strm item scales elems) s fun u =>
      (∃ y, u.tileHdr t = some y ∧ y.terms = 0 ∧ y.version = h.version + 1 ∧ y.home = h.home ∧ y.state = 0 ∧ y.epoch = (s.bib k.bib).curEpoch
          ∧ y.poison = false) ∧ u.counter 0x0904 x.slot.toNat = (s.counter 0x0904 x.slot.toNat).plus (tileBytesOf h.fmt.toNat)
        ∧ (∃ y, u.strm strm.toNat = some y ∧ y.next = item + 1 ∧ y.done = x.done + 1)
        ∧ (∀ a, a < homeKey h.home ∨ homeKey h.home + tileBytesOf (fmtCode (mxFmt (stMxFmt r))) ≤ a → u.byte a = s.byte a)
        ∧ u.bibs = s.bibs ∧ u.mem.ptes = s.mem.ptes

/-! ## The step's verdict and the update pipelines (chapters 5 and 12) -/

/-- The local verdict is formed once the pipelines have updated every owned patch, and is the OR of its sources; the verdict gate takes one
message of its round at a time and ORs it in; a clean verdict flips the buffers and raises STEP, an overflow verdict leaves them, the
eighth skip in a row suspends the bib; a step of which an entry was lost is neither committed nor skipped; each scale gate's epoch is a boundary of a course without a verdict (R102, R105 to R108, R142, R168, R257).
A row out of its condition changes nothing: the model's choice (log entry 64). -/
def Obligations.VerdictRows : Prop :=
  (∀ s slot k d n l, s.up = true → s.course (BitVec.toNat slot) = some k → s.domain slot.toNat = some d → s.verdictGate slot.toNat = some (n, l) →
    d.running = true → d.suspended = false → d.lost = false → d.tokens ≠ 0 → (s.exch n (s.gate n).epoch).formed = false → (s.gate n).state = 1 →
    (s.updated slot.toNat).length = (s.ownedPatches k).length → s.upd.lanes.any (fun _ x => x.any (fun y => y.slot = slot)) = false →
    Answers (.localVerdictForm slot) s fun t =>
      let flagged := (s.collect slot.toNat (d.tokenNo - d.tokens)).flaggedIn slot.toNat
      (t.exch n (s.gate n).epoch).formed = true
        ∧ ((t.exch n (s.gate n).epoch).overflow = true ↔ (s.exch n (s.gate n).epoch).overflow = true ∨ (∃ src, (slot, src) ∈ s.upd.nonfin)
            ∨ flagged ≠ [])
        ∧ (t.exch n (s.gate n).epoch).sources = flagged.length + ((s.upd.nonfin.filter (fun x => x.1 = slot)).eraseDups).length
        ∧ (t.updSlot slot.toNat).clipArmed = false ∧ (t.updSlot slot.toNat).step = (s.updSlot slot.toNat).step ∧ t.mem = s.mem ∧ t.bibs = s.bibs) ∧
  (∀ s slot plus ov k n l j jb, s.up = true → s.course (BitVec.toNat slot) = some k → s.verdictGate slot.toNat = some (n, l) → s.jobOf k.bib = some (j, jb) →
    let v := s.exch n (s.gate n).epoch
    (2 * jb.roundDim (v.rounds jb) + Bool.toNat (!plus), ov) ∈ v.inbox → Answers (.verdictRoundRx slot plus ov) s fun t =>
      (t.exch n (s.gate n).epoch).overflow = (v.overflow || ov)
        ∧ (t.exch n (s.gate n).epoch).inbox = v.inbox.erase (2 * jb.roundDim (v.rounds jb) + (!plus).toNat, ov)
        ∧ t = { s with crs.verdicts := t.crs.verdicts, sl := t.sl }) ∧
  (∀ s slot k d n l, s.up = true → s.course (BitVec.toNat slot) = some k → s.domain slot.toNat = some d → s.verdictGate slot.toNat = some (n, l) →
    d.running = true → d.suspended = false → d.lost = false → d.tokens ≠ 0 → s.verdictReady slot.toNat k n = true → (s.exch n (s.gate n).epoch).overflow = false →
    s.jobOf k.bib = none → Answers (.stepCommit slot) s fun t =>
      t.updSlot slot.toNat = { s.updSlot slot.toNat with
          curState := !(s.updSlot slot.toNat).curState, curWc := !(s.updSlot slot.toNat).curWc, step := (s.updSlot slot.toNat).step + 1, phase := 0 }
        ∧ t.domain slot.toNat = some { d with tokens := d.tokens - 1, stepsDone := d.stepsDone + 1, skips := 0, inputSeq := d.inputSeq + 1 }
        ∧ (t.gate n).epoch = (s.gate n).epoch + 1 ∧ t.mem.bytes = s.mem.bytes ∧ t.bibs = s.bibs) ∧
  (∀ s slot k d n l, s.up = true → s.course (BitVec.toNat slot) = some k → s.domain slot.toNat = some d → s.verdictGate slot.toNat = some (n, l) →
    d.running = true → d.suspended = false → d.lost = false → d.tokens ≠ 0 → s.verdictReady slot.toNat k n = true → (s.exch n (s.gate n).epoch).overflow = true →
    d.skips < 7 → Answers (.stepSkip slot) s fun t =>
      t.updSlot slot.toNat = { s.updSlot slot.toNat with phase := 0 }
        ∧ (∃ x, t.domain slot.toNat = some x ∧ x.skips = d.skips + 1 ∧ x.tokens = d.tokens - 1 ∧ x.stepsDone = d.stepsDone + 1)
        ∧ t.counter 0x0817 slot.toNat = (s.counter 0x0817 slot.toNat).plus 1 ∧ t.bibs = s.bibs ∧ t.mem.bytes = s.mem.bytes) ∧
  (∀ s slot k d n l, s.up = true → s.course (BitVec.toNat slot) = some k → s.domain slot.toNat = some d → s.verdictGate slot.toNat = some (n, l) →
    d.running = true → d.suspended = false → d.lost = false → d.tokens ≠ 0 → s.verdictReady slot.toNat k n = true → (s.exch n (s.gate n).epoch).overflow = true →
    d.skips = 7 → (s.bib k.bib).state = .running → Answers (.stepSkip slot) s fun t => (t.bib k.bib).state = .suspended) ∧
  (∀ s slot d, s.up = true → s.domain (BitVec.toNat slot) = some d → d.lost = true →
    exec (.stepCommit slot) s = .next s ∧ exec (.stepSkip slot) s = .next s) ∧
  (∀ s slot k d, s.up = true → s.course (BitVec.toNat slot) = some k → s.domain slot.toNat = some d → chKind k.hdr ≠ 0 → d.boundary ≠ 0 →
    Answers (.scaleGateBoundary slot) s fun t => t.domain slot.toNat = some { d with boundary := d.boundary - 1, ords := [] } ∧ t.upd = s.upd ∧ t.mem = s.mem) ∧
  (∀ s slot k d, s.up = true → s.course (BitVec.toNat slot) = some k → s.domain slot.toNat = some d → d.boundary = 0 →
    exec (.scaleGateBoundary slot) s = .next s)

/-- The update of a parameter: state is staged for an owned patch while fewer than 96 wait; a gradient takes a free lane group of the pipeline behind the port
that its reduction came by, a frozen
binding copies its state; the program's end forms the tight working copy; the commit stores the patch's blocks in slot B and its working
copy, and no other register of the slot but UPDATED moves; CLIP_ARM writes CLIP and arms it; a patch of another rank is not this module's
(R17, R117, R248, R255 to R262).
A row out of its condition changes nothing: the model's choice (log entry 64). -/
def Obligations.UpdateRows : Prop :=
  (∀ s pipe slot b p k, s.up = true → s.course (BitVec.toNat slot) = some k → BitVec.toNat b < k.binds.length →
    let o := ownedRange (k.patchCount (k.binds.getD b.toNat 0)) (s.jobShape k.bib).1 (s.jobShape k.bib).2
    o.1 ≤ BitVec.toNat p → p.toNat < o.2 → (s.stagedAt (Fin.val pipe)).length < 96 → (slot, b.toNat, p.toNat) ∉ s.stagedAt pipe.val →
    (b.toNat, p.toNat) ∉ s.updated slot.toNat → Answers (.stateStageRead pipe slot b p) s fun t =>
      t.stagedAt pipe.val = s.stagedAt pipe.val ++ [(slot, b.toNat, p.toNat)] ∧ t.mem = s.mem
        ∧ t = { s with upd.staged := t.upd.staged, ctr := t.ctr, log := t.log }) ∧
  (∀ s pipe slot b p grad k d, s.up = true → s.course (BitVec.toNat slot) = some k → s.domain slot.toNat = some d → BitVec.toNat b < k.binds.length →
    let o := ownedRange (k.patchCount (k.binds.getD b.toNat 0)) (s.jobShape k.bib).1 (s.jobShape k.bib).2
    o.1 ≤ BitVec.toNat p → p.toNat < o.2 → s.held slot.toNat = false → (b.toNat, p.toNat) ∉ s.updated slot.toNat →
    (∀ v, s.sl.chunks.lookup (chunkKey slot.toNat b.toNat p.toNat) = some v → v = (Fin.val pipe, grad)) →
    s.upd.lanes.any (fun _ l => l.any (fun x => x.slot = slot && x.binding = b.toNat && x.patch = p.toNat)) = false →
    ((s.updSlot slot.toNat).clipEn = true → (s.updSlot slot.toNat).clipArmed = true) → (s.lanesOf pipe.val).length < 8 →
    Answers (.gradientPatchArrival pipe slot b p grad) s fun t =>
      (∃ x, t.lanesOf pipe.val = s.lanesOf pipe.val ++ [x] ∧ x.slot = slot ∧ x.binding = b.toNat ∧ x.patch = p.toNat ∧ x.ended = false
        ∧ (x.frozen = true ↔ (s.upd.freeze.read [] slot.toNat).getD b.toNat false = true))
        ∧ t.sl.chunks.lookup (chunkKey slot.toNat b.toNat p.toNat) = none
        ∧ t.updSlot slot.toNat = { s.updSlot slot.toNat with phase := 1 } ∧ t.mem = s.mem ∧ t.bibs = s.bibs) ∧
  (∀ s pipe slot b p grad k d v, s.up = true → s.course (BitVec.toNat slot) = some k → s.domain slot.toNat = some d → BitVec.toNat b < k.binds.length →
    let o := ownedRange (k.patchCount (k.binds.getD b.toNat 0)) (s.jobShape k.bib).1 (s.jobShape k.bib).2
    o.1 ≤ BitVec.toNat p → p.toNat < o.2 → s.sl.chunks.lookup (chunkKey slot.toNat b.toNat p.toNat) = some v → v.1 ≠ Fin.val pipe →
    exec (.gradientPatchArrival pipe slot b p grad) s = .next s) ∧
  (∀ s pipe slot b p grad k d, s.up = true → s.course (BitVec.toNat slot) = some k → s.domain slot.toNat = some d → BitVec.toNat b < k.binds.length →
    (ownedRange (k.patchCount (k.binds.getD b.toNat 0)) (s.jobShape k.bib).1 (s.jobShape k.bib).2).2 ≤ BitVec.toNat p → (s.bib k.bib).state = .running →
    s.held slot.toNat = false → Answers (.gradientPatchArrival pipe slot b p grad) s fun t => (t.bib k.bib).state = .suspended ∧ t.upd = s.upd ∧ t.mem.bytes = s.mem.bytes) ∧
  (∀ s pipe group x k rest, s.up = true → s.lanesOf (Fin.val pipe) = x :: rest → x.ended = false → s.course x.slot.toNat = some k →
    Answers (.updateProgramEnd pipe group) s fun t =>
      (∃ y, (t.lanesOf pipe.val).head? = some y ∧ y.ended = true ∧ y.master = x.master
        ∧ (y.wc, y.wcScale) = tightPatch (k.workFmt (k.binds.getD x.binding 0)) (x.master.map (masterFmt (k.binds.getD x.binding 0)).ieee))
        ∧ t = { s with upd.lanes := t.upd.lanes, crs.samples := t.crs.samples }) ∧
  (∀ s pipe onward x k h, s.up = true → (s.lanesOf (Fin.val pipe)).find? (fun x => x.ended) = some x → s.course x.slot.toNat = some k →
    let bd := k.binds.getD x.binding 0
    (s.updSlot x.slot.toNat).pin (!(s.updSlot x.slot.toNat).curState) = 0 → s.tileHdr (s.writingTile x.slot.toNat k bd x.patch) = some h → h.state = 0 →
    h.id = s.writingTile x.slot.toNat k bd x.patch → h.reserved = false → h.home.tier.toNat ≤ 4 → h.fmt.toNat = tnFmt (k.tensor (bdTensor bd)) →
    (∀ e ∈ k.stateBlocks bd (!(s.updSlot x.slot.toNat).curState) (x.patch - (ownedRange (k.patchCount bd) (s.jobShape k.bib).1 (s.jobShape k.bib).2).1),
      s.vaFault k.bib e.1 e.2 true = none) → Answers (.slotBCommit pipe onward) s fun t =>
      (x.binding, x.patch) ∈ t.updated x.slot.toNat
        ∧ t.updSlot x.slot.toNat = { s.updSlot x.slot.toNat with updated := (s.updSlot x.slot.toNat).updated + 1 }
        ∧ t.lanesOf pipe.val = (s.lanesOf pipe.val).erase x ∧ (x.binding, x.patch) ∈ t.upd.emitted.read [] x.slot.toNat ∧ t.bibs = s.bibs) ∧
  (∀ s pipe onward x k, s.up = true → (s.lanesOf (Fin.val pipe)).find? (fun x => x.ended) = some x → s.course x.slot.toNat = some k →
    (s.updSlot x.slot.toNat).pin (!(s.updSlot x.slot.toNat).curState) ≠ 0 → exec (.slotBCommit pipe onward) s = .next s) ∧
  (∀ s slot clip, s.up = true → s.upd.sums.has (BitVec.toNat slot) = true → Answers (.clipArm slot clip) s fun t =>
    t.updSlot slot.toNat = { s.updSlot slot.toNat with clip := clip, clipArmed := true } ∧ t = { s with upd.sums := t.upd.sums, upd.slots := t.upd.slots }) ∧
  (∀ s slot clip, s.up = true → s.upd.sums.has (BitVec.toNat slot) = false → exec (.clipArm slot clip) s = .next s)

/-! ## Septyth Link (chapter 13) -/

/-- A trained port sends its next frame: the pattern under test; the oldest frame to be resent, with its own SEQ; new slots and one MSG item
with the next SEQ, kept for a retry until it is acknowledged; or an idle frame with the last SEQ. At most six slots and two
credit returns go with a frame (R266, R268, R269, R290).
A row out of its condition changes nothing: the model's choice (log entry 64). -/
def Obligations.FrameSendingRows : Prop :=
  (∀ s port, s.up = true → (s.port (Fin.val port)).trained = false → exec (.slFrameTx port) s = .next s) ∧
  (∀ s port, s.up = true → (s.port (Fin.val port)).trained = true → (s.port port.val).state ≠ 2 → (s.port port.val).pattern = true →
    Answers (.slFrameTx port) s fun t => (∃ f, t.port port.val = { s.port port.val with out := some f } ∧ f.ftype = 4 ∧ f.slots = [] ∧ f.msg = .none)
      ∧ t = { s with sl.ports := t.sl.ports }) ∧
  (∀ s port f rest, s.up = true → (s.port (Fin.val port)).trained = true → (s.port port.val).state ≠ 2 → (s.port port.val).pattern = false →
    (s.port port.val).resend = f :: rest → Answers (.slFrameTx port) s fun t =>
      (∃ g, (t.port port.val).out = some g ∧ g.seq = f.seq ∧ g.slots = f.slots ∧ g.msg = f.msg ∧ g.ack = (s.port port.val).rxSeq
        ∧ g.cr = (s.port port.val).owed.take 2)
        ∧ (t.port port.val).resend = rest ∧ (t.port port.val).retry = (s.port port.val).retry ∧ (t.port port.val).txSeq = (s.port port.val).txSeq
        ∧ t.counter 0x0505 port.val = (s.counter 0x0505 port.val).plus 1 ∧ t = { s with sl.ports := t.sl.ports, ctr := t.ctr, log := t.log }) ∧
  (∀ s port, s.up = true → (s.port (Fin.val port)).trained = true → (s.port port.val).state ≠ 2 → (s.port port.val).pattern = false →
    (s.port port.val).resend = [] → s.sl.outgoing = [] → (s.port port.val).nextSlots = [] → (s.port port.val).nextMsg = .none →
    Answers (.slFrameTx port) s fun t =>
      (∃ f, (t.port port.val).out = some f ∧ f.ftype = 2 ∧ f.seq = (s.port port.val).txSeq - 1 ∧ f.nak = (s.port port.val).nakDue ∧ f.slots = [])
        ∧ (t.port port.val).txSeq = (s.port port.val).txSeq ∧ (t.port port.val).retry = (s.port port.val).retry
        ∧ t = { s with sl.ports := t.sl.ports }) ∧
  (∀ s port, s.up = true → (s.port (Fin.val port)).trained = true → (s.port port.val).state ≠ 2 → (s.port port.val).pattern = false →
    (s.port port.val).resend = [] → s.sl.outgoing = [] → ((s.port port.val).nextSlots ≠ [] ∨ (s.port port.val).nextMsg ≠ .none) →
    (s.port port.val).retry.length < 256 → Answers (.slFrameTx port) s fun t =>
      (∃ f, (t.port port.val).out = some f ∧ f.ftype = 1 ∧ f.seq = (s.port port.val).txSeq ∧ f.ack = (s.port port.val).rxSeq
        ∧ f.slots = (s.port port.val).nextSlots.map (·.slot) ∧ f.slots.length ≤ 6 ∧ f.msg = (s.port port.val).nextMsg
        ∧ f.cr = (s.port port.val).owed.take 2 ∧ (t.port port.val).retry = (s.port port.val).retry ++ [{ f with cr := [] }])
        ∧ (t.port port.val).txSeq = (s.port port.val).txSeq + 1 ∧ t = { s with sl.ports := t.sl.ports, ctr := t.ctr, log := t.log })

/-- A received frame over an uncorrectable codeword or with a bad CRC is discarded and a NAK is owed, and what follows it is discarded till
the resent frame comes; a good data frame in order is acknowledged, its ACK, NAK and credits are taken and its slots, each within the
credit given for it, go where their streams do, and a slot without a credit goes nowhere; a retrain request resends what is not acknowledged (R267 to R270).
A row out of its condition changes nothing: the model's choice (log entry 64). -/
def Obligations.FrameReceptionRows : Prop :=
  (∀ s port errs ok f, s.up = true → (s.port (Fin.val port)).trained = false → exec (.slFrameRx port errs ok f) s = .next s) ∧
  (∀ s port errs ok f, s.up = true → (s.port (Fin.val port)).trained = true → ((∃ e ∈ errs, 15 < e) ∨ ok = false) →
    Answers (.slFrameRx port errs ok f) s fun t => t.port port.val = { s.port port.val with nakWait := true, nakDue := true }
      ∧ t = { s with sl.ports := t.sl.ports, ctr := t.ctr, log := t.log }) ∧
  (∀ s port errs f, s.up = true → (s.port (Fin.val port)).trained = true → (∀ e ∈ errs, e ≤ 15) → f.ftype = 1 → f.seq = (s.port port.val).rxSeq + 1 →
    Answers (.slFrameRx port errs true f) s fun t => (t.port port.val).rxSeq = f.seq ∧ (t.port port.val).nakWait = false
      ∧ (t.port port.val).retry = ((s.port port.val).acked f).retry ∧ (t.port port.val).resend = ((s.port port.val).acked f).resend
      ∧ (t.port port.val).sentVc = ((s.port port.val).acked f).sentVc ∧ t = { s with sl.ports := t.sl.ports, sl.rx := t.sl.rx, ctr := t.ctr, log := t.log }) ∧
  (∀ s port f x r, s.up = true → (s.port (Fin.val port)).trained = true → f.ftype = 1 → f.seq = (s.port port.val).rxSeq + 1 → f.slots = [x] →
    x.vc.toNat < 5 → (s.port port.val).given ≠ 0 → hasCredit (s.port port.val).taken x.vc.toNat = true →
    s.sl.rx.lookup (port.val * 4096 + x.stream.toNat) = some r → Answers (.slFrameRx port [] true f) s fun t =>
      t.sl.rx.lookup (port.val * 4096 + x.stream.toNat) = some { r with data := r.data ++ x.data }
        ∧ (t.port port.val).given = (s.port port.val).given - 1) ∧
  (∀ s port f x, s.up = true → (s.port (Fin.val port)).trained = true → f.ftype = 1 → f.seq = (s.port port.val).rxSeq + 1 → f.slots = [x] →
    ((s.port port.val).given = 0 ∨ hasCredit (s.port port.val).taken x.vc.toNat = false) → Answers (.slFrameRx port [] true f) s fun t =>
      t.sl.rx = s.sl.rx ∧ (t.port port.val).rxVc = (s.port port.val).rxVc ∧ t = { s with sl.ports := t.sl.ports, ctr := t.ctr, log := t.log }) ∧
  (∀ s port errs f, s.up = true → (s.port (Fin.val port)).trained = true → (∀ e ∈ errs, e ≤ 15) → (f.ftype = 1 ∨ f.ftype = 2) →
    (s.port port.val).nakWait = true → ¬(f.ftype = 1 ∧ f.seq = (s.port port.val).rxSeq + 1) → Answers (.slFrameRx port errs true f) s fun t =>
      t = { s with ctr := t.ctr, log := t.log }) ∧
  (∀ s port f, s.up = true → (s.port (Fin.val port)).trained = true → f.ftype = 5 → Answers (.slFrameRx port [] true f) s fun t =>
    t.port port.val = { s.port port.val with run := 0, resend := (s.port port.val).retry }
      ∧ t.counter 0x0506 port.val = (s.counter 0x0506 port.val).plus 1 ∧ t = { s with sl.ports := t.sl.ports, ctr := t.ctr, log := t.log })

/-- Training ends in loopback on the lanes that are good, or with the neighbour that the system map places there, or fails and leaves no
traffic and its reason; a retrain that fails counts towards two, after which the port is down (R270, R271, R272).
A row out of its condition changes nothing: the model's choice (log entry 64). -/
def Obligations.TrainingRows : Prop :=
  (∀ s port cap good ns l, s.up = true → (s.byp (switchOf (Fin.val port))).state = .loop → s.rink.failed = false → lanesFor good = some l →
    Answers (.slTrainDone port false cap good ns) s fun t =>
      (t.port port.val).trained = true ∧ (t.port port.val).state = 1 ∧ (t.port port.val).lanes = l ∧ (t.port port.val).peer = s.moduleNum
        ∧ (t.port port.val).fibreNs = ns ∧ (t.port port.val).drain = (s.port port.val).drain ∧ (t.port port.val).pattern = (s.port port.val).pattern
        ∧ (l ≠ 0xFF → ∃ e ∈ t.log.flight, e.arg = .repair 4 (BitVec.ofNat 12 port.val) (l.setWidth 64))
        ∧ t = { s with sl.ports := t.sl.ports, log := t.log, cmd := t.cmd }) ∧
  (∀ s port cap good ns l, s.up = true → ((s.byp (switchOf (Fin.val port))).state = .train ∨ (s.byp (switchOf port.val)).state = .joined) →
    s.rink.failed = false → s.trainFault port.val cap good = none → lanesFor good = some l → Answers (.slTrainDone port true cap good ns) s fun t =>
      (t.port port.val).trained = true ∧ (t.port port.val).lanes = l ∧ (t.port port.val).peer = cap.module ∧ (t.port port.val).fail = 0
        ∧ (t.port port.val).fibreNs = ns ∧ (t.port port.val).ver = 1 ∧ t.sl.byps = s.sl.byps ∧ t.sl.sysmap = s.sl.sysmap
        ∧ ((t.port port.val).state = if s.sl.drained.contains (switchOf port.val) then 4 else 3)) ∧
  (∀ s port cap good ns w, s.up = true → ((s.byp (switchOf (Fin.val port))).state = .train ∨ (s.byp (switchOf port.val)).state = .joined) →
    s.rink.failed = false → s.trainFault port.val cap good = some w → Answers (.slTrainDone port true cap good ns) s fun t =>
      (t.port port.val).trained = false ∧ (t.port port.val).state = 5 ∧ (t.port port.val).fail = w ∧ (t.port port.val).drain = (s.port port.val).drain
        ∧ (t.port port.val).ins = [] ∧ (t.port port.val).outs = [] ∧ (t.port port.val).txq = [] ∧ t.sl.byps = s.sl.byps ∧ t.mem.bytes = s.mem.bytes) ∧
  (∀ s port failed, s.up = true → (s.port (Fin.val port)).trained = true → (8 ≤ (s.port port.val).run.toNat ∨ 1 ≤ (s.port port.val).retrains) →
    (s.port port.val).retrains < 2 → Answers (.slRetrain port failed) s fun t =>
      (t.port port.val).retrains = (if failed then (s.port port.val).retrains + 1 else 0) ∧ (t.port port.val).run = 0
        ∧ (failed = false → (t.port port.val).resend = (s.port port.val).retry) ∧ (t.port port.val).retry = (s.port port.val).retry
        ∧ t.counter 0x0506 port.val = (s.counter 0x0506 port.val).plus 1 ∧ t = { s with sl.ports := t.sl.ports, ctr := t.ctr, log := t.log }) ∧
  (∀ s port, s.up = true → 2 ≤ (s.port (Fin.val port)).retrains → Answers (.slPortDown port) s fun t =>
    (t.port port.val).trained = false ∧ (t.port port.val).state = 0 ∧ (t.port port.val).fail = 10 ∧ (t.port port.val).retry = []
      ∧ t.sl.byps = s.sl.byps ∧ t.mem.bytes = s.mem.bytes) ∧
  (∀ s port, s.up = true → (s.port (Fin.val port)).retrains < 2 → exec (.slPortDown port) s = .next s)

/-- A message for this module reserves space and is acted on only when its tag checks; one for another module goes on by its route without
being decrypted; a failed tag discards it, counts it and suspends its bib with ST_AUTH; an abort and a lost link discard what has
come and suspend with ST_FAULT (R280, R282, R284).
A row out of its condition changes nothing: the model's choice (log entry 64). -/
def Obligations.MessageRows : Prop :=
  (∀ s port m, s.up = true → (s.port (Fin.val port)).trained = true → (s.port port.val).ins.has m.stream.toNat = false → m.bytes ≠ 0 →
    m.bytes.toNat ≤ 262144 → m.rsv = 0 → s.sl.sysmap.isSome = true → m.dst = s.moduleNum → Answers (.slMessageOpen port m) s fun t =>
      t.sl.rx.lookup (port.val * 4096 + m.stream.toNat) = some { hdr := m, data := [] } ∧ (t.port port.val).ins.lookup m.stream.toNat = some m
        ∧ t = { s with sl := t.sl }) ∧
  (∀ s port m h so, s.up = true → (s.port (Fin.val port)).trained = true → (s.port port.val).ins.has m.stream.toNat = false → m.bytes ≠ 0 →
    m.bytes.toNat ≤ 262144 → m.rsv = 0 → s.sl.sysmap.isSome = true → m.dst ≠ s.moduleNum → s.relays port.val m = false →
    s.route m.src.toNat m.dst.toNat (port.val / 6) = some h → (s.port (s.exitPort h.port)).freeOut = some so → Answers (.slMessageOpen port m) s fun t =>
      t.sl.fwd.lookup (port.val * 4096 + m.stream.toNat) = some (s.exitPort h.port * 4096 + so)
        ∧ Msg.open_ { m with stream := BitVec.ofNat 12 so } ∈ (t.port (s.exitPort h.port)).msgq ∧ t.sl.rx = s.sl.rx ∧ t = { s with sl := t.sl }) ∧
  (∀ s port m, s.up = true → m.dst ≠ s.moduleNum → s.relays (Fin.val port) m = false → s.route m.src.toNat m.dst.toNat (port.val / 6) = none →
    exec (.slMessageOpen port m) s = .next s) ∧
  (∀ s port st tag m x k, s.up = true → (s.port (Fin.val port)).ins.lookup (BitVec.toNat st) = some m →
    s.sl.fwd.lookup (port.val * 4096 + st.toNat) = none → s.sl.rx.lookup (port.val * 4096 + st.toNat) = some x → x.relay = false → s.rxKey m = some k →
    s.msgWaits m = false → m.kind = 0 → s.tensorAt m.dbib m.va.toNat = none →
    let data := openText k m (x.data.take m.bytes.toNat)
    s.vaFault m.dbib m.va.toNat data.length true = none → Answers (.slMessageCommit port st tag true) s fun t =>
      t.mem = (s.vaWrite m.dbib m.va.toNat data).mem ∧ t.sl.rx = s.sl.rx.remove (port.val * 4096 + st.toNat) ∧ t.bibs = s.bibs ∧ t.crs = s.crs) ∧
  (∀ s port st tag m x, s.up = true → (s.port (Fin.val port)).ins.lookup (BitVec.toNat st) = some m →
    s.sl.fwd.lookup (port.val * 4096 + st.toNat) = none → s.sl.rx.lookup (port.val * 4096 + st.toNat) = some x → x.relay = false →
    (s.bib m.dbib).state = .running → Answers (.slMessageCommit port st tag false) s fun t =>
      t.counter 0x0508 port.val = (s.counter 0x0508 port.val).plus 1 ∧ (t.bib m.dbib).state = .suspended ∧ (t.bib m.dbib).why = .auth
        ∧ t.sl.rx = s.sl.rx.remove (port.val * 4096 + st.toNat) ∧ t.mem = s.mem) ∧
  (∀ s port st tag ok m o, s.up = true → (s.port (Fin.val port)).ins.lookup (BitVec.toNat st) = some m →
    s.sl.fwd.lookup (port.val * 4096 + st.toNat) = some o → Answers (.slMessageCommit port st tag ok) s fun t =>
      Msg.close (BitVec.ofNat 12 (o % 4096)) tag ∈ (t.port (o / 4096)).msgq ∧ t = { s with sl.ports := t.sl.ports, sl.fwd := t.sl.fwd }) ∧
  (∀ s port st m x, s.up = true → (s.port (Fin.val port)).ins.lookup (BitVec.toNat st) = some m →
    s.sl.fwd.lookup (port.val * 4096 + st.toNat) = none → s.sl.rx.lookup (port.val * 4096 + st.toNat) = some x → x.relay = false →
    (s.bib x.hdr.dbib).state = .running → Answers (.slAbortRx port st) s fun t =>
      t.counter 0x0509 port.val = (s.counter 0x0509 port.val).plus 1 ∧ (t.bib x.hdr.dbib).state = .suspended ∧ (t.bib x.hdr.dbib).why = .fault
        ∧ t.sl.rx = s.sl.rx.remove (port.val * 4096 + st.toNat) ∧ t.mem = s.mem) ∧
  (∀ s port st, s.up = true → (s.port (Fin.val port)).ins.lookup (BitVec.toNat st) = none → exec (.slAbortRx port st) s = .next s) ∧
  (∀ s port st m x, s.up = true → (s.port (Fin.val port)).trained = true → (s.port port.val).ins = [(st, m)] → (s.port port.val).outs = [] →
    (s.port port.val).txq = [] → (s.byp (switchOf port.val)).state ≠ .joined → s.sl.fwd.lookup (port.val * 4096 + st) = none →
    s.sl.rx.lookup (port.val * 4096 + st) = some x → x.relay = false → (s.bib x.hdr.dbib).state = .running →
    Answers (.slLinkLoss port) s fun t => (t.port port.val).trained = false ∧ (t.port port.val).state = 2
      ∧ t.counter 0x0509 port.val = (s.counter 0x0509 port.val).plus 1 ∧ (t.bib x.hdr.dbib).state = .suspended ∧ (t.bib x.hdr.dbib).why = .fault
      ∧ t.mem = s.mem)

/-- A gate control message of the verdict gate's round waits to be taken; its second copy changes nothing but its count; a message of no
job changes nothing. A patch of a collective takes this module's contribution and at the last stage is delivered, with the port it
came over, to the pipeline; a gathered patch is written into the writing buffer; for a held domain a patch waits, and one whose TERM is no
stage and position of a collective changes nothing (R32, R260, R287, R288).
A row out of its condition changes nothing: the model's choice (log entry 64). -/
def Obligations.CollectiveRows : Prop :=
  (∀ s port jtag g ep v, s.up = true → s.sl.jobs.find? (fun e => e.2.args.jtag = jtag) = none →
    exec (.slControlRx port jtag g ep v) s = .next s) ∧
  (∀ s port jtag g ep v e n, s.up = true → s.sl.jobs.find? (fun e => e.2.args.jtag = jtag) = some e → s.jobGate e.2.args.bib (BitVec.toNat g) = some n →
    s.isVerdict n = true → ((s.exch n ep).got.read 0 ((Fin.val port + 6) % 12)) ≤ (s.exch n ep).got.read 0 port.val →
    Answers (.slControlRx port jtag g ep v) s fun t => (t.exch n ep).inbox = (s.exch n ep).inbox ++ [(port.val % 6, v)]
      ∧ t = { s with crs.verdicts := t.crs.verdicts }) ∧
  (∀ s port jtag g ep v e n, s.up = true → s.sl.jobs.find? (fun e => e.2.args.jtag = jtag) = some e → s.jobGate e.2.args.bib (BitVec.toNat g) = some n →
    (s.exch n ep).got.read 0 (Fin.val port) < (s.exch n ep).got.read 0 ((port.val + 6) % 12) → Answers (.slControlRx port jtag g ep v) s fun t =>
      (t.exch n ep).inbox = (s.exch n ep).inbox ∧ t = { s with crs.verdicts := t.crs.verdicts }) ∧
  (∀ s port slot b p op vals own term seed onward k j jb, s.up = true → s.course (BitVec.toNat slot) = some k → s.jobOf k.bib = some (j, jb) →
    BitVec.toNat b < k.binds.length → BitVec.toNat p < k.patchCount (k.binds.getD b.toNat 0) → (s.port (Fin.val port)).trained = true →
    s.held slot.toNat = false → collectiveTerm term = true →
    Answers (.collectiveChunkRx port slot b p (.reduce op vals own term false seed true) onward) s fun t =>
      t.sl.chunks.lookup (chunkKey slot.toNat b.toNat p.toNat) = some (port.val, (vals.zip own).map (fun e => (chunkElem op.toNat .rne e.1 e.2).1))
        ∧ t.mem.bytes = s.mem.bytes ∧ t = { s with sl.chunks := t.sl.chunks, upd.nonfin := t.upd.nonfin, mem.hdrs := t.mem.hdrs }) ∧
  (∀ s port slot b p codes scale onward k j jb h, s.up = true → s.course (BitVec.toNat slot) = some k → s.jobOf k.bib = some (j, jb) →
    BitVec.toNat b < k.binds.length →
    let bd := k.binds.getD b.toNat 0
    BitVec.toNat p < k.patchCount bd → (s.port (Fin.val port)).trained = true → s.held slot.toNat = false → s.tileHdr (s.writingTile slot.toNat k bd p.toNat) = some h → h.state ≠ 1 →
    Answers (.collectiveChunkRx port slot b p (.gather codes scale) onward) s fun t =>
      t.mem = (s.writePatch h.home (k.workFmt bd) p.toNat (codes.map (·.toNat)) scale).mem ∧ (b.toNat, p.toNat) ∈ t.upd.emitted.read [] slot.toNat
        ∧ t.sl.outgoing = s.sl.outgoing ++ onward.map (fun x => { bib := k.bib, act := 3, dst := jb.neighbour (x.val % 6 / 2) (x.val % 2 = 1)
                                                                  rail := x.val / 6 = 1, va := 0
                                                                  data := gatherImage (k.workFmt bd) (codes.map (·.toNat)) scale })
        ∧ t = { s with mem.bytes := t.mem.bytes, upd.emitted := t.upd.emitted, sl.outgoing := t.sl.outgoing }) ∧
  (∀ s port slot b p op vals own term sr seed last onward, s.up = true → collectiveTerm term = false →
    exec (.collectiveChunkRx port slot b p (.reduce op vals own term sr seed last) onward) s = .next s) ∧
  (∀ s port slot b p ch onward, s.up = true → s.held (BitVec.toNat slot) = true → exec (.collectiveChunkRx port slot b p ch onward) s = .next s) ∧
  (∀ s port slot b p ch onward k, s.up = true → s.course (BitVec.toNat slot) = some k → s.jobOf k.bib = none →
    exec (.collectiveChunkRx port slot b p ch onward) s = .next s)

/-! ## Bypass, rings, drains (chapter 13) -/

/-- A switch goes from BYPASS to LOOP when the hub runs, through OPENING and TRAIN to JOINED when JOIN is 1 and its ports have trained, and
back through CLOSING with its reason when JOIN is cleared, the join window ends or a term of its drive is lost; the change out of BYPASS records EV_BYPASS. Out of
its state a row changes nothing; a switch that still senses open with its drive gone is recorded (R273, R274, R277, R393, Table 13.12).
A row out of its condition changes nothing: the model's choice (log entry 64). -/
def Obligations.BypassRows : Prop :=
  (∀ s rail dim, s.up = true → (s.byp (bypKey (Fin.val rail) (Fin.val dim))).state = .bypass → s.zilUp = true → s.sl.heartbeat = true →
    s.sizeOne dim.val = false → s.rink.failed = false → Answers (.bypassToLoop rail dim) s fun t =>
      (t.byp (bypKey rail.val dim.val)).state = .loop ∧ (∀ p ∈ portsOf (bypKey rail.val dim.val), t.port p = { s.port p with state := 1 })
        ∧ (∃ e, t.log.flight = s.log.flight ++ [e] ∧ ∃ why, e.arg = .bypass s.moduleNum (bypKey rail.val dim.val / 3 = 1)
            (BitVec.ofNat 2 (bypKey rail.val dim.val % 3)) 0 1 why)
        ∧ t = { s with sl.byps := t.sl.byps, sl.ports := t.sl.ports, log := t.log }) ∧
  (∀ s rail dim, s.up = true → (s.byp (bypKey (Fin.val rail) (Fin.val dim))).state = .bypass → s.sizeOne dim.val = true →
    exec (.bypassToLoop rail dim) s = .next s) ∧
  (∀ s rail dim, s.up = true → (s.byp (bypKey (Fin.val rail) (Fin.val dim))).state = .loop → (s.byp (bypKey rail.val dim.val)).join = true →
    s.bothTrained (bypKey rail.val dim.val) = true → s.sl.heartbeat = true → s.sl.sysmap.isSome = true → (s.byp (bypKey rail.val dim.val)).open_ = false →
    Answers (.bypassOpenStart rail dim) s fun t =>
      (t.byp (bypKey rail.val dim.val)).state = .opening ∧ (t.byp (bypKey rail.val dim.val)).hold = true
        ∧ (∀ p ∈ portsOf (bypKey rail.val dim.val), (t.port p).trained = false ∧ (t.port p).state = 2) ∧ t.mem.bytes = s.mem.bytes) ∧
  (∀ s rail dim, s.up = true → (s.byp (bypKey (Fin.val rail) (Fin.val dim))).state = .opening → Answers (.bypassOpeningDone rail dim) s fun t =>
    (t.byp (bypKey rail.val dim.val)).state = .train ∧ (t.byp (bypKey rail.val dim.val)).open_ = true
      ∧ (∀ p ∈ portsOf (bypKey rail.val dim.val), t.port p = { s.port p with state := 2 })
      ∧ t = { s with sl.byps := t.sl.byps, sl.ports := t.sl.ports, log := t.log }) ∧
  (∀ s rail dim, s.up = true → (s.byp (bypKey (Fin.val rail) (Fin.val dim))).state ≠ .opening → exec (.bypassOpeningDone rail dim) s = .next s) ∧
  (∀ s rail dim, s.up = true → (s.byp (bypKey (Fin.val rail) (Fin.val dim))).state = .train → s.bothTrained (bypKey rail.val dim.val) = true →
    Answers (.bypassJoined rail dim) s fun t =>
      (t.byp (bypKey rail.val dim.val)).state = .joined ∧ (t.byp (bypKey rail.val dim.val)).peerP = (s.port (portOf rail.val dim.val false)).peer
        ∧ (t.byp (bypKey rail.val dim.val)).peerM = (s.port (portOf rail.val dim.val true)).peer ∧ bypKey rail.val dim.val ∉ t.sl.drained
        ∧ t = { s with sl.byps := t.sl.byps, sl.drained := t.sl.drained, log := t.log }) ∧
  (∀ s rail dim, s.up = true → (s.byp (bypKey (Fin.val rail) (Fin.val dim))).state = .train → s.bothTrained (bypKey rail.val dim.val) = false →
    s.rink.failed = false → Answers (.bypassTrainTimeout rail dim) s fun t =>
      (t.byp (bypKey rail.val dim.val)).state = .closing ∧ (t.byp (bypKey rail.val dim.val)).reason = s.failOf (bypKey rail.val dim.val) 2
        ∧ (t.byp (bypKey rail.val dim.val)).join = false ∧ (t.byp (bypKey rail.val dim.val)).hold = false ∧ t.mem.bytes = s.mem.bytes) ∧
  (∀ s rail dim, s.up = true → s.sl.heartbeat = false → ((s.byp (bypKey (Fin.val rail) (Fin.val dim))).state = .opening
      ∨ (s.byp (bypKey rail.val dim.val)).state = .train ∨ (s.byp (bypKey rail.val dim.val)).state = .joined) →
    Answers (.bypassDriveLoss rail dim) s fun t =>
      (t.byp (bypKey rail.val dim.val)).state = .closing ∧ (t.byp (bypKey rail.val dim.val)).reason = 6
        ∧ (t.byp (bypKey rail.val dim.val)).join = false ∧ (t.byp (bypKey rail.val dim.val)).hold = false
        ∧ (∀ p ∈ portsOf (bypKey rail.val dim.val), (t.port p).trained = false ∧ (t.port p).state = 0) ∧ t.mem.bytes = s.mem.bytes) ∧
  (∀ s rail dim, s.up = true → s.sl.heartbeat = false → (s.byp (bypKey (Fin.val rail) (Fin.val dim))).state = .loop →
    Answers (.bypassDriveLoss rail dim) s fun t =>
      (t.byp (bypKey rail.val dim.val)).state = .bypass ∧ (t.byp (bypKey rail.val dim.val)).reason = 6 ∧ t.mem.bytes = s.mem.bytes) ∧
  (∀ s rail dim, s.up = true → (s.byp (bypKey (Fin.val rail) (Fin.val dim))).state = .closing → Answers (.bypassClosingDone rail dim) s fun t =>
    (t.byp (bypKey rail.val dim.val)).state = .bypass ∧ (t.byp (bypKey rail.val dim.val)).open_ = false
      ∧ (t.byp (bypKey rail.val dim.val)).reason = (s.byp (bypKey rail.val dim.val)).reason ∧ t = { s with sl.byps := t.sl.byps, log := t.log }) ∧
  (∀ s rail dim, s.up = true → (s.byp (bypKey (Fin.val rail) (Fin.val dim))).hold = false → Answers (.switchStuckCheck rail dim) s fun t =>
    t.byp (bypKey rail.val dim.val) = { s.byp (bypKey rail.val dim.val) with open_ := true }
      ∧ (∃ e, t.log.flight = s.log.flight ++ [e] ∧ e.arg = .repair 8 (BitVec.ofNat 12 (bypKey rail.val dim.val)) 0)
      ∧ t = { s with sl.byps := t.sl.byps, log := t.log }) ∧
  (∀ s rail dim, s.up = true → Answers (.bypJoinWrite rail dim true) s fun t =>
    t.byp (bypKey (Fin.val rail) (Fin.val dim)) = { s.byp (bypKey rail.val dim.val) with join := true } ∧ t = { s with sl.byps := t.sl.byps }) ∧
  (∀ s rail dim, s.up = true → (s.byp (bypKey (Fin.val rail) (Fin.val dim))).state = .joined → Answers (.bypJoinWrite rail dim false) s fun t =>
    (t.byp (bypKey rail.val dim.val)).state = .closing ∧ (t.byp (bypKey rail.val dim.val)).reason = 1
      ∧ (t.byp (bypKey rail.val dim.val)).join = false ∧ t.mem.bytes = s.mem.bytes)

/-- JOIN refuses dimension 3 and needs a system map, waits for a drained ring and is done at once on one; SYSMAP takes sizes and coordinates in their ranges; DRAIN is
written and a drained ring runs what waited for it; a pattern test runs on a free ring, waits else, and its lanes' errors count (R272, R275,
R277, R290).
A row out of its condition changes nothing: the model's choice (log entry 64). -/
def Obligations.RingRows : Prop :=
  (∀ s c rail on, s.accepts 0x0502 c → Answers (.join c rail 3 on) s fun t => t.replied 0x0502 c .version ∧ t = { s with cmd := t.cmd }) ∧
  (∀ s c rail dim on, s.accepts 0x0502 c → dim ≠ 3 → s.sl.sysmap = none → Answers (.join c rail dim on) s fun t =>
    t.replied 0x0502 c .busy ∧ t = { s with cmd := t.cmd }) ∧
  (∀ s c rail dim, s.accepts 0x0502 c → dim ≠ 3 → s.sl.sysmap.isSome = true → bypKey (Fin.val rail) (BitVec.toNat dim) ∉ s.sl.waitJoin →
    (s.byp (bypKey rail.val dim.toNat)).join = false → (s.byp (bypKey rail.val dim.toNat)).state ≠ .joined → bypKey rail.val dim.toNat ∈ s.sl.drained →
    Answers (.join c rail dim true) s fun t => t.byp (bypKey rail.val dim.toNat) = { s.byp (bypKey rail.val dim.toNat) with join := true }
      ∧ t.replied 0x0502 c .ok ∧ t = { s with sl.byps := t.sl.byps, cmd := t.cmd }) ∧
  (∀ s c rail dim, s.accepts 0x0502 c → dim ≠ 3 → s.sl.sysmap.isSome = true → bypKey (Fin.val rail) (BitVec.toNat dim) ∉ s.sl.waitJoin →
    (s.byp (bypKey rail.val dim.toNat)).join = false → (s.byp (bypKey rail.val dim.toNat)).state ≠ .joined → bypKey rail.val dim.toNat ∉ s.sl.drained →
    Answers (.join c rail dim true) s fun t => t.sl.waitJoin = s.sl.waitJoin ++ [bypKey rail.val dim.toNat]
      ∧ t.answered 0x0502 c .deferred false .none ∧ t = { s with sl.waitJoin := t.sl.waitJoin, cmd := t.cmd }) ∧
  (∀ s c rail dim, s.accepts 0x0502 c → dim ≠ 3 → s.sl.sysmap.isSome = true → bypKey (Fin.val rail) (BitVec.toNat dim) ∉ s.sl.waitJoin →
    (s.byp (bypKey rail.val dim.toNat)).state = .joined → Answers (.join c rail dim false) s fun t =>
      (t.byp (bypKey rail.val dim.toNat)).state = .closing ∧ (t.byp (bypKey rail.val dim.toNat)).reason = 1 ∧ t.replied 0x0502 c .ok
        ∧ t.mem.bytes = s.mem.bytes) ∧
  (∀ s c dx dy dz sysid x y z, s.accepts 0x0501 c → dx ≠ 0 → BitVec.toNat dx ≤ 16 → dy ≠ 0 → BitVec.toNat dy ≤ 16 → dz ≠ 0 → BitVec.toNat dz ≤ 8 →
    BitVec.toNat x < dx.toNat → BitVec.toNat y < dy.toNat → BitVec.toNat z < dz.toNat → (∀ i, i < 6 → (s.byp i).state = .bypass) →
    Answers (.sysmap c dx dy dz sysid x y z) s fun t =>
      t.sl.sysmap = some { dx := dx, dy := dy, dz := dz, sysid := sysid, x := x, y := y, z := z } ∧ t.replied 0x0501 c .ok
        ∧ t = { s with sl.sysmap := t.sl.sysmap, sl.away := t.sl.away, cmd := t.cmd }) ∧
  (∀ s c dx dy dz sysid x y z, s.accepts 0x0501 c → (dx = 0 ∨ 16 < BitVec.toNat dx ∨ dy = 0 ∨ 16 < BitVec.toNat dy ∨ dz = 0 ∨ 8 < BitVec.toNat dz
      ∨ dx.toNat ≤ BitVec.toNat x ∨ dy.toNat ≤ BitVec.toNat y ∨ dz.toNat ≤ BitVec.toNat z) → Answers (.sysmap c dx dy dz sysid x y z) s fun t =>
    t.replied 0x0501 c .bounds ∧ t = { s with cmd := t.cmd }) ∧
  (∀ s c port on, s.accepts 0x0503 c → 12 ≤ BitVec.toNat port → Answers (.drain c port on) s fun t =>
    t.replied 0x0503 c .bounds ∧ t = { s with cmd := t.cmd }) ∧
  (∀ s c port, s.accepts 0x0503 c → BitVec.toNat port < 12 → Answers (.drain c port true) s fun t =>
    t.port port.toNat = { s.port port.toNat with drain := true } ∧ t.replied 0x0503 c .ok ∧ t = { s with sl.ports := t.sl.ports, cmd := t.cmd }) ∧
  (∀ s port, s.up = true → Answers (.slPortDrainWrite port false) s fun t =>
    t.port (Fin.val port) = { s.port port.val with drain := false, state := if (s.port port.val).state = 4 then 3 else (s.port port.val).state }
      ∧ switchOf port.val ∉ t.sl.drained ∧ t = { s with sl.ports := t.sl.ports, sl.drained := t.sl.drained }) ∧
  (∀ s port, s.up = true → (s.port (Fin.val port)).pattern = false → port.val ∉ s.sl.waitPat → s.patternFree port.val = true →
    Answers (.slPatternStart port) s fun t => t.port port.val = { s.port port.val with pattern := true }
      ∧ t = { s with sl.ports := t.sl.ports, sl.waitPat := t.sl.waitPat }) ∧
  (∀ s port, s.up = true → (s.port (Fin.val port)).pattern = false → port.val ∉ s.sl.waitPat → s.patternFree port.val = false →
    Answers (.slPatternStart port) s fun t => t.sl.waitPat = s.sl.waitPat ++ [port.val] ∧ t = { s with sl.waitPat := t.sl.waitPat }) ∧
  (∀ s rail dim, s.up = true → (∀ p ∈ portsOf (bypKey (Fin.val rail) (Fin.val dim)), (s.port p).carriesJob = false) →
    bypKey rail.val dim.val ∉ s.sl.waitJoin → Answers (.ringDrainComplete rail dim) s fun t =>
      bypKey rail.val dim.val ∈ t.sl.drained ∧ (∀ p ∈ portsOf (bypKey rail.val dim.val), (s.port p).state = 3 → (t.port p).state = 4)
        ∧ (∀ p ∈ portsOf (bypKey rail.val dim.val), p ∈ s.sl.waitPat → (t.port p).pattern = true)
        ∧ t = { s with sl.drained := t.sl.drained, sl.ports := t.sl.ports, sl.waitPat := t.sl.waitPat }) ∧
  (∀ s rail dim p, s.up = true → p ∈ portsOf (bypKey (Fin.val rail) (Fin.val dim)) → (s.port p).carriesJob = true →
    exec (.ringDrainComplete rail dim) s = .next s) ∧
  (∀ s port errs, s.up = true → (s.port (Fin.val port)).pattern = true → Answers (.patternTestEnd port errs) s fun t =>
    t.port port.val = { s.port port.val with pattern := false }
      ∧ (∀ i, i < 8 → t.counter 0x050A (8 * port.val + i) = (s.counter 0x050A (8 * port.val + i)).plus (errs.getD i 0))
      ∧ t = { s with sl.ports := t.sl.ports, ctr := t.ctr, log := t.log, cmd := t.cmd }) ∧
  (∀ s port errs, s.up = true → (s.port (Fin.val port)).pattern = false → exec (.patternTestEnd port errs) s = .next s)

/-! ## The lodge (chapter 11) -/

/-- A unit's read climbs the decode ladder one step at a time, counted, to step 4 at once on a dead die; its success ends the read; the read
count of its block group rises, at 60,000 a sample is due and at 100,000 a refresh (R233, R234, R238, Tables 11.5, 11.6). Programs make a stripe's units,
each on the stripe's die, block and word line and parity only on its parity channel, reachable and a failed program retires its block group with the map unchanged; an erase frees a group with nothing reachable; dies and
channels that fail are rebuilt (R230, R231, R234 to R236).
A row out of its condition changes nothing: the model's choice (log entry 64). -/
def Obligations.LodgeUnitRows : Prop :=
  (∀ s p, s.up = true → s.lodge.tags.has (placeKey p) = false → ∀ ok, exec (.lodgeUnitReadDone p ok) s = .next s) ∧
  (∀ s p, s.up = true → s.lodge.tags.has (placeKey p) = true → s.lodge.ladder.read 1 (placeKey p) < 4 → (s.grp (grpOf p)).reads + 1 < 100000 →
    Answers (.lodgeUnitReadDone p false) s fun t =>
      t.lodge.ladder.lookup (placeKey p) = some (if s.onDead p then 4 else s.lodge.ladder.read 1 (placeKey p) + 1)
        ∧ t.grp (grpOf p) = { s.grp (grpOf p) with reads := (s.grp (grpOf p)).reads + 1
                                                   sample := (s.grp (grpOf p)).sample || decide ((s.grp (grpOf p)).reads + 1 = 60000) } ∧ t.lodge.map = s.lodge.map
        ∧ t = { s with lodge := t.lodge, ctr := t.ctr, log := t.log }) ∧
  (∀ s p, s.up = true → s.lodge.tags.has (placeKey p) = true → 99999 ≤ (s.grp (grpOf p)).reads → s.lodge.ladder.read 1 (placeKey p) < 4 →
    Answers (.lodgeUnitReadDone p false) s fun t => (t.grp (grpOf p)).refresh = true ∧ (t.grp (grpOf p)).reads = (s.grp (grpOf p)).reads + 1) ∧
  (∀ s p, s.up = true → s.lodge.tags.has (placeKey p) = true → s.lodge.ladder.read 1 (placeKey p) < 3 → (s.grp (grpOf p)).reads + 1 < 100000 →
    Answers (.lodgeUnitReadDone p true) s fun t =>
      t.lodge.ladder = s.lodge.ladder.remove (placeKey p) ∧ (t.grp (grpOf p)).state = (s.grp (grpOf p)).state ∧ t.lodge.map = s.lodge.map
        ∧ t = { s with lodge := t.lodge, log := t.log }) ∧
  (∀ s blk wl die u, s.up = true → s.lodgeReadOnly = false → s.stripeUnit blk wl die u = true → u.2.1.cls = 2 → u.2.2 = none → u.2.1.prot = false → u.2.1.lun.toNat < lodgeUnits → s.lodge.map.lookup u.2.1.lun.toNat = none →
    Answers (.lodgeStripeProgrammed blk wl die none [u]) s fun t =>
      t.lodge.map = s.lodge.map.insert u.2.1.lun.toNat u.1 ∧ t.lodge.tags = s.lodge.tags.insert (placeKey u.1) u.2.1
        ∧ (t.grp (grpOf u.1)).written = (s.grp (grpOf u.1)).written + 1 ∧ s.lodge.seq.toNat ≤ t.lodge.seq.toNat
        ∧ t = { s with lodge := t.lodge, log := t.log }) ∧
  (∀ s blk wl die c units, s.up = true → s.lodgeReadOnly = false →
    (∀ u ∈ units, s.stripeUnit blk wl die u = true) →
    (s.grp (grpKey (BitVec.toNat c) (BitVec.toNat die) (BitVec.toNat blk))).state ≠ .retired → Answers (.lodgeStripeProgrammed blk wl die (some c) units) s fun t =>
      (t.grp (grpKey c.toNat die.toNat blk.toNat)).state = .retired ∧ t.lodge.map = s.lodge.map ∧ t.lodge.tags = s.lodge.tags
        ∧ t.counter 0x0604 0 = (s.counter 0x0604 0).plus 1 ∧ t = { s with lodge := t.lodge, ctr := t.ctr, log := t.log }) ∧
  (∀ s blk wl die f units, s.up = true → s.lodgeReadOnly = true → exec (.lodgeStripeProgrammed blk wl die f units) s = .next s) ∧
  (∀ s blk wl die f units u, s.up = true → u ∈ units →
    (u.1.blk ≠ blk ∨ u.1.wl ≠ wl ∨ u.1.die ≠ die ∨ s.onDead u.1 = true ∨ s.lodge.tags.has (placeKey u.1) = true
      ∨ (s.lodge.stat.lost = false ∧ (u.2.1.cls = 3 ↔ u.1.ch.toNat ≠ parityCh blk.toNat wl.toNat die.toNat))) →
    exec (.lodgeStripeProgrammed blk wl die f units) s = .next s) ∧
  (∀ s ch die blk, s.up = true → s.grpBusy (grpKey (BitVec.toNat ch) (BitVec.toNat die) (BitVec.toNat blk)) = false →
    (s.grp (grpKey ch.toNat die.toNat blk.toNat)).state ≠ .bad → (s.grp (grpKey ch.toNat die.toNat blk.toNat)).state ≠ .retired →
    Answers (.lodgeEraseDone ch die blk true) s fun t =>
      (t.grp (grpKey ch.toNat die.toNat blk.toNat)).state = .free ∧ (t.grp (grpKey ch.toNat die.toNat blk.toNat)).reads = 0
        ∧ (t.grp (grpKey ch.toNat die.toNat blk.toNat)).erases = (s.grp (grpKey ch.toNat die.toNat blk.toNat)).erases + 1
        ∧ t.lodge.map = s.lodge.map ∧ t = { s with lodge := t.lodge, log := t.log }) ∧
  (∀ s ch die blk ok, s.up = true → s.grpBusy (grpKey (BitVec.toNat ch) (BitVec.toNat die) (BitVec.toNat blk)) = true →
    exec (.lodgeEraseDone ch die blk ok) s = .next s) ∧
  (∀ s ch die low high, s.up = true → (s.grp (grpKey (BitVec.toNat ch) (BitVec.toNat die) (BitVec.toNat low))).erases + 150
      < (s.grp (grpKey ch.toNat die.toNat (BitVec.toNat high))).erases → Answers (.lodgeWearLevelTimer ch die low high) s fun t =>
    t.grp (grpKey ch.toNat die.toNat low.toNat) = { s.grp (grpKey ch.toNat die.toNat low.toNat) with refresh := true }
      ∧ t = { s with lodge.grps := t.lodge.grps }) ∧
  (∀ s ch die blk worst age, s.up = true → worst ≤ 100 → 60 < worst ∨ 180 < age → Answers (.lodgeRetentionScan ch die blk worst age) s fun t =>
    t.grp (grpKey (BitVec.toNat ch) (BitVec.toNat die) (BitVec.toNat blk))
        = { s.grp (grpKey ch.toNat die.toNat blk.toNat) with fresh := false, sample := false, refresh := true }
      ∧ t = { s with lodge.grps := t.lodge.grps }) ∧
  (∀ s ch die, s.up = true → s.dieDead (BitVec.toNat ch) (BitVec.toNat die) = true → exec (.lodgeDieDead ch die) s = .next s) ∧
  (∀ s ch die, s.up = true → s.dieDead (BitVec.toNat ch) (BitVec.toNat die) = false → s.lodge.map = [] → s.lodgeReadOnly = false →
    Answers (.lodgeDieDead ch die) s fun t => t.dieDead ch.toNat die.toNat = true
      ∧ (∀ d, d ≠ die.toNat → t.dieDead ch.toNat d = s.dieDead ch.toNat d)
      ∧ (∃ e ∈ t.log.flight, e.arg = .repair 5 (BitVec.ofNat 12 (16 * ch.toNat + die.toNat)) 0) ∧ t = { s with lodge := t.lodge, log := t.log }) ∧
  (∀ s ch, s.up = true → s.lodge.stat.lost = false → s.lodge.map = [] → s.lodgeReadOnly = false → Answers (.lodgeChannelLost ch) s fun t =>
    t.lodge.stat.lost = true ∧ t.lodge.stat.lostCh = ch ∧ (∀ d, d < 16 → t.dieDead (BitVec.toNat ch) d = true)
      ∧ (∃ e ∈ t.log.flight, e.arg = .repair 6 (ch.setWidth 12) 0) ∧ t = { s with lodge := t.lodge, log := t.log })

/-- A shared page's lost unit starts a rebuild; a fetch goes to at most three peers; a page comes in to a free frame of its bib's quota, with
its bytes at the frame and its entry resident; the first copy of a commit record commits its object, answers the command and takes the next
commit sequence; a failure leaves the previous commit in force; start-up keeps committed objects only and rebuilds the map once (R230, R237
to R243, R245). OBJECT creates and deletes; ZQ calibration answers its CALIBRATE (R376, R377).
A row out of its condition changes nothing: the model's choice (log entry 64). -/
def Obligations.LodgePageAndObjectRows : Prop :=
  (∀ s b page ok op, s.up = true → s.lodge.pages.lookup (pageKey b (BitVec.toNat page)) = some op → op.rebuild = true → op.ready = false →
    op.peers < 3 → op.peers < (s.replicasOf op.lun).length → ok = true ∨ op.peers + 1 < min 3 (s.replicasOf op.lun).length →
    Answers (.lodgePeerFetchDone b page ok) s fun t =>
      t.lodge.pages.lookup (pageKey b page.toNat) = some { op with peers := op.peers + 1, ready := ok }
        ∧ t.counter 0x0606 0 = (s.counter 0x0606 0).plus 1 ∧ t = { s with lodge.pages := t.lodge.pages, ctr := t.ctr, log := t.log }) ∧
  (∀ s b page ok op, s.up = true → s.lodge.pages.lookup (pageKey b (BitVec.toNat page)) = some op → 3 ≤ op.peers →
    exec (.lodgePeerFetchDone b page ok) s = .next s) ∧
  (∀ s b page lun frame, s.up = true → s.memoryWf → (s.pte b (BitVec.toNat page)).tier = 3 → (s.pte b page.toNat).state = 2 → BitVec.toNat lun = (s.pte b page.toNat).lun →
    s.lodge.pages.lookup (pageKey b page.toNat) = none → s.frameFree 2 (BitVec.toNat frame) = true → (s.quotaBib b).quotaFor 2 frame.toNat = true →
    Answers (.pageInRequest b page lun frame) s fun t =>
      (t.pte b page.toNat).tier = 2 ∧ (t.pte b page.toNat).frame = frame ∧ (t.pte b page.toNat).state = 1
        ∧ t.mem.owners.lookup (frameKey 2 frame.toNat) = some b
        ∧ (∀ i, i < 2 ^ 21 → t.byte (byteKey 2 (frame.toNat * 2 ^ 21) + i) = s.byte (byteKey 3 (lun.toNat * 65536) + i))
        ∧ (∀ a, a < byteKey 2 (frame.toNat * 2 ^ 21) ∨ byteKey 2 (frame.toNat * 2 ^ 21) + 2 ^ 21 ≤ a → t.byte a = s.byte a)) ∧
  (∀ s b page lun frame, s.up = true → (s.pte b (BitVec.toNat page)).state = 1 → s.lodge.pages.lookup (pageKey b page.toNat) = none →
    exec (.pageInRequest b page lun frame) s = .next s) ∧
  (∀ s b page lun from2 w, s.up = true → Answers (.lodgePageRebuild b page lun from2 w) s fun t =>
    (∃ op, t.lodge.pages.lookup (pageKey b (BitVec.toNat page)) = some op ∧ op.rebuild = true ∧ ∀ c ∈ w, c ∈ op.waiting)
      ∧ t.mem.bytes = s.mem.bytes ∧ t.mem.hdrs = s.mem.hdrs ∧ t.lodge.map = s.lodge.map) ∧
  (∀ s id o, s.up = true → s.object id = some o → o.first.isSome = true → o.copies = 0 → s.lodgeReadOnly = false →
    Answers (.commitRecordProgrammed id 0 true) s fun t => t.object id = some { o with copies := 1, cseq := s.lodge.cseq + 1 }
      ∧ t.lodge.cseq = s.lodge.cseq + 1 ∧ (∀ e ∈ t.cmd.waiting, e.1 ≠ .object id) ∧ t = { s with lodge := t.lodge, cmd := t.cmd }) ∧
  (∀ s id o, s.up = true → s.object id = some o → o.first.isSome = true → o.copies = 0 → Answers (.commitRecordProgrammed id 0 false) s fun t =>
    t.object id = some { o with first := none } ∧ t.lodge.cseq = s.lodge.cseq ∧ (∀ e ∈ t.cmd.waiting, e.1 ≠ .object id)
      ∧ t = { s with lodge.objs := t.lodge.objs, cmd := t.cmd, freeCtr := t.freeCtr }) ∧
  (∀ s id o, s.up = true → s.object id = some o → o.first.isSome = true → o.copies = 1 → o.kind ≠ 1 → o.kind ≠ 2 → s.lodgeReadOnly = false →
    Answers (.commitRecordProgrammed id 1 true) s fun t => t.object id = some { o with copies := 2 } ∧ t = { s with lodge.objs := t.lodge.objs }) ∧
  (∀ s id copy ok, s.up = true → s.object id = none → exec (.commitRecordProgrammed id copy ok) s = .next s) ∧
  (∀ s, s.up = true → s.lodge.started = false → Answers .lodgeStart s fun t => t.lodge.started = true
    ∧ t.lodge.objs = s.lodge.objs.keep (fun _ o => decide (o.copies ≠ 0)) ∧ (s.lodge.tags = [] → t.lodge.map = []) ∧ t.lodge.tags = s.lodge.tags
    ∧ t = { s with lodge := t.lodge }) ∧
  (∀ s, s.up = true → s.lodge.started = true → exec .lodgeStart s = .next s) ∧
  (∀ s ch, s.up = true → Answers (.onfiZqCalibration ch) s fun t => t.lodge.zq.read 0 (Fin.val ch) = s.lodge.zq.read 0 ch.val + 1
    ∧ (∀ e ∈ t.cmd.waiting, e.1 ≠ .calibrate 4 (BitVec.ofNat 12 ch.val)) ∧ t = { s with lodge.zq := t.lodge.zq, cmd := t.cmd }) ∧
  (∀ s c id kind, s.accepts 0x0403 c → kind ≠ 0 → BitVec.toNat kind ≤ 6 → s.object id = none → Answers (.object c .create id kind) s fun t =>
    t.object id = some { bib := c.bib, kind := kind.toNat, job := c.jobId } ∧ t.replied 0x0403 c .ok ∧ t = { s with lodge.objs := t.lodge.objs, cmd := t.cmd }) ∧
  (∀ s c id kind, s.accepts 0x0403 c → kind = 0 ∨ 6 < BitVec.toNat kind → Answers (.object c .create id kind) s fun t =>
    t.replied 0x0403 c .version ∧ t = { s with cmd := t.cmd }) ∧
  (∀ s c id kind o, s.accepts 0x0403 c → s.object id = some o → o.bib = c.bib → o.first = none → Answers (.object c .delete id kind) s fun t =>
    t.object id = none ∧ t.replied 0x0403 c .ok ∧ t.mem.bytes = s.mem.bytes) ∧
  (∀ s c act id kind o, s.accepts 0x0403 c → act ≠ .create → s.object id = some o → o.bib ≠ c.bib → Answers (.object c act id kind) s fun t =>
    t.replied 0x0403 c .notHome ∧ t = { s with cmd := t.cmd })

/-! ## Jobs, securing and recovery (chapters 13 and 15) -/

/-- JOB_CONFIG installs the record, chooses the buddy offset and takes the intervals that the configuration fixes, or is refused with ST_FAULT
and the pairs that share a feed; JOB_END removes the record and its link keys (R279, R318, R321, R322). SECURE waits for the next committed step
or fixes the intervals; SWAP and REGROW wait for it; a copy's step record ends its pin, restarts its age, or is held (R258, R320, R330, R331).
A row out of its condition changes nothing: the model's choice (log entry 64). -/
def Obligations.JobAndSecuringRows : Prop :=
  (∀ s c a i o, s.accepts 0x0301 c → a.mirrors.any (fun m => m.act = 3) = false → jobInRange a = true → a.jobId = c.jobId →
    (s.bib a.bib).state ≠ .free → (s.bib a.bib).state ≠ .clearing → a.bib ≠ 0 →
    s.sl.jobs.any (fun _ j => j.args.jobId = a.jobId || j.args.jtag = a.jtag || j.args.bib = a.bib) = false →
    (s.bib a.bib).t2Used + 4 * s.copyPages a.bib ≤ (s.bib a.bib).args.t2Quota.toNat → s.freeJob = some i →
    Job.chooseOffset { args := a, rank := BitVec.ofNat 11 (rankOf a) } = (o, []) → Answers (.jobConfig c a) s fun t =>
      t.sl.jobs.lookup i = some { args := a, rank := BitVec.ofNat 11 (rankOf a) } ∧ (t.secStat i).state = 1 ∧ (t.secStat i).buddy = o
        ∧ (t.secStat i).forced = false ∧ (∀ nb nl, a.fixedNb = some nb → a.fixedNl = some nl → a.force = false → (t.secStat i).nb = nb ∧ (t.secStat i).nl = nl)
        ∧ t.replied 0x0301 c .ok ∧ t = { s with sl.jobs := t.sl.jobs, sec.stats := t.sec.stats, cmd := t.cmd, freeCtr := t.freeCtr }) ∧
  (∀ s c a i o pairs, s.accepts 0x0301 c → a.mirrors.any (fun m => m.act = 3) = false → jobInRange a = true → a.jobId = c.jobId →
    (s.bib a.bib).state ≠ .free → (s.bib a.bib).state ≠ .clearing → a.bib ≠ 0 →
    s.sl.jobs.any (fun _ j => j.args.jobId = a.jobId || j.args.jtag = a.jtag || j.args.bib = a.bib) = false →
    (s.bib a.bib).t2Used + 4 * s.copyPages a.bib ≤ (s.bib a.bib).args.t2Quota.toNat → s.freeJob = some i → pairs ≠ [] → a.force = false →
    Job.chooseOffset { args := a, rank := BitVec.ofNat 11 (rankOf a) } = (some o, pairs) → Answers (.jobConfig c a) s fun t =>
      t.answered 0x0301 c .fault true (.sharedPairs pairs) ∧ t = { s with cmd := t.cmd }) ∧
  (∀ s c j jb, s.accepts 0x0302 c → s.jobNamed c = some (j, jb) → Answers (.jobEnd c) s fun t =>
    t.sl.jobs.lookup j = none ∧ t.bibs.linkKeys.lookup (2 * j) = none ∧ t.bibs.linkKeys.lookup (2 * j + 1) = none ∧ t.replied 0x0302 c .ok) ∧
  (∀ s c, s.accepts 0x0302 c → s.jobNamed c = none → Answers (.jobEnd c) s fun t => t.replied 0x0302 c .bounds ∧ t = { s with cmd := t.cmd }) ∧
  (∀ s c nb nl j jb, s.accepts 0x0303 c → s.jobNamed c = some (j, jb) → s.lodgeReadOnly = false → Answers (.secure c false nb nl) s fun t =>
    t.secStat j = { s.secStat j with secureNow := true } ∧ t.answered 0x0303 c .deferred false .none
      ∧ t = { s with sec.stats := t.sec.stats, cmd := t.cmd }) ∧
  (∀ s c nb nl j jb, s.accepts 0x0303 c → s.jobNamed c = some (j, jb) → nb ≠ 0 → BitVec.toNat nb ≤ 4096 → nl ≠ 0 → jb.args.force = false →
    Answers (.secure c true nb nl) s fun t => t.secStat j = { s.secStat j with nb := nb, nl := nl } ∧ t.replied 0x0303 c .ok
      ∧ t = { s with sl.jobs := t.sl.jobs, sec.stats := t.sec.stats, cmd := t.cmd }) ∧
  (∀ s c rank m j jb, s.accepts 0x0304 c → s.jobNamed c = some (j, jb) → BitVec.toNat rank < jb.args.members.length → (s.secStat j).state = 1 →
    (s.secStat j).swap = none → (s.secStat j).regrow = [] → Answers (.swap c rank m) s fun t =>
      t.secStat j = { s.secStat j with swap := some (rank, m) } ∧ t.replied 0x0304 c .ok ∧ t = { s with sec.stats := t.sec.stats, cmd := t.cmd }) ∧
  (∀ s c rank m j jb, s.accepts 0x0304 c → s.jobNamed c = some (j, jb) → BitVec.toNat rank < jb.args.members.length → (s.secStat j).state ≠ 1 →
    Answers (.swap c rank m) s fun t => t.replied 0x0304 c .busy ∧ t = { s with cmd := t.cmd }) ∧
  (∀ s c fores j jb, s.accepts 0x0305 c → s.jobNamed c = some (j, jb) → fores ≠ [] → (∀ f ∈ fores, f ∈ jb.args.fores) → (s.secStat j).state = 1 →
    (s.secStat j).swap = none → (s.secStat j).regrow = [] → Answers (.regrow c fores) s fun t =>
      t.secStat j = { s.secStat j with regrow := fores } ∧ t.replied 0x0305 c .ok ∧ t = { s with sec.stats := t.sec.stats, cmd := t.cmd }) ∧
  (∀ s c fores j jb f, s.accepts 0x0305 c → s.jobNamed c = some (j, jb) → f ∈ fores → f ∉ jb.args.fores → Answers (.regrow c fores) s fun t =>
    t.replied 0x0305 c .bounds ∧ t = { s with cmd := t.cmd }) ∧
  (∀ s job rank step kind, s.up = true → s.sl.jobs.lookup (BitVec.toNat job) = none → exec (.buddyCopyComplete job rank step kind) s = .next s) ∧
  (∀ s job step jb c k, s.up = true → s.sl.jobs.lookup (BitVec.toNat job) = some jb → s.trainSlot jb.args.bib = some (c, k) →
    Answers (.buddyCopyComplete job jb.rank step 1) s fun t =>
      t.secStat job.toNat = { s.secStat job.toNat with buddyAge := BitVec.ofNat 32 ((s.updSlot c).step.toNat - BitVec.toNat step) }
        ∧ t = { s with sec.stats := t.sec.stats }) ∧
  (∀ s job rank step kind jb, s.up = true → s.sl.jobs.lookup (BitVec.toNat job) = some jb → rank ≠ jb.rank →
    (∀ y ∈ s.sec.copies, y.job = jb.args.jobId → y.rank = rank → y.kind ≠ Fin.val kind) → Answers (.buddyCopyComplete job rank step kind) s fun t =>
      t.sec.copies = s.sec.copies ++ [{ job := jb.args.jobId, rank := rank, step := step, kind := kind.val, done := true }]
        ∧ t = { s with sec.copies := t.sec.copies }) ∧
  (∀ s job step jb c k x b, s.up = true → s.sl.jobs.lookup (BitVec.toNat job) = some jb → s.trainSlot jb.args.bib = some (c, k) →
    s.sec.copies.find? (fun y => y.job = jb.args.jobId && y.rank = jb.rank && y.step = step && y.kind = 0 && !y.done) = some x → x.body = some b →
    (s.updSlot c).step = b.step → (s.secStat job.toNat).keep = none → Answers (.buddyCopyComplete job jb.rank step 0) s fun t =>
      t.updSlot c = (s.updSlot c).pinBy (s.updSlot c).curState false ∧ t.secStat job.toNat = s.secStat job.toNat
        ∧ t = { s with sec := t.sec, upd.slots := t.upd.slots })

/-- A lost member stops the job's domains and begins a recovery; its plan names the step and the forerunner, and with none takes the same
members or the spread path, with no step stops the job; the rows F6 to F9 come in order; F7 seats the forerunner, F8 restores the committed
state, F9 stores bytes and nothing else; a resume admits the bib, but not one that waits for its operator (R108), and the third in a row at one step for one cause stops the job; the spread path
renumbers the job or lets this member leave it, and is not taken where the course's patches do not fit (R177, R317, R318, R323 to R331).
A row out of its condition changes nothing: the model's choice (log entry 64). -/
def Obligations.RecoveryRows : Prop :=
  (∀ s job rank jb, s.up = true → s.sl.jobs.lookup (BitVec.toNat job) = some jb → BitVec.toNat rank < jb.args.members.length → rank ≠ jb.rank →
    rank ∉ (s.secStat job.toNat).failed → (s.secStat job.toNat).state ≠ 2 → (s.secStat job.toNat).state ≠ 4 → (s.bib jb.args.bib).state = .running →
    Answers (.memberLost job rank) s fun t =>
      (t.secStat job.toNat).state = 3 ∧ (t.secStat job.toNat).row = 4 ∧ (t.secStat job.toNat).failRank = rank
        ∧ (t.secStat job.toNat).failed = (s.secStat job.toNat).failed ++ [rank] ∧ (t.bib jb.args.bib).state = .suspended
        ∧ (t.bib jb.args.bib).why = .fault ∧ t.mem = s.mem ∧ t.upd = s.upd) ∧
  (∀ s job jb, s.up = true → s.sl.jobs.lookup (BitVec.toNat job) = some jb → exec (.memberLost job jb.rank) s = .next s) ∧
  (∀ s job n f jb, s.up = true → s.sl.jobs.lookup (BitVec.toNat job) = some jb → ((s.secStat job.toNat).state = 3 ∨ (s.secStat job.toNat).state = 4
      ∨ (s.secStat job.toNat).state = 5) → f ∈ jb.args.fores → (s.secStat job.toNat).failed ≠ [] → Answers (.recoveryPlan job (some n) (some f)) s fun t =>
    t.secStat job.toNat = { s.secStat job.toNat with step := some n, fore := some f, row := 5, keep := some n, state := 4
                                                     barred := s.barredSpreads job.toNat jb (s.secStat job.toNat).failed }
      ∧ t = { s with sec.stats := t.sec.stats }) ∧
  (∀ s job n jb, s.up = true → s.sl.jobs.lookup (BitVec.toNat job) = some jb → ((s.secStat job.toNat).state = 3 ∨ (s.secStat job.toNat).state = 4
      ∨ (s.secStat job.toNat).state = 5) → Answers (.recoveryPlan job (some n) none) s fun t =>
    t.secStat job.toNat = { s.secStat job.toNat with step := some n, fore := none, row := 5, keep := some n
                                                     barred := s.barredSpreads job.toNat jb (s.secStat job.toNat).failed
                                                     state := if (s.secStat job.toNat).failed = [] then 6 else 5 }
      ∧ t = { s with sec.stats := t.sec.stats }) ∧
  (∀ s job f jb, s.up = true → s.sl.jobs.lookup (BitVec.toNat job) = some jb → ((s.secStat job.toNat).state = 3 ∨ (s.secStat job.toNat).state = 4
      ∨ (s.secStat job.toNat).state = 5) → Answers (.recoveryPlan job none f) s fun t =>
    t.secStat job.toNat = { s.secStat job.toNat with state := 2, step := none } ∧ t.mem = s.mem ∧ t.bibs = s.bibs) ∧
  (∀ s job jb, s.up = true → s.sl.jobs.lookup (BitVec.toNat job) = some jb → (s.secStat job.toNat).state = 4 → (s.secStat job.toNat).row = 5 →
    Answers (.forerunnerEntryStep job 6) s fun t => t.secStat job.toNat = { s.secStat job.toNat with row := 6 } ∧ t = { s with sec.stats := t.sec.stats }) ∧
  (∀ s job jb f r, s.up = true → s.sl.jobs.lookup (BitVec.toNat job) = some jb → (s.secStat job.toNat).state = 4 → (s.secStat job.toNat).row = 6 →
    (s.secStat job.toNat).fore = some f → (s.secStat job.toNat).swap = none → (s.secStat job.toNat).failed = [r] → r.toNat < jb.args.members.length →
    Answers (.forerunnerEntryStep job 7) s fun t =>
      (∃ j, t.sl.jobs.lookup job.toNat = some j ∧ (j.args.members[r.toNat]?).map (·.module) = some f ∧ f ∉ j.args.fores)
        ∧ (t.secStat job.toNat).row = 7 ∧ t = { s with sl.jobs := t.sl.jobs, sec.stats := t.sec.stats, log := t.log }) ∧
  (∀ s job jb n c k b, s.up = true → s.sl.jobs.lookup (BitVec.toNat job) = some jb → (s.secStat job.toNat).state = 4 → (s.secStat job.toNat).row = 7 →
    (s.secStat job.toNat).step = some n → s.trainSlot jb.args.bib = some (c, k) → s.source jb n = some b → Answers (.forerunnerEntryStep job 8) s fun t =>
      (t.updSlot b.slot.toNat).step = b.step ∧ (t.updSlot b.slot.toNat).clip = b.clip ∧ (t.updSlot b.slot.toNat).clipEn = b.clipEn
        ∧ (t.updSlot b.slot.toNat).curState = (s.updSlot b.slot.toNat).curState ∧ t.bibs.seeds.lookup k.bib.toNat = some b.seeds
        ∧ (t.secStat job.toNat).row = 8) ∧
  (∀ s job jb, s.up = true → s.sl.jobs.lookup (BitVec.toNat job) = some jb → (s.secStat job.toNat).state = 4 → (s.secStat job.toNat).row = 8 →
    Answers (.forerunnerEntryStep job 9) s fun t => (t.secStat job.toNat).row = 9 ∧ t = { s with sec.stats := t.sec.stats, mem.bytes := t.mem.bytes }) ∧
  (∀ s job row jb, s.up = true → s.sl.jobs.lookup (BitVec.toNat job) = some jb → (s.secStat job.toNat).state = 4 →
    Fin.val row ≠ (s.secStat job.toNat).row + 1 → exec (.forerunnerEntryStep job row) s = .next s) ∧
  (∀ s job jb, s.up = true → s.sl.jobs.lookup (BitVec.toNat job) = some jb → (s.bib jb.args.bib).state ≠ .suspended →
    exec (.recoveryResume job) s = .next s) ∧
  (∀ s job jb, s.up = true → s.sl.jobs.lookup (BitVec.toNat job) = some jb → (s.bib jb.args.bib).state = .suspended → (s.secStat job.toNat).state = 1 →
    jb.args.policy = true → s.waitsForOperator jb.args.bib = false → (s.secStat job.toNat).resumes = 0 → s.audits = [] → s.rink.failed = false →
    Answers (.recoveryResume job) s fun t =>
      (t.bib jb.args.bib).state = .admitted ∧ (t.bib jb.args.bib).why = .ok ∧ (t.secStat job.toNat).resumes = 1
        ∧ (t.secStat job.toNat).state = 1 ∧ (t.secStat job.toNat).after = true) ∧
  (∀ s job jb, s.up = true → s.sl.jobs.lookup (BitVec.toNat job) = some jb → (s.bib jb.args.bib).state = .suspended → (s.secStat job.toNat).state = 7 →
    (s.secStat job.toNat).failed = [] → s.waitsForOperator jb.args.bib = true → s.audits = [] → s.rink.failed = false →
    Answers (.recoveryResume job) s fun t =>
      t.bib jb.args.bib = s.bib jb.args.bib ∧ (t.secStat job.toNat).state = 1 ∧ (t.secStat job.toNat).resumes = 0) ∧
  (∀ s job jb c k, s.up = true → s.sl.jobs.lookup (BitVec.toNat job) = some jb → (s.bib jb.args.bib).state = .suspended →
    (s.secStat job.toNat).state = 1 → jb.args.policy = true → s.waitsForOperator jb.args.bib = false → s.trainSlot jb.args.bib = some (c, k) →
    2 ≤ (s.secStat job.toNat).resumes → (s.secStat job.toNat).lastStep = (s.updSlot c).step → (s.secStat job.toNat).lastWhy = (s.bib jb.args.bib).why →
    Answers (.recoveryResume job) s fun t => (t.secStat job.toNat).state = 2 ∧ t.bibs = s.bibs ∧ t.crs = s.crs ∧ t.mem = s.mem) ∧
  (∀ s job planes m jb, s.up = true → s.sl.jobs.lookup (BitVec.toNat job) = some jb → (s.secStat job.toNat).state = 5 →
    Answers (.spreadPath job none planes m) s fun t => (t.secStat job.toNat).state = 2 ∧ t.mem = s.mem ∧ t.sl = s.sl) ∧
  (∀ s job d planes m jb, s.up = true → s.sl.jobs.lookup (BitVec.toNat job) = some jb → (s.secStat job.toNat).state = 5 →
    (s.secStat job.toNat).regrow = [] → (∀ r ∈ (s.secStat job.toNat).failed, planes.getLsbD (jb.coord r.toNat (Fin.val d)) = true) → planes ≠ 0 →
    (jb.contract d.val planes).args.members.length = BitVec.toNat m → m ≠ 0 → planes.getLsbD (jb.coord jb.rank.toNat d.val) = false →
    s.trainSlot jb.args.bib = none → Answers (.spreadPath job (some d) planes m) s fun t =>
      t.sl.jobs.lookup job.toNat = some (jb.contract d.val planes) ∧ (t.secStat job.toNat).state = 7 ∧ (t.secStat job.toNat).failed = []
        ∧ (∃ e ∈ t.log.flight, e.bib = jb.args.bib ∧ e.arg = .spread jb.args.jobId (BitVec.ofNat 2 d.val) planes (m.setWidth 11 - 1))
        ∧ t = { s with sl.jobs := t.sl.jobs, sec.stats := t.sec.stats, log := t.log }) ∧
  (∀ s job d planes m jb, s.up = true → s.sl.jobs.lookup (BitVec.toNat job) = some jb → (s.secStat job.toNat).state = 5 →
    (s.secStat job.toNat).regrow = [] → (∀ r ∈ (s.secStat job.toNat).failed, planes.getLsbD (jb.coord r.toNat (Fin.val d)) = true) → planes ≠ 0 →
    (jb.contract d.val planes).args.members.length = BitVec.toNat m → m ≠ 0 → planes.getLsbD (jb.coord jb.rank.toNat d.val) = true →
    (∀ c k, s.trainSlot jb.args.bib = some (c, k) → s.courseTakes job.toNat (jb.contract d.val planes) k = true) →
    Answers (.spreadPath job (some d) planes m) s fun t =>
      t.sl.jobs.lookup job.toNat = none ∧ (t.bib jb.args.bib).state = .clearing ∧ t.bibs.linkKeys.lookup (2 * job.toNat) = none
        ∧ t.bibs.linkKeys.lookup (2 * job.toNat + 1) = none) ∧
  (∀ s job d planes m jb c k, s.up = true → s.sl.jobs.lookup (BitVec.toNat job) = some jb → (s.secStat job.toNat).state = 5 →
    (s.secStat job.toNat).regrow = [] → s.trainSlot jb.args.bib = some (c, k) →
    s.courseTakes job.toNat (jb.contract (Fin.val d) planes) k = false → exec (.spreadPath job (some d) planes m) s = .next s) ∧
  (∀ s job d planes m jb, s.up = true → s.sl.jobs.lookup (BitVec.toNat job) = some jb → (s.secStat job.toNat).state ≠ 5 →
    exec (.spreadPath job d planes m) s = .next s)

/-! ## Photo finish, log and tests (chapter 17) -/

/-- A START begins a snapshot unless one is in progress or began less than 100 µs ago; each unit latches once, when the marker passes it, and what
it latches is its counters then; the marker's return evaluates the balances; the copy sets DONE and SNAP and counts. An event is
stamped at the sideband edge: held before B7, then written at the next INDEX; the log is flushed (R333, R365 to R370).
A row out of its condition changes nothing: the model's choice (log entry 64). -/
def Obligations.PhotoFinishAndLogRows : Prop :=
  (∀ s, s.up = true → s.zilUp = true → s.pf.busy = false → s.pfTooSoon = false → Answers .pfPeriodicTimer s fun t =>
    t.pf.busy = true ∧ t.pf.taking = s.pf.snap + 1 ∧ t.pf.tepoch = s.clk.epoch ∧ t.pf.tsLow = s.clk.ts.setWidth 32 ∧ t.pf.latched = []
      ∧ t.pf.askers = s.pf.askers ∧ t = { s with pf := t.pf }) ∧
  (∀ s, s.up = true → s.pf.busy = true → exec .pfPeriodicTimer s = .next s) ∧
  (∀ s u, s.up = true → s.pf.busy = true → s.pf.back = false → Fin.val u ∉ s.pf.latched → Answers (.pfMarkerArrive u) s fun t =>
    t.pf.latched = s.pf.latched ++ [u.val]
      ∧ (s.ctr.rising = true → ∀ id inst, inst < 65536 → ctrUnit id inst = u.val → s.ctr.has (ctrKey id inst) = true →
          t.pf.cut.read {} (ctrKey id inst) = s.counter id inst)
      ∧ (∀ id inst, inst < 65536 → ctrUnit id inst ≠ u.val → t.pf.cut.lookup (ctrKey id inst) = s.pf.cut.lookup (ctrKey id inst))
      ∧ t = { s with pf.latched := t.pf.latched, pf.cut := t.pf.cut }) ∧
  (∀ s u, s.up = true → Fin.val u ∈ s.pf.latched → exec (.pfMarkerArrive u) s = .next s) ∧
  (∀ s, s.up = true → s.pf.busy = true → s.pf.back = false → (∀ u, u < 14 → u ∈ s.pf.latched) → s.audits = [] → Answers .pfMarkerReturn s fun t =>
    t = { s with pf.back := true }) ∧
  (∀ s u, s.up = true → u < 14 → u ∉ s.pf.latched → exec .pfMarkerReturn s = .next s) ∧
  (∀ s, s.up = true → s.pf.busy = true → s.pf.back = true → Answers .pfCopyDone s fun t =>
    t.pf.busy = false ∧ t.pf.done = true ∧ t.pf.snap = s.pf.taking ∧ t.pf.image = s.pf.cut ∧ t.pf.buf = !s.pf.buf ∧ t.pf.askers = []
      ∧ t.counter 0x0103 0 = (s.counter 0x0103 0).plus 1 ∧ t = { s with pf := t.pf, ctr := t.ctr, log := t.log, cmd := t.cmd }) ∧
  (∀ s, s.up = true → s.log.flight = [] → exec .eventLogEntry s = .next s) ∧
  (∀ s e rest, s.up = true → s.log.flight = e :: rest → s.log.up = false → (s.bib e.bib).state ≠ .running → Answers .eventLogEntry s fun t =>
    t.log.flight = rest ∧ t.log.held = s.log.held ++ [{ ts := s.clk.ts, epoch := s.clk.epoch, index := 0, ev := e }]
      ∧ t = { s with log := t.log }) ∧
  (∀ s e rest, s.up = true → s.log.flight = e :: rest → s.log.up = true → (s.bib e.bib).state ≠ .running → Answers .eventLogEntry s fun t =>
    (∃ l, t.log.flight = rest ++ l) ∧ t.log.next = s.log.next + 1
      ∧ t.log.ring.lookup (s.log.next.toNat % 1048576) = some { ts := s.clk.ts, epoch := s.clk.epoch, index := s.log.next, ev := e }
      ∧ t.counter 0x0104 0 = (s.counter 0x0104 0).plus 1 ∧ t = { s with log := t.log, ctr := t.ctr }) ∧
  (∀ s, s.up = true → s.log.up = true → s.lodge.started = true → s.lodgeReadOnly = false → s.entriesFrom s.lodge.flushed.toNat ≠ [] →
    Answers .logFlushTimer s fun t => t.lodge.flushed = s.log.next
      ∧ (∃ id o, t.object id = some o ∧ s.object id = none ∧ o.bib = 0 ∧ o.kind = 5
          ∧ o.bytes = (s.entriesFrom s.lodge.flushed.toNat).flatMap LogEntry.image ∧ o.first = some s.nextLun)
      ∧ t.log = s.log) ∧
  (∀ s, s.up = true → s.log.up = false → exec .logFlushTimer s = .next s)

/-- An increment of a counter, with what reaches it in one handshake summed: it counts up to 2^48 − 1, there it sets OVF and records EV_COUNTER_SAT
once for that counter; with OVF set it stays as it is; no other counter changes (R360). -/
def Obligations.CounterIncrements : Prop :=
  (∀ (s : State) id inst n, (s.counter id inst).ovf = false → (s.counter id inst).value.toNat + n < 2 ^ 48 →
    ((s.count id inst n).counter id inst).ovf = false ∧ ((s.count id inst n).counter id inst).value.toNat = (s.counter id inst).value.toNat + n
      ∧ (s.count id inst n).log = s.log) ∧
  (∀ (s : State) id inst n, (s.counter id inst).ovf = false → 2 ^ 48 ≤ (s.counter id inst).value.toNat + n →
    ((s.count id inst n).counter id inst).ovf = true ∧ ((s.count id inst n).counter id inst).value.toNat = 2 ^ 48 - 1
      ∧ ∃ e, (s.count id inst n).log.flight = s.log.flight ++ [e] ∧ e.arg = .counterSat (BitVec.ofNat 16 id) (BitVec.ofNat 16 inst)) ∧
  (∀ (s : State) id inst n, (s.counter id inst).ovf = true → (s.count id inst n).counter id inst = s.counter id inst ∧ (s.count id inst n).log = s.log) ∧
  (∀ (s : State) id inst n id' inst', ctrKey id' inst' ≠ ctrKey id inst → (s.count id inst n).counter id' inst' = s.counter id' inst')

/-- SELFTEST of a unit that Table 17.7 does not have is out of bounds; a withdrawn station is tested at once, another is withdrawn first, and a test
starts once its condition holds; its end is counted and answered, a withdrawn station that fails is repaired and tested once more, and stays withdrawn
after a second failure; one whose WD_DONE has gone is not repaired. CALIBRATE waits for its slot (R67, R371, R373, R374, R377).
A row out of its condition changes nothing: the model's choice (log entry 64). -/
def Obligations.SelftestRows : Prop :=
  (∀ s c unit inst, s.accepts 0x0507 c → unitCount (BitVec.toNat unit) ≤ BitVec.toNat inst → Answers (.selftest c unit inst) s fun t =>
    t.replied 0x0507 c .bounds ∧ t = { s with cmd := t.cmd }) ∧
  (∀ s c inst, s.accepts 0x0507 c → BitVec.toNat inst < 104 → (s.stnMap (inst.toNat / 26)).failed.getLsbD (inst.toNat % 26) = false →
    unitKey 1 inst.toNat ∉ s.test.running → s.testReady 1 inst.toNat = true → Answers (.selftest c 1 inst) s fun t =>
      t.test.running = s.test.running ++ [unitKey 1 inst.toNat] ∧ t.test.stat = { unit := 1, inst := inst, state := 2 }
        ∧ t = { s with test := t.test, cmd := t.cmd }) ∧
  (∀ s c inst, s.accepts 0x0507 c → BitVec.toNat inst < 104 → (s.stnMap (inst.toNat / 26)).failed.getLsbD (inst.toNat % 26) = false →
    unitKey 1 inst.toNat ∉ s.test.running → (s.stn inst.toNat).withdraw = false → (s.stn inst.toNat).wdDone = false →
    Answers (.selftest c 1 inst) s fun t =>
      t.stn inst.toNat = { s.stn inst.toNat with withdraw := true } ∧ unitKey 1 inst.toNat ∈ t.test.waiting ∧ inst.toNat ∈ t.test.byTest
        ∧ t.answered 0x0507 c .deferred false .none ∧ t = { s with rink := t.rink, test := t.test, cmd := t.cmd }) ∧
  (∀ s inst, s.up = true → unitKey 4 (BitVec.toNat inst) ∈ s.test.waiting → (∀ k ∈ s.test.running, k / 4096 ≠ 4) → Answers (.selftestStart 4 inst) s fun t =>
    t.test.running = s.test.running ++ [unitKey 4 inst.toNat] ∧ unitKey 4 inst.toNat ∉ t.test.waiting
      ∧ t.test.stat = { unit := 4, inst := inst, state := 2 } ∧ t = { s with test := t.test }) ∧
  (∀ s unit inst, s.up = true → unitKey (BitVec.toNat unit) (BitVec.toNat inst) ∉ s.test.waiting → exec (.selftestStart unit inst) s = .next s) ∧
  (∀ s unit inst o, s.up = true → unitKey (BitVec.toNat unit) (BitVec.toNat inst) ∉ s.test.running → exec (.selftestDone unit inst o) s = .next s) ∧
  (∀ s inst o, s.up = true → unitKey 4 (BitVec.toNat inst) ∈ s.test.running → o.pass = false → s.audits = [] → Answers (.selftestDone 4 inst o) s fun t =>
    t.test.stat = { unit := 4, inst := inst, state := 5, part := o.part, row := o.row, col := o.col, qtr := o.qtr }
      ∧ unitKey 4 inst.toNat ∉ t.test.running ∧ t.counter 0x0106 0 = (s.counter 0x0106 0).plus 1 ∧ t.counter 0x0107 0 = (s.counter 0x0107 0).plus 1
      ∧ t = { s with test := t.test, ctr := t.ctr, log := t.log, cmd := t.cmd }) ∧
  (∀ s inst o, s.up = true → unitKey 1 (BitVec.toNat inst) ∈ s.test.running → o.pass = true → unitKey 1 inst.toNat ∉ s.test.second →
    inst.toNat ∈ s.test.byTest → (s.stn inst.toNat).wdDone = true → s.audits = [] → Answers (.selftestDone 1 inst o) s fun t =>
      t.stn inst.toNat = { s.stn inst.toNat with bib0 := 0, bib1 := 0, bib2 := 0, bib3 := 0, withdraw := false, wdDone := false }
        ∧ t.test.stat = { unit := 1, inst := inst, state := 3 } ∧ inst.toNat ∉ t.test.byTest ∧ unitKey 1 inst.toNat ∉ t.test.running
        ∧ t = { s with rink := t.rink, test := t.test, ctr := t.ctr, log := t.log, cmd := t.cmd }) ∧
  (∀ s inst o, s.up = true → unitKey 1 (BitVec.toNat inst) ∈ s.test.running → o.pass = false → unitKey 1 inst.toNat ∉ s.test.second → o.part = 2 →
    (s.stn inst.toNat).wdDone = true → (s.rink.cols.read {} inst.toNat).pad o.qtr.toNat = 64 → o.col.toNat < 64 → Answers (.selftestDone 1 inst o) s fun t =>
      t.rink.cols.read {} inst.toNat = (s.rink.cols.read {} inst.toNat).setPad o.qtr.toNat o.col ∧ unitKey 1 inst.toNat ∈ t.test.second
        ∧ t.test.running = s.test.running ∧ t.rink.stn = s.rink.stn ∧ t = { s with rink := t.rink, test := t.test, ctr := t.ctr, log := t.log }) ∧
  (∀ s inst o, s.up = true → unitKey 1 (BitVec.toNat inst) ∈ s.test.running → o.pass = false → unitKey 1 inst.toNat ∉ s.test.second →
    (s.stn inst.toNat).wdDone = false → s.audits = [] → Answers (.selftestDone 1 inst o) s fun t =>
      t.test.stat.state = 5 ∧ t.rink = s.rink ∧ unitKey 1 inst.toNat ∉ t.test.running
        ∧ t = { s with test := t.test, ctr := t.ctr, log := t.log, cmd := t.cmd }) ∧
  (∀ s inst o, s.up = true → unitKey 1 (BitVec.toNat inst) ∈ s.test.running → o.pass = false → unitKey 1 inst.toNat ∈ s.test.second → s.audits = [] →
    Answers (.selftestDone 1 inst o) s fun t =>
      t.test.stat.state = 5 ∧ t.rink = s.rink ∧ unitKey 1 inst.toNat ∉ t.test.running
        ∧ (∃ e ∈ t.log.flight, e.src = 2 ∧ e.arg = .repair 0 (BitVec.ofNat 12 inst.toNat) 0)
        ∧ t = { s with test := t.test, ctr := t.ctr, log := t.log, cmd := t.cmd }) ∧
  (∀ s c unit inst, s.accepts 0x0508 c → unit = 2 ∨ unit = 3 ∨ unit = 4 → BitVec.toNat inst < unitCount (BitVec.toNat unit) →
    Answers (.calibrate c unit inst) s fun t => t.answered 0x0508 c .deferred false .none ∧ t = { s with cmd := t.cmd }) ∧
  (∀ s c unit inst, s.accepts 0x0508 c → unitCount (BitVec.toNat unit) ≤ BitVec.toNat inst → Answers (.calibrate c unit inst) s fun t =>
    t.replied 0x0508 c .bounds ∧ t = { s with cmd := t.cmd })

/-! ## Boot, firmware, JTAG, reset (chapters 16 and 17) -/

/-- A boot goes by the rows of Table 16.12 in order: the boot ROM chooses the slot, an accepted loader locks UDS and counts the boot, memory is
trained and T2 and T1 are zero-filled, the images are measured, Zilunzor opens the log and the heartbeat begins, and with the self-test, the lodge and the
ports the module is ready; two refused loaders enter the recovery stage; a trial that does not end is reset (R201, R313, R316, R353 to R355).
A row out of its condition changes nothing: the model's choice (log entry 64). -/
def Obligations.BootRows : Prop :=
  (∀ s, s.pwr.pwrGood = true → s.pwr.resetN = true → s.boot.rows = [] → (s.boot.inForce.1).try_ = false → Answers .bootRomStart s fun t =>
    t.boot.rows = [.b1, .b2] ∧ t.boot.stat = { stage := 0, slot := (s.boot.inForce.1).active, trial := false } ∧ t.boot.cur = s.boot.inForce.1
      ∧ t.pwr = { s.pwr with reset := false } ∧ t.test.unlocked = s.test.nextScope ∧ t.test.nextScope = none
      ∧ t = { s with pwr := t.pwr, boot := t.boot, test := t.test, freeCtr := t.freeCtr }) ∧
  (∀ s, s.pwr.pwrGood = true → s.pwr.resetN = true → s.boot.rows = [] → (s.boot.inForce.1).try_ = true → 0 < (s.boot.inForce.1).tries.toNat →
    Answers .bootRomStart s fun t => t.boot.stat = { stage := 0, slot := !(s.boot.inForce.1).active, trial := true }
      ∧ t.boot.cur = { s.boot.inForce.1 with tries := (s.boot.inForce.1).tries - 1 }) ∧
  (∀ s, s.boot.rows ≠ [] → exec .bootRomStart s = .next s) ∧
  (∀ s i, s.up = true → s.boot.rows = [.b1, .b2] → s.image s.boot.stat.slot 1 = some i → imageOk s.boot.svn 1 i = true → Answers .bootLoaderVerified s fun t =>
    t.boot.rows = [.b1, .b2, .b3] ∧ t.boot.locked = true ∧ t.boot.bootM = measure i ∧ t.boot.ldrVer = i.version ∧ t.boot.stat.stage = 1
      ∧ t.boot.cur.boots = s.boot.cur.boots + 1 ∧ t.boot.svn = s.boot.svn ∧ t.boot.images = s.boot.images ∧ t = { s with boot := t.boot }) ∧
  (∀ s, s.up = true → s.boot.rows = [.b1, .b2] → s.slotImage false 1 = false → s.slotImage true 1 = false → Answers .bootLoaderVerified s fun t =>
    t.boot.stat.stage = 7 ∧ t.boot.stat.refused = 1 ∧ t.boot.stat.trial = false ∧ t.boot.rows = s.boot.rows ∧ t = { s with boot := t.boot }) ∧
  (∀ s, s.up = true → s.boot.rows = [.b1, .b2, .b3] →
    exec .bootMemoryTrained s = .next { s with boot.rows := [.b1, .b2, .b3, .b4], boot.stat.stage := 2 }) ∧
  (∀ s, s.up = true → s.boot.rows = [.b1, .b2, .b3, .b4] → Answers .bootMemoryZeroed s fun t =>
    t.boot.rows = [.b1, .b2, .b3, .b4, .b5] ∧ t.boot.stat = { s.boot.stat with stage := 3 } ∧ (∀ a, a < byteKey 3 0 ∨ byteKey 4 0 ≤ a → t.byte a = 0)
      ∧ (∀ a, byteKey 3 0 ≤ a → a < byteKey 4 0 → t.byte a = s.byte a)
      ∧ t = { s with boot := t.boot, mem.bytes := t.mem.bytes, log := t.log }) ∧
  (∀ s i, s.up = true → s.boot.rows = [.b1, .b2, .b3, .b4, .b5] → s.image s.boot.stat.slot 2 = some i → imageOk s.boot.svn 2 i = true →
    s.slotImage s.boot.stat.slot 3 = true → Answers .bootImagesVerified s fun t =>
      t.boot.rows = [.b1, .b2, .b3, .b4, .b5, .b6] ∧ t.boot.stat.stage = 4 ∧ t.boot.zilM = measure i ∧ t.boot.zilVer = i.version
        ∧ t = { s with boot := t.boot }) ∧
  (∀ s, s.up = true → s.boot.rows = [.b1, .b2, .b3, .b4, .b5, .b6] → Answers .zilunzorRunning s fun t =>
    t.boot.rows = [.b1, .b2, .b3, .b4, .b5, .b6, .b7] ∧ t.sl.heartbeat = true ∧ t.log.up = true ∧ t.log.held = []
      ∧ t.log.next = BitVec.ofNat 48 s.log.held.length
      ∧ (∀ i e, s.log.held[i]? = some e → t.log.ring.lookup i = some { e with index := BitVec.ofNat 48 i })
      ∧ t = { s with boot := t.boot, sl.heartbeat := t.sl.heartbeat, sl.toggle := t.sl.toggle, log := t.log, ctr := t.ctr }) ∧
  (∀ s, s.up = true → s.reached .b7 = true → s.reached .b8 = false → Answers (.startupSelftestDone [] none) s fun t =>
    t.boot.rows = s.boot.rows ++ [.b8] ∧ t.test.stat = { unit := 0xF, state := 3 } ∧ t.counter 0x0106 0 = (s.counter 0x0106 0).plus 1
      ∧ t = { s with boot := t.boot, test := t.test, ctr := t.ctr, log := t.log }) ∧
  (∀ s, s.up = true → s.reached .b7 = true → s.reached .b9 = false → s.lodge.started = true → Answers .lodgeReady s fun t =>
    t.boot.rows = s.boot.rows ++ [.b9] ∧ t.lodge.map = s.lodge.map ∧ t = { s with boot := t.boot, lodge := t.lodge, log := t.log }) ∧
  (∀ s, s.up = true → s.reached .b7 = true → s.reached .b10 = false → (∀ i, i < 6 → (s.byp i).state = .loop ∧ s.bothTrained i = true) →
    exec .loopbackTrained s = .next { s with boot.rows := s.boot.rows ++ [.b10] }) ∧
  (∀ s i, s.up = true → i < 6 → (s.byp i).state ≠ .loop → exec .loopbackTrained s = .next s) ∧
  (∀ s, s.up = true → s.boot.ready = false → s.reached .b8 = true → s.reached .b9 = true → s.reached .b10 = true → s.audits = [] →
    s.rink.failed = false → Answers .moduleReady s fun t =>
      t.boot.ready = true ∧ t.boot.rows = s.boot.rows ++ [.b11] ∧ t.boot.stat = { s.boot.stat with stage := 5 }
        ∧ t.boot.cur.active = (if s.boot.stat.trial then s.boot.stat.slot else s.boot.cur.active) ∧ t = { s with boot := t.boot }) ∧
  (∀ s, s.up = true → s.boot.ready = false → s.reached .b8 = false → exec .moduleReady s = .next s) ∧
  (∀ s, s.up = true → s.boot.stat.trial = true → s.boot.ready = false → s.boot.rows ≠ [] → s.boot.stat.stage ≠ 7 → Answers .trialBootTimeout s fun t =>
    t.boot.rows = [] ∧ t.pwr.reset = true ∧ t.boot.rec0 = s.boot.rec0 ∧ t.boot.rec1 = s.boot.rec1 ∧ t.boot.images = s.boot.images
      ∧ t.boot.svn = s.boot.svn ∧ t.clk = s.clk ∧ t.bibs = {} ∧ t.crs = {}) ∧
  (∀ s, s.up = true → s.boot.stat.trial = false → exec .trialBootTimeout s = .next s)

/-- FW_STAGE writes the inactive slot; FW_ACTIVATE begins a live update, waits for a recovery's end, and is busy beside another; the update goes by its
rows, its handover sets the new measurement, and its end makes the slot ACTIVE; FW_SLOT arranges a trial; SVN_ADVANCE raises the fused minimum only when both slots carry it (R316, R352, R354, R356 to R358, Table 16.13).
A row out of its condition changes nothing: the model's choice (log entry 64). -/
def Obligations.FirmwareRows : Prop :=
  (∀ s c i, s.accepts 0x0601 c → s.boot.stat.stage ≠ 7 → 1 ≤ i.kind.toNat → i.kind.toNat ≤ 3 → Answers (.fwStage c [i]) s fun t =>
    t.image s.inactive i.kind.toNat = some i ∧ (∀ k, k ≤ 3 → t.image s.boot.cur.active k = s.image s.boot.cur.active k) ∧ t.replied 0x0601 c .ok
      ∧ t = { s with boot := t.boot, cmd := t.cmd }) ∧
  (∀ s c i, s.accepts 0x0601 c → i.kind = 0 ∨ 3 < i.kind.toNat → Answers (.fwStage c [i]) s fun t =>
    t.replied 0x0601 c .version ∧ t = { s with cmd := t.cmd }) ∧
  (∀ s c, s.accepts 0x0602 c → s.updating = false → (∀ e ∈ s.cmd.waiting, e.1 ≠ .update) → s.boot.cur.valid s.inactive = true → s.inRecovery = false →
    Answers (.fwActivate c) s fun t => t.boot = { s.boot with stat := { s.boot.stat with update := 1, stage := 6 } }
      ∧ (∃ e ∈ t.cmd.waiting, e.1 = .update ∧ e.2.tag = c.tag) ∧ t = { s with boot := t.boot, cmd := t.cmd }) ∧
  (∀ s c, s.accepts 0x0602 c → s.updating = false → (∀ e ∈ s.cmd.waiting, e.1 ≠ .update) → s.boot.cur.valid s.inactive = true → s.inRecovery = true →
    Answers (.fwActivate c) s fun t => t.answered 0x0602 c .deferred false .none ∧ t = { s with cmd := t.cmd }) ∧
  (∀ s c, s.accepts 0x0602 c → s.updating = true → Answers (.fwActivate c) s fun t => t.replied 0x0602 c .busy ∧ t = { s with cmd := t.cmd }) ∧
  (∀ s, s.up = true → s.boot.stat.update = 1 → s.slotImage s.inactive 2 = true → s.slotImage s.inactive 3 = true →
    exec .liveUpdateImageRead s = .next { s with boot.stat.update := 2, cmd.paused := true }) ∧
  (∀ s, s.up = true → s.boot.stat.update = 1 → s.slotImage s.inactive 2 = false → Answers .liveUpdateImageRead s fun t =>
    t.boot.stat.update = 5 ∧ t.boot.stat.refused = 2 ∧ t.boot.zilM = s.boot.zilM ∧ t.boot.cur.valid s.inactive = false ∧ t.cmd.paused = false
      ∧ (∀ e ∈ t.cmd.waiting, e.1 ≠ .update) ∧ t = { s with boot := t.boot, cmd := t.cmd }) ∧
  (∀ s, s.up = true → s.boot.stat.update ≠ 1 → exec .liveUpdateImageRead s = .next s) ∧
  (∀ s, s.up = true → s.boot.stat.update = 2 → exec .liveUpdatePauseDone s = .next { s with boot.stat.update := 3 }) ∧
  (∀ s i, s.up = true → s.boot.stat.update = 3 → s.image s.inactive 2 = some i → Answers (.liveUpdateHandover false) s fun t =>
    t.boot.stat.update = 4 ∧ t.boot.zilM = measure i ∧ t.boot.oldZilM = s.boot.zilM ∧ t.boot.phyNew = true ∧ t.cmd.paused = false
      ∧ t.boot.cur = s.boot.cur ∧ t = { s with boot := t.boot, cmd := t.cmd }) ∧
  (∀ s, s.up = true → s.boot.stat.update = 4 → Answers .liveUpdateHealthy s fun t =>
    t.boot.stat.update = 0 ∧ t.boot.stat.stage = 5 ∧ t.boot.cur.active = s.inactive ∧ t.boot.zilM = s.boot.zilM
      ∧ (∀ e ∈ t.cmd.waiting, e.1 ≠ .update) ∧ t = { s with boot := t.boot, cmd := t.cmd }) ∧
  (∀ s c b, s.accepts 0x0603 c → b = s.boot.cur.active → Answers (.fwSlot c b) s fun t =>
    t.boot.cur.try_ = false ∧ t.boot.cur.tries = 0 ∧ t.boot.cur.active = s.boot.cur.active ∧ t.replied 0x0603 c .ok
      ∧ t = { s with boot := t.boot, cmd := t.cmd }) ∧
  (∀ s c b, s.accepts 0x0603 c → b ≠ s.boot.cur.active → Answers (.fwSlot c b) s fun t =>
    t.boot.cur.try_ = true ∧ 1 ≤ t.boot.cur.tries.toNat ∧ t.boot.cur.active = s.boot.cur.active ∧ t.replied 0x0603 c .ok
      ∧ t = { s with boot := t.boot, cmd := t.cmd, freeCtr := t.freeCtr }) ∧
  (∀ s c n, s.accepts 0x0604 c → BitVec.toNat n ≤ 64 → s.bothAtLeast n = true → Answers (.svnAdvance c n) s fun t =>
    t.boot.svn.toNat = max s.boot.svn.toNat n.toNat ∧ t.replied 0x0604 c .ok ∧ t = { s with boot.svn := t.boot.svn, cmd := t.cmd }) ∧
  (∀ s c n, s.accepts 0x0604 c → BitVec.toNat n ≤ 64 → s.bothAtLeast n = false → Answers (.svnAdvance c n) s fun t =>
    t.answered 0x0604 c .deferred false .none ∧ t = { s with cmd := t.cmd }) ∧
  (∀ s c n, s.accepts 0x0604 c → 64 < BitVec.toNat n → Answers (.svnAdvance c n) s fun t =>
    t.replied 0x0604 c .bounds ∧ t = { s with cmd := t.cmd })

/-- A handover record that the new image refuses, or a new image not healthy in time, ends the update with the old image: ZIL_M has its former value,
the inactive slot's VALID is clear, FW_ACTIVATE replies ST_FAULT and UPDATE reads 5 (R357).
A row out of its condition changes nothing: the model's choice (log entry 64). -/
def Obligations.LiveUpdateReversal : Prop :=
  (∀ s c, s.up = true → s.boot.stat.update = 3 → s.cmd.waiting = [(.update, c)] → Answers (.liveUpdateHandover true) s fun t =>
    t.boot.stat.update = 5 ∧ t.boot.zilM = s.boot.zilM ∧ t.boot.zilVer = s.boot.zilVer ∧ t.boot.cur.valid s.inactive = false
      ∧ t.boot.cur.active = s.boot.cur.active ∧ t.boot.images = s.boot.images ∧ t.answered c.opcode.toNat c .fault true .none
      ∧ t = { s with boot := t.boot, cmd := t.cmd }) ∧
  (∀ s c, s.up = true → s.boot.stat.update = 3 → s.cmd.waiting = [(.update, c)] → Answers .liveUpdateRevert s fun t =>
    t.boot.stat.update = 5 ∧ t.boot.zilM = s.boot.zilM ∧ t.boot.zilVer = s.boot.zilVer ∧ t.boot.cur.valid s.inactive = false
      ∧ t.boot.cur.active = s.boot.cur.active ∧ t.boot.images = s.boot.images ∧ t.answered c.opcode.toNat c .fault true .none
      ∧ t = { s with boot := t.boot, cmd := t.cmd }) ∧
  (∀ s c, s.up = true → s.boot.stat.update = 4 → s.cmd.waiting = [(.update, c)] → Answers .liveUpdateRevert s fun t =>
    t.boot.stat.update = 5 ∧ t.boot.zilM = s.boot.oldZilM ∧ t.boot.zilVer = s.boot.oldZilVer ∧ t.boot.cur.valid s.inactive = false
      ∧ t.boot.cur.active = s.boot.cur.active ∧ t.boot.images = s.boot.images ∧ t.answered c.opcode.toNat c .fault true .none
      ∧ t = { s with boot := t.boot, cmd := t.cmd }) ∧
  (∀ s, s.up = true → s.boot.stat.update ≠ 3 → s.boot.stat.update ≠ 4 → exec .liveUpdateRevert s = .next s)

/-- The JTAG port's instructions fill its data register while VAUX is up, EXTEST acts only in module reset, and a token whose every check holds
waits for the next boot. RESET answers and resets the module, and is busy while a bib runs without FORCE or an update is in progress (R359,
R378 to R380).
A row out of its condition changes nothing: the model's choice (log entry 64). -/
def Obligations.JtagAndResetRows : Prop :=
  (∀ s, s.vauxUp = true → exec .jtagIdcode s = .next { s with test.ir := .idcode, test.dr := 0x10512A6B }) ∧
  (∀ s, s.vauxUp = true → exec .jtagBypass s = .next { s with test.ir := .bypass, test.dr := 0 }) ∧
  (∀ s pins, s.vauxUp = true → exec (.jtagSamplePreload pins) s = .next { s with test.ir := .sample, test.dr := pins.setWidth 128 }) ∧
  (∀ s pins, s.vauxUp = true → s.pwr.reset = true →
    exec (.jtagExtest pins) s = .next { s with test.ir := .extest, test.dr := pins.setWidth 128, test.pins := pins }) ∧
  (∀ s pins, s.vauxUp = true → s.pwr.reset = false → exec (.jtagExtest pins) s = exec .jtagBypass s) ∧
  (∀ s, s.vauxUp = true → exec .jtagChallenge s = .next { s with test.ir := .challenge, test.dr := s.test.challenge }) ∧
  (∀ s scope, s.vauxUp = true → BitVec.toNat scope < 4 → exec (.jtagToken true 1 Config.serial s.test.challenge scope true true) s
    = .next { s with test.ir := .token, test.dr := 0, test.nextScope := some scope }) ∧
  (∀ s magicOk tver serial challenge scope rsvZero sigOk, s.vauxUp = true → (magicOk = false ∨ tver ≠ 1 ∨ serial ≠ Config.serial
      ∨ challenge ≠ s.test.challenge ∨ 4 ≤ BitVec.toNat scope ∨ rsvZero = false ∨ sigOk = false) →
    exec (.jtagToken magicOk tver serial challenge scope rsvZero sigOk) s = .next { s with test.ir := .token, test.dr := 0 }) ∧
  (∀ s, s.vauxUp = false → exec .jtagIdcode s = .next s ∧ exec .jtagBypass s = .next s ∧ exec .jtagChallenge s = .next s) ∧
  (∀ s c force, s.accepts 0x0509 c → s.updating = true → Answers (.reset c force) s fun t => t.replied 0x0509 c .busy ∧ t = { s with cmd := t.cmd }) ∧
  (∀ s c, s.accepts 0x0509 c → s.updating = false → s.anyRunning = true → c.role ≠ 2 → Answers (.reset c false) s fun t =>
    t.replied 0x0509 c .busy ∧ t = { s with cmd := t.cmd }) ∧
  (∀ s c force, s.accepts 0x0509 c → s.updating = false → (s.anyRunning = false ∨ force = true ∨ c.role = 2) → Answers (.reset c force) s fun t =>
    t.replied 0x0509 c .ok ∧ t.pwr.reset = true ∧ t.boot.rows = [] ∧ t.bibs = {} ∧ t.crs = {} ∧ t.ctr = [] ∧ t.clk = s.clk
      ∧ t.cmd.opkey = s.cmd.opkey ∧ t.boot.images = s.boot.images ∧ t.boot.svn = s.boot.svn ∧ t.pending = s.pending)

/-- PUT stores its bytes at a virtual address, by the tile that holds it or its page, and GET answers with the bytes that stand there; what stands against the transfer is the
status and nothing moves; an object takes bytes until its commit begins; a host transfer needs a host key; a sealed data block that is refused
is ST_AUTH to the command that named it, or suspends its bib (R194, R302, R306, R307, Table 9.3). -/
def Obligations.TransferRows : Prop :=
  (∀ s c va data st, s.accepts 0x0401 c → s.noHostKey c = false → s.transferFault c.bib (BitVec.toNat va) data.length true = some st →
    Answers (.put c (.va va) data) s fun t => t.replied 0x0401 c st ∧ t = { s with cmd := t.cmd }) ∧
  (∀ s c va b k, s.accepts 0x0401 c → s.noHostKey c = false → s.transferFault c.bib (BitVec.toNat va) 1 true = none →
    s.byteAt c.bib va.toNat = some k → Answers (.put c (.va va) [b]) s fun t =>
      t.byte k = b ∧ (∀ a, a ≠ k → t.byte a = s.byte a) ∧ t.replied 0x0401 c .ok ∧ t = { s with mem := t.mem, lodge := t.lodge, cmd := t.cmd }) ∧
  (∀ s c dst data, s.accepts 0x0401 c → s.noHostKey c = true → Answers (.put c dst data) s fun t => t.replied 0x0401 c .auth ∧ t = { s with cmd := t.cmd }) ∧
  (∀ s c id data o, s.accepts 0x0401 c → s.noHostKey c = false → s.object id = some o → o.bib = c.bib → o.first = none →
    Answers (.put c (.object id) data) s fun t => t.object id = some { o with bytes := o.bytes ++ data } ∧ t.replied 0x0401 c .ok
      ∧ t = { s with lodge.objs := t.lodge.objs, cmd := t.cmd }) ∧
  (∀ s c va len, s.accepts 0x0402 c → c.path ≠ .host → s.transferFault c.bib (BitVec.toNat va) len false = none →
    Answers (.get c (.va va) len) s fun t => t.answered 0x0402 c .ok true (.bytes (s.getBytes c.bib va.toNat len)) ∧ t = { s with cmd := t.cmd }) ∧
  (∀ s c va len st, s.accepts 0x0402 c → s.noHostKey c = false → s.transferFault c.bib (BitVec.toNat va) len false = some st →
    Answers (.get c (.va va) len) s fun t => t.replied 0x0402 c st ∧ t = { s with cmd := t.cmd }) ∧
  (∀ s c id len o, s.accepts 0x0402 c → c.path ≠ .host → s.object id = some o → o.bib = c.bib → o.lost = false → len ≤ o.bytes.length →
    Answers (.get c (.object id) len) s fun t => t.answered 0x0402 c .ok true (.bytes (o.bytes.take len)) ∧ t = { s with cmd := t.cmd }) ∧
  (∀ s c id len o, s.accepts 0x0402 c → s.noHostKey c = false → s.object id = some o → o.bib = c.bib → o.lost = true →
    Answers (.get c (.object id) len) s fun t => t.replied 0x0402 c .dataLost ∧ t = { s with cmd := t.cmd }) ∧
  (∀ s b sl cmd, s.up = true → s.sealCheck b sl = .accept → Answers (.hostBlockRx b sl cmd) s fun t =>
    t.replay b = (s.replay b).take sl.seq.toNat ∧ t.counter 0x0703 b.toNat = (s.counter 0x0703 b.toNat).plus 1
      ∧ t = { s with bibs := t.bibs, ctr := t.ctr, log := t.log }) ∧
  (∀ s b sl, s.up = true → s.sealCheck b sl = .authFail → (s.bib b).state = .running → Answers (.hostBlockRx b sl none) s fun t =>
    (t.bib b).state = .suspended ∧ (t.bib b).why = .auth ∧ t.counter 0x0701 b.toNat = (s.counter 0x0701 b.toNat).plus 1 ∧ t.mem = s.mem)

/-! ## The whole block -/

/-- A step takes the command at the front of the queue and runs exec on it with the queue's rest; on an empty queue the block idles.
A row out of its condition changes nothing: the model's choice (log entry 64). -/
def Obligations.StepRunsTheFrontOfTheQueue : Prop :=
  (∀ s i rest, s.pending = i :: rest → step s = exec i { s with pending := rest }) ∧ (∀ s, s.pending = [] → step s = .next s)

/-- After reset: no command waits, module reset is asserted, no bib is admitted, no course is resident, no counter has counted, the switches are in
BYPASS, the free-standing registers hold their Reset column, and memory is in its canonical form. The boot flash is empty and unlisted bytes read
0: the model's choices (log entries 1 and 3). -/
def Obligations.ResetState : Prop :=
  State.reset.pending = [] ∧ State.reset.pwr.reset = true ∧ State.reset.pwr.resetN = false ∧ State.reset.pwr.pwrGood = true
    ∧ (∀ b, (State.reset.bib b).state = .free) ∧ (∀ c, State.reset.course c = none) ∧ (∀ id inst, State.reset.counter id inst = {})
    ∧ (∀ i, (State.reset.byp i).state = .bypass) ∧ (∀ n, (State.reset.port n).trained = false) ∧ State.reset.boot.stat = {}
    ∧ State.reset.boot.rows = [] ∧ State.reset.log.next = 0 ∧ State.reset.sl.sysmap = none ∧ State.reset.lodge.stat = {}
    ∧ (∀ a, State.reset.byte a = 0) ∧ State.reset.memoryWf

/-- Every step keeps memory in its canonical form: numbers strictly rising, no listed byte 0, in every state that has it. -/
def Obligations.EveryStepKeepsMemoryCanonical : Prop := ∀ s t, s.memoryWf → step s = .next t → t.memoryWf

/-- Every command answers a next state, leaves the commands that wait as they are, and never lowers the fused security version minimum (R316). -/
def Obligations.CommandsAnswerAndNeverLowerTheMinimum : Prop :=
  ∀ i s, ∃ t, exec i s = .next t ∧ t.pending = s.pending ∧ s.boot.svn.toNat ≤ t.boot.svn.toNat
end

