-- ==== Sys2Proof/Laws/Table.lean ====
section
/-! SUPPORT. The laws of sparse tables: a read after a write, and that every write keeps the canonical form. -/

namespace Sys2Proof

variable {α β : Type}

@[simp] theorem Table.lookup_nil (k : Nat) : Table.lookup ([] : Table α) k = none := rfl

@[simp] theorem Table.lookup_insert_self (t : Table α) (k : Nat) (a : α) : (t.insert k a).lookup k = some a := by
  induction t with
  | nil => simp [Table.insert, Table.lookup]
  | cons e t ih =>
    obtain ⟨j, b⟩ := e
    simp only [Table.insert]
    split_ifs <;> simp_all [Table.lookup, eq_comm]

theorem Table.lookup_insert_ne (t : Table α) {k n : Nat} (h : k ≠ n) (a : α) : (t.insert k a).lookup n = t.lookup n := by
  induction t with
  | nil => simp [Table.insert, Table.lookup, h]
  | cons e t ih =>
    obtain ⟨j, b⟩ := e
    simp only [Table.insert]
    split_ifs with h1 h2
    · simp [Table.lookup, h]
    · subst h2; simp [Table.lookup, h]
    · simp [Table.lookup, ih]

@[simp] theorem Table.lookup_remove_self (t : Table α) (k : Nat) : (t.remove k).lookup k = none := by
  induction t with
  | nil => rfl
  | cons e t ih =>
    obtain ⟨j, b⟩ := e
    simp only [Table.remove]
    split_ifs with h <;> simp [Table.lookup, *]

theorem Table.lookup_remove_ne (t : Table α) {k n : Nat} (h : k ≠ n) : (t.remove k).lookup n = t.lookup n := by
  induction t with
  | nil => rfl
  | cons e t ih =>
    obtain ⟨j, b⟩ := e
    simp only [Table.remove]
    split_ifs with hj
    · subst hj; simp [Table.lookup, ih, h]
    · simp [Table.lookup, ih]

@[simp] theorem Table.read_nil (d : α) (k : Nat) : Table.read d ([] : Table α) k = d := rfl

@[simp] theorem Table.read_insert_self (d : α) (t : Table α) (k : Nat) (a : α) : Table.read d (t.insert k a) k = a := by
  simp [Table.read]

theorem Table.read_insert_ne (d : α) (t : Table α) {k n : Nat} (h : k ≠ n) (a : α) :
    Table.read d (t.insert k a) n = Table.read d t n := by
  simp [Table.read, Table.lookup_insert_ne t h]

@[simp] theorem Table.read_write_self [DecidableEq α] (d : α) (t : Table α) (k : Nat) (a : α) :
    Table.read d (t.write d k a) k = a := by
  unfold Table.write
  split_ifs with h <;> simp [Table.read, h]

theorem Table.read_write_ne [DecidableEq α] (d : α) (t : Table α) {k n : Nat} (h : k ≠ n) (a : α) :
    Table.read d (t.write d k a) n = Table.read d t n := by
  unfold Table.write
  split_ifs <;> simp [Table.read, Table.lookup_insert_ne t h, Table.lookup_remove_ne t h]

/-- What a number holds after a write. -/
theorem Table.read_write [DecidableEq α] (d : α) (t : Table α) (k n : Nat) (a : α) :
    Table.read d (t.write d k a) n = if k = n then a else Table.read d t n := by
  split_ifs with h
  · subst h; simp
  · exact Table.read_write_ne d t h a

/-- A table whose kept numbers are decided by the number alone reads as before at those it keeps, and as unlisted elsewhere. -/
theorem Table.lookup_keep (p : Nat → Bool) (t : Table α) (n : Nat) :
    (t.keep (fun k _ => p k)).lookup n = if p n then t.lookup n else none := by
  induction t with
  | nil => simp [Table.keep, Table.lookup]
  | cons e t ih =>
    obtain ⟨j, b⟩ := e
    by_cases hj : p j = true <;> by_cases hn : j = n
    · subst hn; simp [Table.keep, Table.lookup, hj]
    · simp [Table.keep, Table.lookup, hj, hn, ih]
    · subst hn; simp [Table.keep, hj, ih]
    · simp [Table.keep, Table.lookup, hj, hn, ih]

/-! ## The canonical form -/

theorem Table.risingFrom_mono {lo lo' : Nat} (h : lo' ≤ lo) : ∀ {t : Table α}, t.risingFrom lo = true → t.risingFrom lo' = true
  | [], _ => rfl
  | (j, b) :: t, ht => by
    simp only [Table.risingFrom, Bool.and_eq_true, decide_eq_true_eq] at ht ⊢
    exact ⟨by omega, ht.2⟩

theorem Table.risingFrom_insert {lo : Nat} (k : Nat) (a : α) (hk : lo < k) :
    ∀ {t : Table α}, t.risingFrom lo = true → (t.insert k a).risingFrom lo = true
  | [], _ => by simp [Table.insert, Table.risingFrom, hk]
  | (j, b) :: t, ht => by
    simp only [Table.risingFrom, Bool.and_eq_true, decide_eq_true_eq] at ht
    simp only [Table.insert]
    split_ifs with h1 h2
    · simp [Table.risingFrom, hk, h1, ht.2]
    · subst h2; simp [Table.risingFrom, hk, ht.2]
    · simp [Table.risingFrom, ht.1, Table.risingFrom_insert k a (show j < k by omega) ht.2]

theorem Table.risingFrom_remove {lo : Nat} (k : Nat) : ∀ {t : Table α}, t.risingFrom lo = true → (t.remove k).risingFrom lo = true
  | [], _ => rfl
  | (j, b) :: t, ht => by
    simp only [Table.risingFrom, Bool.and_eq_true, decide_eq_true_eq] at ht
    simp only [Table.remove]
    split_ifs with h
    · exact Table.risingFrom_mono (le_of_lt ht.1) (Table.risingFrom_remove k ht.2)
    · simp [Table.risingFrom, ht.1, Table.risingFrom_remove k ht.2]

theorem Table.risingFrom_keep {lo : Nat} (p : Nat → α → Bool) :
    ∀ {t : Table α}, t.risingFrom lo = true → (t.keep p).risingFrom lo = true
  | [], _ => rfl
  | (j, b) :: t, ht => by
    simp only [Table.risingFrom, Bool.and_eq_true, decide_eq_true_eq] at ht
    simp only [Table.keep]
    split_ifs
    · simp [Table.risingFrom, ht.1, Table.risingFrom_keep p ht.2]
    · exact Table.risingFrom_mono (le_of_lt ht.1) (Table.risingFrom_keep p ht.2)

/-- Strictly rising from 0 on is strictly rising, once 0 itself is set aside. -/
theorem Table.rising_of_risingFrom {lo : Nat} : ∀ {t : Table α}, t.risingFrom lo = true → t.rising = true
  | [], _ => rfl
  | (_, _) :: _, ht => by
    simp only [Table.risingFrom, Bool.and_eq_true] at ht
    exact ht.2

theorem Table.rising_insert (k : Nat) (a : α) : ∀ {t : Table α}, t.rising = true → (t.insert k a).rising = true
  | [], _ => rfl
  | (j, b) :: t, ht => by
    simp only [Table.rising] at ht
    simp only [Table.insert]
    split_ifs with h1 h2
    · simp [Table.rising, Table.risingFrom, h1, ht]
    · subst h2; simpa [Table.rising] using ht
    · simpa [Table.rising] using Table.risingFrom_insert k a (show j < k by omega) ht

theorem Table.rising_remove (k : Nat) : ∀ {t : Table α}, t.rising = true → (t.remove k).rising = true
  | [], _ => rfl
  | (j, b) :: t, ht => by
    simp only [Table.rising] at ht
    simp only [Table.remove]
    split_ifs with h
    · exact Table.rising_of_risingFrom (Table.risingFrom_remove k ht)
    · simpa [Table.rising] using Table.risingFrom_remove k ht

theorem Table.rising_keep (p : Nat → α → Bool) : ∀ {t : Table α}, t.rising = true → (t.keep p).rising = true
  | [], _ => rfl
  | (j, b) :: t, ht => by
    simp only [Table.rising] at ht
    simp only [Table.keep]
    split_ifs
    · simpa [Table.rising] using Table.risingFrom_keep p ht
    · exact Table.rising_of_risingFrom (Table.risingFrom_keep p ht)

theorem Table.mem_insert {k : Nat} {a : α} {e : Nat × α} : ∀ {t : Table α}, e ∈ t.insert k a → e = (k, a) ∨ e ∈ t
  | [], h => by simpa [Table.insert] using h
  | (j, b) :: t, h => by
    simp only [Table.insert] at h
    split_ifs at h with h1 h2
    · simpa using h
    · rcases List.mem_cons.1 h with h | h
      · exact .inl h
      · exact .inr (List.mem_cons_of_mem _ h)
    · rcases List.mem_cons.1 h with h | h
      · exact .inr (h ▸ List.mem_cons_self ..)
      · rcases Table.mem_insert h with h | h
        · exact .inl h
        · exact .inr (List.mem_cons_of_mem _ h)

theorem Table.mem_remove {k : Nat} {e : Nat × α} : ∀ {t : Table α}, e ∈ t.remove k → e ∈ t
  | [], h => by simp [Table.remove] at h
  | (j, b) :: t, h => by
    simp only [Table.remove] at h
    split_ifs at h
    · exact List.mem_cons_of_mem _ (Table.mem_remove h)
    · rcases List.mem_cons.1 h with h | h
      · exact h ▸ List.mem_cons_self ..
      · exact List.mem_cons_of_mem _ (Table.mem_remove h)

theorem Table.mem_keep {p : Nat → α → Bool} {e : Nat × α} : ∀ {t : Table α}, e ∈ t.keep p → e ∈ t
  | [], h => by simp [Table.keep] at h
  | (j, b) :: t, h => by
    simp only [Table.keep] at h
    split_ifs at h
    · rcases List.mem_cons.1 h with h | h
      · exact h ▸ List.mem_cons_self ..
      · exact List.mem_cons_of_mem _ (Table.mem_keep h)
    · exact List.mem_cons_of_mem _ (Table.mem_keep h)

theorem Table.canonical_iff [DecidableEq α] (d : α) (t : Table α) :
    t.canonical d = true ↔ t.rising = true ∧ ∀ e ∈ t, e.2 ≠ d := by
  simp [Table.canonical]

/-- A write keeps the canonical form: storing what an unlisted number holds removes the entry. -/
theorem Table.canonical_write [DecidableEq α] (d : α) {t : Table α} (k : Nat) (a : α) (h : t.canonical d = true) :
    (t.write d k a).canonical d = true := by
  rw [Table.canonical_iff] at h ⊢
  unfold Table.write
  split_ifs with ha
  · exact ⟨Table.rising_remove k h.1, fun e he => h.2 e (Table.mem_remove he)⟩
  · refine ⟨Table.rising_insert k a h.1, fun e he => ?_⟩
    rcases Table.mem_insert he with rfl | he
    · exact ha
    · exact h.2 e he

/-- Forgetting entries keeps the canonical form. -/
theorem Table.canonical_keep [DecidableEq α] (d : α) {t : Table α} (p : Nat → α → Bool) (h : t.canonical d = true) :
    (t.keep p).canonical d = true := by
  rw [Table.canonical_iff] at h ⊢
  exact ⟨Table.rising_keep p h.1, fun e he => h.2 e (Table.mem_keep he)⟩

end Sys2Proof
end

