-- ==== Sys2Proof/Laws/Kept.lean ====
section
/-! SUPPORT. What the operations that store no byte leave as it is: the listed bytes, the commands that wait and the fused security version
minimum. One lemma per operation, each by its definition. -/

namespace Sys2Proof.Machine
set_option maxRecDepth 4000
set_option linter.unusedTactic false
set_option linter.unreachableTactic false
set_option linter.unnecessarySeqFocus false
/-- The listed bytes, the queue and the minimum. -/
def State.kept (s : State) : Table Byte × List Instr × BitVec 8 := (s.mem.bytes, s.pending, s.boot.svn)
@[simp] theorem kept_mk (a b c d e f g h i j k l m n o p q r u v w x) :
   State.kept ⟨a,b,c,d,e,f,g,h,i,j,k,l,m,n,o,p,q,r,u,v,w,x⟩ = (g.bytes, x, o.svn) := rfl
@[simp] theorem kept_fold (s : State) : (s.mem.bytes, s.pending, s.boot.svn) = s.kept := rfl
theorem each_kept {α : Type} {l : List α} {f : State → α → State} (h : ∀ t a, (f t a).kept = t.kept) (s : State) :
    (s.each l f).kept = s.kept := by
  induction l generalizing s with
  | nil => rfl
  | cons a l ih => exact (ih _).trans (h _ _)
theorem foldl_kept {α : Type} {l : List α} {f : State → α → State} (h : ∀ t a, (f t a).kept = t.kept) (s : State) :
    (l.foldl f s).kept = s.kept := each_kept h s
@[simp] theorem boot_eta (s : State) (b : Boot) (h : b.svn = s.boot.svn) : (s.mem.bytes, s.pending, b.svn) = s.kept := by rw [h]; rfl
@[simp] theorem writeRec_svn (b : Boot) (r : BootRec) : (b.writeRec r).svn = b.svn := by unfold Boot.writeRec; split_ifs <;> rfl

@[simp] theorem State_used_kept (s : State) : (State.used s).kept = s.kept := by
  unfold State.used
  try dsimp only
  repeat' first
    | rfl
    | (simp; done)
    | split
    | ((try simp) <;> rw [each_kept])
    | ((try simp) <;> rw [foldl_kept])
    | intro _
    | (simp only [kept_mk, kept_fold])

@[simp] theorem State_raise_kept (s : State) (e : Event) : (State.raise s e).kept = s.kept := by
  unfold State.raise
  try dsimp only
  repeat' first
    | rfl
    | (simp; done)
    | split
    | ((try simp) <;> rw [each_kept])
    | ((try simp) <;> rw [foldl_kept])
    | intro _
    | (simp only [kept_mk, kept_fold])

@[simp] theorem State_count_kept (s : State) (id inst n : Nat) : (State.count s id inst n).kept = s.kept := by
  unfold State.count
  try dsimp only
  repeat' first
    | rfl
    | (simp; done)
    | split
    | ((try simp) <;> rw [each_kept])
    | ((try simp) <;> rw [foldl_kept])
    | intro _
    | (simp only [kept_mk, kept_fold])

@[simp] theorem State_clearCounters_kept (s : State) (p : Nat → Nat → Bool) : (State.clearCounters s p).kept = s.kept := by
  unfold State.clearCounters
  try dsimp only
  repeat' first
    | rfl
    | (simp; done)
    | split
    | ((try simp) <;> rw [each_kept])
    | ((try simp) <;> rw [foldl_kept])
    | intro _
    | (simp only [kept_mk, kept_fold])

@[simp] theorem State_replyAs_kept (s : State) (c : Hdr) (st : Status) (final : Bool) (ev : Nat) (r : Result) : (State.replyAs s c st final ev r).kept = s.kept := by
  unfold State.replyAs
  try dsimp only
  repeat' first
    | rfl
    | (simp; done)
    | split
    | ((try simp) <;> rw [each_kept])
    | ((try simp) <;> rw [foldl_kept])
    | intro _
    | (simp only [kept_mk, kept_fold])

@[simp] theorem State_reply_kept (s : State) (c : Hdr) (st : Status) : (State.reply s c st).kept = s.kept := by
  unfold State.reply
  try dsimp only
  repeat' first
    | rfl
    | (simp; done)
    | split
    | ((try simp) <;> rw [each_kept])
    | ((try simp) <;> rw [foldl_kept])
    | intro _
    | (simp only [kept_mk, kept_fold])

@[simp] theorem State_replyWith_kept (s : State) (c : Hdr) (r : Result) : (State.replyWith s c r).kept = s.kept := by
  unfold State.replyWith
  try dsimp only
  repeat' first
    | rfl
    | (simp; done)
    | split
    | ((try simp) <;> rw [each_kept])
    | ((try simp) <;> rw [foldl_kept])
    | intro _
    | (simp only [kept_mk, kept_fold])

@[simp] theorem State_defer_kept (s : State) (c : Hdr) (w : Waiting) : (State.defer s c w).kept = s.kept := by
  unfold State.defer
  try dsimp only
  repeat' first
    | rfl
    | (simp; done)
    | split
    | ((try simp) <;> rw [each_kept])
    | ((try simp) <;> rw [foldl_kept])
    | intro _
    | (simp only [kept_mk, kept_fold])

@[simp] theorem State_complete_kept (s : State) (w : Waiting) (st : Status) (r : Result) : (State.complete s w st r).kept = s.kept := by
  unfold State.complete
  try dsimp only
  repeat' first
    | rfl
    | (simp; done)
    | split
    | ((try simp) <;> rw [each_kept])
    | ((try simp) <;> rw [foldl_kept])
    | intro _
    | (simp only [kept_mk, kept_fold])

@[simp] theorem State_setBib_kept (s : State) (b : BitVec 12) (r : Bib) : (State.setBib s b r).kept = s.kept := by
  unfold State.setBib
  try dsimp only
  repeat' first
    | rfl
    | (simp; done)
    | split
    | ((try simp) <;> rw [each_kept])
    | ((try simp) <;> rw [foldl_kept])
    | intro _
    | (simp only [kept_mk, kept_fold])

@[simp] theorem State_setKeys_kept (s : State) (b : BitVec 12) (k : BibKeys) : (State.setKeys s b k).kept = s.kept := by
  unfold State.setKeys
  try dsimp only
  repeat' first
    | rfl
    | (simp; done)
    | split
    | ((try simp) <;> rw [each_kept])
    | ((try simp) <;> rw [foldl_kept])
    | intro _
    | (simp only [kept_mk, kept_fold])

@[simp] theorem State_setCourse_kept (s : State) (c : Nat) (k : Course) : (State.setCourse s c k).kept = s.kept := by
  unfold State.setCourse
  try dsimp only
  repeat' first
    | rfl
    | (simp; done)
    | split
    | ((try simp) <;> rw [each_kept])
    | ((try simp) <;> rw [foldl_kept])
    | intro _
    | (simp only [kept_mk, kept_fold])

theorem onCourse_kept (s : State) (c : Hdr) (f : Course → State) (h : ∀ k, (f k).kept = s.kept) : (s.onCourse c f).kept = s.kept := by
  unfold State.onCourse
  repeat' first | rfl | (simp [h]; done) | split

@[simp] theorem State_setDomain_kept (s : State) (c : Nat) (d : Domain) : (State.setDomain s c d).kept = s.kept := by
  unfold State.setDomain
  try dsimp only
  repeat' first
    | rfl
    | (simp; done)
    | split
    | ((try simp) <;> rw [each_kept])
    | ((try simp) <;> rw [foldl_kept])
    | intro _
    | (simp only [kept_mk, kept_fold])

@[simp] theorem State_setHold_kept (s : State) (c : Nat) (h : Hold) : (State.setHold s c h).kept = s.kept := by
  unfold State.setHold
  try dsimp only
  repeat' first
    | rfl
    | (simp; done)
    | split
    | ((try simp) <;> rw [each_kept])
    | ((try simp) <;> rw [foldl_kept])
    | intro _
    | (simp only [kept_mk, kept_fold])

@[simp] theorem State_setGate_kept (s : State) (n : Nat) (g : Gate) : (State.setGate s n g).kept = s.kept := by
  unfold State.setGate
  try dsimp only
  repeat' first
    | rfl
    | (simp; done)
    | split
    | ((try simp) <;> rw [each_kept])
    | ((try simp) <;> rw [foldl_kept])
    | intro _
    | (simp only [kept_mk, kept_fold])

@[simp] theorem State_raiseHold_kept (s : State) (c n : Nat) : (State.raiseHold s c n).kept = s.kept := by
  unfold State.raiseHold
  try dsimp only
  repeat' first
    | rfl
    | (simp; done)
    | split
    | ((try simp) <;> rw [each_kept])
    | ((try simp) <;> rw [foldl_kept])
    | intro _
    | (simp only [kept_mk, kept_fold])

@[simp] theorem State_clearHold_kept (s : State) (c n : Nat) : (State.clearHold s c n).kept = s.kept := by
  unfold State.clearHold
  try dsimp only
  repeat' first
    | rfl
    | (simp; done)
    | split
    | ((try simp) <;> rw [each_kept])
    | ((try simp) <;> rw [foldl_kept])
    | intro _
    | (simp only [kept_mk, kept_fold])

@[simp] theorem State_freeLocker_kept (s : State) (b : BitVec 12) : (State.freeLocker s b).kept = s.kept := by
  unfold State.freeLocker
  try dsimp only
  repeat' first
    | rfl
    | (simp; done)
    | split
    | ((try simp) <;> rw [each_kept])
    | ((try simp) <;> rw [foldl_kept])
    | intro _
    | (simp only [kept_mk, kept_fold])

@[simp] theorem State_suspend_kept (s : State) (b : BitVec 12) (why : Status) (ev : Nat) : (State.suspend s b why ev).kept = s.kept := by
  unfold State.suspend
  try dsimp only
  repeat' first
    | rfl
    | (simp; done)
    | split
    | ((try simp) <;> rw [each_kept])
    | ((try simp) <;> rw [foldl_kept])
    | intro _
    | (simp only [kept_mk, kept_fold])

@[simp] theorem State_setStn_kept (s : State) (p : Nat) (r : Stn) : (State.setStn s p r).kept = s.kept := by
  unfold State.setStn
  try dsimp only
  repeat' first
    | rfl
    | (simp; done)
    | split
    | ((try simp) <;> rw [each_kept])
    | ((try simp) <;> rw [foldl_kept])
    | intro _
    | (simp only [kept_mk, kept_fold])

@[simp] theorem State_leaveIntake_kept (s : State) (c : Hdr) : (State.leaveIntake s c).kept = s.kept := by
  unfold State.leaveIntake
  try dsimp only
  repeat' first
    | rfl
    | (simp; done)
    | split
    | ((try simp) <;> rw [each_kept])
    | ((try simp) <;> rw [foldl_kept])
    | intro _
    | (simp only [kept_mk, kept_fold])

@[simp] theorem State_setScale_kept (s : State) (slot group : Nat) (r : ScaleRec) : (State.setScale s slot group r).kept = s.kept := by
  unfold State.setScale
  try dsimp only
  repeat' first
    | rfl
    | (simp; done)
    | split
    | ((try simp) <;> rw [each_kept])
    | ((try simp) <;> rw [foldl_kept])
    | intro _
    | (simp only [kept_mk, kept_fold])

@[simp] theorem State_observe_kept (s : State) (slot group : Nat) (v : Val) (marked : Bool) : (State.observe s slot group v marked).kept = s.kept := by
  unfold State.observe
  try dsimp only
  repeat' first
    | rfl
    | (simp; done)
    | split
    | ((try simp) <;> rw [each_kept])
    | ((try simp) <;> rw [foldl_kept])
    | intro _
    | (simp only [kept_mk, kept_fold])

@[simp] theorem State_endScales_kept (s : State) (slot : Nat) (clean : Nat → Bool) : (State.endScales s slot clean).kept = s.kept := by
  unfold State.endScales
  try dsimp only
  repeat' first
    | rfl
    | (simp; done)
    | split
    | ((try simp) <;> rw [each_kept])
    | ((try simp) <;> rw [foldl_kept])
    | intro _
    | (simp only [kept_mk, kept_fold])

@[simp] theorem State_sample_kept (s : State) (x : SweepSample) : (State.sample s x).kept = s.kept := by
  unfold State.sample
  try dsimp only
  repeat' first
    | rfl
    | (simp; done)
    | split
    | ((try simp) <;> rw [each_kept])
    | ((try simp) <;> rw [foldl_kept])
    | intro _
    | (simp only [kept_mk, kept_fold])

@[simp] theorem State_check_kept (s : State) (slot group : Nat) (product : Bool) (step ordinal : Nat) (term : BitVec 32) (a : PatchAcc) : (State.check s slot group product step ordinal term a).kept = s.kept := by
  unfold State.check
  try dsimp only
  repeat' first
    | rfl
    | (simp; done)
    | split
    | ((try simp) <;> rw [each_kept])
    | ((try simp) <;> rw [foldl_kept])
    | intro _
    | (simp only [kept_mk, kept_fold])

@[simp] theorem State_collect_kept (s : State) (slot step : Nat) : (State.collect s slot step).kept = s.kept := by
  unfold State.collect
  try dsimp only
  repeat' first
    | rfl
    | (simp; done)
    | split
    | ((try simp) <;> rw [each_kept])
    | ((try simp) <;> rw [foldl_kept])
    | intro _
    | (simp only [kept_mk, kept_fold])

@[simp] theorem State_setPte_kept (s : State) (b : BitVec 12) (page : Nat) (e : Pte) : (State.setPte s b page e).kept = s.kept := by
  unfold State.setPte
  try dsimp only
  repeat' first
    | rfl
    | (simp; done)
    | split
    | ((try simp) <;> rw [each_kept])
    | ((try simp) <;> rw [foldl_kept])
    | intro _
    | (simp only [kept_mk, kept_fold])

@[simp] theorem State_poison_kept (s : State) (c : Nat) : (State.poison s c).kept = s.kept := by
  unfold State.poison
  try dsimp only
  repeat' first
    | rfl
    | (simp; done)
    | split
    | ((try simp) <;> rw [each_kept])
    | ((try simp) <;> rw [foldl_kept])
    | intro _
    | (simp only [kept_mk, kept_fold])

@[simp] theorem State_violateAs_kept (s : State) (c : Nat) (why st : Status) (seg use : Nat) (detail : BitVec 128) : (State.violateAs s c why st seg use detail).kept = s.kept := by
  unfold State.violateAs
  try dsimp only
  repeat' first
    | rfl
    | (simp; done)
    | split
    | ((try simp) <;> rw [each_kept])
    | ((try simp) <;> rw [foldl_kept])
    | intro _
    | (simp only [kept_mk, kept_fold])

@[simp] theorem State_violate_kept (s : State) (c : Nat) (st : Status) (seg use : Nat) (detail : BitVec 128) : (State.violate s c st seg use detail).kept = s.kept := by
  unfold State.violate
  try dsimp only
  repeat' first
    | rfl
    | (simp; done)
    | split
    | ((try simp) <;> rw [each_kept])
    | ((try simp) <;> rw [foldl_kept])
    | intro _
    | (simp only [kept_mk, kept_fold])

@[simp] theorem State_notifyOf_kept (s : State) (b : BitVec 12) (st : Status) (ev : Nat) (r : Result) : (State.notifyOf s b st ev r).kept = s.kept := by
  unfold State.notifyOf
  try dsimp only
  repeat' first
    | rfl
    | (simp; done)
    | split
    | ((try simp) <;> rw [each_kept])
    | ((try simp) <;> rw [foldl_kept])
    | intro _
    | (simp only [kept_mk, kept_fold])

@[simp] theorem State_notify_kept (s : State) (b : BitVec 12) (st : Status) (ev : Nat) : (State.notify s b st ev).kept = s.kept := by
  unfold State.notify
  try dsimp only
  repeat' first
    | rfl
    | (simp; done)
    | split
    | ((try simp) <;> rw [each_kept])
    | ((try simp) <;> rw [foldl_kept])
    | intro _
    | (simp only [kept_mk, kept_fold])

@[simp] theorem State_notifyLost_kept (s : State) (t : TileId) : (State.notifyLost s t).kept = s.kept := by
  unfold State.notifyLost
  try dsimp only
  repeat' first
    | rfl
    | (simp; done)
    | split
    | ((try simp) <;> rw [each_kept])
    | ((try simp) <;> rw [foldl_kept])
    | intro _
    | (simp only [kept_mk, kept_fold])

@[simp] theorem State_setTile_kept (s : State) (t : TileId) (h : TileHdr) : (State.setTile s t h).kept = s.kept := by
  unfold State.setTile
  try dsimp only
  repeat' first
    | rfl
    | (simp; done)
    | split
    | ((try simp) <;> rw [each_kept])
    | ((try simp) <;> rw [foldl_kept])
    | intro _
    | (simp only [kept_mk, kept_fold])

@[simp] theorem State_loseTile_kept (s : State) (k : Nat) : (State.loseTile s k).kept = s.kept := by
  unfold State.loseTile
  try dsimp only
  repeat' first
    | rfl
    | (simp; done)
    | split
    | ((try simp) <;> rw [each_kept])
    | ((try simp) <;> rw [foldl_kept])
    | intro _
    | (simp only [kept_mk, kept_fold])

@[simp] theorem State_reserveSlot_kept (s : State) (h : HomeAddr) : (State.reserveSlot s h).kept = s.kept := by
  unfold State.reserveSlot
  try dsimp only
  repeat' first
    | rfl
    | (simp; done)
    | split
    | ((try simp) <;> rw [each_kept])
    | ((try simp) <;> rw [foldl_kept])
    | intro _
    | (simp only [kept_mk, kept_fold])

@[simp] theorem State_releaseSlot_kept (s : State) (h : HomeAddr) : (State.releaseSlot s h).kept = s.kept := by
  unfold State.releaseSlot
  try dsimp only
  repeat' first
    | rfl
    | (simp; done)
    | split
    | ((try simp) <;> rw [each_kept])
    | ((try simp) <;> rw [foldl_kept])
    | intro _
    | (simp only [kept_mk, kept_fold])

@[simp] theorem State_countBegun_kept (s : State) (m : Nat) : (State.countBegun s m).kept = s.kept := by
  unfold State.countBegun
  try dsimp only
  repeat' first
    | rfl
    | (simp; done)
    | split
    | ((try simp) <;> rw [each_kept])
    | ((try simp) <;> rw [foldl_kept])
    | intro _
    | (simp only [kept_mk, kept_fold])

@[simp] theorem State_countEnded_kept (s : State) (m : Nat) : (State.countEnded s m).kept = s.kept := by
  unfold State.countEnded
  try dsimp only
  repeat' first
    | rfl
    | (simp; done)
    | split
    | ((try simp) <;> rw [each_kept])
    | ((try simp) <;> rw [foldl_kept])
    | intro _
    | (simp only [kept_mk, kept_fold])

@[simp] theorem State_itemIn_kept (s : State) (b : BitVec 12) (epoch : Bool) (stack : Nat) : (State.itemIn s b epoch stack).kept = s.kept := by
  unfold State.itemIn
  try dsimp only
  repeat' first
    | rfl
    | (simp; done)
    | split
    | ((try simp) <;> rw [each_kept])
    | ((try simp) <;> rw [foldl_kept])
    | intro _
    | (simp only [kept_mk, kept_fold])

@[simp] theorem State_itemOut_kept (s : State) (b : BitVec 12) (epoch : Bool) (stack : Nat) : (State.itemOut s b epoch stack).kept = s.kept := by
  unfold State.itemOut
  try dsimp only
  repeat' first
    | rfl
    | (simp; done)
    | split
    | ((try simp) <;> rw [each_kept])
    | ((try simp) <;> rw [foldl_kept])
    | intro _
    | (simp only [kept_mk, kept_fold])

@[simp] theorem State_tileOut_kept (s : State) (h : TileHdr) : (State.tileOut s h).kept = s.kept := by
  unfold State.tileOut
  try dsimp only
  repeat' first
    | rfl
    | (simp; done)
    | split
    | ((try simp) <;> rw [each_kept])
    | ((try simp) <;> rw [foldl_kept])
    | intro _
    | (simp only [kept_mk, kept_fold])

@[simp] theorem State_tileIn_kept (s : State) (h : TileHdr) : (State.tileIn s h).kept = s.kept := by
  unfold State.tileIn
  try dsimp only
  repeat' first
    | rfl
    | (simp; done)
    | split
    | ((try simp) <;> rw [each_kept])
    | ((try simp) <;> rw [foldl_kept])
    | intro _
    | (simp only [kept_mk, kept_fold])

@[simp] theorem State_writeTile_kept (s : State) (t : TileId) (h : TileHdr) (c seg : Nat) : (State.writeTile s t h c seg).kept = s.kept := by
  unfold State.writeTile
  try dsimp only
  repeat' first
    | rfl
    | (simp; done)
    | split
    | ((try simp) <;> rw [each_kept])
    | ((try simp) <;> rw [foldl_kept])
    | intro _
    | (simp only [kept_mk, kept_fold])

@[simp] theorem State_clearWriter_kept (s : State) (c seg : Nat) : (State.clearWriter s c seg).kept = s.kept := by
  unfold State.clearWriter
  try dsimp only
  repeat' first
    | rfl
    | (simp; done)
    | split
    | ((try simp) <;> rw [each_kept])
    | ((try simp) <;> rw [foldl_kept])
    | intro _
    | (simp only [kept_mk, kept_fold])

@[simp] theorem State_setStrm_kept (s : State) (n : Nat) (x : Strm) : (State.setStrm s n x).kept = s.kept := by
  unfold State.setStrm
  try dsimp only
  repeat' first
    | rfl
    | (simp; done)
    | split
    | ((try simp) <;> rw [each_kept])
    | ((try simp) <;> rw [foldl_kept])
    | intro _
    | (simp only [kept_mk, kept_fold])

@[simp] theorem State_dropStrm_kept (s : State) (n : Nat) : (State.dropStrm s n).kept = s.kept := by
  unfold State.dropStrm
  try dsimp only
  repeat' first
    | rfl
    | (simp; done)
    | split
    | ((try simp) <;> rw [each_kept])
    | ((try simp) <;> rw [foldl_kept])
    | intro _
    | (simp only [kept_mk, kept_fold])

@[simp] theorem State_settleStrm_kept (s : State) (n : Nat) (x : Strm) : (State.settleStrm s n x).kept = s.kept := by
  unfold State.settleStrm
  try dsimp only
  repeat' first
    | rfl
    | (simp; done)
    | split
    | ((try simp) <;> rw [each_kept])
    | ((try simp) <;> rw [foldl_kept])
    | intro _
    | (simp only [kept_mk, kept_fold])

@[simp] theorem State_cancelStrm_kept (s : State) (n : Nat) : (State.cancelStrm s n).kept = s.kept := by
  unfold State.cancelStrm
  try dsimp only
  repeat' first
    | rfl
    | (simp; done)
    | split
    | ((try simp) <;> rw [each_kept])
    | ((try simp) <;> rw [foldl_kept])
    | intro _
    | (simp only [kept_mk, kept_fold])

@[simp] theorem State_lateOver_kept (s : State) (slot : Nat) : (State.lateOver s slot).kept = s.kept := by
  unfold State.lateOver
  try dsimp only
  repeat' first
    | rfl
    | (simp; done)
    | split
    | ((try simp) <;> rw [each_kept])
    | ((try simp) <;> rw [foldl_kept])
    | intro _
    | (simp only [kept_mk, kept_fold])

@[simp] theorem State_cancelStreams_kept (s : State) (slot : Nat) : (State.cancelStreams s slot).kept = s.kept := by
  unfold State.cancelStreams
  try dsimp only
  repeat' first
    | rfl
    | (simp; done)
    | split
    | ((try simp) <;> rw [each_kept])
    | ((try simp) <;> rw [foldl_kept])
    | intro _
    | (simp only [kept_mk, kept_fold])

@[simp] theorem State_readItem_kept (s : State) (n j : Nat) : (State.readItem s n j).kept = s.kept := by
  unfold State.readItem
  try dsimp only
  repeat' first
    | rfl
    | (simp; done)
    | split
    | ((try simp) <;> rw [each_kept])
    | ((try simp) <;> rw [foldl_kept])
    | intro _
    | (simp only [kept_mk, kept_fold])

@[simp] theorem State_startMove_kept (s : State) (id : Nat) (mv : Move) : (State.startMove s id mv).kept = s.kept := by
  unfold State.startMove
  try dsimp only
  repeat' first
    | rfl
    | (simp; done)
    | split
    | ((try simp) <;> rw [each_kept])
    | ((try simp) <;> rw [foldl_kept])
    | intro _
    | (simp only [kept_mk, kept_fold])

@[simp] theorem State_commitItem_kept (s : State) (n : Nat) (mv : Move) (bytes : Nat) : (State.commitItem s n mv bytes).kept = s.kept := by
  unfold State.commitItem
  try dsimp only
  repeat' first
    | rfl
    | (simp; done)
    | split
    | ((try simp) <;> rw [each_kept])
    | ((try simp) <;> rw [foldl_kept])
    | intro _
    | (simp only [kept_mk, kept_fold])

@[simp] theorem State_commitLocker_kept (s : State) (id : Nat) : (State.commitLocker s id).kept = s.kept := by
  unfold State.commitLocker
  try dsimp only
  repeat' first
    | rfl
    | (simp; done)
    | split
    | ((try simp) <;> rw [each_kept])
    | ((try simp) <;> rw [foldl_kept])
    | intro _
    | (simp only [kept_mk, kept_fold])

@[simp] theorem State_discardMove_kept (s : State) (id : Nat) (mv : Move) : (State.discardMove s id mv).kept = s.kept := by
  unfold State.discardMove
  try dsimp only
  repeat' first
    | rfl
    | (simp; done)
    | split
    | ((try simp) <;> rw [each_kept])
    | ((try simp) <;> rw [foldl_kept])
    | intro _
    | (simp only [kept_mk, kept_fold])

@[simp] theorem State_unissue_kept (s : State) (mv : Move) : (State.unissue s mv).kept = s.kept := by
  unfold State.unissue
  try dsimp only
  repeat' first
    | rfl
    | (simp; done)
    | split
    | ((try simp) <;> rw [each_kept])
    | ((try simp) <;> rw [foldl_kept])
    | intro _
    | (simp only [kept_mk, kept_fold])

@[simp] theorem State_writeOr_kept (s : State) (t : TileId) (h : TileHdr) (c seg : Nat) : (State.writeOr s t h c seg).kept = s.kept := by
  unfold State.writeOr
  try dsimp only
  repeat' first
    | rfl
    | (simp; done)
    | split
    | ((try simp) <;> rw [each_kept])
    | ((try simp) <;> rw [foldl_kept])
    | intro _
    | (simp only [kept_mk, kept_fold])

@[simp] theorem State_haltStrm_kept (s : State) (n item va : Nat) : (State.haltStrm s n item va).kept = s.kept := by
  unfold State.haltStrm
  try dsimp only
  repeat' first
    | rfl
    | (simp; done)
    | split
    | ((try simp) <;> rw [each_kept])
    | ((try simp) <;> rw [foldl_kept])
    | intro _
    | (simp only [kept_mk, kept_fold])

@[simp] theorem State_pageItem_kept (s : State) (b : BitVec 12) (e : Pte) (up : Bool) : (State.pageItem s b e up).kept = s.kept := by
  unfold State.pageItem
  try dsimp only
  repeat' first
    | rfl
    | (simp; done)
    | split
    | ((try simp) <;> rw [each_kept])
    | ((try simp) <;> rw [foldl_kept])
    | intro _
    | (simp only [kept_mk, kept_fold])

@[simp] theorem State_rehome_kept (s : State) (tier frame tier' frame' : Nat) : (State.rehome s tier frame tier' frame').kept = s.kept := by
  unfold State.rehome
  try dsimp only
  repeat' first
    | rfl
    | (simp; done)
    | split
    | ((try simp) <;> rw [each_kept])
    | ((try simp) <;> rw [foldl_kept])
    | intro _
    | (simp only [kept_mk, kept_fold])

@[simp] theorem State_issueReturn_kept (s : State) (n : Nat) (x : Strm) (k : Course) (j : Nat) (i : LiftItem) (mover : Nat) : (State.issueReturn s n x k j i mover).kept = s.kept := by
  unfold State.issueReturn
  try dsimp only
  repeat' first
    | rfl
    | (simp; done)
    | split
    | ((try simp) <;> rw [each_kept])
    | ((try simp) <;> rw [foldl_kept])
    | intro _
    | (simp only [kept_mk, kept_fold])

@[simp] theorem State_issueItem_kept (s : State) (n : Nat) (x : Strm) (k : Course) (dom : Domain) (dst : HomeAddr) (mover : Nat) : (State.issueItem s n x k dom dst mover).kept = s.kept := by
  unfold State.issueItem
  try dsimp only
  repeat' first
    | rfl
    | (simp; done)
    | split
    | ((try simp) <;> rw [each_kept])
    | ((try simp) <;> rw [foldl_kept])
    | intro _
    | (simp only [kept_mk, kept_fold])

@[simp] theorem State_tickLift_kept (s : State) : (State.tickLift s).kept = s.kept := by
  unfold State.tickLift
  try dsimp only
  repeat' first
    | rfl
    | (simp; done)
    | split
    | ((try simp) <;> rw [each_kept])
    | ((try simp) <;> rw [foldl_kept])
    | intro _
    | (simp only [kept_mk, kept_fold])

@[simp] theorem State_writeCancel_kept (s : State) (n : Nat) : (State.writeCancel s n).kept = s.kept := by
  unfold State.writeCancel
  try dsimp only
  repeat' first
    | rfl
    | (simp; done)
    | split
    | ((try simp) <;> rw [each_kept])
    | ((try simp) <;> rw [foldl_kept])
    | intro _
    | (simp only [kept_mk, kept_fold])

@[simp] theorem State_restage_kept (s : State) (c : Nat) : (State.restage s c).kept = s.kept := by
  unfold State.restage
  try dsimp only
  repeat' first
    | rfl
    | (simp; done)
    | split
    | ((try simp) <;> rw [each_kept])
    | ((try simp) <;> rw [foldl_kept])
    | intro _
    | (simp only [kept_mk, kept_fold])

@[simp] theorem State_setPort_kept (s : State) (n : Nat) (p : SlPort) : (State.setPort s n p).kept = s.kept := by
  unfold State.setPort
  try dsimp only
  repeat' first
    | rfl
    | (simp; done)
    | split
    | ((try simp) <;> rw [each_kept])
    | ((try simp) <;> rw [foldl_kept])
    | intro _
    | (simp only [kept_mk, kept_fold])

@[simp] theorem State_sendMsg_kept (s : State) (n : Nat) (m : Msg) : (State.sendMsg s n m).kept = s.kept := by
  unfold State.sendMsg
  try dsimp only
  repeat' first
    | rfl
    | (simp; done)
    | split
    | ((try simp) <;> rw [each_kept])
    | ((try simp) <;> rw [foldl_kept])
    | intro _
    | (simp only [kept_mk, kept_fold])

@[simp] theorem State_setExch_kept (s : State) (gate : Nat) (epoch : BitVec 8) (v : Verdict) : (State.setExch s gate epoch v).kept = s.kept := by
  unfold State.setExch
  try dsimp only
  repeat' first
    | rfl
    | (simp; done)
    | split
    | ((try simp) <;> rw [each_kept])
    | ((try simp) <;> rw [foldl_kept])
    | intro _
    | (simp only [kept_mk, kept_fold])

@[simp] theorem sendRound_kept (s : State) (j : Job) (local_ : Nat) (epoch : BitVec 8) (value : Bool) (r : Nat) :
    (s.sendRound j local_ epoch value r).kept = s.kept := by
  unfold State.sendRound
  exact each_kept (by simp) s

@[simp] theorem State_advanceExch_kept (s : State) (j : Option Job) (gate local_ : Nat) (epoch : BitVec 8) : (State.advanceExch s j gate local_ epoch).kept = s.kept := by
  unfold State.advanceExch
  try dsimp only
  repeat' first
    | rfl
    | (simp; done)
    | split
    | ((try simp) <;> rw [each_kept])
    | ((try simp) <;> rw [foldl_kept])
    | intro _
    | (simp only [kept_mk, kept_fold])

@[simp] theorem State_markBoundary_kept (s : State) (n : Nat) : (State.markBoundary s n).kept = s.kept := by
  unfold State.markBoundary
  try dsimp only
  repeat' first
    | rfl
    | (simp; done)
    | split
    | ((try simp) <;> rw [each_kept])
    | ((try simp) <;> rw [foldl_kept])
    | intro _
    | (simp only [kept_mk, kept_fold])

@[simp] theorem State_localComplete_kept (s : State) (n : Nat) : (State.localComplete s n).kept = s.kept := by
  unfold State.localComplete
  try dsimp only
  repeat' first
    | rfl
    | (simp; done)
    | split
    | ((try simp) <;> rw [each_kept])
    | ((try simp) <;> rw [foldl_kept])
    | intro _
    | (simp only [kept_mk, kept_fold])

@[simp] theorem settleGate_kept (s : State) (n : Nat) : (s.settleGate n).kept = s.kept := by
  have one (t : State) : (let g := t.gate n
    if g.state = 1 ∧ g.count = g.target then
      (if !g.scope then (t.setGate n g.complete).markBoundary n
       else if t.isVerdict n then t
       else
         let u := if (t.exch n g.epoch).formed then t else t.localComplete n
         if (u.exch n g.epoch).ready then (((u.setExch n g.epoch {}).setGate n g.complete).markBoundary n) else u)
    else t).kept = t.kept := by
    dsimp only
    repeat' first | rfl | (simp; done) | split
  exact (one _).trans (one s)

@[simp] theorem State_completeVerdict_kept (s : State) (n : Nat) : (State.completeVerdict s n).kept = s.kept := by
  unfold State.completeVerdict
  try dsimp only
  repeat' first
    | rfl
    | (simp; done)
    | split
    | ((try simp) <;> rw [each_kept])
    | ((try simp) <;> rw [foldl_kept])
    | intro _
    | (simp only [kept_mk, kept_fold])

@[simp] theorem State_overCommit_kept (s : State) (n : Nat) (e : BitVec 8) : (State.overCommit s n e).kept = s.kept := by
  unfold State.overCommit
  try dsimp only
  repeat' first
    | rfl
    | (simp; done)
    | split
    | ((try simp) <;> rw [each_kept])
    | ((try simp) <;> rw [foldl_kept])
    | intro _
    | (simp only [kept_mk, kept_fold])

@[simp] theorem State_signalGate_kept (s : State) (n : Nat) (e : BitVec 8) : (State.signalGate s n e).kept = s.kept := by
  unfold State.signalGate
  try dsimp only
  repeat' first
    | rfl
    | (simp; done)
    | split
    | ((try simp) <;> rw [each_kept])
    | ((try simp) <;> rw [foldl_kept])
    | intro _
    | (simp only [kept_mk, kept_fold])

@[simp] theorem State_tickGate_kept (s : State) (n : Nat) : (State.tickGate s n).kept = s.kept := by
  unfold State.tickGate
  try dsimp only
  repeat' first
    | rfl
    | (simp; done)
    | split
    | ((try simp) <;> rw [each_kept])
    | ((try simp) <;> rw [foldl_kept])
    | intro _
    | (simp only [kept_mk, kept_fold])

@[simp] theorem State_resetGates_kept (s : State) (k : Course) : (State.resetGates s k).kept = s.kept := by
  unfold State.resetGates
  try dsimp only
  repeat' first
    | rfl
    | (simp; done)
    | split
    | ((try simp) <;> rw [each_kept])
    | ((try simp) <;> rw [foldl_kept])
    | intro _
    | (simp only [kept_mk, kept_fold])

@[simp] theorem State_writePause_kept (s : State) (c : Nat) (on : Bool) : (State.writePause s c on).kept = s.kept := by
  unfold State.writePause
  try dsimp only
  repeat' first
    | rfl
    | (simp; done)
    | split
    | ((try simp) <;> rw [each_kept])
    | ((try simp) <;> rw [foldl_kept])
    | intro _
    | (simp only [kept_mk, kept_fold])

@[simp] theorem State_countStages_kept (s : State) (c : Nat) : (State.countStages s c).kept = s.kept := by
  unfold State.countStages
  try dsimp only
  repeat' first
    | rfl
    | (simp; done)
    | split
    | ((try simp) <;> rw [each_kept])
    | ((try simp) <;> rw [foldl_kept])
    | intro _
    | (simp only [kept_mk, kept_fold])

@[simp] theorem State_grantStages_kept (s : State) (c : Nat) : (State.grantStages s c).kept = s.kept := by
  unfold State.grantStages
  try dsimp only
  repeat' first
    | rfl
    | (simp; done)
    | split
    | ((try simp) <;> rw [each_kept])
    | ((try simp) <;> rw [foldl_kept])
    | intro _
    | (simp only [kept_mk, kept_fold])

@[simp] theorem State_bindRun_kept (s : State) (b : BitVec 12) (w q : Nat) (run : List Nat) : (State.bindRun s b w q run).kept = s.kept := by
  unfold State.bindRun
  try dsimp only
  repeat' first
    | rfl
    | (simp; done)
    | split
    | ((try simp) <;> rw [each_kept])
    | ((try simp) <;> rw [foldl_kept])
    | intro _
    | (simp only [kept_mk, kept_fold])

@[simp] theorem State_giveUp_kept (s : State) (b : BitVec 12) (run : List Nat) (q w : Nat) : (State.giveUp s b run q w).kept = s.kept := by
  unfold State.giveUp
  try dsimp only
  repeat' first
    | rfl
    | (simp; done)
    | split
    | ((try simp) <;> rw [each_kept])
    | ((try simp) <;> rw [foldl_kept])
    | intro _
    | (simp only [kept_mk, kept_fold])

@[simp] theorem State_dropRun_kept (s : State) (c : Nat) : (State.dropRun s c).kept = s.kept := by
  unfold State.dropRun
  try dsimp only
  repeat' first
    | rfl
    | (simp; done)
    | split
    | ((try simp) <;> rw [each_kept])
    | ((try simp) <;> rw [foldl_kept])
    | intro _
    | (simp only [kept_mk, kept_fold])

@[simp] theorem State_endRun_kept (s : State) (c : Nat) (st : Status) : (State.endRun s c st).kept = s.kept := by
  unfold State.endRun
  try dsimp only
  repeat' first
    | rfl
    | (simp; done)
    | split
    | ((try simp) <;> rw [each_kept])
    | ((try simp) <;> rw [foldl_kept])
    | intro _
    | (simp only [kept_mk, kept_fold])

@[simp] theorem State_cancelRun_kept (s : State) (c : Nat) : (State.cancelRun s c).kept = s.kept := by
  unfold State.cancelRun
  try dsimp only
  repeat' first
    | rfl
    | (simp; done)
    | split
    | ((try simp) <;> rw [each_kept])
    | ((try simp) <;> rw [foldl_kept])
    | intro _
    | (simp only [kept_mk, kept_fold])

@[simp] theorem State_setRun_kept (s : State) (c : Nat) (run : List Nat) : (State.setRun s c run).kept = s.kept := by
  unfold State.setRun
  try dsimp only
  repeat' first
    | rfl
    | (simp; done)
    | split
    | ((try simp) <;> rw [each_kept])
    | ((try simp) <;> rw [foldl_kept])
    | intro _
    | (simp only [kept_mk, kept_fold])

@[simp] theorem State_boundary_kept (s : State) (c : Nat) : (State.boundary s c).kept = s.kept := by
  unfold State.boundary
  try dsimp only
  repeat' first
    | rfl
    | (simp; done)
    | split
    | ((try simp) <;> rw [each_kept])
    | ((try simp) <;> rw [foldl_kept])
    | intro _
    | (simp only [kept_mk, kept_fold])

@[simp] theorem State_stopCarve_kept (s : State) (p q : Nat) : (State.stopCarve s p q).kept = s.kept := by
  unfold State.stopCarve
  try dsimp only
  repeat' first
    | rfl
    | (simp; done)
    | split
    | ((try simp) <;> rw [each_kept])
    | ((try simp) <;> rw [foldl_kept])
    | intro _
    | (simp only [kept_mk, kept_fold])

@[simp] theorem State_violateAt_kept (s : State) (ck c : Nat) (st : Status) (seg use : Nat) (detail : BitVec 128) : (State.violateAt s ck c st seg use detail).kept = s.kept := by
  unfold State.violateAt
  try dsimp only
  repeat' first
    | rfl
    | (simp; done)
    | split
    | ((try simp) <;> rw [each_kept])
    | ((try simp) <;> rw [foldl_kept])
    | intro _
    | (simp only [kept_mk, kept_fold])

@[simp] theorem State_violateRun_kept (s : State) (c : Nat) (d : Domain) (st : Status) (seg : Nat) : (State.violateRun s c d st seg).kept = s.kept := by
  unfold State.violateRun
  try dsimp only
  repeat' first
    | rfl
    | (simp; done)
    | split
    | ((try simp) <;> rw [each_kept])
    | ((try simp) <;> rw [foldl_kept])
    | intro _
    | (simp only [kept_mk, kept_fold])

@[simp] theorem State_issueSignal_kept (s : State) (k : Course) (local_ : Nat) (pass : Nat) : (State.issueSignal s k local_ pass).kept = s.kept := by
  unfold State.issueSignal
  try dsimp only
  repeat' first
    | rfl
    | (simp; done)
    | split
    | ((try simp) <;> rw [each_kept])
    | ((try simp) <;> rw [foldl_kept])
    | intro _
    | (simp only [kept_mk, kept_fold])

@[simp] theorem State_freeOrphans_kept (s : State) (c step : Nat) : (State.freeOrphans s c step).kept = s.kept := by
  unfold State.freeOrphans
  try dsimp only
  repeat' first
    | rfl
    | (simp; done)
    | split
    | ((try simp) <;> rw [each_kept])
    | ((try simp) <;> rw [foldl_kept])
    | intro _
    | (simp only [kept_mk, kept_fold])

@[simp] theorem State_takeSeeds_kept (s : State) (b : BitVec 12) : (State.takeSeeds s b).kept = s.kept := by
  unfold State.takeSeeds
  try dsimp only
  repeat' first
    | rfl
    | (simp; done)
    | split
    | ((try simp) <;> rw [each_kept])
    | ((try simp) <;> rw [foldl_kept])
    | intro _
    | (simp only [kept_mk, kept_fold])

@[simp] theorem State_takeOrders_kept (s : State) (c : Nat) : (State.takeOrders s c).kept = s.kept := by
  unfold State.takeOrders
  try dsimp only
  repeat' first
    | rfl
    | (simp; done)
    | split
    | ((try simp) <;> rw [each_kept])
    | ((try simp) <;> rw [foldl_kept])
    | intro _
    | (simp only [kept_mk, kept_fold])

@[simp] theorem State_setCell_kept (s : State) (p row col : Nat) (c : Cell) : (State.setCell s p row col c).kept = s.kept := by
  unfold State.setCell
  try dsimp only
  repeat' first
    | rfl
    | (simp; done)
    | split
    | ((try simp) <;> rw [each_kept])
    | ((try simp) <;> rw [foldl_kept])
    | intro _
    | (simp only [kept_mk, kept_fold])

@[simp] theorem State_setFeeder_kept (s : State) (k : Nat) (f : Feeder) : (State.setFeeder s k f).kept = s.kept := by
  unfold State.setFeeder
  try dsimp only
  repeat' first
    | rfl
    | (simp; done)
    | split
    | ((try simp) <;> rw [each_kept])
    | ((try simp) <;> rw [foldl_kept])
    | intro _
    | (simp only [kept_mk, kept_fold])

@[simp] theorem State_setUses_kept (s : State) (ck : Nat) (l : List UseCfg) : (State.setUses s ck l).kept = s.kept := by
  unfold State.setUses
  try dsimp only
  repeat' first
    | rfl
    | (simp; done)
    | split
    | ((try simp) <;> rw [each_kept])
    | ((try simp) <;> rw [foldl_kept])
    | intro _
    | (simp only [kept_mk, kept_fold])

@[simp] theorem State_setUse_kept (s : State) (ck : Nat) (u : UseCfg) : (State.setUse s ck u).kept = s.kept := by
  unfold State.setUse
  try dsimp only
  repeat' first
    | rfl
    | (simp; done)
    | split
    | ((try simp) <;> rw [each_kept])
    | ((try simp) <;> rw [foldl_kept])
    | intro _
    | (simp only [kept_mk, kept_fold])

@[simp] theorem State_violateUse_kept (s : State) (ck : Nat) (u : UseCfg) (st : Status) (detail : BitVec 128) : (State.violateUse s ck u st detail).kept = s.kept := by
  unfold State.violateUse
  try dsimp only
  repeat' first
    | rfl
    | (simp; done)
    | split
    | ((try simp) <;> rw [each_kept])
    | ((try simp) <;> rw [foldl_kept])
    | intro _
    | (simp only [kept_mk, kept_fold])

@[simp] theorem State_useLoads_kept (s : State) (ck w : Nat) : (State.useLoads s ck w).kept = s.kept := by
  unfold State.useLoads
  try dsimp only
  repeat' first
    | rfl
    | (simp; done)
    | split
    | ((try simp) <;> rw [each_kept])
    | ((try simp) <;> rw [foldl_kept])
    | intro _
    | (simp only [kept_mk, kept_fold])

@[simp] theorem enter_getD_kept (s : State) (ck : Nat) (u : UseCfg) (tap token : Nat) (code : BitVec 16) (scale : BitVec 8) (void : Bool) :
    ((s.enter ck u tap token code scale void).getD s).kept = s.kept := by
  unfold State.enter
  dsimp only
  repeat' first | rfl | (simp; done) | split

@[simp] theorem State_release_kept (s : State) (p q tap : Nat) (marker : Bool) : (State.release s p q tap marker).kept = s.kept := by
  unfold State.release
  try dsimp only
  repeat' first
    | rfl
    | (simp; done)
    | split
    | ((try simp) <;> rw [each_kept])
    | ((try simp) <;> rw [foldl_kept])
    | intro _
    | (simp only [kept_mk, kept_fold])

@[simp] theorem State_leaveArray_kept (s : State) (ck : Nat) (u : UseCfg) (tap : Nat) (o : Operand) : (State.leaveArray s ck u tap o).kept = s.kept := by
  unfold State.leaveArray
  try dsimp only
  repeat' first
    | rfl
    | (simp; done)
    | split
    | ((try simp) <;> rw [each_kept])
    | ((try simp) <;> rw [foldl_kept])
    | intro _
    | (simp only [kept_mk, kept_fold])

@[simp] theorem State_acceptLap_kept (s : State) (ck : Nat) (u : UseCfg) (l : LapTile) : (State.acceptLap s ck u l).kept = s.kept := by
  unfold State.acceptLap
  try dsimp only
  repeat' first
    | rfl
    | (simp; done)
    | split
    | ((try simp) <;> rw [each_kept])
    | ((try simp) <;> rw [foldl_kept])
    | intro _
    | (simp only [kept_mk, kept_fold])

@[simp] theorem State_freshKem_kept (s : State) (b : BitVec 12) : (State.freshKem s b).kept = s.kept := by
  unfold State.freshKem
  try dsimp only
  repeat' first
    | rfl
    | (simp; done)
    | split
    | ((try simp) <;> rw [each_kept])
    | ((try simp) <;> rw [foldl_kept])
    | intro _
    | (simp only [kept_mk, kept_fold])

@[simp] theorem State_setRing_kept (s : State) (b : BitVec 12) (r : Ring) : (State.setRing s b r).kept = s.kept := by
  unfold State.setRing
  try dsimp only
  repeat' first
    | rfl
    | (simp; done)
    | split
    | ((try simp) <;> rw [each_kept])
    | ((try simp) <;> rw [foldl_kept])
    | intro _
    | (simp only [kept_mk, kept_fold])

@[simp] theorem State_setReplay_kept (s : State) (b : BitVec 12) (r : Replay) : (State.setReplay s b r).kept = s.kept := by
  unfold State.setReplay
  try dsimp only
  repeat' first
    | rfl
    | (simp; done)
    | split
    | ((try simp) <;> rw [each_kept])
    | ((try simp) <;> rw [foldl_kept])
    | intro _
    | (simp only [kept_mk, kept_fold])

@[simp] theorem State_takeIn_kept (s : State) (c : Hdr) : (State.takeIn s c).kept = s.kept := by
  unfold State.takeIn
  try dsimp only
  repeat' first
    | rfl
    | (simp; done)
    | split
    | ((try simp) <;> rw [each_kept])
    | ((try simp) <;> rw [foldl_kept])
    | intro _
    | (simp only [kept_mk, kept_fold])

@[simp] theorem State_ethAccept_kept (s : State) (p : Nat) (c : Hdr) : (State.ethAccept s p c).kept = s.kept := by
  unfold State.ethAccept
  try dsimp only
  repeat' first
    | rfl
    | (simp; done)
    | split
    | ((try simp) <;> rw [each_kept])
    | ((try simp) <;> rw [foldl_kept])
    | intro _
    | (simp only [kept_mk, kept_fold])

@[simp] theorem State_setFeed_kept (s : State) (b : Bool) (f : Feed) : (State.setFeed s b f).kept = s.kept := by
  unfold State.setFeed
  try dsimp only
  repeat' first
    | rfl
    | (simp; done)
    | split
    | ((try simp) <;> rw [each_kept])
    | ((try simp) <;> rw [foldl_kept])
    | intro _
    | (simp only [kept_mk, kept_fold])

@[simp] theorem State_bootLoader_kept (s : State) (slot trial : Bool) (r : BootRec) : (State.bootLoader s slot trial r).kept = s.kept := by
  unfold State.bootLoader
  try dsimp only
  repeat' first
    | rfl
    | (simp; done)
    | split
    | ((try simp) <;> rw [each_kept])
    | ((try simp) <;> rw [foldl_kept])
    | intro _
    | (simp only [kept_mk, kept_fold])

@[simp] theorem State_openLog_kept (s : State) : (State.openLog s).kept = s.kept := by
  unfold State.openLog
  try dsimp only
  repeat' first
    | rfl
    | (simp; done)
    | split
    | ((try simp) <;> rw [each_kept])
    | ((try simp) <;> rw [foldl_kept])
    | intro _
    | (simp only [kept_mk, kept_fold])

@[simp] theorem State_beginUpdate_kept (s : State) : (State.beginUpdate s).kept = s.kept := by
  unfold State.beginUpdate
  try dsimp only
  repeat' first
    | rfl
    | (simp; done)
    | split
    | ((try simp) <;> rw [each_kept])
    | ((try simp) <;> rw [foldl_kept])
    | intro _
    | (simp only [kept_mk, kept_fold])

@[simp] theorem State_revertUpdate_kept (s : State) : (State.revertUpdate s).kept = s.kept := by
  unfold State.revertUpdate
  try dsimp only
  repeat' first
    | rfl
    | (simp; done)
    | split
    | ((try simp) <;> rw [each_kept])
    | ((try simp) <;> rw [foldl_kept])
    | intro _
    | (simp only [kept_mk, kept_fold])

@[simp] theorem State_setSecStat_kept (s : State) (j : Nat) (x : SecStat) : (State.setSecStat s j x).kept = s.kept := by
  unfold State.setSecStat
  try dsimp only
  repeat' first
    | rfl
    | (simp; done)
    | split
    | ((try simp) <;> rw [each_kept])
    | ((try simp) <;> rw [foldl_kept])
    | intro _
    | (simp only [kept_mk, kept_fold])

@[simp] theorem State_rebuddy_kept (s : State) (i : Nat) (j : Job) : (State.rebuddy s i j).kept = s.kept := by
  unfold State.rebuddy
  try dsimp only
  repeat' first
    | rfl
    | (simp; done)
    | split
    | ((try simp) <;> rw [each_kept])
    | ((try simp) <;> rw [foldl_kept])
    | intro _
    | (simp only [kept_mk, kept_fold])

@[simp] theorem State_newIntervals_kept (s : State) (i : Nat) (j : Job) : (State.newIntervals s i j).kept = s.kept := by
  unfold State.newIntervals
  try dsimp only
  repeat' first
    | rfl
    | (simp; done)
    | split
    | ((try simp) <;> rw [each_kept])
    | ((try simp) <;> rw [foldl_kept])
    | intro _
    | (simp only [kept_mk, kept_fold])

@[simp] theorem State_shadow_kept (s : State) (ck : Nat) (u : UseCfg) (token lane : Nat) (v : Val) : (State.shadow s ck u token lane v).kept = s.kept := by
  unfold State.shadow
  try dsimp only
  repeat' first
    | rfl
    | (simp; done)
    | split
    | ((try simp) <;> rw [each_kept])
    | ((try simp) <;> rw [foldl_kept])
    | intro _
    | (simp only [kept_mk, kept_fold])

@[simp] theorem State_converts_kept (s : State) (ck : Nat) (u : UseCfg) (token lane : Nat) (v : Val) (code : Nat) (marked : Bool) : (State.converts s ck u token lane v code marked).kept = s.kept := by
  unfold State.converts
  try dsimp only
  repeat' first
    | rfl
    | (simp; done)
    | split
    | ((try simp) <;> rw [each_kept])
    | ((try simp) <;> rw [foldl_kept])
    | intro _
    | (simp only [kept_mk, kept_fold])

@[simp] theorem State_flagTile_kept (s : State) (u : UseCfg) (marked : Bool) : (State.flagTile s u marked).kept = s.kept := by
  unfold State.flagTile
  try dsimp only
  repeat' first
    | rfl
    | (simp; done)
    | split
    | ((try simp) <;> rw [each_kept])
    | ((try simp) <;> rw [foldl_kept])
    | intro _
    | (simp only [kept_mk, kept_fold])

@[simp] theorem State_flagStep_kept (s : State) (c : BitVec 8) (src : Nat) (bad : Bool) : (State.flagStep s c src bad).kept = s.kept := by
  unfold State.flagStep
  try dsimp only
  repeat' first
    | rfl
    | (simp; done)
    | split
    | ((try simp) <;> rw [each_kept])
    | ((try simp) <;> rw [foldl_kept])
    | intro _
    | (simp only [kept_mk, kept_fold])

@[simp] theorem State_productEnter_kept (s : State) (ck : Nat) (u : UseCfg) (token lane : Nat) (d : Val) (marked : Bool) : (State.productEnter s ck u token lane d marked).kept = s.kept := by
  unfold State.productEnter
  try dsimp only
  repeat' first
    | rfl
    | (simp; done)
    | split
    | ((try simp) <;> rw [each_kept])
    | ((try simp) <;> rw [foldl_kept])
    | intro _
    | (simp only [kept_mk, kept_fold])

@[simp] theorem State_toMirror_kept (s : State) (b : BitVec 12) (e : Job × Mirror) (va : BitVec 48) (data : List Byte) : (State.toMirror s b e va data).kept = s.kept := by
  unfold State.toMirror
  try dsimp only
  repeat' first
    | rfl
    | (simp; done)
    | split
    | ((try simp) <;> rw [each_kept])
    | ((try simp) <;> rw [foldl_kept])
    | intro _
    | (simp only [kept_mk, kept_fold])

@[simp] theorem State_forward_kept (s : State) (u : UseCfg) (c : Cand) : (State.forward s u c).kept = s.kept := by
  unfold State.forward
  try dsimp only
  repeat' first
    | rfl
    | (simp; done)
    | split
    | ((try simp) <;> rw [each_kept])
    | ((try simp) <;> rw [foldl_kept])
    | intro _
    | (simp only [kept_mk, kept_fold])

@[simp] theorem State_conflicts_kept (s : State) (c : Nat) (k : Course) (seg use : Nat) (l : List ((Nat × Nat) × Bool)) : (State.conflicts s c k seg use l).kept = s.kept := by
  unfold State.conflicts
  try dsimp only
  repeat' first
    | rfl
    | (simp; done)
    | split
    | ((try simp) <;> rw [each_kept])
    | ((try simp) <;> rw [foldl_kept])
    | intro _
    | (simp only [kept_mk, kept_fold])

@[simp] theorem State_claimOut_kept (s : State) (u : UseCfg) (h : TileHdr) : (State.claimOut s u h).kept = s.kept := by
  unfold State.claimOut
  try dsimp only
  repeat' first
    | rfl
    | (simp; done)
    | split
    | ((try simp) <;> rw [each_kept])
    | ((try simp) <;> rw [foldl_kept])
    | intro _
    | (simp only [kept_mk, kept_fold])

@[simp] theorem State_beginUse_kept (s : State) (ck : Nat) (u : UseCfg) (lap : Option LapTile) : (State.beginUse s ck u lap).kept = s.kept := by
  unfold State.beginUse
  try dsimp only
  repeat' first
    | rfl
    | (simp; done)
    | split
    | ((try simp) <;> rw [each_kept])
    | ((try simp) <;> rw [foldl_kept])
    | intro _
    | (simp only [kept_mk, kept_fold])

@[simp] theorem State_dropUse_kept (s : State) (ck : Nat) (u : UseCfg) : (State.dropUse s ck u).kept = s.kept := by
  unfold State.dropUse
  try dsimp only
  repeat' first
    | rfl
    | (simp; done)
    | split
    | ((try simp) <;> rw [each_kept])
    | ((try simp) <;> rw [foldl_kept])
    | intro _
    | (simp only [kept_mk, kept_fold])

@[simp] theorem State_productCheck_kept (s : State) (ck : Nat) (u : UseCfg) : (State.productCheck s ck u).kept = s.kept := by
  unfold State.productCheck
  try dsimp only
  repeat' first
    | rfl
    | (simp; done)
    | split
    | ((try simp) <;> rw [each_kept])
    | ((try simp) <;> rw [foldl_kept])
    | intro _
    | (simp only [kept_mk, kept_fold])

@[simp] theorem State_requestRink_kept (s : State) (cfg : BitVec 4) : (State.requestRink s cfg).kept = s.kept := by
  unfold State.requestRink
  try dsimp only
  repeat' first
    | rfl
    | (simp; done)
    | split
    | ((try simp) <;> rw [each_kept])
    | ((try simp) <;> rw [foldl_kept])
    | intro _
    | (simp only [kept_mk, kept_fold])

@[simp] theorem State_writeRequest_kept (s : State) (cfg : BitVec 4) : (State.writeRequest s cfg).kept = s.kept := by
  unfold State.writeRequest
  try dsimp only
  repeat' first
    | rfl
    | (simp; done)
    | split
    | ((try simp) <;> rw [each_kept])
    | ((try simp) <;> rw [foldl_kept])
    | intro _
    | (simp only [kept_mk, kept_fold])

@[simp] theorem State_writeWithdraw_kept (s : State) (p : Nat) (on : Bool) : (State.writeWithdraw s p on).kept = s.kept := by
  unfold State.writeWithdraw
  try dsimp only
  repeat' first
    | rfl
    | (simp; done)
    | split
    | ((try simp) <;> rw [each_kept])
    | ((try simp) <;> rw [foldl_kept])
    | intro _
    | (simp only [kept_mk, kept_fold])

@[simp] theorem State_toClear_kept (s : State) (p : Nat) (qs : List Nat) : (State.toClear s p qs).kept = s.kept := by
  unfold State.toClear
  try dsimp only
  repeat' first
    | rfl
    | (simp; done)
    | split
    | ((try simp) <;> rw [each_kept])
    | ((try simp) <;> rw [foldl_kept])
    | intro _
    | (simp only [kept_mk, kept_fold])

@[simp] theorem State_contain_kept (s : State) (p q : Nat) (kind : FaultKind) : (State.contain s p q kind).kept = s.kept := by
  unfold State.contain
  try dsimp only
  repeat' first
    | rfl
    | (simp; done)
    | split
    | ((try simp) <;> rw [each_kept])
    | ((try simp) <;> rw [foldl_kept])
    | intro _
    | (simp only [kept_mk, kept_fold])

@[simp] theorem State_loseBank_kept (s : State) (p q : Nat) : (State.loseBank s p q).kept = s.kept := by
  unfold State.loseBank
  try dsimp only
  repeat' first
    | rfl
    | (simp; done)
    | split
    | ((try simp) <;> rw [each_kept])
    | ((try simp) <;> rw [foldl_kept])
    | intro _
    | (simp only [kept_mk, kept_fold])

@[simp] theorem State_stopModule_kept (s : State) : (State.stopModule s).kept = s.kept := by
  unfold State.stopModule
  try dsimp only
  repeat' first
    | rfl
    | (simp; done)
    | split
    | ((try simp) <;> rw [each_kept])
    | ((try simp) <;> rw [foldl_kept])
    | intro _
    | (simp only [kept_mk, kept_fold])

@[simp] theorem State_losePart_kept (s : State) (part inst : Nat) : (State.losePart s part inst).kept = s.kept := by
  unfold State.losePart
  try dsimp only
  repeat' first
    | rfl
    | (simp; done)
    | split
    | ((try simp) <;> rw [each_kept])
    | ((try simp) <;> rw [foldl_kept])
    | intro _
    | (simp only [kept_mk, kept_fold])

@[simp] theorem State_setNear_kept (s : State) (d : Nat) (n : NearTier) : (State.setNear s d n).kept = s.kept := by
  unfold State.setNear
  try dsimp only
  repeat' first
    | rfl
    | (simp; done)
    | split
    | ((try simp) <;> rw [each_kept])
    | ((try simp) <;> rw [foldl_kept])
    | intro _
    | (simp only [kept_mk, kept_fold])

@[simp] theorem State_setStack_kept (s : State) (i : Nat) (k : Stack) : (State.setStack s i k).kept = s.kept := by
  unfold State.setStack
  try dsimp only
  repeat' first
    | rfl
    | (simp; done)
    | split
    | ((try simp) <;> rw [each_kept])
    | ((try simp) <;> rw [foldl_kept])
    | intro _
    | (simp only [kept_mk, kept_fold])

@[simp] theorem State_notifyPage_kept (s : State) (b : BitVec 12) (page : BitVec 27) : (State.notifyPage s b page).kept = s.kept := by
  unfold State.notifyPage
  try dsimp only
  repeat' first
    | rfl
    | (simp; done)
    | split
    | ((try simp) <;> rw [each_kept])
    | ((try simp) <;> rw [foldl_kept])
    | intro _
    | (simp only [kept_mk, kept_fold])

@[simp] theorem State_startRebuild_kept (s : State) (b : BitVec 12) (page : Nat) (lun : BitVec 29) (t2 : Bool) (waiting : List (BitVec 8)) : (State.startRebuild s b page lun t2 waiting).kept = s.kept := by
  unfold State.startRebuild
  try dsimp only
  repeat' first
    | rfl
    | (simp; done)
    | split
    | ((try simp) <;> rw [each_kept])
    | ((try simp) <;> rw [foldl_kept])
    | intro _
    | (simp only [kept_mk, kept_fold])

@[simp] theorem State_insertCand_kept (s : State) (stack : Nat) (bib : BitVec 12) (cand : Cand) : (State.insertCand s stack bib cand).kept = s.kept := by
  unfold State.insertCand
  try dsimp only
  repeat' first
    | rfl
    | (simp; done)
    | split
    | ((try simp) <;> rw [each_kept])
    | ((try simp) <;> rw [foldl_kept])
    | intro _
    | (simp only [kept_mk, kept_fold])

@[simp] theorem State_forgetSums_kept (s : State) (key n : Nat) : (State.forgetSums s key n).kept = s.kept := by
  unfold State.forgetSums
  try dsimp only
  repeat' first
    | rfl
    | (simp; done)
    | split
    | ((try simp) <;> rw [each_kept])
    | ((try simp) <;> rw [foldl_kept])
    | intro _
    | (simp only [kept_mk, kept_fold])

@[simp] theorem State_touchPage_kept (s : State) (b : BitVec 12) (p : Nat) : (State.touchPage s b p).kept = s.kept := by
  unfold State.touchPage
  try dsimp only
  repeat' first
    | rfl
    | (simp; done)
    | split
    | ((try simp) <;> rw [each_kept])
    | ((try simp) <;> rw [foldl_kept])
    | intro _
    | (simp only [kept_mk, kept_fold])

@[simp] theorem State_setGrp_kept (s : State) (g : Nat) (x : Grp) : (State.setGrp s g x).kept = s.kept := by
  unfold State.setGrp
  try dsimp only
  repeat' first
    | rfl
    | (simp; done)
    | split
    | ((try simp) <;> rw [each_kept])
    | ((try simp) <;> rw [foldl_kept])
    | intro _
    | (simp only [kept_mk, kept_fold])

@[simp] theorem State_makeReadOnly_kept (s : State) : (State.makeReadOnly s).kept = s.kept := by
  unfold State.makeReadOnly
  try dsimp only
  repeat' first
    | rfl
    | (simp; done)
    | split
    | ((try simp) <;> rw [each_kept])
    | ((try simp) <;> rw [foldl_kept])
    | intro _
    | (simp only [kept_mk, kept_fold])

@[simp] theorem lodgeStat_kept (s : State) : (s.lodgeStat).kept = s.kept := by
  unfold State.lodgeStat
  simp only [apply_ite State.kept, State_makeReadOnly_kept, ite_self, kept_mk, kept_fold]
  rw [each_kept]
  exact fun _ _ => rfl

@[simp] theorem State_retire_kept (s : State) (g : Nat) : (State.retire s g).kept = s.kept := by
  unfold State.retire
  try dsimp only
  repeat' first
    | rfl
    | (simp; done)
    | split
    | ((try simp) <;> rw [each_kept])
    | ((try simp) <;> rw [foldl_kept])
    | intro _
    | (simp only [kept_mk, kept_fold])

@[simp] theorem State_refreshDue_kept (s : State) (g : Nat) : (State.refreshDue s g).kept = s.kept := by
  unfold State.refreshDue
  try dsimp only
  repeat' first
    | rfl
    | (simp; done)
    | split
    | ((try simp) <;> rw [each_kept])
    | ((try simp) <;> rw [foldl_kept])
    | intro _
    | (simp only [kept_mk, kept_fold])

@[simp] theorem State_endPageOp_kept (s : State) (key : Nat) : (State.endPageOp s key).kept = s.kept := by
  unfold State.endPageOp
  try dsimp only
  repeat' first
    | rfl
    | (simp; done)
    | split
    | ((try simp) <;> rw [each_kept])
    | ((try simp) <;> rw [foldl_kept])
    | intro _
    | (simp only [kept_mk, kept_fold])

@[simp] theorem State_dropUnits_kept (s : State) (lo n : Nat) : (State.dropUnits s lo n).kept = s.kept := by
  unfold State.dropUnits
  try dsimp only
  repeat' first
    | rfl
    | (simp; done)
    | split
    | ((try simp) <;> rw [each_kept])
    | ((try simp) <;> rw [foldl_kept])
    | intro _
    | (simp only [kept_mk, kept_fold])

@[simp] theorem State_loseUnit_kept (s : State) (lun : Nat) (b : BitVec 12) : (State.loseUnit s lun b).kept = s.kept := by
  unfold State.loseUnit
  try dsimp only
  repeat' first
    | rfl
    | (simp; done)
    | split
    | ((try simp) <;> rw [each_kept])
    | ((try simp) <;> rw [foldl_kept])
    | intro _
    | (simp only [kept_mk, kept_fold])

@[simp] theorem State_losePage_kept (s : State) (key : Nat) : (State.losePage s key).kept = s.kept := by
  unfold State.losePage
  try dsimp only
  repeat' first
    | rfl
    | (simp; done)
    | split
    | ((try simp) <;> rw [each_kept])
    | ((try simp) <;> rw [foldl_kept])
    | intro _
    | (simp only [kept_mk, kept_fold])

@[simp] theorem State_unitLost_kept (s : State) (p : LodgePlace) : (State.unitLost s p).kept = s.kept := by
  unfold State.unitLost
  try dsimp only
  repeat' first
    | rfl
    | (simp; done)
    | split
    | ((try simp) <;> rw [each_kept])
    | ((try simp) <;> rw [foldl_kept])
    | intro _
    | (simp only [kept_mk, kept_fold])

@[simp] theorem State_reach_kept (s : State) (u : LodgePlace × UnitTag × Option LodgePlace) : (State.reach s u).kept = s.kept := by
  unfold State.reach
  try dsimp only
  repeat' first
    | rfl
    | (simp; done)
    | split
    | ((try simp) <;> rw [each_kept])
    | ((try simp) <;> rw [foldl_kept])
    | intro _
    | (simp only [kept_mk, kept_fold])

@[simp] theorem State_loseStripes_kept (s : State) (a b die : Nat) : (State.loseStripes s a b die).kept = s.kept := by
  unfold State.loseStripes
  try dsimp only
  repeat' first
    | rfl
    | (simp; done)
    | split
    | ((try simp) <;> rw [each_kept])
    | ((try simp) <;> rw [foldl_kept])
    | intro _
    | (simp only [kept_mk, kept_fold])

@[simp] theorem State_killDie_kept (s : State) (ch die : Nat) : (State.killDie s ch die).kept = s.kept := by
  unfold State.killDie
  try dsimp only
  repeat' first
    | rfl
    | (simp; done)
    | split
    | ((try simp) <;> rw [each_kept])
    | ((try simp) <;> rw [foldl_kept])
    | intro _
    | (simp only [kept_mk, kept_fold])

@[simp] theorem State_setObject_kept (s : State) (id : Nat) (o : LObj) : (State.setObject s id o).kept = s.kept := by
  unfold State.setObject
  try dsimp only
  repeat' first
    | rfl
    | (simp; done)
    | split
    | ((try simp) <;> rw [each_kept])
    | ((try simp) <;> rw [foldl_kept])
    | intro _
    | (simp only [kept_mk, kept_fold])

@[simp] theorem State_setUpdSlot_kept (s : State) (c : Nat) (u : UpdSlot) : (State.setUpdSlot s c u).kept = s.kept := by
  unfold State.setUpdSlot
  try dsimp only
  repeat' first
    | rfl
    | (simp; done)
    | split
    | ((try simp) <;> rw [each_kept])
    | ((try simp) <;> rw [foldl_kept])
    | intro _
    | (simp only [kept_mk, kept_fold])

@[simp] theorem State_setLanes_kept (s : State) (pipe : Nat) (l : List LanePatch) : (State.setLanes s pipe l).kept = s.kept := by
  unfold State.setLanes
  try dsimp only
  repeat' first
    | rfl
    | (simp; done)
    | split
    | ((try simp) <;> rw [each_kept])
    | ((try simp) <;> rw [foldl_kept])
    | intro _
    | (simp only [kept_mk, kept_fold])

@[simp] theorem State_countState_kept (s : State) (pipe c bd : Nat) : (State.countState s pipe c bd).kept = s.kept := by
  unfold State.countState
  try dsimp only
  repeat' first
    | rfl
    | (simp; done)
    | split
    | ((try simp) <;> rw [each_kept])
    | ((try simp) <;> rw [foldl_kept])
    | intro _
    | (simp only [kept_mk, kept_fold])

@[simp] theorem State_addNorm_kept (s : State) (pipe c : Nat) (grad : List (BitVec 40)) : (State.addNorm s pipe c grad).kept = s.kept := by
  unfold State.addNorm
  try dsimp only
  repeat' first
    | rfl
    | (simp; done)
    | split
    | ((try simp) <;> rw [each_kept])
    | ((try simp) <;> rw [foldl_kept])
    | intro _
    | (simp only [kept_mk, kept_fold])

@[simp] theorem State_checkWeights_kept (s : State) (k : Course) (c group binding patch : Nat) (f : Fmt) (p : BitVec 8) (m : List Val) (codes : List Nat) : (State.checkWeights s k c group binding patch f p m codes).kept = s.kept := by
  unfold State.checkWeights
  try dsimp only
  repeat' first
    | rfl
    | (simp; done)
    | split
    | ((try simp) <;> rw [each_kept])
    | ((try simp) <;> rw [foldl_kept])
    | intro _
    | (simp only [kept_mk, kept_fold])

@[simp] theorem State_emit_kept (s : State) (c b p : Nat) : (State.emit s c b p).kept = s.kept := by
  unfold State.emit
  try dsimp only
  repeat' first
    | rfl
    | (simp; done)
    | split
    | ((try simp) <;> rw [each_kept])
    | ((try simp) <;> rw [foldl_kept])
    | intro _
    | (simp only [kept_mk, kept_fold])

@[simp] theorem State_sendChunk_kept (s : State) (j : Job) (b : BitVec 12) (data : List Byte) (onward : List (Fin 12)) : (State.sendChunk s j b data onward).kept = s.kept := by
  unfold State.sendChunk
  try dsimp only
  repeat' first
    | rfl
    | (simp; done)
    | split
    | ((try simp) <;> rw [each_kept])
    | ((try simp) <;> rw [foldl_kept])
    | intro _
    | (simp only [kept_mk, kept_fold])

@[simp] theorem State_writeClip_kept (s : State) (c : Nat) (clip : BitVec 32) (en armed : Bool) : (State.writeClip s c clip en armed).kept = s.kept := by
  unfold State.writeClip
  try dsimp only
  repeat' first
    | rfl
    | (simp; done)
    | split
    | ((try simp) <;> rw [each_kept])
    | ((try simp) <;> rw [foldl_kept])
    | intro _
    | (simp only [kept_mk, kept_fold])

@[simp] theorem State_auditCheck_kept (s : State) : (State.auditCheck s).kept = s.kept := by
  unfold State.auditCheck
  try dsimp only
  repeat' first
    | rfl
    | (simp; done)
    | split
    | ((try simp) <;> rw [each_kept])
    | ((try simp) <;> rw [foldl_kept])
    | intro _
    | (simp only [kept_mk, kept_fold])

@[simp] theorem State_holdCopy_kept (s : State) (keep : Option (BitVec 64)) (x : SecCopy) : (State.holdCopy s keep x).kept = s.kept := by
  unfold State.holdCopy
  try dsimp only
  repeat' first
    | rfl
    | (simp; done)
    | split
    | ((try simp) <;> rw [each_kept])
    | ((try simp) <;> rw [foldl_kept])
    | intro _
    | (simp only [kept_mk, kept_fold])

@[simp] theorem State_clearUpdate_kept (s : State) (c : Nat) : (State.clearUpdate s c).kept = s.kept := by
  unfold State.clearUpdate
  try dsimp only
  repeat' first
    | rfl
    | (simp; done)
    | split
    | ((try simp) <;> rw [each_kept])
    | ((try simp) <;> rw [foldl_kept])
    | intro _
    | (simp only [kept_mk, kept_fold])

@[simp] theorem State_requeue_kept (s : State) (c : Nat) : (State.requeue s c).kept = s.kept := by
  unfold State.requeue
  try dsimp only
  repeat' first
    | rfl
    | (simp; done)
    | split
    | ((try simp) <;> rw [each_kept])
    | ((try simp) <;> rw [foldl_kept])
    | intro _
    | (simp only [kept_mk, kept_fold])

@[simp] theorem State_resumeBib_kept (s : State) (b : BitVec 12) : (State.resumeBib s b).kept = s.kept := by
  unfold State.resumeBib
  try dsimp only
  repeat' first
    | rfl
    | (simp; done)
    | split
    | ((try simp) <;> rw [each_kept])
    | ((try simp) <;> rw [foldl_kept])
    | intro _
    | (simp only [kept_mk, kept_fold])

@[simp] theorem State_wakeUpdate_kept (s : State) : (State.wakeUpdate s).kept = s.kept := by
  unfold State.wakeUpdate
  try dsimp only
  repeat' first
    | rfl
    | (simp; done)
    | split
    | ((try simp) <;> rw [each_kept])
    | ((try simp) <;> rw [foldl_kept])
    | intro _
    | (simp only [kept_mk, kept_fold])

@[simp] theorem State_seatIn_kept (s : State) (j : Nat) (jb : Job) (rank : BitVec 11) (m : BitVec 11) : (State.seatIn s j jb rank m).kept = s.kept := by
  unfold State.seatIn
  try dsimp only
  repeat' first
    | rfl
    | (simp; done)
    | split
    | ((try simp) <;> rw [each_kept])
    | ((try simp) <;> rw [foldl_kept])
    | intro _
    | (simp only [kept_mk, kept_fold])

@[simp] theorem State_dropStreams_kept (s : State) (b : BitVec 12) : (State.dropStreams s b).kept = s.kept := by
  unfold State.dropStreams
  try dsimp only
  repeat' first
    | rfl
    | (simp; done)
    | split
    | ((try simp) <;> rw [each_kept])
    | ((try simp) <;> rw [foldl_kept])
    | intro _
    | (simp only [kept_mk, kept_fold])

@[simp] theorem State_beginScrub_kept (s : State) (b : BitVec 12) (nonce : BitVec 256) (c : Hdr) : (State.beginScrub s b nonce c).kept = s.kept := by
  unfold State.beginScrub
  try dsimp only
  repeat' first
    | rfl
    | (simp; done)
    | split
    | ((try simp) <;> rw [each_kept])
    | ((try simp) <;> rw [foldl_kept])
    | intro _
    | (simp only [kept_mk, kept_fold])

@[simp] theorem State_startOrder_kept (s : State) (j : Nat) (jb : Job) (n : BitVec 48) : (State.startOrder s j jb n).kept = s.kept := by
  unfold State.startOrder
  try dsimp only
  repeat' first
    | rfl
    | (simp; done)
    | split
    | ((try simp) <;> rw [each_kept])
    | ((try simp) <;> rw [foldl_kept])
    | intro _
    | (simp only [kept_mk, kept_fold])

@[simp] theorem State_raiseT2_kept (s : State) (b : BitVec 12) (n : Nat) : (State.raiseT2 s b n).kept = s.kept := by
  unfold State.raiseT2
  try dsimp only
  repeat' first
    | rfl
    | (simp; done)
    | split
    | ((try simp) <;> rw [each_kept])
    | ((try simp) <;> rw [foldl_kept])
    | intro _
    | (simp only [kept_mk, kept_fold])

@[simp] theorem State_startRotation_kept (s : State) (b : BitVec 12) : (State.startRotation s b).kept = s.kept := by
  unfold State.startRotation
  try dsimp only
  repeat' first
    | rfl
    | (simp; done)
    | split
    | ((try simp) <;> rw [each_kept])
    | ((try simp) <;> rw [foldl_kept])
    | intro _
    | (simp only [kept_mk, kept_fold])

@[simp] theorem State_forgetSkips_kept (s : State) (b : BitVec 12) : (State.forgetSkips s b).kept = s.kept := by
  unfold State.forgetSkips
  try dsimp only
  repeat' first
    | rfl
    | (simp; done)
    | split
    | ((try simp) <;> rw [each_kept])
    | ((try simp) <;> rw [foldl_kept])
    | intro _
    | (simp only [kept_mk, kept_fold])

@[simp] theorem State_addHeaders_kept (s : State) (k : Course) : (State.addHeaders s k).kept = s.kept := by
  unfold State.addHeaders
  try dsimp only
  repeat' first
    | rfl
    | (simp; done)
    | split
    | ((try simp) <;> rw [each_kept])
    | ((try simp) <;> rw [foldl_kept])
    | intro _
    | (simp only [kept_mk, kept_fold])

@[simp] theorem State_mapPage_kept (s : State) (a : MapArgs) (i : Nat) : (State.mapPage s a i).kept = s.kept := by
  unfold State.mapPage
  try dsimp only
  repeat' first
    | rfl
    | (simp; done)
    | split
    | ((try simp) <;> rw [each_kept])
    | ((try simp) <;> rw [foldl_kept])
    | intro _
    | (simp only [kept_mk, kept_fold])

@[simp] theorem State_sharePage_kept (s : State) (a : MapArgs) (p : Nat) : (State.sharePage s a p).kept = s.kept := by
  unfold State.sharePage
  try dsimp only
  repeat' first
    | rfl
    | (simp; done)
    | split
    | ((try simp) <;> rw [each_kept])
    | ((try simp) <;> rw [foldl_kept])
    | intro _
    | (simp only [kept_mk, kept_fold])

@[simp] theorem State_unshare_kept (s : State) (a : MapArgs) (p : Nat) : (State.unshare s a p).kept = s.kept := by
  unfold State.unshare
  try dsimp only
  repeat' first
    | rfl
    | (simp; done)
    | split
    | ((try simp) <;> rw [each_kept])
    | ((try simp) <;> rw [foldl_kept])
    | intro _
    | (simp only [kept_mk, kept_fold])

@[simp] theorem State_returnLocker_kept (s : State) (k : Course) : (State.returnLocker s k).kept = s.kept := by
  unfold State.returnLocker
  try dsimp only
  repeat' first
    | rfl
    | (simp; done)
    | split
    | ((try simp) <;> rw [each_kept])
    | ((try simp) <;> rw [foldl_kept])
    | intro _
    | (simp only [kept_mk, kept_fold])

@[simp] theorem State_dropCourse_kept (s : State) (c : Nat) (k : Course) : (State.dropCourse s c k).kept = s.kept := by
  unfold State.dropCourse
  try dsimp only
  repeat' first
    | rfl
    | (simp; done)
    | split
    | ((try simp) <;> rw [each_kept])
    | ((try simp) <;> rw [foldl_kept])
    | intro _
    | (simp only [kept_mk, kept_fold])

@[simp] theorem State_zeroKeys_kept (s : State) (b : BitVec 12) : (State.zeroKeys s b).kept = s.kept := by
  unfold State.zeroKeys
  try dsimp only
  repeat' first
    | rfl
    | (simp; done)
    | split
    | ((try simp) <;> rw [each_kept])
    | ((try simp) <;> rw [foldl_kept])
    | intro _
    | (simp only [kept_mk, kept_fold])

@[simp] theorem State_pfBegin_kept (s : State) : (State.pfBegin s).kept = s.kept := by
  unfold State.pfBegin
  try dsimp only
  repeat' first
    | rfl
    | (simp; done)
    | split
    | ((try simp) <;> rw [each_kept])
    | ((try simp) <;> rw [foldl_kept])
    | intro _
    | (simp only [kept_mk, kept_fold])

@[simp] theorem State_pfRequest_kept (s : State) : (State.pfRequest s).kept = s.kept := by
  unfold State.pfRequest
  try dsimp only
  repeat' first
    | rfl
    | (simp; done)
    | split
    | ((try simp) <;> rw [each_kept])
    | ((try simp) <;> rw [foldl_kept])
    | intro _
    | (simp only [kept_mk, kept_fold])

@[simp] theorem State_tickSideband_kept (s : State) : (State.tickSideband s).kept = s.kept := by
  unfold State.tickSideband
  try dsimp only
  repeat' first
    | rfl
    | (simp; done)
    | split
    | ((try simp) <;> rw [each_kept])
    | ((try simp) <;> rw [foldl_kept])
    | intro _
    | (simp only [kept_mk, kept_fold])

@[simp] theorem State_writeLog_kept (s : State) (e : LogEntry) : (State.writeLog s e).kept = s.kept := by
  unfold State.writeLog
  try dsimp only
  repeat' first
    | rfl
    | (simp; done)
    | split
    | ((try simp) <;> rw [each_kept])
    | ((try simp) <;> rw [foldl_kept])
    | intro _
    | (simp only [kept_mk, kept_fold])

@[simp] theorem State_setByp_kept (s : State) (i : Nat) (b : Byp) : (State.setByp s i b).kept = s.kept := by
  unfold State.setByp
  try dsimp only
  repeat' first
    | rfl
    | (simp; done)
    | split
    | ((try simp) <;> rw [each_kept])
    | ((try simp) <;> rw [foldl_kept])
    | intro _
    | (simp only [kept_mk, kept_fold])

@[simp] theorem State_moveSwitch_kept (s : State) (i : Nat) (b : Byp) : (State.moveSwitch s i b).kept = s.kept := by
  unfold State.moveSwitch
  try dsimp only
  repeat' first
    | rfl
    | (simp; done)
    | split
    | ((try simp) <;> rw [each_kept])
    | ((try simp) <;> rw [foldl_kept])
    | intro _
    | (simp only [kept_mk, kept_fold])

@[simp] theorem State_sendAbort_kept (s : State) (m : MsgOpen) (rail : Nat) : (State.sendAbort s m rail).kept = s.kept := by
  unfold State.sendAbort
  try dsimp only
  repeat' first
    | rfl
    | (simp; done)
    | split
    | ((try simp) <;> rw [each_kept])
    | ((try simp) <;> rw [foldl_kept])
    | intro _
    | (simp only [kept_mk, kept_fold])

@[simp] theorem State_dropRx_kept (s : State) (port key : Nat) : (State.dropRx s port key).kept = s.kept := by
  unfold State.dropRx
  try dsimp only
  repeat' first
    | rfl
    | (simp; done)
    | split
    | ((try simp) <;> rw [each_kept])
    | ((try simp) <;> rw [foldl_kept])
    | intro _
    | (simp only [kept_mk, kept_fold])

@[simp] theorem State_endIn_kept (s : State) (port stream : Nat) : (State.endIn s port stream).kept = s.kept := by
  unfold State.endIn
  try dsimp only
  repeat' first
    | rfl
    | (simp; done)
    | split
    | ((try simp) <;> rw [each_kept])
    | ((try simp) <;> rw [foldl_kept])
    | intro _
    | (simp only [kept_mk, kept_fold])

@[simp] theorem State_freeBuf_kept (s : State) (b : Option (Nat × Nat)) : (State.freeBuf s b).kept = s.kept := by
  unfold State.freeBuf
  try dsimp only
  repeat' first
    | rfl
    | (simp; done)
    | split
    | ((try simp) <;> rw [each_kept])
    | ((try simp) <;> rw [foldl_kept])
    | intro _
    | (simp only [kept_mk, kept_fold])

@[simp] theorem State_dropTx_kept (s : State) (port : Nat) (f : SlotRef → Bool) : (State.dropTx s port f).kept = s.kept := by
  unfold State.dropTx
  try dsimp only
  repeat' first
    | rfl
    | (simp; done)
    | split
    | ((try simp) <;> rw [each_kept])
    | ((try simp) <;> rw [foldl_kept])
    | intro _
    | (simp only [kept_mk, kept_fold])

@[simp] theorem State_abortIn_kept (s : State) (port : Nat) (e : Nat × MsgOpen) : (State.abortIn s port e).kept = s.kept := by
  unfold State.abortIn
  try dsimp only
  repeat' first
    | rfl
    | (simp; done)
    | split
    | ((try simp) <;> rw [each_kept])
    | ((try simp) <;> rw [foldl_kept])
    | intro _
    | (simp only [kept_mk, kept_fold])

@[simp] theorem State_abortIns_kept (s : State) (port : Nat) : (State.abortIns s port).kept = s.kept := by
  unfold State.abortIns
  try dsimp only
  repeat' first
    | rfl
    | (simp; done)
    | split
    | ((try simp) <;> rw [each_kept])
    | ((try simp) <;> rw [foldl_kept])
    | intro _
    | (simp only [kept_mk, kept_fold])

@[simp] theorem State_abortOuts_kept (s : State) (port : Nat) : (State.abortOuts s port).kept = s.kept := by
  unfold State.abortOuts
  try dsimp only
  repeat' first
    | rfl
    | (simp; done)
    | split
    | ((try simp) <;> rw [each_kept])
    | ((try simp) <;> rw [foldl_kept])
    | intro _
    | (simp only [kept_mk, kept_fold])

@[simp] theorem State_losePort_kept (s : State) (port : Nat) (st : BitVec 3) (fail : BitVec 4) : (State.losePort s port st fail).kept = s.kept := by
  unfold State.losePort
  try dsimp only
  repeat' first
    | rfl
    | (simp; done)
    | split
    | ((try simp) <;> rw [each_kept])
    | ((try simp) <;> rw [foldl_kept])
    | intro _
    | (simp only [kept_mk, kept_fold])

@[simp] theorem closeSwitch_kept (s : State) (i : Nat) (why : BitVec 4) : (s.closeSwitch i why).kept = s.kept := by
  have lose (t : State) : (t.each (portsOf i) (fun u p => u.losePort p 0 (u.port p).fail)).kept = t.kept :=
    each_kept (fun _ _ => State_losePort_kept ..) t
  unfold State.closeSwitch
  dsimp only
  split
  · exact (lose _).trans (State_moveSwitch_kept ..)
  · exact (lose _).trans (State_moveSwitch_kept ..)
  · exact (lose _).trans (State_moveSwitch_kept ..)
  · exact (lose _).trans (State_moveSwitch_kept ..)
  · rfl

@[simp] theorem State_writeJoin_kept (s : State) (i : Nat) (on : Bool) : (State.writeJoin s i on).kept = s.kept := by
  unfold State.writeJoin
  try dsimp only
  repeat' first
    | rfl
    | (simp; done)
    | split
    | ((try simp) <;> rw [each_kept])
    | ((try simp) <;> rw [foldl_kept])
    | intro _
    | (simp only [kept_mk, kept_fold])

@[simp] theorem State_writeDrain_kept (s : State) (n : Nat) (on : Bool) : (State.writeDrain s n on).kept = s.kept := by
  unfold State.writeDrain
  try dsimp only
  repeat' first
    | rfl
    | (simp; done)
    | split
    | ((try simp) <;> rw [each_kept])
    | ((try simp) <;> rw [foldl_kept])
    | intro _
    | (simp only [kept_mk, kept_fold])

@[simp] theorem State_startPattern_kept (s : State) (n : Nat) : (State.startPattern s n).kept = s.kept := by
  unfold State.startPattern
  try dsimp only
  repeat' first
    | rfl
    | (simp; done)
    | split
    | ((try simp) <;> rw [each_kept])
    | ((try simp) <;> rw [foldl_kept])
    | intro _
    | (simp only [kept_mk, kept_fold])

@[simp] theorem State_writePattern_kept (s : State) (n : Nat) : (State.writePattern s n).kept = s.kept := by
  unfold State.writePattern
  try dsimp only
  repeat' first
    | rfl
    | (simp; done)
    | split
    | ((try simp) <;> rw [each_kept])
    | ((try simp) <;> rw [foldl_kept])
    | intro _
    | (simp only [kept_mk, kept_fold])

@[simp] theorem State_lanesRepair_kept (s : State) (n : Nat) (lanes : BitVec 8) : (State.lanesRepair s n lanes).kept = s.kept := by
  unfold State.lanesRepair
  try dsimp only
  repeat' first
    | rfl
    | (simp; done)
    | split
    | ((try simp) <;> rw [each_kept])
    | ((try simp) <;> rw [foldl_kept])
    | intro _
    | (simp only [kept_mk, kept_fold])

@[simp] theorem State_learnAway_kept (s : State) (n : Nat) (peer : BitVec 11) : (State.learnAway s n peer).kept = s.kept := by
  unfold State.learnAway
  try dsimp only
  repeat' first
    | rfl
    | (simp; done)
    | split
    | ((try simp) <;> rw [each_kept])
    | ((try simp) <;> rw [foldl_kept])
    | intro _
    | (simp only [kept_mk, kept_fold])

@[simp] theorem State_queueMsg_kept (s : State) (port stream vc : Nat) (m : MsgOpen) (data : List Byte) (tag : BitVec 128) : (State.queueMsg s port stream vc m data tag).kept = s.kept := by
  unfold State.queueMsg
  try dsimp only
  repeat' first
    | rfl
    | (simp; done)
    | split
    | ((try simp) <;> rw [each_kept])
    | ((try simp) <;> rw [foldl_kept])
    | intro _
    | (simp only [kept_mk, kept_fold])

@[simp] theorem State_startMsg_kept (s : State) (port : Nat) : (State.startMsg s port).kept = s.kept := by
  unfold State.startMsg
  try dsimp only
  repeat' first
    | rfl
    | (simp; done)
    | split
    | ((try simp) <;> rw [each_kept])
    | ((try simp) <;> rw [foldl_kept])
    | intro _
    | (simp only [kept_mk, kept_fold])

@[simp] theorem State_takeSlot_kept (s : State) (n : Nat) (x : SlotRef) : (State.takeSlot s n x).kept = s.kept := by
  unfold State.takeSlot
  try dsimp only
  repeat' first
    | rfl
    | (simp; done)
    | split
    | ((try simp) <;> rw [each_kept])
    | ((try simp) <;> rw [foldl_kept])
    | intro _
    | (simp only [kept_mk, kept_fold])

@[simp] theorem State_applyCand_kept (s : State) (m : MsgOpen) (data : List Byte) : (State.applyCand s m data).kept = s.kept := by
  unfold State.applyCand
  try dsimp only
  repeat' first
    | rfl
    | (simp; done)
    | split
    | ((try simp) <;> rw [each_kept])
    | ((try simp) <;> rw [foldl_kept])
    | intro _
    | (simp only [kept_mk, kept_fold])

@[simp] theorem State_armGates_kept (s : State) (k : Course) : (State.armGates s k).kept = s.kept := by
  unfold State.armGates
  try dsimp only
  repeat' first
    | rfl
    | (simp; done)
    | split
    | ((try simp) <;> rw [each_kept])
    | ((try simp) <;> rw [foldl_kept])
    | intro _
    | (simp only [kept_mk, kept_fold])

@[simp] theorem State_takeLocker_kept (s : State) (k : Course) : (State.takeLocker s k).kept = s.kept := by
  unfold State.takeLocker
  try dsimp only
  repeat' first
    | rfl
    | (simp; done)
    | split
    | ((try simp) <;> rw [each_kept])
    | ((try simp) <;> rw [foldl_kept])
    | intro _
    | (simp only [kept_mk, kept_fold])

@[simp] theorem State_install_kept (s : State) (c : Nat) (k0 : Course) (scales : List Nat) : (State.install s c k0 scales).kept = s.kept := by
  unfold State.install
  try dsimp only
  repeat' first
    | rfl
    | (simp; done)
    | split
    | ((try simp) <;> rw [each_kept])
    | ((try simp) <;> rw [foldl_kept])
    | intro _
    | (simp only [kept_mk, kept_fold])

@[simp] theorem chargeHeaders_kept (s t : State) (b : BitVec 12) : (State.chargeHeaders s t b).kept = t.kept := by
  unfold State.chargeHeaders; simp

@[simp] theorem State_countLoadStages_kept (s : State) (c : Nat) (k : Course) (ds : List Nat) : (State.countLoadStages s c k ds).kept = s.kept := by
  unfold State.countLoadStages
  try dsimp only
  repeat' first
    | rfl
    | (simp; done)
    | split
    | ((try simp) <;> rw [each_kept])
    | ((try simp) <;> rw [foldl_kept])
    | intro _
    | (simp only [kept_mk, kept_fold])

@[simp] theorem State_spill_kept (s : State) (k : Course) (c : Nat) (e : LkrEntry) (tier page : Nat) : (State.spill s k c e tier page).kept = s.kept := by
  unfold State.spill
  try dsimp only
  repeat' first
    | rfl
    | (simp; done)
    | split
    | ((try simp) <;> rw [each_kept])
    | ((try simp) <;> rw [foldl_kept])
    | intro _
    | (simp only [kept_mk, kept_fold])

@[simp] theorem State_loseEntry_kept (s : State) (e : LkrEntry) : (State.loseEntry s e).kept = s.kept := by
  unfold State.loseEntry
  try dsimp only
  repeat' first
    | rfl
    | (simp; done)
    | split
    | ((try simp) <;> rw [each_kept])
    | ((try simp) <;> rw [foldl_kept])
    | intro _
    | (simp only [kept_mk, kept_fold])

@[simp] theorem State_driveAlert_kept (s : State) : (State.driveAlert s).kept = s.kept := by
  unfold State.driveAlert
  try dsimp only
  repeat' first
    | rfl
    | (simp; done)
    | split
    | ((try simp) <;> rw [each_kept])
    | ((try simp) <;> rw [foldl_kept])
    | intro _
    | (simp only [kept_mk, kept_fold])

@[simp] theorem State_readings_kept (s : State) (r : Readings) : (State.readings s r).kept = s.kept := by
  unfold State.readings
  try dsimp only
  repeat' first
    | rfl
    | (simp; done)
    | split
    | ((try simp) <;> rw [each_kept])
    | ((try simp) <;> rw [foldl_kept])
    | intro _
    | (simp only [kept_mk, kept_fold])

@[simp] theorem State_tickHold_kept (s : State) (c : Nat) : (State.tickHold s c).kept = s.kept := by
  unfold State.tickHold
  try dsimp only
  repeat' first
    | rfl
    | (simp; done)
    | split
    | ((try simp) <;> rw [each_kept])
    | ((try simp) <;> rw [foldl_kept])
    | intro _
    | (simp only [kept_mk, kept_fold])

@[simp] theorem State_writeRinkCfg_kept (s : State) (v : BitVec 128) : (State.writeRinkCfg s v).kept = s.kept := by
  unfold State.writeRinkCfg
  try dsimp only
  repeat' first
    | rfl
    | (simp; done)
    | split
    | ((try simp) <;> rw [each_kept])
    | ((try simp) <;> rw [foldl_kept])
    | intro _
    | (simp only [kept_mk, kept_fold])

@[simp] theorem State_writeStnCtl_kept (s : State) (p : Nat) (v : BitVec 128) : (State.writeStnCtl s p v).kept = s.kept := by
  unfold State.writeStnCtl
  try dsimp only
  repeat' first
    | rfl
    | (simp; done)
    | split
    | ((try simp) <;> rw [each_kept])
    | ((try simp) <;> rw [foldl_kept])
    | intro _
    | (simp only [kept_mk, kept_fold])

@[simp] theorem State_writeHoldStat_kept (s : State) (c : Nat) (v : BitVec 128) : (State.writeHoldStat s c v).kept = s.kept := by
  unfold State.writeHoldStat
  try dsimp only
  repeat' first
    | rfl
    | (simp; done)
    | split
    | ((try simp) <;> rw [each_kept])
    | ((try simp) <;> rw [foldl_kept])
    | intro _
    | (simp only [kept_mk, kept_fold])

@[simp] theorem State_writeStkEcc_kept (s : State) (i : Nat) (v : BitVec 128) : (State.writeStkEcc s i v).kept = s.kept := by
  unfold State.writeStkEcc
  try dsimp only
  repeat' first
    | rfl
    | (simp; done)
    | split
    | ((try simp) <;> rw [each_kept])
    | ((try simp) <;> rw [foldl_kept])
    | intro _
    | (simp only [kept_mk, kept_fold])

@[simp] theorem State_writeUpdSlot_kept (s : State) (c : Nat) (v : BitVec 128) : (State.writeUpdSlot s c v).kept = s.kept := by
  unfold State.writeUpdSlot
  try dsimp only
  repeat' first
    | rfl
    | (simp; done)
    | split
    | ((try simp) <;> rw [each_kept])
    | ((try simp) <;> rw [foldl_kept])
    | intro _
    | (simp only [kept_mk, kept_fold])

@[simp] theorem State_writeSlPort_kept (s : State) (n : Nat) (v : BitVec 128) : (State.writeSlPort s n v).kept = s.kept := by
  unfold State.writeSlPort
  try dsimp only
  repeat' first
    | rfl
    | (simp; done)
    | split
    | ((try simp) <;> rw [each_kept])
    | ((try simp) <;> rw [foldl_kept])
    | intro _
    | (simp only [kept_mk, kept_fold])

@[simp] theorem State_writePfCtl_kept (s : State) (v : BitVec 128) : (State.writePfCtl s v).kept = s.kept := by
  unfold State.writePfCtl
  try dsimp only
  repeat' first
    | rfl
    | (simp; done)
    | split
    | ((try simp) <;> rw [each_kept])
    | ((try simp) <;> rw [foldl_kept])
    | intro _
    | (simp only [kept_mk, kept_fold])

@[simp] theorem State_writeFeedReg_kept (s : State) (f : Nat) (v : BitVec 128) : (State.writeFeedReg s f v).kept = s.kept := by
  unfold State.writeFeedReg
  try dsimp only
  repeat' first
    | rfl
    | (simp; done)
    | split
    | ((try simp) <;> rw [each_kept])
    | ((try simp) <;> rw [foldl_kept])
    | intro _
    | (simp only [kept_mk, kept_fold])

@[simp] theorem State_writeRegister_kept (s : State) (off : Nat) (v : BitVec 128) : (State.writeRegister s off v).kept = s.kept := by
  unfold State.writeRegister
  try dsimp only
  repeat' first
    | rfl
    | (simp; done)
    | split
    | ((try simp) <;> rw [each_kept])
    | ((try simp) <;> rw [foldl_kept])
    | intro _
    | (simp only [kept_mk, kept_fold])

@[simp] theorem State_beginTest_kept (s : State) (unit inst : Nat) : (State.beginTest s unit inst).kept = s.kept := by
  unfold State.beginTest
  try dsimp only
  repeat' first
    | rfl
    | (simp; done)
    | split
    | ((try simp) <;> rw [each_kept])
    | ((try simp) <;> rw [foldl_kept])
    | intro _
    | (simp only [kept_mk, kept_fold])

@[simp] theorem State_fuseOut_kept (s : State) (p : Nat) : (State.fuseOut s p).kept = s.kept := by
  unfold State.fuseOut
  try dsimp only
  repeat' first
    | rfl
    | (simp; done)
    | split
    | ((try simp) <;> rw [each_kept])
    | ((try simp) <;> rw [foldl_kept])
    | intro _
    | (simp only [kept_mk, kept_fold])

@[simp] theorem State_repair_kept (s : State) (p : Nat) (o : TestOutcome) : (State.repair s p o).kept = s.kept := by
  unfold State.repair
  try dsimp only
  repeat' first
    | rfl
    | (simp; done)
    | split
    | ((try simp) <;> rw [each_kept])
    | ((try simp) <;> rw [foldl_kept])
    | intro _
    | (simp only [kept_mk, kept_fold])

@[simp] theorem State_returnStn_kept (s : State) (p : Nat) : (State.returnStn s p).kept = s.kept := by
  unfold State.returnStn
  try dsimp only
  repeat' first
    | rfl
    | (simp; done)
    | split
    | ((try simp) <;> rw [each_kept])
    | ((try simp) <;> rw [foldl_kept])
    | intro _
    | (simp only [kept_mk, kept_fold])

@[simp] theorem State_endTest_kept (s : State) (unit : BitVec 4) (inst : BitVec 12) (st : TestStat) : (State.endTest s unit inst st).kept = s.kept := by
  unfold State.endTest
  try dsimp only
  repeat' first
    | rfl
    | (simp; done)
    | split
    | ((try simp) <;> rw [each_kept])
    | ((try simp) <;> rw [foldl_kept])
    | intro _
    | (simp only [kept_mk, kept_fold])

@[simp] theorem State_atRow_kept (s : State) (r : BootRow) : (State.atRow s r).kept = s.kept := by
  unfold State.atRow
  try dsimp only
  repeat' first
    | rfl
    | (simp; done)
    | split
    | ((try simp) <;> rw [each_kept])
    | ((try simp) <;> rw [foldl_kept])
    | intro _
    | (simp only [kept_mk, kept_fold])

@[simp] theorem State_jtag_kept (s : State) (ir : JtagIr) (dr : Nat) : (State.jtag s ir dr).kept = s.kept := by
  unfold State.jtag
  try dsimp only
  repeat' first
    | rfl
    | (simp; done)
    | split
    | ((try simp) <;> rw [each_kept])
    | ((try simp) <;> rw [foldl_kept])
    | intro _
    | (simp only [kept_mk, kept_fold])

@[simp] theorem State_afterRead_kept (s : State) (off : Nat) : (State.afterRead s off).kept = s.kept := by
  unfold State.afterRead
  try dsimp only
  repeat' first
    | rfl
    | (simp; done)
    | split
    | ((try simp) <;> rw [each_kept])
    | ((try simp) <;> rw [foldl_kept])
    | intro _
    | (simp only [kept_mk, kept_fold])

@[simp] theorem State_tickStrm_kept (s : State) (n : Nat) : (State.tickStrm s n).kept = s.kept := by
  unfold State.tickStrm
  try dsimp only
  repeat' first
    | rfl
    | (simp; done)
    | split
    | ((try simp) <;> rw [each_kept])
    | ((try simp) <;> rw [foldl_kept])
    | intro _
    | (simp only [kept_mk, kept_fold])

@[simp] theorem State_tickLate_kept (s : State) (c : Nat) : (State.tickLate s c).kept = s.kept := by
  unfold State.tickLate
  try dsimp only
  repeat' first
    | rfl
    | (simp; done)
    | split
    | ((try simp) <;> rw [each_kept])
    | ((try simp) <;> rw [foldl_kept])
    | intro _
    | (simp only [kept_mk, kept_fold])

@[simp] theorem State_tickVcore_kept (s : State) : (State.tickVcore s).kept = s.kept := by
  unfold State.tickVcore
  try dsimp only
  repeat' first
    | rfl
    | (simp; done)
    | split
    | ((try simp) <;> rw [each_kept])
    | ((try simp) <;> rw [foldl_kept])
    | intro _
    | (simp only [kept_mk, kept_fold])

@[simp] theorem State_tickUnits_kept (s : State) : (State.tickUnits s).kept = s.kept := by
  unfold State.tickUnits
  try dsimp only
  repeat' first
    | rfl
    | (simp; done)
    | split
    | ((try simp) <;> rw [each_kept])
    | ((try simp) <;> rw [foldl_kept])
    | intro _
    | (simp only [kept_mk, kept_fold])

theorem onObject_kept (s : State) (c : Hdr) (id : Nat) (f : LObj → State) (h : ∀ k, (f k).kept = s.kept) : (s.onObject c id f).kept = s.kept := by
  unfold State.onObject
  repeat' first | rfl | (simp [h]; done) | split

@[simp] theorem State_sendBytes_kept (s : State) (c : Hdr) (data : List Byte) : (State.sendBytes s c data).kept = s.kept := by
  unfold State.sendBytes
  try dsimp only
  repeat' first
    | rfl
    | (simp; done)
    | split
    | ((try simp) <;> rw [each_kept])
    | ((try simp) <;> rw [foldl_kept])
    | intro _
    | (simp only [kept_mk, kept_fold])

@[simp] theorem State_takeNorm_kept (s : State) (c : Nat) : (State.takeNorm s c).kept = s.kept := by
  unfold State.takeNorm
  try dsimp only
  repeat' first
    | rfl
    | (simp; done)
    | split
    | ((try simp) <;> rw [each_kept])
    | ((try simp) <;> rw [foldl_kept])
    | intro _
    | (simp only [kept_mk, kept_fold])

@[simp] theorem State_flipKey_kept (s : State) (j : Nat) (jb : Job) : (State.flipKey s j jb).kept = s.kept := by
  unfold State.flipKey
  try dsimp only
  repeat' first
    | rfl
    | (simp; done)
    | split
    | ((try simp) <;> rw [each_kept])
    | ((try simp) <;> rw [foldl_kept])
    | intro _
    | (simp only [kept_mk, kept_fold])

@[simp] theorem State_closeStep_kept (s : State) (c n : Nat) : (State.closeStep s c n).kept = s.kept := by
  unfold State.closeStep
  try dsimp only
  repeat' first
    | rfl
    | (simp; done)
    | split
    | ((try simp) <;> rw [each_kept])
    | ((try simp) <;> rw [foldl_kept])
    | intro _
    | (simp only [kept_mk, kept_fold])

@[simp] theorem State_withFetchWord_kept (s : State) (nbits w : Nat) : (State.withFetchWord s nbits w).kept = s.kept := by
  unfold State.withFetchWord
  try dsimp only
  repeat' first
    | rfl
    | (simp; done)
    | split
    | ((try simp) <;> rw [each_kept])
    | ((try simp) <;> rw [foldl_kept])
    | intro _
    | (simp only [kept_mk, kept_fold])

end Sys2Proof.Machine
end

