-- ==== Sys2Proof/Laws/Keeps.lean ====
section
/-! SUPPORT. Every memory operation, and every operation that stores bytes, keeps memory in its canonical form, the commands that wait, and never
lowers the fused security version minimum. -/

namespace Sys2Proof.Machine
set_option maxRecDepth 4000
set_option linter.unusedTactic false
set_option linter.unreachableTactic false
/-- The queue is the same, the minimum no lower, and canonical memory stays canonical. -/
def KeepsT (r t : Table Byte × List Instr × BitVec 8) : Prop :=
  t.2.1 = r.2.1 ∧ r.2.2.toNat ≤ t.2.2.toNat ∧ (Memory.wf r.1 = true → Memory.wf t.1 = true)
/-- `KeepsT` of two states. -/
abbrev Keeps (r s : State) : Prop := KeepsT r.kept s.kept
theorem Keeps.refl (s : State) : Keeps s s := ⟨rfl, le_refl _, id⟩
@[simp] theorem KeepsT.refl' (s : State) : KeepsT s.kept s.kept := ⟨rfl, le_refl _, id⟩
theorem each_keeps {α : Type} {r : State} {l : List α} {f : State → α → State} {s : State} (hs : Keeps r s) (h : ∀ t a, Keeps r t → Keeps r (f t a)) :
    Keeps r (s.each l f) := by
  induction l generalizing s with
  | nil => exact hs
  | cons a l ih => exact ih (h _ _ hs)
theorem foldl_keeps {α : Type} {r : State} {l : List α} {f : State → α → State} {s : State} (hs : Keeps r s) (h : ∀ t a, Keeps r t → Keeps r (f t a)) :
    Keeps r (l.foldl f s) := each_keeps hs h
@[simp] theorem keeps_eq (r s : State) : Keeps r s = KeepsT r.kept s.kept := rfl

theorem setByte_keeps {r : State} (s : State) (k : Nat) (b : Byte) (h : Keeps r s) : Keeps r (s.setByte k b) :=
  ⟨h.1, h.2.1, fun w => Table.canonical_write 0 k b (h.2.2 w)⟩

theorem setBytes_keeps {r : State} (s : State) (k : Nat) (l : List Byte) (h : Keeps r s) : Keeps r (s.setBytes k l) := by
  induction l generalizing s k with
  | nil => exact h
  | cons b l ih => exact ih _ _ (setByte_keeps s k b h)

theorem zeroBytes_keeps {r : State} (s : State) (lo n : Nat) (h : Keeps r s) : Keeps r (s.zeroBytes lo n) :=
  ⟨h.1, h.2.1, fun w => Table.canonical_keep 0 _ (h.2.2 w)⟩

theorem setElem_keeps {r0 : State} (s : State) (k : Nat) (f : Fmt) (r c code : Nat) (hk : Keeps r0 s) : Keeps r0 (State.setElem s k f r c code) := by
  unfold State.setElem
  try dsimp only
  repeat' first
    | with_reducible assumption
    | (simp only [keeps_eq]; simp; done)
    | (simp; done)
    | (simp; with_reducible assumption)
    | split
    | with_reducible apply setByte_keeps
    | with_reducible apply setBytes_keeps
    | with_reducible apply zeroBytes_keeps
    | with_reducible apply each_keeps
    | with_reducible apply foldl_keeps
    | intro _
    | simp

theorem copyBytes_keeps {r0 : State} (s : State) (src dst n : Nat) (hk : Keeps r0 s) : Keeps r0 (State.copyBytes s src dst n) := by
  unfold State.copyBytes
  try dsimp only
  repeat' first
    | with_reducible assumption
    | (simp only [keeps_eq]; simp; done)
    | (simp; done)
    | (simp; with_reducible assumption)
    | split
    | with_reducible apply setByte_keeps
    | with_reducible apply setBytes_keeps
    | with_reducible apply zeroBytes_keeps
    | with_reducible apply setElem_keeps
    | with_reducible apply each_keeps
    | with_reducible apply foldl_keeps
    | intro _
    | simp

theorem moduleReset_keeps {r : State} (s : State) (h : Keeps r s) : Keeps r s.moduleReset :=
  ⟨h.1, h.2.1, fun w => Table.canonical_keep 0 _ (h.2.2 w)⟩

theorem lose_keeps {r0 : State} (s : State) (st : SeqStage) (hk : Keeps r0 s) : Keeps r0 (State.lose s st) := by
  unfold State.lose
  try dsimp only
  repeat' first
    | with_reducible assumption
    | (simp only [keeps_eq]; simp; done)
    | (simp; done)
    | (simp; with_reducible assumption)
    | split
    | with_reducible apply setByte_keeps
    | with_reducible apply setBytes_keeps
    | with_reducible apply zeroBytes_keeps
    | with_reducible apply setElem_keeps
    | with_reducible apply copyBytes_keeps
    | with_reducible apply moduleReset_keeps
    | with_reducible apply each_keeps
    | with_reducible apply foldl_keeps
    | intro _
    | simp

theorem allOff_keeps {r0 : State} (s : State) (hk : Keeps r0 s) : Keeps r0 (State.allOff s) := by
  unfold State.allOff
  try dsimp only
  repeat' first
    | with_reducible assumption
    | (simp only [keeps_eq]; simp; done)
    | (simp; done)
    | (simp; with_reducible assumption)
    | split
    | with_reducible apply setByte_keeps
    | with_reducible apply setBytes_keeps
    | with_reducible apply zeroBytes_keeps
    | with_reducible apply setElem_keeps
    | with_reducible apply copyBytes_keeps
    | with_reducible apply moduleReset_keeps
    | with_reducible apply lose_keeps
    | with_reducible apply each_keeps
    | with_reducible apply foldl_keeps
    | intro _
    | simp

theorem unfed_keeps {r0 : State} (s : State) (hk : Keeps r0 s) : Keeps r0 (State.unfed s) := by
  unfold State.unfed
  try dsimp only
  repeat' first
    | with_reducible assumption
    | (simp only [keeps_eq]; simp; done)
    | (simp; done)
    | (simp; with_reducible assumption)
    | split
    | with_reducible apply setByte_keeps
    | with_reducible apply setBytes_keeps
    | with_reducible apply zeroBytes_keeps
    | with_reducible apply setElem_keeps
    | with_reducible apply copyBytes_keeps
    | with_reducible apply moduleReset_keeps
    | with_reducible apply lose_keeps
    | with_reducible apply allOff_keeps
    | with_reducible apply each_keeps
    | with_reducible apply foldl_keeps
    | intro _
    | simp

theorem refuseImage_keeps {r0 : State} (s : State) (kind : BitVec 3) (hk : Keeps r0 s) : Keeps r0 (State.refuseImage s kind) := by
  unfold State.refuseImage
  try dsimp only
  repeat' first
    | with_reducible assumption
    | (simp only [keeps_eq]; simp; done)
    | (simp; done)
    | (simp; with_reducible assumption)
    | split
    | with_reducible apply setByte_keeps
    | with_reducible apply setBytes_keeps
    | with_reducible apply zeroBytes_keeps
    | with_reducible apply setElem_keeps
    | with_reducible apply copyBytes_keeps
    | with_reducible apply moduleReset_keeps
    | with_reducible apply lose_keeps
    | with_reducible apply allOff_keeps
    | with_reducible apply unfed_keeps
    | with_reducible apply each_keeps
    | with_reducible apply foldl_keeps
    | intro _
    | simp

theorem svnWaiting_keeps {r0 : State} (s : State) (hk : Keeps r0 s) : Keeps r0 s.svnWaiting := by
  refine each_keeps hk fun t e ht => ?_
  dsimp only
  split
  · split_ifs with h1 h2
    · simp only [keeps_eq, State_complete_kept]
      exact ⟨ht.1, le_trans ht.2.1 (le_of_lt h2), ht.2.2⟩
    · simpa using ht
    · exact ht
  · exact ht

theorem commitOut_keeps {r0 : State} (s : State) (u : UseCfg) (hk : Keeps r0 s) : Keeps r0 (State.commitOut s u) := by
  unfold State.commitOut
  try dsimp only
  repeat' first
    | with_reducible assumption
    | (simp only [keeps_eq]; simp; done)
    | (simp; done)
    | (simp; with_reducible assumption)
    | split
    | with_reducible apply setByte_keeps
    | with_reducible apply setBytes_keeps
    | with_reducible apply zeroBytes_keeps
    | with_reducible apply setElem_keeps
    | with_reducible apply copyBytes_keeps
    | with_reducible apply moduleReset_keeps
    | with_reducible apply lose_keeps
    | with_reducible apply allOff_keeps
    | with_reducible apply unfed_keeps
    | with_reducible apply refuseImage_keeps
    | with_reducible apply svnWaiting_keeps
    | with_reducible apply each_keeps
    | with_reducible apply foldl_keeps
    | intro _
    | simp

theorem correctLine_keeps {r0 : State} (s : State) (i : Nat) (die : BitVec 4) (line : Nat) (hk : Keeps r0 s) : Keeps r0 (State.correctLine s i die line) := by
  unfold State.correctLine
  try dsimp only
  repeat' first
    | with_reducible assumption
    | (simp only [keeps_eq]; simp; done)
    | (simp; done)
    | (simp; with_reducible assumption)
    | split
    | with_reducible apply setByte_keeps
    | with_reducible apply setBytes_keeps
    | with_reducible apply zeroBytes_keeps
    | with_reducible apply setElem_keeps
    | with_reducible apply copyBytes_keeps
    | with_reducible apply moduleReset_keeps
    | with_reducible apply lose_keeps
    | with_reducible apply allOff_keeps
    | with_reducible apply unfed_keeps
    | with_reducible apply refuseImage_keeps
    | with_reducible apply svnWaiting_keeps
    | with_reducible apply commitOut_keeps
    | with_reducible apply each_keeps
    | with_reducible apply foldl_keeps
    | intro _
    | simp

theorem addElems_keeps {r0 s0 : State} (home : HomeAddr) (rnd : Nat → Rnd) (l : List (BitVec 40 × Nat)) :
    ∀ a : State × Bool, Keeps r0 a.1 → Keeps r0 (l.foldl (s0.addElem home rnd) a).1 := by
  induction l with
  | nil => exact fun _ h => h
  | cons e l ih => exact fun a h => ih _ (setElem_keeps _ _ _ _ _ _ h)

theorem addTile_keeps {r0 : State} (s : State) (k : Course) (t : TileId) (h : TileHdr) (slot : BitVec 8) (term : BitVec 32) (sr : Bool)
    (seed : BitVec 4) (vals : List (BitVec 40)) (hk : Keeps r0 s) : Keeps r0 (s.addTile k t h slot term sr seed vals) := by
  unfold State.addTile
  have := addElems_keeps (r0 := r0) (s0 := s) h.home
  repeat' first
    | (simp only [keeps_eq]; simp; done)
    | (simp only [keeps_eq]; simp; with_reducible assumption)
    | split
    | (simp only [keeps_eq]; simp; exact this _ _ (s, false) hk)

theorem takeAddend_keeps {r0 : State} (s : State) (t : TileId) (src : AddSrc) (hk : Keeps r0 s) : Keeps r0 (State.takeAddend s t src) := by
  unfold State.takeAddend
  try dsimp only
  repeat' first
    | with_reducible assumption
    | (simp only [keeps_eq]; simp; done)
    | (simp; done)
    | (simp; with_reducible assumption)
    | split
    | with_reducible apply setByte_keeps
    | with_reducible apply setBytes_keeps
    | with_reducible apply zeroBytes_keeps
    | with_reducible apply setElem_keeps
    | with_reducible apply copyBytes_keeps
    | with_reducible apply moduleReset_keeps
    | with_reducible apply lose_keeps
    | with_reducible apply allOff_keeps
    | with_reducible apply unfed_keeps
    | with_reducible apply refuseImage_keeps
    | with_reducible apply svnWaiting_keeps
    | with_reducible apply commitOut_keeps
    | with_reducible apply correctLine_keeps
    | with_reducible apply addTile_keeps
    | with_reducible apply each_keeps
    | with_reducible apply foldl_keeps
    | intro _
    | simp

theorem lineOp_keeps {r0 : State} (s : State) (dir : GatherDir) (src dst : Nat) (hk : Keeps r0 s) : Keeps r0 (State.lineOp s dir src dst) := by
  unfold State.lineOp
  try dsimp only
  repeat' first
    | with_reducible assumption
    | (simp only [keeps_eq]; simp; done)
    | (simp; done)
    | (simp; with_reducible assumption)
    | split
    | with_reducible apply setByte_keeps
    | with_reducible apply setBytes_keeps
    | with_reducible apply zeroBytes_keeps
    | with_reducible apply setElem_keeps
    | with_reducible apply copyBytes_keeps
    | with_reducible apply moduleReset_keeps
    | with_reducible apply lose_keeps
    | with_reducible apply allOff_keeps
    | with_reducible apply unfed_keeps
    | with_reducible apply refuseImage_keeps
    | with_reducible apply svnWaiting_keeps
    | with_reducible apply commitOut_keeps
    | with_reducible apply correctLine_keeps
    | with_reducible apply addTile_keeps
    | with_reducible apply takeAddend_keeps
    | with_reducible apply each_keeps
    | with_reducible apply foldl_keeps
    | intro _
    | simp

theorem vaWrite_keeps {r0 : State} (s : State) (b : BitVec 12) (va : Nat) (bs : List Byte) (hk : Keeps r0 s) : Keeps r0 (State.vaWrite s b va bs) := by
  unfold State.vaWrite
  try dsimp only
  repeat' first
    | with_reducible assumption
    | (simp only [keeps_eq]; simp; done)
    | (simp; done)
    | (simp; with_reducible assumption)
    | split
    | with_reducible apply setByte_keeps
    | with_reducible apply setBytes_keeps
    | with_reducible apply zeroBytes_keeps
    | with_reducible apply setElem_keeps
    | with_reducible apply copyBytes_keeps
    | with_reducible apply moduleReset_keeps
    | with_reducible apply lose_keeps
    | with_reducible apply allOff_keeps
    | with_reducible apply unfed_keeps
    | with_reducible apply refuseImage_keeps
    | with_reducible apply svnWaiting_keeps
    | with_reducible apply commitOut_keeps
    | with_reducible apply correctLine_keeps
    | with_reducible apply addTile_keeps
    | with_reducible apply takeAddend_keeps
    | with_reducible apply lineOp_keeps
    | with_reducible apply each_keeps
    | with_reducible apply foldl_keeps
    | intro _
    | simp

theorem evict_keeps {r0 : State} (s : State) (b : BitVec 12) (frame l : Nat) (hk : Keeps r0 s) : Keeps r0 (State.evict s b frame l) := by
  unfold State.evict
  try dsimp only
  repeat' first
    | with_reducible assumption
    | (simp only [keeps_eq]; simp; done)
    | (simp; done)
    | (simp; with_reducible assumption)
    | split
    | with_reducible apply setByte_keeps
    | with_reducible apply setBytes_keeps
    | with_reducible apply zeroBytes_keeps
    | with_reducible apply setElem_keeps
    | with_reducible apply copyBytes_keeps
    | with_reducible apply moduleReset_keeps
    | with_reducible apply lose_keeps
    | with_reducible apply allOff_keeps
    | with_reducible apply unfed_keeps
    | with_reducible apply refuseImage_keeps
    | with_reducible apply svnWaiting_keeps
    | with_reducible apply commitOut_keeps
    | with_reducible apply correctLine_keeps
    | with_reducible apply addTile_keeps
    | with_reducible apply takeAddend_keeps
    | with_reducible apply lineOp_keeps
    | with_reducible apply vaWrite_keeps
    | with_reducible apply each_keeps
    | with_reducible apply foldl_keeps
    | intro _
    | simp

theorem beginCommit_keeps {r0 : State} (s : State) (id : Nat) (hk : Keeps r0 s) : Keeps r0 (State.beginCommit s id) := by
  unfold State.beginCommit
  try dsimp only
  repeat' first
    | with_reducible assumption
    | (simp only [keeps_eq]; simp; done)
    | (simp; done)
    | (simp; with_reducible assumption)
    | split
    | with_reducible apply setByte_keeps
    | with_reducible apply setBytes_keeps
    | with_reducible apply zeroBytes_keeps
    | with_reducible apply setElem_keeps
    | with_reducible apply copyBytes_keeps
    | with_reducible apply moduleReset_keeps
    | with_reducible apply lose_keeps
    | with_reducible apply allOff_keeps
    | with_reducible apply unfed_keeps
    | with_reducible apply refuseImage_keeps
    | with_reducible apply svnWaiting_keeps
    | with_reducible apply commitOut_keeps
    | with_reducible apply correctLine_keeps
    | with_reducible apply addTile_keeps
    | with_reducible apply takeAddend_keeps
    | with_reducible apply lineOp_keeps
    | with_reducible apply vaWrite_keeps
    | with_reducible apply evict_keeps
    | with_reducible apply each_keeps
    | with_reducible apply foldl_keeps
    | intro _
    | simp

theorem writePatch_keeps {r0 : State} (s : State) (home : HomeAddr) (f : Fmt) (p : Nat) (codes : List Nat) (scale : BitVec 8) (hk : Keeps r0 s) : Keeps r0 (State.writePatch s home f p codes scale) := by
  unfold State.writePatch
  try dsimp only
  repeat' first
    | with_reducible assumption
    | (simp only [keeps_eq]; simp; done)
    | (simp; done)
    | (simp; with_reducible assumption)
    | split
    | with_reducible apply setByte_keeps
    | with_reducible apply setBytes_keeps
    | with_reducible apply zeroBytes_keeps
    | with_reducible apply setElem_keeps
    | with_reducible apply copyBytes_keeps
    | with_reducible apply moduleReset_keeps
    | with_reducible apply lose_keeps
    | with_reducible apply allOff_keeps
    | with_reducible apply unfed_keeps
    | with_reducible apply refuseImage_keeps
    | with_reducible apply svnWaiting_keeps
    | with_reducible apply commitOut_keeps
    | with_reducible apply correctLine_keeps
    | with_reducible apply addTile_keeps
    | with_reducible apply takeAddend_keeps
    | with_reducible apply lineOp_keeps
    | with_reducible apply vaWrite_keeps
    | with_reducible apply evict_keeps
    | with_reducible apply beginCommit_keeps
    | with_reducible apply each_keeps
    | with_reducible apply foldl_keeps
    | intro _
    | simp

theorem startSecuring_keeps {r0 : State} (s : State) (j : Nat) (job : Job) (c : Nat) (k : Course) (lodge : Bool) (hk : Keeps r0 s) : Keeps r0 (State.startSecuring s j job c k lodge) := by
  unfold State.startSecuring
  try dsimp only
  repeat' first
    | with_reducible assumption
    | (simp only [keeps_eq]; simp; done)
    | (simp; done)
    | (simp; with_reducible assumption)
    | split
    | with_reducible apply setByte_keeps
    | with_reducible apply setBytes_keeps
    | with_reducible apply zeroBytes_keeps
    | with_reducible apply setElem_keeps
    | with_reducible apply copyBytes_keeps
    | with_reducible apply moduleReset_keeps
    | with_reducible apply lose_keeps
    | with_reducible apply allOff_keeps
    | with_reducible apply unfed_keeps
    | with_reducible apply refuseImage_keeps
    | with_reducible apply svnWaiting_keeps
    | with_reducible apply commitOut_keeps
    | with_reducible apply correctLine_keeps
    | with_reducible apply addTile_keeps
    | with_reducible apply takeAddend_keeps
    | with_reducible apply lineOp_keeps
    | with_reducible apply vaWrite_keeps
    | with_reducible apply evict_keeps
    | with_reducible apply beginCommit_keeps
    | with_reducible apply writePatch_keeps
    | with_reducible apply each_keeps
    | with_reducible apply foldl_keeps
    | intro _
    | simp

theorem restore_keeps {r0 : State} (s : State) (k : Course) (b : SecBody) (hk : Keeps r0 s) : Keeps r0 (State.restore s k b) := by
  unfold State.restore
  try dsimp only
  repeat' first
    | with_reducible assumption
    | (simp only [keeps_eq]; simp; done)
    | (simp; done)
    | (simp; with_reducible assumption)
    | split
    | with_reducible apply setByte_keeps
    | with_reducible apply setBytes_keeps
    | with_reducible apply zeroBytes_keeps
    | with_reducible apply setElem_keeps
    | with_reducible apply copyBytes_keeps
    | with_reducible apply moduleReset_keeps
    | with_reducible apply lose_keeps
    | with_reducible apply allOff_keeps
    | with_reducible apply unfed_keeps
    | with_reducible apply refuseImage_keeps
    | with_reducible apply svnWaiting_keeps
    | with_reducible apply commitOut_keeps
    | with_reducible apply correctLine_keeps
    | with_reducible apply addTile_keeps
    | with_reducible apply takeAddend_keeps
    | with_reducible apply lineOp_keeps
    | with_reducible apply vaWrite_keeps
    | with_reducible apply evict_keeps
    | with_reducible apply beginCommit_keeps
    | with_reducible apply writePatch_keeps
    | with_reducible apply startSecuring_keeps
    | with_reducible apply each_keeps
    | with_reducible apply foldl_keeps
    | intro _
    | simp

theorem reemit_keeps {r0 : State} (s : State) (c : Nat) (k : Course) (hk : Keeps r0 s) : Keeps r0 (State.reemit s c k) := by
  unfold State.reemit
  try dsimp only
  repeat' first
    | with_reducible assumption
    | (simp only [keeps_eq]; simp; done)
    | (simp; done)
    | (simp; with_reducible assumption)
    | split
    | with_reducible apply setByte_keeps
    | with_reducible apply setBytes_keeps
    | with_reducible apply zeroBytes_keeps
    | with_reducible apply setElem_keeps
    | with_reducible apply copyBytes_keeps
    | with_reducible apply moduleReset_keeps
    | with_reducible apply lose_keeps
    | with_reducible apply allOff_keeps
    | with_reducible apply unfed_keeps
    | with_reducible apply refuseImage_keeps
    | with_reducible apply svnWaiting_keeps
    | with_reducible apply commitOut_keeps
    | with_reducible apply correctLine_keeps
    | with_reducible apply addTile_keeps
    | with_reducible apply takeAddend_keeps
    | with_reducible apply lineOp_keeps
    | with_reducible apply vaWrite_keeps
    | with_reducible apply evict_keeps
    | with_reducible apply beginCommit_keeps
    | with_reducible apply writePatch_keeps
    | with_reducible apply startSecuring_keeps
    | with_reducible apply restore_keeps
    | with_reducible apply each_keeps
    | with_reducible apply foldl_keeps
    | intro _
    | simp

theorem restoreJob_keeps {r0 : State} (s : State) (jb : Job) (n : BitVec 64) (hk : Keeps r0 s) : Keeps r0 (State.restoreJob s jb n) := by
  unfold State.restoreJob
  try dsimp only
  repeat' first
    | with_reducible assumption
    | (simp only [keeps_eq]; simp; done)
    | (simp; done)
    | (simp; with_reducible assumption)
    | split
    | with_reducible apply setByte_keeps
    | with_reducible apply setBytes_keeps
    | with_reducible apply zeroBytes_keeps
    | with_reducible apply setElem_keeps
    | with_reducible apply copyBytes_keeps
    | with_reducible apply moduleReset_keeps
    | with_reducible apply lose_keeps
    | with_reducible apply allOff_keeps
    | with_reducible apply unfed_keeps
    | with_reducible apply refuseImage_keeps
    | with_reducible apply svnWaiting_keeps
    | with_reducible apply commitOut_keeps
    | with_reducible apply correctLine_keeps
    | with_reducible apply addTile_keeps
    | with_reducible apply takeAddend_keeps
    | with_reducible apply lineOp_keeps
    | with_reducible apply vaWrite_keeps
    | with_reducible apply evict_keeps
    | with_reducible apply beginCommit_keeps
    | with_reducible apply writePatch_keeps
    | with_reducible apply startSecuring_keeps
    | with_reducible apply restore_keeps
    | with_reducible apply reemit_keeps
    | with_reducible apply each_keeps
    | with_reducible apply foldl_keeps
    | intro _
    | simp

theorem unmapPage_keeps {r0 : State} (s : State) (owner : BitVec 12) (p : Nat) (hk : Keeps r0 s) : Keeps r0 (State.unmapPage s owner p) := by
  unfold State.unmapPage
  try dsimp only
  repeat' first
    | with_reducible assumption
    | (simp only [keeps_eq]; simp; done)
    | (simp; done)
    | (simp; with_reducible assumption)
    | split
    | with_reducible apply setByte_keeps
    | with_reducible apply setBytes_keeps
    | with_reducible apply zeroBytes_keeps
    | with_reducible apply setElem_keeps
    | with_reducible apply copyBytes_keeps
    | with_reducible apply moduleReset_keeps
    | with_reducible apply lose_keeps
    | with_reducible apply allOff_keeps
    | with_reducible apply unfed_keeps
    | with_reducible apply refuseImage_keeps
    | with_reducible apply svnWaiting_keeps
    | with_reducible apply commitOut_keeps
    | with_reducible apply correctLine_keeps
    | with_reducible apply addTile_keeps
    | with_reducible apply takeAddend_keeps
    | with_reducible apply lineOp_keeps
    | with_reducible apply vaWrite_keeps
    | with_reducible apply evict_keeps
    | with_reducible apply beginCommit_keeps
    | with_reducible apply writePatch_keeps
    | with_reducible apply startSecuring_keeps
    | with_reducible apply restore_keeps
    | with_reducible apply reemit_keeps
    | with_reducible apply restoreJob_keeps
    | with_reducible apply each_keeps
    | with_reducible apply foldl_keeps
    | intro _
    | simp

theorem wipe_keeps {r0 : State} (s : State) (b : BitVec 12) (hk : Keeps r0 s) : Keeps r0 (State.wipe s b) := by
  unfold State.wipe
  try dsimp only
  repeat' first
    | with_reducible assumption
    | (simp only [keeps_eq]; simp; done)
    | (simp; done)
    | (simp; with_reducible assumption)
    | split
    | with_reducible apply setByte_keeps
    | with_reducible apply setBytes_keeps
    | with_reducible apply zeroBytes_keeps
    | with_reducible apply setElem_keeps
    | with_reducible apply copyBytes_keeps
    | with_reducible apply moduleReset_keeps
    | with_reducible apply lose_keeps
    | with_reducible apply allOff_keeps
    | with_reducible apply unfed_keeps
    | with_reducible apply refuseImage_keeps
    | with_reducible apply svnWaiting_keeps
    | with_reducible apply commitOut_keeps
    | with_reducible apply correctLine_keeps
    | with_reducible apply addTile_keeps
    | with_reducible apply takeAddend_keeps
    | with_reducible apply lineOp_keeps
    | with_reducible apply vaWrite_keeps
    | with_reducible apply evict_keeps
    | with_reducible apply beginCommit_keeps
    | with_reducible apply writePatch_keeps
    | with_reducible apply startSecuring_keeps
    | with_reducible apply restore_keeps
    | with_reducible apply reemit_keeps
    | with_reducible apply restoreJob_keeps
    | with_reducible apply unmapPage_keeps
    | with_reducible apply each_keeps
    | with_reducible apply foldl_keeps
    | intro _
    | simp

theorem flushLog_keeps {r0 : State} (s : State) (hk : Keeps r0 s) : Keeps r0 (State.flushLog s) := by
  unfold State.flushLog
  try dsimp only
  repeat' first
    | with_reducible assumption
    | (simp only [keeps_eq]; simp; done)
    | (simp; done)
    | (simp; with_reducible assumption)
    | split
    | with_reducible apply setByte_keeps
    | with_reducible apply setBytes_keeps
    | with_reducible apply zeroBytes_keeps
    | with_reducible apply setElem_keeps
    | with_reducible apply copyBytes_keeps
    | with_reducible apply moduleReset_keeps
    | with_reducible apply lose_keeps
    | with_reducible apply allOff_keeps
    | with_reducible apply unfed_keeps
    | with_reducible apply refuseImage_keeps
    | with_reducible apply svnWaiting_keeps
    | with_reducible apply commitOut_keeps
    | with_reducible apply correctLine_keeps
    | with_reducible apply addTile_keeps
    | with_reducible apply takeAddend_keeps
    | with_reducible apply lineOp_keeps
    | with_reducible apply vaWrite_keeps
    | with_reducible apply evict_keeps
    | with_reducible apply beginCommit_keeps
    | with_reducible apply writePatch_keeps
    | with_reducible apply startSecuring_keeps
    | with_reducible apply restore_keeps
    | with_reducible apply reemit_keeps
    | with_reducible apply restoreJob_keeps
    | with_reducible apply unmapPage_keeps
    | with_reducible apply wipe_keeps
    | with_reducible apply each_keeps
    | with_reducible apply foldl_keeps
    | intro _
    | simp

theorem applyWrite_keeps {r0 : State} (s : State) (m : MsgOpen) (data : List Byte) (hk : Keeps r0 s) : Keeps r0 (State.applyWrite s m data) := by
  unfold State.applyWrite
  try dsimp only
  repeat' first
    | with_reducible assumption
    | (simp only [keeps_eq]; simp; done)
    | (simp; done)
    | (simp; with_reducible assumption)
    | split
    | with_reducible apply setByte_keeps
    | with_reducible apply setBytes_keeps
    | with_reducible apply zeroBytes_keeps
    | with_reducible apply setElem_keeps
    | with_reducible apply copyBytes_keeps
    | with_reducible apply moduleReset_keeps
    | with_reducible apply lose_keeps
    | with_reducible apply allOff_keeps
    | with_reducible apply unfed_keeps
    | with_reducible apply refuseImage_keeps
    | with_reducible apply svnWaiting_keeps
    | with_reducible apply commitOut_keeps
    | with_reducible apply correctLine_keeps
    | with_reducible apply addTile_keeps
    | with_reducible apply takeAddend_keeps
    | with_reducible apply lineOp_keeps
    | with_reducible apply vaWrite_keeps
    | with_reducible apply evict_keeps
    | with_reducible apply beginCommit_keeps
    | with_reducible apply writePatch_keeps
    | with_reducible apply startSecuring_keeps
    | with_reducible apply restore_keeps
    | with_reducible apply reemit_keeps
    | with_reducible apply restoreJob_keeps
    | with_reducible apply unmapPage_keeps
    | with_reducible apply wipe_keeps
    | with_reducible apply flushLog_keeps
    | with_reducible apply each_keeps
    | with_reducible apply foldl_keeps
    | intro _
    | simp

theorem applyAdd_keeps {r0 : State} (s : State) (m : MsgOpen) (data : List Byte) (hk : Keeps r0 s) : Keeps r0 (State.applyAdd s m data) := by
  unfold State.applyAdd
  try dsimp only
  repeat' first
    | with_reducible assumption
    | (simp only [keeps_eq]; simp; done)
    | (simp; done)
    | (simp; with_reducible assumption)
    | split
    | with_reducible apply setByte_keeps
    | with_reducible apply setBytes_keeps
    | with_reducible apply zeroBytes_keeps
    | with_reducible apply setElem_keeps
    | with_reducible apply copyBytes_keeps
    | with_reducible apply moduleReset_keeps
    | with_reducible apply lose_keeps
    | with_reducible apply allOff_keeps
    | with_reducible apply unfed_keeps
    | with_reducible apply refuseImage_keeps
    | with_reducible apply svnWaiting_keeps
    | with_reducible apply commitOut_keeps
    | with_reducible apply correctLine_keeps
    | with_reducible apply addTile_keeps
    | with_reducible apply takeAddend_keeps
    | with_reducible apply lineOp_keeps
    | with_reducible apply vaWrite_keeps
    | with_reducible apply evict_keeps
    | with_reducible apply beginCommit_keeps
    | with_reducible apply writePatch_keeps
    | with_reducible apply startSecuring_keeps
    | with_reducible apply restore_keeps
    | with_reducible apply reemit_keeps
    | with_reducible apply restoreJob_keeps
    | with_reducible apply unmapPage_keeps
    | with_reducible apply wipe_keeps
    | with_reducible apply flushLog_keeps
    | with_reducible apply applyWrite_keeps
    | with_reducible apply each_keeps
    | with_reducible apply foldl_keeps
    | intro _
    | simp

theorem applyMsg_keeps {r0 : State} (s : State) (m : MsgOpen) (data : List Byte) (hk : Keeps r0 s) : Keeps r0 (State.applyMsg s m data) := by
  unfold State.applyMsg
  try dsimp only
  repeat' first
    | with_reducible assumption
    | (simp only [keeps_eq]; simp; done)
    | (simp; done)
    | (simp; with_reducible assumption)
    | split
    | with_reducible apply setByte_keeps
    | with_reducible apply setBytes_keeps
    | with_reducible apply zeroBytes_keeps
    | with_reducible apply setElem_keeps
    | with_reducible apply copyBytes_keeps
    | with_reducible apply moduleReset_keeps
    | with_reducible apply lose_keeps
    | with_reducible apply allOff_keeps
    | with_reducible apply unfed_keeps
    | with_reducible apply refuseImage_keeps
    | with_reducible apply svnWaiting_keeps
    | with_reducible apply commitOut_keeps
    | with_reducible apply correctLine_keeps
    | with_reducible apply addTile_keeps
    | with_reducible apply takeAddend_keeps
    | with_reducible apply lineOp_keeps
    | with_reducible apply vaWrite_keeps
    | with_reducible apply evict_keeps
    | with_reducible apply beginCommit_keeps
    | with_reducible apply writePatch_keeps
    | with_reducible apply startSecuring_keeps
    | with_reducible apply restore_keeps
    | with_reducible apply reemit_keeps
    | with_reducible apply restoreJob_keeps
    | with_reducible apply unmapPage_keeps
    | with_reducible apply wipe_keeps
    | with_reducible apply flushLog_keeps
    | with_reducible apply applyWrite_keeps
    | with_reducible apply applyAdd_keeps
    | with_reducible apply each_keeps
    | with_reducible apply foldl_keeps
    | intro _
    | simp

theorem handOut_keeps {r0 : State} (s : State) (e : LkrEntry) (hk : Keeps r0 s) : Keeps r0 (State.handOut s e) := by
  unfold State.handOut
  try dsimp only
  repeat' first
    | with_reducible assumption
    | (simp only [keeps_eq]; simp; done)
    | (simp; done)
    | (simp; with_reducible assumption)
    | split
    | with_reducible apply setByte_keeps
    | with_reducible apply setBytes_keeps
    | with_reducible apply zeroBytes_keeps
    | with_reducible apply setElem_keeps
    | with_reducible apply copyBytes_keeps
    | with_reducible apply moduleReset_keeps
    | with_reducible apply lose_keeps
    | with_reducible apply allOff_keeps
    | with_reducible apply unfed_keeps
    | with_reducible apply refuseImage_keeps
    | with_reducible apply svnWaiting_keeps
    | with_reducible apply commitOut_keeps
    | with_reducible apply correctLine_keeps
    | with_reducible apply addTile_keeps
    | with_reducible apply takeAddend_keeps
    | with_reducible apply lineOp_keeps
    | with_reducible apply vaWrite_keeps
    | with_reducible apply evict_keeps
    | with_reducible apply beginCommit_keeps
    | with_reducible apply writePatch_keeps
    | with_reducible apply startSecuring_keeps
    | with_reducible apply restore_keeps
    | with_reducible apply reemit_keeps
    | with_reducible apply restoreJob_keeps
    | with_reducible apply unmapPage_keeps
    | with_reducible apply wipe_keeps
    | with_reducible apply flushLog_keeps
    | with_reducible apply applyWrite_keeps
    | with_reducible apply applyAdd_keeps
    | with_reducible apply applyMsg_keeps
    | with_reducible apply each_keeps
    | with_reducible apply foldl_keeps
    | intro _
    | simp

theorem setMxByte_keeps {r0 : State} (s : State) (b : BitVec 12) (va : Nat) (x : Byte) (hk : Keeps r0 s) : Keeps r0 (State.setMxByte s b va x) := by
  unfold State.setMxByte
  try dsimp only
  repeat' first
    | with_reducible assumption
    | (simp only [keeps_eq]; simp; done)
    | (simp; done)
    | (simp; with_reducible assumption)
    | split
    | with_reducible apply setByte_keeps
    | with_reducible apply setBytes_keeps
    | with_reducible apply zeroBytes_keeps
    | with_reducible apply setElem_keeps
    | with_reducible apply copyBytes_keeps
    | with_reducible apply moduleReset_keeps
    | with_reducible apply lose_keeps
    | with_reducible apply allOff_keeps
    | with_reducible apply unfed_keeps
    | with_reducible apply refuseImage_keeps
    | with_reducible apply svnWaiting_keeps
    | with_reducible apply commitOut_keeps
    | with_reducible apply correctLine_keeps
    | with_reducible apply addTile_keeps
    | with_reducible apply takeAddend_keeps
    | with_reducible apply lineOp_keeps
    | with_reducible apply vaWrite_keeps
    | with_reducible apply evict_keeps
    | with_reducible apply beginCommit_keeps
    | with_reducible apply writePatch_keeps
    | with_reducible apply startSecuring_keeps
    | with_reducible apply restore_keeps
    | with_reducible apply reemit_keeps
    | with_reducible apply restoreJob_keeps
    | with_reducible apply unmapPage_keeps
    | with_reducible apply wipe_keeps
    | with_reducible apply flushLog_keeps
    | with_reducible apply applyWrite_keeps
    | with_reducible apply applyAdd_keeps
    | with_reducible apply applyMsg_keeps
    | with_reducible apply handOut_keeps
    | with_reducible apply each_keeps
    | with_reducible apply foldl_keeps
    | intro _
    | simp

theorem setMxBits_keeps {r0 : State} (s : State) (b : BitVec 12) (va i n v : Nat) (hk : Keeps r0 s) : Keeps r0 (State.setMxBits s b va i n v) := by
  unfold State.setMxBits
  try dsimp only
  repeat' first
    | with_reducible assumption
    | (simp only [keeps_eq]; simp; done)
    | (simp; done)
    | (simp; with_reducible assumption)
    | split
    | with_reducible apply setByte_keeps
    | with_reducible apply setBytes_keeps
    | with_reducible apply zeroBytes_keeps
    | with_reducible apply setElem_keeps
    | with_reducible apply copyBytes_keeps
    | with_reducible apply moduleReset_keeps
    | with_reducible apply lose_keeps
    | with_reducible apply allOff_keeps
    | with_reducible apply unfed_keeps
    | with_reducible apply refuseImage_keeps
    | with_reducible apply svnWaiting_keeps
    | with_reducible apply commitOut_keeps
    | with_reducible apply correctLine_keeps
    | with_reducible apply addTile_keeps
    | with_reducible apply takeAddend_keeps
    | with_reducible apply lineOp_keeps
    | with_reducible apply vaWrite_keeps
    | with_reducible apply evict_keeps
    | with_reducible apply beginCommit_keeps
    | with_reducible apply writePatch_keeps
    | with_reducible apply startSecuring_keeps
    | with_reducible apply restore_keeps
    | with_reducible apply reemit_keeps
    | with_reducible apply restoreJob_keeps
    | with_reducible apply unmapPage_keeps
    | with_reducible apply wipe_keeps
    | with_reducible apply flushLog_keeps
    | with_reducible apply applyWrite_keeps
    | with_reducible apply applyAdd_keeps
    | with_reducible apply applyMsg_keeps
    | with_reducible apply handOut_keeps
    | with_reducible apply setMxByte_keeps
    | with_reducible apply each_keeps
    | with_reducible apply foldl_keeps
    | intro _
    | simp

theorem shutdown_keeps {r0 : State} (s : State) (hk : Keeps r0 s) : Keeps r0 (State.shutdown s) := by
  unfold State.shutdown
  try dsimp only
  repeat' first
    | with_reducible assumption
    | (simp only [keeps_eq]; simp; done)
    | (simp; done)
    | (simp; with_reducible assumption)
    | split
    | with_reducible apply setByte_keeps
    | with_reducible apply setBytes_keeps
    | with_reducible apply zeroBytes_keeps
    | with_reducible apply setElem_keeps
    | with_reducible apply copyBytes_keeps
    | with_reducible apply moduleReset_keeps
    | with_reducible apply lose_keeps
    | with_reducible apply allOff_keeps
    | with_reducible apply unfed_keeps
    | with_reducible apply refuseImage_keeps
    | with_reducible apply svnWaiting_keeps
    | with_reducible apply commitOut_keeps
    | with_reducible apply correctLine_keeps
    | with_reducible apply addTile_keeps
    | with_reducible apply takeAddend_keeps
    | with_reducible apply lineOp_keeps
    | with_reducible apply vaWrite_keeps
    | with_reducible apply evict_keeps
    | with_reducible apply beginCommit_keeps
    | with_reducible apply writePatch_keeps
    | with_reducible apply startSecuring_keeps
    | with_reducible apply restore_keeps
    | with_reducible apply reemit_keeps
    | with_reducible apply restoreJob_keeps
    | with_reducible apply unmapPage_keeps
    | with_reducible apply wipe_keeps
    | with_reducible apply flushLog_keeps
    | with_reducible apply applyWrite_keeps
    | with_reducible apply applyAdd_keeps
    | with_reducible apply applyMsg_keeps
    | with_reducible apply handOut_keeps
    | with_reducible apply setMxByte_keeps
    | with_reducible apply setMxBits_keeps
    | with_reducible apply each_keeps
    | with_reducible apply foldl_keeps
    | intro _
    | simp

theorem putBytes_keeps {r0 : State} (s : State) (b : BitVec 12) (va : Nat) (data : List Byte) (hk : Keeps r0 s) : Keeps r0 (State.putBytes s b va data) := by
  unfold State.putBytes
  try dsimp only
  repeat' first
    | with_reducible assumption
    | (simp only [keeps_eq]; simp; done)
    | (simp; done)
    | (simp; with_reducible assumption)
    | split
    | with_reducible apply setByte_keeps
    | with_reducible apply setBytes_keeps
    | with_reducible apply zeroBytes_keeps
    | with_reducible apply setElem_keeps
    | with_reducible apply copyBytes_keeps
    | with_reducible apply moduleReset_keeps
    | with_reducible apply lose_keeps
    | with_reducible apply allOff_keeps
    | with_reducible apply unfed_keeps
    | with_reducible apply refuseImage_keeps
    | with_reducible apply svnWaiting_keeps
    | with_reducible apply commitOut_keeps
    | with_reducible apply correctLine_keeps
    | with_reducible apply addTile_keeps
    | with_reducible apply takeAddend_keeps
    | with_reducible apply lineOp_keeps
    | with_reducible apply vaWrite_keeps
    | with_reducible apply evict_keeps
    | with_reducible apply beginCommit_keeps
    | with_reducible apply writePatch_keeps
    | with_reducible apply startSecuring_keeps
    | with_reducible apply restore_keeps
    | with_reducible apply reemit_keeps
    | with_reducible apply restoreJob_keeps
    | with_reducible apply unmapPage_keeps
    | with_reducible apply wipe_keeps
    | with_reducible apply flushLog_keeps
    | with_reducible apply applyWrite_keeps
    | with_reducible apply applyAdd_keeps
    | with_reducible apply applyMsg_keeps
    | with_reducible apply handOut_keeps
    | with_reducible apply setMxByte_keeps
    | with_reducible apply setMxBits_keeps
    | with_reducible apply shutdown_keeps
    | with_reducible apply each_keeps
    | with_reducible apply foldl_keeps
    | intro _
    | simp

theorem secureAt_keeps {r0 : State} (s : State) (j : Nat) (jb : Job) (c : Nat) (k : Course) (hk : Keeps r0 s) : Keeps r0 (State.secureAt s j jb c k) := by
  unfold State.secureAt
  try dsimp only
  repeat' first
    | with_reducible assumption
    | (simp only [keeps_eq]; simp; done)
    | (simp; done)
    | (simp; with_reducible assumption)
    | split
    | with_reducible apply setByte_keeps
    | with_reducible apply setBytes_keeps
    | with_reducible apply zeroBytes_keeps
    | with_reducible apply setElem_keeps
    | with_reducible apply copyBytes_keeps
    | with_reducible apply moduleReset_keeps
    | with_reducible apply lose_keeps
    | with_reducible apply allOff_keeps
    | with_reducible apply unfed_keeps
    | with_reducible apply refuseImage_keeps
    | with_reducible apply svnWaiting_keeps
    | with_reducible apply commitOut_keeps
    | with_reducible apply correctLine_keeps
    | with_reducible apply addTile_keeps
    | with_reducible apply takeAddend_keeps
    | with_reducible apply lineOp_keeps
    | with_reducible apply vaWrite_keeps
    | with_reducible apply evict_keeps
    | with_reducible apply beginCommit_keeps
    | with_reducible apply writePatch_keeps
    | with_reducible apply startSecuring_keeps
    | with_reducible apply restore_keeps
    | with_reducible apply reemit_keeps
    | with_reducible apply restoreJob_keeps
    | with_reducible apply unmapPage_keeps
    | with_reducible apply wipe_keeps
    | with_reducible apply flushLog_keeps
    | with_reducible apply applyWrite_keeps
    | with_reducible apply applyAdd_keeps
    | with_reducible apply applyMsg_keeps
    | with_reducible apply handOut_keeps
    | with_reducible apply setMxByte_keeps
    | with_reducible apply setMxBits_keeps
    | with_reducible apply shutdown_keeps
    | with_reducible apply putBytes_keeps
    | with_reducible apply each_keeps
    | with_reducible apply foldl_keeps
    | intro _
    | simp

/-- A store keeps the canonical form. -/
theorem setByte_memoryWf {s : State} (k : Nat) (b : Byte) (h : s.memoryWf) : (s.setByte k b).memoryWf := (setByte_keeps s k b (Keeps.refl s)).2.2 h

/-- A run of stores keeps the canonical form. -/
theorem setBytes_memoryWf {s : State} (k : Nat) (l : List Byte) (h : s.memoryWf) : (s.setBytes k l).memoryWf := (setBytes_keeps s k l (Keeps.refl s)).2.2 h

/-- A zero fill keeps the canonical form. -/
theorem zeroBytes_memoryWf {s : State} (lo n : Nat) (h : s.memoryWf) : (s.zeroBytes lo n).memoryWf := (zeroBytes_keeps s lo n (Keeps.refl s)).2.2 h

/-- A copy keeps the canonical form. -/
theorem copyBytes_memoryWf {s : State} (src dst n : Nat) (h : s.memoryWf) : (s.copyBytes src dst n).memoryWf := (copyBytes_keeps s src dst n (Keeps.refl s)).2.2 h

/-- Memory at reset is canonical. -/
theorem reset_memoryWf : State.reset.memoryWf := rfl

end Sys2Proof.Machine
end

