-- ==== Sys2Proof/Laws/Ops.lean ====
section
/-! SUPPORT. What the shared operations do: events of units, acceptance of packets, replies, counters, bytes. -/

namespace Sys2Proof.Machine

/-! ## Rows -/

/-- A unit's event with the module up has its effect. -/
theorem event_of_up {s : State} (h : s.up = true) (f : State → State) : s.event f = .next (f s) := by
  simp [State.event, h]

/-- A unit's event with the module down changes nothing. -/
theorem event_of_down {s : State} (h : s.up = false) (f : State → State) : s.event f = .next s := by
  simp [State.event, h]

/-- Leaving the intake changes nothing but the intake and the Ethernet buffers. -/
theorem leaveIntake_eq (s : State) (c : Hdr) :
    ∃ i e, s.leaveIntake c = { s with cmd := { s.cmd with intake := i, ethUsed := e } } := by
  unfold State.leaveIntake
  split
  · dsimp only
    split
    · exact ⟨_, _, rfl⟩
    · exact ⟨_, _, rfl⟩
  · exact ⟨_, _, rfl⟩

theorem firstFailure_leaveIntake (s : State) (d : Hdr) (op : Nat) (c : Hdr) :
    (s.leaveIntake d).firstFailure op c = s.firstFailure op c := by
  obtain ⟨i, e, h⟩ := leaveIntake_eq s d
  rw [h]; rfl

/-- An accepted packet leaves the intake and its command has its effect. -/
theorem command_of_accepts {s : State} {op : Nat} {c : Hdr} (h : s.accepts op c) (k : State → Hdr → State) :
    s.command op c k = .next (k (s.leaveIntake { c with opcode := BitVec.ofNat 16 op }) { c with opcode := BitVec.ofNat 16 op }) := by
  obtain ⟨h1, h2, h3⟩ := h
  have h3' : (s.leaveIntake { c with opcode := BitVec.ofNat 16 op }).firstFailure op { c with opcode := BitVec.ofNat 16 op } = none := by
    rw [firstFailure_leaveIntake]; exact h3
  simp [State.command, h1, h2, h3']

/-! ## Replies -/

/-- A reply is the newest on its path and says what it was formed with. -/
theorem replyAs_newest (s : State) (c : Hdr) (st : Status) (fin : Bool) (ev : Nat) (r : Result) :
    (s.replyAs c st fin ev r).newest c.path = some (s.mkReply c st fin ev r) := by
  unfold State.replyAs State.newest
  cases hp : c.path <;> (dsimp only; split_ifs <;> simp)

theorem reply_replied (s : State) (op : Nat) (c : Hdr) (st : Status) :
    (s.reply { c with opcode := BitVec.ofNat 16 op } st).replied op c st :=
  ⟨_, replyAs_newest s _ st true 0 .none, rfl, rfl, rfl, rfl, rfl, rfl, rfl⟩

theorem replyWith_answered (s : State) (op : Nat) (c : Hdr) (r : Result) :
    (s.replyWith { c with opcode := BitVec.ofNat 16 op } r).answered op c .ok true r :=
  ⟨_, replyAs_newest s _ .ok true 0 r, rfl, rfl, rfl, rfl, rfl, rfl, rfl⟩

/-- A reply changes nothing but the replies that wait, have been sent and are kept. -/
theorem replyAs_eq (s : State) (c : Hdr) (st : Status) (fin : Bool) (ev : Nat) (r : Result) :
    ∃ o n k, s.replyAs c st fin ev r = { s with cmd := { s.cmd with outbox := o, sent := n, kept := k } } := by
  unfold State.replyAs
  cases hp : c.path <;> (dsimp only; split_ifs <;> exact ⟨_, _, _, rfl⟩)

/-! ## Counters -/

/-- A count changes nothing but the counters and the events on their way. -/
theorem count_eq (s : State) (id inst n : Nat) : ∃ x l, s.count id inst n = { s with ctr := x, log := l } := by
  unfold State.count
  dsimp only
  split_ifs
  · exact ⟨_, _, rfl⟩
  · exact ⟨_, s.log, rfl⟩

/-- A counter after a count (R360). -/
theorem count_counter (s : State) (id inst n : Nat) : (s.count id inst n).counter id inst = (s.counter id inst).plus n := by
  unfold State.count State.counter
  dsimp only
  split_ifs <;> simp [State.raise]

/-! ## Bytes -/

/-- A byte after a store. -/
theorem setByte_byte (s : State) (k n : Nat) (b : Byte) : (s.setByte k b).byte n = if k = n then b else s.byte n :=
  Table.read_write 0 s.mem.bytes k n b

/-- A byte outside a zeroed range is as before; one inside is zero. -/
theorem zeroBytes_byte (s : State) (lo n k : Nat) :
    (s.zeroBytes lo n).byte k = if k < lo ∨ lo + n ≤ k then s.byte k else 0 := by
  have h := Table.lookup_keep (fun j => decide (j < lo ∨ lo + n ≤ j)) s.mem.bytes k
  unfold State.zeroBytes State.byte Table.read
  dsimp only
  rw [h]
  by_cases hk : k < lo ∨ lo + n ≤ k <;> simp [hk]

end Sys2Proof.Machine
end

