-- ==== Sys2Proof/Laws/PerInstr.lean ====
section
/-! SUPPORT. The per-command family Wf: a row carries a packet exactly when Table 16.7 gives it an opcode, and some role of Table 16.1 may send
that opcode. -/

/-- A row has an opcode exactly when it carries a packet, and an opcode that it has may be sent by some role. -/
def Sys2Proof.Laws.Wf.Statement (i : Sys2Proof.Instr) : Prop :=
  i.opcode.isSome = i.packet.isSome ∧ ∀ n ∈ i.opcode, Sys2Proof.Machine.opRoles n ≠ []

/-- A row with an opcode and a packet. -/
theorem Sys2Proof.Laws.Wf.of_packet {i : Sys2Proof.Instr} {n : Nat} {c : Sys2Proof.Hdr} (h : i.opcode = some n) (hp : i.packet = some c)
    (hr : Sys2Proof.Machine.opRoles n ≠ []) : Sys2Proof.Laws.Wf.Statement i := by
  refine ⟨by rw [h, hp]; rfl, fun m hm => ?_⟩
  rw [h] at hm
  cases hm
  exact hr

/-- A row of an event. -/
theorem Sys2Proof.Laws.Wf.of_event {i : Sys2Proof.Instr} (h : i.opcode = none) (hp : i.packet = none) : Sys2Proof.Laws.Wf.Statement i := by
  refine ⟨by rw [h, hp]; rfl, fun m hm => ?_⟩
  rw [h] at hm
  cases hm

theorem Sys2Proof.Laws.Wf.hello : ∀ c low high, Sys2Proof.Laws.Wf.Statement (.hello c low high) := fun _ _ _ => Sys2Proof.Laws.Wf.of_packet rfl rfl (by decide)
theorem Sys2Proof.Laws.Wf.identity : ∀ c, Sys2Proof.Laws.Wf.Statement (.identity c) := fun _ => Sys2Proof.Laws.Wf.of_packet rfl rfl (by decide)
theorem Sys2Proof.Laws.Wf.quote : ∀ c nonce tries, Sys2Proof.Laws.Wf.Statement (.quote c nonce tries) := fun _ _ _ => Sys2Proof.Laws.Wf.of_packet rfl rfl (by decide)
theorem Sys2Proof.Laws.Wf.events : ∀ c first count, Sys2Proof.Laws.Wf.Statement (.events c first count) := fun _ _ _ => Sys2Proof.Laws.Wf.of_packet rfl rfl (by decide)
theorem Sys2Proof.Laws.Wf.counters : ∀ c names, Sys2Proof.Laws.Wf.Statement (.counters c names) := fun _ _ => Sys2Proof.Laws.Wf.of_packet rfl rfl (by decide)
theorem Sys2Proof.Laws.Wf.replies : ∀ c tag, Sys2Proof.Laws.Wf.Statement (.replies c tag) := fun _ _ => Sys2Proof.Laws.Wf.of_packet rfl rfl (by decide)
theorem Sys2Proof.Laws.Wf.opkey : ∀ c key, Sys2Proof.Laws.Wf.Statement (.opkey c key) := fun _ _ => Sys2Proof.Laws.Wf.of_packet rfl rfl (by decide)
theorem Sys2Proof.Laws.Wf.admitBib : ∀ c a, Sys2Proof.Laws.Wf.Statement (.admitBib c a) := fun _ _ => Sys2Proof.Laws.Wf.of_packet rfl rfl (by decide)
theorem Sys2Proof.Laws.Wf.keys : ∀ c ct links, Sys2Proof.Laws.Wf.Statement (.keys c ct links) := fun _ _ _ => Sys2Proof.Laws.Wf.of_packet rfl rfl (by decide)
theorem Sys2Proof.Laws.Wf.quota : ∀ c a, Sys2Proof.Laws.Wf.Statement (.quota c a) := fun _ _ => Sys2Proof.Laws.Wf.of_packet rfl rfl (by decide)
theorem Sys2Proof.Laws.Wf.seeds : ∀ c set, Sys2Proof.Laws.Wf.Statement (.seeds c set) := fun _ _ => Sys2Proof.Laws.Wf.of_packet rfl rfl (by decide)
theorem Sys2Proof.Laws.Wf.keyrot : ∀ c, Sys2Proof.Laws.Wf.Statement (.keyrot c) := fun _ => Sys2Proof.Laws.Wf.of_packet rfl rfl (by decide)
theorem Sys2Proof.Laws.Wf.resume : ∀ c, Sys2Proof.Laws.Wf.Statement (.resume c) := fun _ => Sys2Proof.Laws.Wf.of_packet rfl rfl (by decide)
theorem Sys2Proof.Laws.Wf.release : ∀ c nonce, Sys2Proof.Laws.Wf.Statement (.release c nonce) := fun _ _ => Sys2Proof.Laws.Wf.of_packet rfl rfl (by decide)
theorem Sys2Proof.Laws.Wf.map : ∀ c a, Sys2Proof.Laws.Wf.Statement (.map c a) := fun _ _ => Sys2Proof.Laws.Wf.of_packet rfl rfl (by decide)
theorem Sys2Proof.Laws.Wf.load : ∀ c va len digestOk, Sys2Proof.Laws.Wf.Statement (.load c va len digestOk) := fun _ _ _ _ => Sys2Proof.Laws.Wf.of_packet rfl rfl (by decide)
theorem Sys2Proof.Laws.Wf.unload : ∀ c, Sys2Proof.Laws.Wf.Statement (.unload c) := fun _ => Sys2Proof.Laws.Wf.of_packet rfl rfl (by decide)
theorem Sys2Proof.Laws.Wf.run : ∀ c steps inputSeq, Sys2Proof.Laws.Wf.Statement (.run c steps inputSeq) := fun _ _ _ => Sys2Proof.Laws.Wf.of_packet rfl rfl (by decide)
theorem Sys2Proof.Laws.Wf.cancel : ∀ c, Sys2Proof.Laws.Wf.Statement (.cancel c) := fun _ => Sys2Proof.Laws.Wf.of_packet rfl rfl (by decide)
theorem Sys2Proof.Laws.Wf.freeze : ∀ c table, Sys2Proof.Laws.Wf.Statement (.freeze c table) := fun _ _ => Sys2Proof.Laws.Wf.of_packet rfl rfl (by decide)
theorem Sys2Proof.Laws.Wf.consts : ∀ c prog ks, Sys2Proof.Laws.Wf.Statement (.consts c prog ks) := fun _ _ _ => Sys2Proof.Laws.Wf.of_packet rfl rfl (by decide)
theorem Sys2Proof.Laws.Wf.limit : ∀ c lim, Sys2Proof.Laws.Wf.Statement (.limit c lim) := fun _ _ => Sys2Proof.Laws.Wf.of_packet rfl rfl (by decide)
theorem Sys2Proof.Laws.Wf.jobConfig : ∀ c a, Sys2Proof.Laws.Wf.Statement (.jobConfig c a) := fun _ _ => Sys2Proof.Laws.Wf.of_packet rfl rfl (by decide)
theorem Sys2Proof.Laws.Wf.jobEnd : ∀ c, Sys2Proof.Laws.Wf.Statement (.jobEnd c) := fun _ => Sys2Proof.Laws.Wf.of_packet rfl rfl (by decide)
theorem Sys2Proof.Laws.Wf.secure : ∀ c setIntervals nb nl, Sys2Proof.Laws.Wf.Statement (.secure c setIntervals nb nl) := fun _ _ _ _ => Sys2Proof.Laws.Wf.of_packet rfl rfl (by decide)
theorem Sys2Proof.Laws.Wf.swap : ∀ c rank module, Sys2Proof.Laws.Wf.Statement (.swap c rank module) := fun _ _ _ => Sys2Proof.Laws.Wf.of_packet rfl rfl (by decide)
theorem Sys2Proof.Laws.Wf.regrow : ∀ c fores, Sys2Proof.Laws.Wf.Statement (.regrow c fores) := fun _ _ => Sys2Proof.Laws.Wf.of_packet rfl rfl (by decide)
theorem Sys2Proof.Laws.Wf.put : ∀ c dst data, Sys2Proof.Laws.Wf.Statement (.put c dst data) := fun _ _ _ => Sys2Proof.Laws.Wf.of_packet rfl rfl (by decide)
theorem Sys2Proof.Laws.Wf.get : ∀ c src len, Sys2Proof.Laws.Wf.Statement (.get c src len) := fun _ _ _ => Sys2Proof.Laws.Wf.of_packet rfl rfl (by decide)
theorem Sys2Proof.Laws.Wf.object : ∀ c act id kind, Sys2Proof.Laws.Wf.Statement (.object c act id kind) := fun _ _ _ _ => Sys2Proof.Laws.Wf.of_packet rfl rfl (by decide)
theorem Sys2Proof.Laws.Wf.sysmap : ∀ c dx dy dz sysid x y z, Sys2Proof.Laws.Wf.Statement (.sysmap c dx dy dz sysid x y z) := fun _ _ _ _ _ _ _ _ => Sys2Proof.Laws.Wf.of_packet rfl rfl (by decide)
theorem Sys2Proof.Laws.Wf.join : ∀ c rail dim on, Sys2Proof.Laws.Wf.Statement (.join c rail dim on) := fun _ _ _ _ => Sys2Proof.Laws.Wf.of_packet rfl rfl (by decide)
theorem Sys2Proof.Laws.Wf.drain : ∀ c port on, Sys2Proof.Laws.Wf.Statement (.drain c port on) := fun _ _ _ => Sys2Proof.Laws.Wf.of_packet rfl rfl (by decide)
theorem Sys2Proof.Laws.Wf.rink : ∀ c cfg, Sys2Proof.Laws.Wf.Statement (.rink c cfg) := fun _ _ => Sys2Proof.Laws.Wf.of_packet rfl rfl (by decide)
theorem Sys2Proof.Laws.Wf.vcore : ∀ c target, Sys2Proof.Laws.Wf.Statement (.vcore c target) := fun _ _ => Sys2Proof.Laws.Wf.of_packet rfl rfl (by decide)
theorem Sys2Proof.Laws.Wf.withdraw : ∀ c stn on, Sys2Proof.Laws.Wf.Statement (.withdraw c stn on) := fun _ _ _ => Sys2Proof.Laws.Wf.of_packet rfl rfl (by decide)
theorem Sys2Proof.Laws.Wf.selftest : ∀ c unit inst, Sys2Proof.Laws.Wf.Statement (.selftest c unit inst) := fun _ _ _ => Sys2Proof.Laws.Wf.of_packet rfl rfl (by decide)
theorem Sys2Proof.Laws.Wf.calibrate : ∀ c unit inst, Sys2Proof.Laws.Wf.Statement (.calibrate c unit inst) := fun _ _ _ => Sys2Proof.Laws.Wf.of_packet rfl rfl (by decide)
theorem Sys2Proof.Laws.Wf.reset : ∀ c force, Sys2Proof.Laws.Wf.Statement (.reset c force) := fun _ _ => Sys2Proof.Laws.Wf.of_packet rfl rfl (by decide)
theorem Sys2Proof.Laws.Wf.fwStage : ∀ c images, Sys2Proof.Laws.Wf.Statement (.fwStage c images) := fun _ _ => Sys2Proof.Laws.Wf.of_packet rfl rfl (by decide)
theorem Sys2Proof.Laws.Wf.fwActivate : ∀ c, Sys2Proof.Laws.Wf.Statement (.fwActivate c) := fun _ => Sys2Proof.Laws.Wf.of_packet rfl rfl (by decide)
theorem Sys2Proof.Laws.Wf.fwSlot : ∀ c slotB, Sys2Proof.Laws.Wf.Statement (.fwSlot c slotB) := fun _ _ => Sys2Proof.Laws.Wf.of_packet rfl rfl (by decide)
theorem Sys2Proof.Laws.Wf.svnAdvance : ∀ c min, Sys2Proof.Laws.Wf.Statement (.svnAdvance c min) := fun _ _ => Sys2Proof.Laws.Wf.of_packet rfl rfl (by decide)
theorem Sys2Proof.Laws.Wf.hostPollTimer : ∀ bib, Sys2Proof.Laws.Wf.Statement (.hostPollTimer bib) := fun _ => Sys2Proof.Laws.Wf.of_event rfl rfl
theorem Sys2Proof.Laws.Wf.commandBlockRead : ∀ bib sl h, Sys2Proof.Laws.Wf.Statement (.commandBlockRead bib sl h) := fun _ _ _ => Sys2Proof.Laws.Wf.of_event rfl rfl
theorem Sys2Proof.Laws.Wf.ethDatagramRx : ∀ port d, Sys2Proof.Laws.Wf.Statement (.ethDatagramRx port d) := fun _ _ => Sys2Proof.Laws.Wf.of_event rfl rfl
theorem Sys2Proof.Laws.Wf.i3cPacketRx : ∀ h, Sys2Proof.Laws.Wf.Statement (.i3cPacketRx h) := fun _ => Sys2Proof.Laws.Wf.of_event rfl rfl
theorem Sys2Proof.Laws.Wf.replyPost : ∀ bib, Sys2Proof.Laws.Wf.Statement (.replyPost bib) := fun _ => Sys2Proof.Laws.Wf.of_event rfl rfl
theorem Sys2Proof.Laws.Wf.hostBarWrite : ∀ fn, Sys2Proof.Laws.Wf.Statement (.hostBarWrite fn) := fun _ => Sys2Proof.Laws.Wf.of_event rfl rfl
theorem Sys2Proof.Laws.Wf.hostBlockRx : ∀ bib sl cmd, Sys2Proof.Laws.Wf.Statement (.hostBlockRx bib sl cmd) := fun _ _ _ => Sys2Proof.Laws.Wf.of_event rfl rfl
theorem Sys2Proof.Laws.Wf.perstAssert : Sys2Proof.Laws.Wf.Statement .perstAssert := Sys2Proof.Laws.Wf.of_event rfl rfl
theorem Sys2Proof.Laws.Wf.registerWrite : ∀ off val, Sys2Proof.Laws.Wf.Statement (.registerWrite off val) := fun _ _ => Sys2Proof.Laws.Wf.of_event rfl rfl
theorem Sys2Proof.Laws.Wf.rcFieldRead : ∀ off, Sys2Proof.Laws.Wf.Statement (.rcFieldRead off) := fun _ => Sys2Proof.Laws.Wf.of_event rfl rfl
theorem Sys2Proof.Laws.Wf.vcoreTargetWrite : ∀ target, Sys2Proof.Laws.Wf.Statement (.vcoreTargetWrite target) := fun _ => Sys2Proof.Laws.Wf.of_event rfl rfl
theorem Sys2Proof.Laws.Wf.rinkCfgRequestWrite : ∀ cfg, Sys2Proof.Laws.Wf.Statement (.rinkCfgRequestWrite cfg) := fun _ => Sys2Proof.Laws.Wf.of_event rfl rfl
theorem Sys2Proof.Laws.Wf.stnWithdrawWrite : ∀ stn on, Sys2Proof.Laws.Wf.Statement (.stnWithdrawWrite stn on) := fun _ _ => Sys2Proof.Laws.Wf.of_event rfl rfl
theorem Sys2Proof.Laws.Wf.holdPauseWrite : ∀ slot on, Sys2Proof.Laws.Wf.Statement (.holdPauseWrite slot on) := fun _ _ => Sys2Proof.Laws.Wf.of_event rfl rfl
theorem Sys2Proof.Laws.Wf.liftStreamCancel : ∀ strm, Sys2Proof.Laws.Wf.Statement (.liftStreamCancel strm) := fun _ => Sys2Proof.Laws.Wf.of_event rfl rfl
theorem Sys2Proof.Laws.Wf.pfStartWrite : Sys2Proof.Laws.Wf.Statement .pfStartWrite := Sys2Proof.Laws.Wf.of_event rfl rfl
theorem Sys2Proof.Laws.Wf.slPortDrainWrite : ∀ port on, Sys2Proof.Laws.Wf.Statement (.slPortDrainWrite port on) := fun _ _ => Sys2Proof.Laws.Wf.of_event rfl rfl
theorem Sys2Proof.Laws.Wf.slPatternStart : ∀ port, Sys2Proof.Laws.Wf.Statement (.slPatternStart port) := fun _ => Sys2Proof.Laws.Wf.of_event rfl rfl
theorem Sys2Proof.Laws.Wf.bypJoinWrite : ∀ rail dim on, Sys2Proof.Laws.Wf.Statement (.bypJoinWrite rail dim on) := fun _ _ _ => Sys2Proof.Laws.Wf.of_event rfl rfl
theorem Sys2Proof.Laws.Wf.clipWrite : ∀ slot clip, Sys2Proof.Laws.Wf.Statement (.clipWrite slot clip) := fun _ _ => Sys2Proof.Laws.Wf.of_event rfl rfl
theorem Sys2Proof.Laws.Wf.scaleRecordWrite : ∀ slot group hBase srate sweep policy fmt, Sys2Proof.Laws.Wf.Statement (.scaleRecordWrite slot group hBase srate sweep policy fmt) := fun _ _ _ _ _ _ _ => Sys2Proof.Laws.Wf.of_event rfl rfl
theorem Sys2Proof.Laws.Wf.feedPresent : ∀ b vin, Sys2Proof.Laws.Wf.Statement (.feedPresent b vin) := fun _ _ => Sys2Proof.Laws.Wf.of_event rfl rfl
theorem Sys2Proof.Laws.Wf.feedLost : ∀ b vin, Sys2Proof.Laws.Wf.Statement (.feedLost b vin) := fun _ _ => Sys2Proof.Laws.Wf.of_event rfl rfl
theorem Sys2Proof.Laws.Wf.bothFeedsLost : Sys2Proof.Laws.Wf.Statement .bothFeedsLost := Sys2Proof.Laws.Wf.of_event rfl rfl
theorem Sys2Proof.Laws.Wf.pwrEnAssert : ∀ lowUs, Sys2Proof.Laws.Wf.Statement (.pwrEnAssert lowUs) := fun _ => Sys2Proof.Laws.Wf.of_event rfl rfl
theorem Sys2Proof.Laws.Wf.pwrEnNegate : Sys2Proof.Laws.Wf.Statement .pwrEnNegate := Sys2Proof.Laws.Wf.of_event rfl rfl
theorem Sys2Proof.Laws.Wf.railInRegulation : ∀ rail idA idB, Sys2Proof.Laws.Wf.Statement (.railInRegulation rail idA idB) := fun _ _ _ => Sys2Proof.Laws.Wf.of_event rfl rfl
theorem Sys2Proof.Laws.Wf.railStartTimeout : ∀ rail, Sys2Proof.Laws.Wf.Statement (.railStartTimeout rail) := fun _ => Sys2Proof.Laws.Wf.of_event rfl rfl
theorem Sys2Proof.Laws.Wf.railRegulationLoss : ∀ rail, Sys2Proof.Laws.Wf.Statement (.railRegulationLoss rail) := fun _ => Sys2Proof.Laws.Wf.of_event rfl rfl
theorem Sys2Proof.Laws.Wf.holdupExpiry : Sys2Proof.Laws.Wf.Statement .holdupExpiry := Sys2Proof.Laws.Wf.of_event rfl rfl
theorem Sys2Proof.Laws.Wf.resetNNegate : ∀ sinceGoodUs, Sys2Proof.Laws.Wf.Statement (.resetNNegate sinceGoodUs) := fun _ => Sys2Proof.Laws.Wf.of_event rfl rfl
theorem Sys2Proof.Laws.Wf.resetNAssert : Sys2Proof.Laws.Wf.Statement .resetNAssert := Sys2Proof.Laws.Wf.of_event rfl rfl
theorem Sys2Proof.Laws.Wf.chassisAlert : ∀ level, Sys2Proof.Laws.Wf.Statement (.chassisAlert level) := fun _ => Sys2Proof.Laws.Wf.of_event rfl rfl
theorem Sys2Proof.Laws.Wf.thermalTrip : ∀ rinkTj hubTj stackTj nearTj tOut, Sys2Proof.Laws.Wf.Statement (.thermalTrip rinkTj hubTj stackTj nearTj tOut) := fun _ _ _ _ _ => Sys2Proof.Laws.Wf.of_event rfl rfl
theorem Sys2Proof.Laws.Wf.tripLatchClear : Sys2Proof.Laws.Wf.Statement .tripLatchClear := Sys2Proof.Laws.Wf.of_event rfl rfl
theorem Sys2Proof.Laws.Wf.timestampWrap : Sys2Proof.Laws.Wf.Statement .timestampWrap := Sys2Proof.Laws.Wf.of_event rfl rfl
theorem Sys2Proof.Laws.Wf.tickToken : Sys2Proof.Laws.Wf.Statement .tickToken := Sys2Proof.Laws.Wf.of_event rfl rfl
theorem Sys2Proof.Laws.Wf.tickArrival : ∀ u, Sys2Proof.Laws.Wf.Statement (.tickArrival u) := fun _ => Sys2Proof.Laws.Wf.of_event rfl rfl
theorem Sys2Proof.Laws.Wf.beatMonitorWindow : ∀ r, Sys2Proof.Laws.Wf.Statement (.beatMonitorWindow r) := fun _ => Sys2Proof.Laws.Wf.of_event rfl rfl
theorem Sys2Proof.Laws.Wf.vcoreSlewStep : Sys2Proof.Laws.Wf.Statement .vcoreSlewStep := Sys2Proof.Laws.Wf.of_event rfl rfl
theorem Sys2Proof.Laws.Wf.holdDutyPieceEnd : Sys2Proof.Laws.Wf.Statement .holdDutyPieceEnd := Sys2Proof.Laws.Wf.of_event rfl rfl
theorem Sys2Proof.Laws.Wf.heartbeatToggle : Sys2Proof.Laws.Wf.Statement .heartbeatToggle := Sys2Proof.Laws.Wf.of_event rfl rfl
theorem Sys2Proof.Laws.Wf.heartbeatLoss : Sys2Proof.Laws.Wf.Statement .heartbeatLoss := Sys2Proof.Laws.Wf.of_event rfl rfl
theorem Sys2Proof.Laws.Wf.serviceCoreHang : ∀ core wholeRow, Sys2Proof.Laws.Wf.Statement (.serviceCoreHang core wholeRow) := fun _ _ => Sys2Proof.Laws.Wf.of_event rfl rfl
theorem Sys2Proof.Laws.Wf.carveGrant : ∀ slot, Sys2Proof.Laws.Wf.Statement (.carveGrant slot) := fun _ => Sys2Proof.Laws.Wf.of_event rfl rfl
theorem Sys2Proof.Laws.Wf.carveWaitTimeout : ∀ slot, Sys2Proof.Laws.Wf.Statement (.carveWaitTimeout slot) := fun _ => Sys2Proof.Laws.Wf.of_event rfl rfl
theorem Sys2Proof.Laws.Wf.runEnd : ∀ slot, Sys2Proof.Laws.Wf.Statement (.runEnd slot) := fun _ => Sys2Proof.Laws.Wf.of_event rfl rfl
theorem Sys2Proof.Laws.Wf.segmentStart : ∀ slot seg work, Sys2Proof.Laws.Wf.Statement (.segmentStart slot seg work) := fun _ _ _ => Sys2Proof.Laws.Wf.of_event rfl rfl
theorem Sys2Proof.Laws.Wf.segmentFinish : ∀ slot seg, Sys2Proof.Laws.Wf.Statement (.segmentFinish slot seg) := fun _ _ => Sys2Proof.Laws.Wf.of_event rfl rfl
theorem Sys2Proof.Laws.Wf.stepEndToken : ∀ slot, Sys2Proof.Laws.Wf.Statement (.stepEndToken slot) := fun _ => Sys2Proof.Laws.Wf.of_event rfl rfl
theorem Sys2Proof.Laws.Wf.useStart : ∀ slot seg use off pass x, Sys2Proof.Laws.Wf.Statement (.useStart slot seg use off pass x) := fun _ _ _ _ _ _ => Sys2Proof.Laws.Wf.of_event rfl rfl
theorem Sys2Proof.Laws.Wf.useFinish : ∀ slot off, Sys2Proof.Laws.Wf.Statement (.useFinish slot off) := fun _ _ => Sys2Proof.Laws.Wf.of_event rfl rfl
theorem Sys2Proof.Laws.Wf.gateSignal : ∀ gate epoch, Sys2Proof.Laws.Wf.Statement (.gateSignal gate epoch) := fun _ _ => Sys2Proof.Laws.Wf.of_event rfl rfl
theorem Sys2Proof.Laws.Wf.gateWait : ∀ gate epoch slot, Sys2Proof.Laws.Wf.Statement (.gateWait gate epoch slot) := fun _ _ _ => Sys2Proof.Laws.Wf.of_event rfl rfl
theorem Sys2Proof.Laws.Wf.gateWatchdogTrip : ∀ gate, Sys2Proof.Laws.Wf.Statement (.gateWatchdogTrip gate) := fun _ => Sys2Proof.Laws.Wf.of_event rfl rfl
theorem Sys2Proof.Laws.Wf.operandRelease : ∀ stn q tap, Sys2Proof.Laws.Wf.Statement (.operandRelease stn q tap) := fun _ _ _ => Sys2Proof.Laws.Wf.of_event rfl rfl
theorem Sys2Proof.Laws.Wf.anchorForm : ∀ stn q tp, Sys2Proof.Laws.Wf.Statement (.anchorForm stn q tp) := fun _ _ _ => Sys2Proof.Laws.Wf.of_event rfl rfl
theorem Sys2Proof.Laws.Wf.cellFire : ∀ stn row col, Sys2Proof.Laws.Wf.Statement (.cellFire stn row col) := fun _ _ _ => Sys2Proof.Laws.Wf.of_event rfl rfl
theorem Sys2Proof.Laws.Wf.weightLoadHandshake : ∀ stn q, Sys2Proof.Laws.Wf.Statement (.weightLoadHandshake stn q) := fun _ _ => Sys2Proof.Laws.Wf.of_event rfl rfl
theorem Sys2Proof.Laws.Wf.loadComplete : ∀ stn q, Sys2Proof.Laws.Wf.Statement (.loadComplete stn q) := fun _ _ => Sys2Proof.Laws.Wf.of_event rfl rfl
theorem Sys2Proof.Laws.Wf.swapMarkerRelease : ∀ stn q tap, Sys2Proof.Laws.Wf.Statement (.swapMarkerRelease stn q tap) := fun _ _ _ => Sys2Proof.Laws.Wf.of_event rfl rfl
theorem Sys2Proof.Laws.Wf.drainRound : ∀ stn q lane, Sys2Proof.Laws.Wf.Statement (.drainRound stn q lane) := fun _ _ _ => Sys2Proof.Laws.Wf.of_event rfl rfl
theorem Sys2Proof.Laws.Wf.postunitAccept : ∀ stn q lane, Sys2Proof.Laws.Wf.Statement (.postunitAccept stn q lane) := fun _ _ _ => Sys2Proof.Laws.Wf.of_event rfl rfl
theorem Sys2Proof.Laws.Wf.longSumAdd : ∀ stn q lane, Sys2Proof.Laws.Wf.Statement (.longSumAdd stn q lane) := fun _ _ _ => Sys2Proof.Laws.Wf.of_event rfl rfl
theorem Sys2Proof.Laws.Wf.rowReductionAdd : ∀ stn q id term last, Sys2Proof.Laws.Wf.Statement (.rowReductionAdd stn q id term last) := fun _ _ _ _ _ => Sys2Proof.Laws.Wf.of_event rfl rfl
theorem Sys2Proof.Laws.Wf.hopTransfer : ∀ stn next q, Sys2Proof.Laws.Wf.Statement (.hopTransfer stn next q) := fun _ _ _ => Sys2Proof.Laws.Wf.of_event rfl rfl
theorem Sys2Proof.Laws.Wf.tileInject : ∀ die stn q, Sys2Proof.Laws.Wf.Statement (.tileInject die stn q) := fun _ _ _ => Sys2Proof.Laws.Wf.of_event rfl rfl
theorem Sys2Proof.Laws.Wf.tileRetire : ∀ stn q, Sys2Proof.Laws.Wf.Statement (.tileRetire stn q) := fun _ _ => Sys2Proof.Laws.Wf.of_event rfl rfl
theorem Sys2Proof.Laws.Wf.carveFaultDetect : ∀ stn q kind, Sys2Proof.Laws.Wf.Statement (.carveFaultDetect stn q kind) := fun _ _ _ => Sys2Proof.Laws.Wf.of_event rfl rfl
theorem Sys2Proof.Laws.Wf.carveDrainDone : ∀ stn q, Sys2Proof.Laws.Wf.Statement (.carveDrainDone stn q) := fun _ _ => Sys2Proof.Laws.Wf.of_event rfl rfl
theorem Sys2Proof.Laws.Wf.carveClearDone : ∀ stn q, Sys2Proof.Laws.Wf.Statement (.carveClearDone stn q) := fun _ _ => Sys2Proof.Laws.Wf.of_event rfl rfl
theorem Sys2Proof.Laws.Wf.quarterCheckDone : ∀ stn q pass, Sys2Proof.Laws.Wf.Statement (.quarterCheckDone stn q pass) := fun _ _ _ => Sys2Proof.Laws.Wf.of_event rfl rfl
theorem Sys2Proof.Laws.Wf.rinkReconfigure : Sys2Proof.Laws.Wf.Statement .rinkReconfigure := Sys2Proof.Laws.Wf.of_event rfl rfl
theorem Sys2Proof.Laws.Wf.stationWithdrawn : ∀ stn, Sys2Proof.Laws.Wf.Statement (.stationWithdrawn stn) := fun _ => Sys2Proof.Laws.Wf.of_event rfl rfl
theorem Sys2Proof.Laws.Wf.holdRaise : ∀ slot cause, Sys2Proof.Laws.Wf.Statement (.holdRaise slot cause) := fun _ _ => Sys2Proof.Laws.Wf.of_event rfl rfl
theorem Sys2Proof.Laws.Wf.holdStopped : ∀ slot, Sys2Proof.Laws.Wf.Statement (.holdStopped slot) := fun _ => Sys2Proof.Laws.Wf.of_event rfl rfl
theorem Sys2Proof.Laws.Wf.holdDrained : ∀ slot, Sys2Proof.Laws.Wf.Statement (.holdDrained slot) := fun _ => Sys2Proof.Laws.Wf.of_event rfl rfl
theorem Sys2Proof.Laws.Wf.holdClear : ∀ slot cause, Sys2Proof.Laws.Wf.Statement (.holdClear slot cause) := fun _ _ => Sys2Proof.Laws.Wf.of_event rfl rfl
theorem Sys2Proof.Laws.Wf.holdLongTimeout : ∀ slot, Sys2Proof.Laws.Wf.Statement (.holdLongTimeout slot) := fun _ => Sys2Proof.Laws.Wf.of_event rfl rfl
theorem Sys2Proof.Laws.Wf.ntRefreshSlot : ∀ die, Sys2Proof.Laws.Wf.Statement (.ntRefreshSlot die) := fun _ => Sys2Proof.Laws.Wf.of_event rfl rfl
theorem Sys2Proof.Laws.Wf.ntBandChange : ∀ die tj, Sys2Proof.Laws.Wf.Statement (.ntBandChange die tj) := fun _ _ => Sys2Proof.Laws.Wf.of_event rfl rfl
theorem Sys2Proof.Laws.Wf.ntBurstLead : ∀ die, Sys2Proof.Laws.Wf.Statement (.ntBurstLead die) := fun _ => Sys2Proof.Laws.Wf.of_event rfl rfl
theorem Sys2Proof.Laws.Wf.ntBurstEnd : ∀ die, Sys2Proof.Laws.Wf.Statement (.ntBurstEnd die) := fun _ => Sys2Proof.Laws.Wf.of_event rfl rfl
theorem Sys2Proof.Laws.Wf.stackServiceSlot : ∀ stack, Sys2Proof.Laws.Wf.Statement (.stackServiceSlot stack) := fun _ => Sys2Proof.Laws.Wf.of_event rfl rfl
theorem Sys2Proof.Laws.Wf.stackTestSlot : ∀ stack last, Sys2Proof.Laws.Wf.Statement (.stackTestSlot stack last) := fun _ _ => Sys2Proof.Laws.Wf.of_event rfl rfl
theorem Sys2Proof.Laws.Wf.stackVerifyScrub : ∀ stack line corrected, Sys2Proof.Laws.Wf.Statement (.stackVerifyScrub stack line corrected) := fun _ _ _ => Sys2Proof.Laws.Wf.of_event rfl rfl
theorem Sys2Proof.Laws.Wf.stackLineUe : ∀ stack line owner, Sys2Proof.Laws.Wf.Statement (.stackLineUe stack line owner) := fun _ _ _ => Sys2Proof.Laws.Wf.of_event rfl rfl
theorem Sys2Proof.Laws.Wf.stackDieMark : ∀ stack die line, Sys2Proof.Laws.Wf.Statement (.stackDieMark stack die line) := fun _ _ _ => Sys2Proof.Laws.Wf.of_event rfl rfl
theorem Sys2Proof.Laws.Wf.baseW40Add : ∀ t slot src, Sys2Proof.Laws.Wf.Statement (.baseW40Add t slot src) := fun _ _ _ => Sys2Proof.Laws.Wf.of_event rfl rfl
theorem Sys2Proof.Laws.Wf.baseGatherScatter : ∀ dir bib lines, Sys2Proof.Laws.Wf.Statement (.baseGatherScatter dir bib lines) := fun _ _ _ => Sys2Proof.Laws.Wf.of_event rfl rfl
theorem Sys2Proof.Laws.Wf.topkInsert : ∀ stack bib cand, Sys2Proof.Laws.Wf.Statement (.topkInsert stack bib cand) := fun _ _ _ => Sys2Proof.Laws.Wf.of_event rfl rfl
theorem Sys2Proof.Laws.Wf.baseZeroFill : ∀ tile home bytes, Sys2Proof.Laws.Wf.Statement (.baseZeroFill tile home bytes) := fun _ _ _ => Sys2Proof.Laws.Wf.of_event rfl rfl
theorem Sys2Proof.Laws.Wf.baseVerify : ∀ stack lines bad, Sys2Proof.Laws.Wf.Statement (.baseVerify stack lines bad) := fun _ _ _ => Sys2Proof.Laws.Wf.of_event rfl rfl
theorem Sys2Proof.Laws.Wf.headerOperation : ∀ t slot seg write fmt home hcrc, Sys2Proof.Laws.Wf.Statement (.headerOperation t slot seg write fmt home hcrc) := fun _ _ _ _ _ _ _ => Sys2Proof.Laws.Wf.of_event rfl rfl
theorem Sys2Proof.Laws.Wf.translationWalkDone : ∀ bib page slot write strm, Sys2Proof.Laws.Wf.Statement (.translationWalkDone bib page slot write strm) := fun _ _ _ _ _ => Sys2Proof.Laws.Wf.of_event rfl rfl
theorem Sys2Proof.Laws.Wf.pageMove : ∀ bib page tier frame, Sys2Proof.Laws.Wf.Statement (.pageMove bib page tier frame) := fun _ _ _ _ => Sys2Proof.Laws.Wf.of_event rfl rfl
theorem Sys2Proof.Laws.Wf.moveRequest : ∀ id t dst mover, Sys2Proof.Laws.Wf.Statement (.moveRequest id t dst mover) := fun _ _ _ _ => Sys2Proof.Laws.Wf.of_event rfl rfl
theorem Sys2Proof.Laws.Wf.moveHeaderSet : ∀ id, Sys2Proof.Laws.Wf.Statement (.moveHeaderSet id) := fun _ => Sys2Proof.Laws.Wf.of_event rfl rfl
theorem Sys2Proof.Laws.Wf.moveDataDone : ∀ id, Sys2Proof.Laws.Wf.Statement (.moveDataDone id) := fun _ => Sys2Proof.Laws.Wf.of_event rfl rfl
theorem Sys2Proof.Laws.Wf.moveCommit : ∀ id, Sys2Proof.Laws.Wf.Statement (.moveCommit id) := fun _ => Sys2Proof.Laws.Wf.of_event rfl rfl
theorem Sys2Proof.Laws.Wf.moveRelease : ∀ id, Sys2Proof.Laws.Wf.Statement (.moveRelease id) := fun _ => Sys2Proof.Laws.Wf.of_event rfl rfl
theorem Sys2Proof.Laws.Wf.moveFailure : ∀ id atSource, Sys2Proof.Laws.Wf.Statement (.moveFailure id atSource) := fun _ _ => Sys2Proof.Laws.Wf.of_event rfl rfl
theorem Sys2Proof.Laws.Wf.lockerEntryWrite : ∀ slot seg die kind fmt reads tensor unit mb, Sys2Proof.Laws.Wf.Statement (.lockerEntryWrite slot seg die kind fmt reads tensor unit mb) := fun _ _ _ _ _ _ _ _ _ => Sys2Proof.Laws.Wf.of_event rfl rfl
theorem Sys2Proof.Laws.Wf.lockerEntryRead : ∀ slot die tensor unit mb readable, Sys2Proof.Laws.Wf.Statement (.lockerEntryRead slot die tensor unit mb readable) := fun _ _ _ _ _ _ => Sys2Proof.Laws.Wf.of_event rfl rfl
theorem Sys2Proof.Laws.Wf.streamOpen : ∀ slot decl strm, Sys2Proof.Laws.Wf.Statement (.streamOpen slot decl strm) := fun _ _ _ => Sys2Proof.Laws.Wf.of_event rfl rfl
theorem Sys2Proof.Laws.Wf.streamClose : ∀ strm, Sys2Proof.Laws.Wf.Statement (.streamClose strm) := fun _ => Sys2Proof.Laws.Wf.of_event rfl rfl
theorem Sys2Proof.Laws.Wf.liftIssue : ∀ strm dst mover, Sys2Proof.Laws.Wf.Statement (.liftIssue strm dst mover) := fun _ _ _ => Sys2Proof.Laws.Wf.of_event rfl rfl
theorem Sys2Proof.Laws.Wf.itemRead : ∀ strm item, Sys2Proof.Laws.Wf.Statement (.itemRead strm item) := fun _ _ => Sys2Proof.Laws.Wf.of_event rfl rfl
theorem Sys2Proof.Laws.Wf.itemLate : ∀ strm item, Sys2Proof.Laws.Wf.Statement (.itemLate strm item) := fun _ _ => Sys2Proof.Laws.Wf.of_event rfl rfl
theorem Sys2Proof.Laws.Wf.streamHalt : ∀ strm item va, Sys2Proof.Laws.Wf.Statement (.streamHalt strm item va) := fun _ _ _ => Sys2Proof.Laws.Wf.of_event rfl rfl
theorem Sys2Proof.Laws.Wf.streamResume : ∀ strm, Sys2Proof.Laws.Wf.Statement (.streamResume strm) := fun _ => Sys2Proof.Laws.Wf.of_event rfl rfl
theorem Sys2Proof.Laws.Wf.streamUnwind : ∀ strm other, Sys2Proof.Laws.Wf.Statement (.streamUnwind strm other) := fun _ _ => Sys2Proof.Laws.Wf.of_event rfl rfl
theorem Sys2Proof.Laws.Wf.mxConvert : ∀ strm item scales elems, Sys2Proof.Laws.Wf.Statement (.mxConvert strm item scales elems) := fun _ _ _ _ => Sys2Proof.Laws.Wf.of_event rfl rfl
theorem Sys2Proof.Laws.Wf.localVerdictForm : ∀ slot, Sys2Proof.Laws.Wf.Statement (.localVerdictForm slot) := fun _ => Sys2Proof.Laws.Wf.of_event rfl rfl
theorem Sys2Proof.Laws.Wf.verdictRoundRx : ∀ slot plus overflow, Sys2Proof.Laws.Wf.Statement (.verdictRoundRx slot plus overflow) := fun _ _ _ => Sys2Proof.Laws.Wf.of_event rfl rfl
theorem Sys2Proof.Laws.Wf.stepCommit : ∀ slot, Sys2Proof.Laws.Wf.Statement (.stepCommit slot) := fun _ => Sys2Proof.Laws.Wf.of_event rfl rfl
theorem Sys2Proof.Laws.Wf.stepSkip : ∀ slot, Sys2Proof.Laws.Wf.Statement (.stepSkip slot) := fun _ => Sys2Proof.Laws.Wf.of_event rfl rfl
theorem Sys2Proof.Laws.Wf.scaleGateBoundary : ∀ slot, Sys2Proof.Laws.Wf.Statement (.scaleGateBoundary slot) := fun _ => Sys2Proof.Laws.Wf.of_event rfl rfl
theorem Sys2Proof.Laws.Wf.gradientPatchArrival : ∀ pipe slot binding patch grad, Sys2Proof.Laws.Wf.Statement (.gradientPatchArrival pipe slot binding patch grad) := fun _ _ _ _ _ => Sys2Proof.Laws.Wf.of_event rfl rfl
theorem Sys2Proof.Laws.Wf.stateStageRead : ∀ pipe slot binding patch, Sys2Proof.Laws.Wf.Statement (.stateStageRead pipe slot binding patch) := fun _ _ _ _ => Sys2Proof.Laws.Wf.of_event rfl rfl
theorem Sys2Proof.Laws.Wf.updateProgramEnd : ∀ pipe group, Sys2Proof.Laws.Wf.Statement (.updateProgramEnd pipe group) := fun _ _ => Sys2Proof.Laws.Wf.of_event rfl rfl
theorem Sys2Proof.Laws.Wf.slotBCommit : ∀ pipe onward, Sys2Proof.Laws.Wf.Statement (.slotBCommit pipe onward) := fun _ _ => Sys2Proof.Laws.Wf.of_event rfl rfl
theorem Sys2Proof.Laws.Wf.clipArm : ∀ slot clip, Sys2Proof.Laws.Wf.Statement (.clipArm slot clip) := fun _ _ => Sys2Proof.Laws.Wf.of_event rfl rfl
theorem Sys2Proof.Laws.Wf.slFrameTx : ∀ port, Sys2Proof.Laws.Wf.Statement (.slFrameTx port) := fun _ => Sys2Proof.Laws.Wf.of_event rfl rfl
theorem Sys2Proof.Laws.Wf.slFrameRx : ∀ port symbolErrors crcOk f, Sys2Proof.Laws.Wf.Statement (.slFrameRx port symbolErrors crcOk f) := fun _ _ _ _ => Sys2Proof.Laws.Wf.of_event rfl rfl
theorem Sys2Proof.Laws.Wf.slRetrain : ∀ port failed, Sys2Proof.Laws.Wf.Statement (.slRetrain port failed) := fun _ _ => Sys2Proof.Laws.Wf.of_event rfl rfl
theorem Sys2Proof.Laws.Wf.slPortDown : ∀ port, Sys2Proof.Laws.Wf.Statement (.slPortDown port) := fun _ => Sys2Proof.Laws.Wf.of_event rfl rfl
theorem Sys2Proof.Laws.Wf.slTrainDone : ∀ port neighbour cap good fibreNs, Sys2Proof.Laws.Wf.Statement (.slTrainDone port neighbour cap good fibreNs) := fun _ _ _ _ _ => Sys2Proof.Laws.Wf.of_event rfl rfl
theorem Sys2Proof.Laws.Wf.slLinkLoss : ∀ port, Sys2Proof.Laws.Wf.Statement (.slLinkLoss port) := fun _ => Sys2Proof.Laws.Wf.of_event rfl rfl
theorem Sys2Proof.Laws.Wf.slMessageOpen : ∀ port m, Sys2Proof.Laws.Wf.Statement (.slMessageOpen port m) := fun _ _ => Sys2Proof.Laws.Wf.of_event rfl rfl
theorem Sys2Proof.Laws.Wf.slMessageCommit : ∀ port stream tag tagOk, Sys2Proof.Laws.Wf.Statement (.slMessageCommit port stream tag tagOk) := fun _ _ _ _ => Sys2Proof.Laws.Wf.of_event rfl rfl
theorem Sys2Proof.Laws.Wf.slAbortRx : ∀ port stream, Sys2Proof.Laws.Wf.Statement (.slAbortRx port stream) := fun _ _ => Sys2Proof.Laws.Wf.of_event rfl rfl
theorem Sys2Proof.Laws.Wf.slControlRx : ∀ port jtag gate epoch value, Sys2Proof.Laws.Wf.Statement (.slControlRx port jtag gate epoch value) := fun _ _ _ _ _ => Sys2Proof.Laws.Wf.of_event rfl rfl
theorem Sys2Proof.Laws.Wf.collectiveChunkRx : ∀ port slot binding patch c onward, Sys2Proof.Laws.Wf.Statement (.collectiveChunkRx port slot binding patch c onward) := fun _ _ _ _ _ _ => Sys2Proof.Laws.Wf.of_event rfl rfl
theorem Sys2Proof.Laws.Wf.patternTestEnd : ∀ port errors, Sys2Proof.Laws.Wf.Statement (.patternTestEnd port errors) := fun _ _ => Sys2Proof.Laws.Wf.of_event rfl rfl
theorem Sys2Proof.Laws.Wf.ringDrainComplete : ∀ rail dim, Sys2Proof.Laws.Wf.Statement (.ringDrainComplete rail dim) := fun _ _ => Sys2Proof.Laws.Wf.of_event rfl rfl
theorem Sys2Proof.Laws.Wf.bypassToLoop : ∀ rail dim, Sys2Proof.Laws.Wf.Statement (.bypassToLoop rail dim) := fun _ _ => Sys2Proof.Laws.Wf.of_event rfl rfl
theorem Sys2Proof.Laws.Wf.bypassOpenStart : ∀ rail dim, Sys2Proof.Laws.Wf.Statement (.bypassOpenStart rail dim) := fun _ _ => Sys2Proof.Laws.Wf.of_event rfl rfl
theorem Sys2Proof.Laws.Wf.bypassOpeningDone : ∀ rail dim, Sys2Proof.Laws.Wf.Statement (.bypassOpeningDone rail dim) := fun _ _ => Sys2Proof.Laws.Wf.of_event rfl rfl
theorem Sys2Proof.Laws.Wf.bypassJoined : ∀ rail dim, Sys2Proof.Laws.Wf.Statement (.bypassJoined rail dim) := fun _ _ => Sys2Proof.Laws.Wf.of_event rfl rfl
theorem Sys2Proof.Laws.Wf.bypassTrainTimeout : ∀ rail dim, Sys2Proof.Laws.Wf.Statement (.bypassTrainTimeout rail dim) := fun _ _ => Sys2Proof.Laws.Wf.of_event rfl rfl
theorem Sys2Proof.Laws.Wf.bypassDriveLoss : ∀ rail dim, Sys2Proof.Laws.Wf.Statement (.bypassDriveLoss rail dim) := fun _ _ => Sys2Proof.Laws.Wf.of_event rfl rfl
theorem Sys2Proof.Laws.Wf.bypassClosingDone : ∀ rail dim, Sys2Proof.Laws.Wf.Statement (.bypassClosingDone rail dim) := fun _ _ => Sys2Proof.Laws.Wf.of_event rfl rfl
theorem Sys2Proof.Laws.Wf.switchStuckCheck : ∀ rail dim, Sys2Proof.Laws.Wf.Statement (.switchStuckCheck rail dim) := fun _ _ => Sys2Proof.Laws.Wf.of_event rfl rfl
theorem Sys2Proof.Laws.Wf.linkKeyRotate : ∀ job, Sys2Proof.Laws.Wf.Statement (.linkKeyRotate job) := fun _ => Sys2Proof.Laws.Wf.of_event rfl rfl
theorem Sys2Proof.Laws.Wf.keyRotateTimer : ∀ bib, Sys2Proof.Laws.Wf.Statement (.keyRotateTimer bib) := fun _ => Sys2Proof.Laws.Wf.of_event rfl rfl
theorem Sys2Proof.Laws.Wf.keySweepItem : ∀ bib stack, Sys2Proof.Laws.Wf.Statement (.keySweepItem bib stack) := fun _ _ => Sys2Proof.Laws.Wf.of_event rfl rfl
theorem Sys2Proof.Laws.Wf.keyRetire : ∀ bib, Sys2Proof.Laws.Wf.Statement (.keyRetire bib) := fun _ => Sys2Proof.Laws.Wf.of_event rfl rfl
theorem Sys2Proof.Laws.Wf.kemPairReady : ∀ bib, Sys2Proof.Laws.Wf.Statement (.kemPairReady bib) := fun _ => Sys2Proof.Laws.Wf.of_event rfl rfl
theorem Sys2Proof.Laws.Wf.scrubPagesDone : ∀ bib badFrames, Sys2Proof.Laws.Wf.Statement (.scrubPagesDone bib badFrames) := fun _ _ => Sys2Proof.Laws.Wf.of_event rfl rfl
theorem Sys2Proof.Laws.Wf.scrubComplete : ∀ bib, Sys2Proof.Laws.Wf.Statement (.scrubComplete bib) := fun _ => Sys2Proof.Laws.Wf.of_event rfl rfl
theorem Sys2Proof.Laws.Wf.lodgeUnitReadDone : ∀ place ok, Sys2Proof.Laws.Wf.Statement (.lodgeUnitReadDone place ok) := fun _ _ => Sys2Proof.Laws.Wf.of_event rfl rfl
theorem Sys2Proof.Laws.Wf.lodgeStripeProgrammed : ∀ blk wl die failedCh units, Sys2Proof.Laws.Wf.Statement (.lodgeStripeProgrammed blk wl die failedCh units) := fun _ _ _ _ _ => Sys2Proof.Laws.Wf.of_event rfl rfl
theorem Sys2Proof.Laws.Wf.lodgeEraseDone : ∀ ch die blk ok, Sys2Proof.Laws.Wf.Statement (.lodgeEraseDone ch die blk ok) := fun _ _ _ _ => Sys2Proof.Laws.Wf.of_event rfl rfl
theorem Sys2Proof.Laws.Wf.lodgeWearLevelTimer : ∀ ch die low high, Sys2Proof.Laws.Wf.Statement (.lodgeWearLevelTimer ch die low high) := fun _ _ _ _ => Sys2Proof.Laws.Wf.of_event rfl rfl
theorem Sys2Proof.Laws.Wf.lodgeRetentionScan : ∀ ch die blk worst ageDays, Sys2Proof.Laws.Wf.Statement (.lodgeRetentionScan ch die blk worst ageDays) := fun _ _ _ _ _ => Sys2Proof.Laws.Wf.of_event rfl rfl
theorem Sys2Proof.Laws.Wf.lodgeDieDead : ∀ ch die, Sys2Proof.Laws.Wf.Statement (.lodgeDieDead ch die) := fun _ _ => Sys2Proof.Laws.Wf.of_event rfl rfl
theorem Sys2Proof.Laws.Wf.lodgeChannelLost : ∀ ch, Sys2Proof.Laws.Wf.Statement (.lodgeChannelLost ch) := fun _ => Sys2Proof.Laws.Wf.of_event rfl rfl
theorem Sys2Proof.Laws.Wf.lodgePageRebuild : ∀ bib page lun fromT2 waiting, Sys2Proof.Laws.Wf.Statement (.lodgePageRebuild bib page lun fromT2 waiting) := fun _ _ _ _ _ => Sys2Proof.Laws.Wf.of_event rfl rfl
theorem Sys2Proof.Laws.Wf.lodgePeerFetchDone : ∀ bib page ok, Sys2Proof.Laws.Wf.Statement (.lodgePeerFetchDone bib page ok) := fun _ _ _ => Sys2Proof.Laws.Wf.of_event rfl rfl
theorem Sys2Proof.Laws.Wf.pageInRequest : ∀ bib page lun frame, Sys2Proof.Laws.Wf.Statement (.pageInRequest bib page lun frame) := fun _ _ _ _ => Sys2Proof.Laws.Wf.of_event rfl rfl
theorem Sys2Proof.Laws.Wf.commitRecordProgrammed : ∀ id copy ok, Sys2Proof.Laws.Wf.Statement (.commitRecordProgrammed id copy ok) := fun _ _ _ => Sys2Proof.Laws.Wf.of_event rfl rfl
theorem Sys2Proof.Laws.Wf.lodgeStart : Sys2Proof.Laws.Wf.Statement .lodgeStart := Sys2Proof.Laws.Wf.of_event rfl rfl
theorem Sys2Proof.Laws.Wf.buddyCopyComplete : ∀ job rank step kind, Sys2Proof.Laws.Wf.Statement (.buddyCopyComplete job rank step kind) := fun _ _ _ _ => Sys2Proof.Laws.Wf.of_event rfl rfl
theorem Sys2Proof.Laws.Wf.memberLost : ∀ job rank, Sys2Proof.Laws.Wf.Statement (.memberLost job rank) := fun _ _ => Sys2Proof.Laws.Wf.of_event rfl rfl
theorem Sys2Proof.Laws.Wf.recoveryPlan : ∀ job step fore, Sys2Proof.Laws.Wf.Statement (.recoveryPlan job step fore) := fun _ _ _ => Sys2Proof.Laws.Wf.of_event rfl rfl
theorem Sys2Proof.Laws.Wf.forerunnerEntryStep : ∀ job row, Sys2Proof.Laws.Wf.Statement (.forerunnerEntryStep job row) := fun _ _ => Sys2Proof.Laws.Wf.of_event rfl rfl
theorem Sys2Proof.Laws.Wf.recoveryResume : ∀ job, Sys2Proof.Laws.Wf.Statement (.recoveryResume job) := fun _ => Sys2Proof.Laws.Wf.of_event rfl rfl
theorem Sys2Proof.Laws.Wf.spreadPath : ∀ job dim planes m, Sys2Proof.Laws.Wf.Statement (.spreadPath job dim planes m) := fun _ _ _ _ => Sys2Proof.Laws.Wf.of_event rfl rfl
theorem Sys2Proof.Laws.Wf.pfMarkerArrive : ∀ unit, Sys2Proof.Laws.Wf.Statement (.pfMarkerArrive unit) := fun _ => Sys2Proof.Laws.Wf.of_event rfl rfl
theorem Sys2Proof.Laws.Wf.pfMarkerReturn : Sys2Proof.Laws.Wf.Statement .pfMarkerReturn := Sys2Proof.Laws.Wf.of_event rfl rfl
theorem Sys2Proof.Laws.Wf.pfCopyDone : Sys2Proof.Laws.Wf.Statement .pfCopyDone := Sys2Proof.Laws.Wf.of_event rfl rfl
theorem Sys2Proof.Laws.Wf.pfPeriodicTimer : Sys2Proof.Laws.Wf.Statement .pfPeriodicTimer := Sys2Proof.Laws.Wf.of_event rfl rfl
theorem Sys2Proof.Laws.Wf.eventLogEntry : Sys2Proof.Laws.Wf.Statement .eventLogEntry := Sys2Proof.Laws.Wf.of_event rfl rfl
theorem Sys2Proof.Laws.Wf.logFlushTimer : Sys2Proof.Laws.Wf.Statement .logFlushTimer := Sys2Proof.Laws.Wf.of_event rfl rfl
theorem Sys2Proof.Laws.Wf.selftestStart : ∀ unit inst, Sys2Proof.Laws.Wf.Statement (.selftestStart unit inst) := fun _ _ => Sys2Proof.Laws.Wf.of_event rfl rfl
theorem Sys2Proof.Laws.Wf.selftestDone : ∀ unit inst o, Sys2Proof.Laws.Wf.Statement (.selftestDone unit inst o) := fun _ _ _ => Sys2Proof.Laws.Wf.of_event rfl rfl
theorem Sys2Proof.Laws.Wf.bootRomStart : Sys2Proof.Laws.Wf.Statement .bootRomStart := Sys2Proof.Laws.Wf.of_event rfl rfl
theorem Sys2Proof.Laws.Wf.bootLoaderVerified : Sys2Proof.Laws.Wf.Statement .bootLoaderVerified := Sys2Proof.Laws.Wf.of_event rfl rfl
theorem Sys2Proof.Laws.Wf.bootMemoryTrained : Sys2Proof.Laws.Wf.Statement .bootMemoryTrained := Sys2Proof.Laws.Wf.of_event rfl rfl
theorem Sys2Proof.Laws.Wf.bootMemoryZeroed : Sys2Proof.Laws.Wf.Statement .bootMemoryZeroed := Sys2Proof.Laws.Wf.of_event rfl rfl
theorem Sys2Proof.Laws.Wf.bootImagesVerified : Sys2Proof.Laws.Wf.Statement .bootImagesVerified := Sys2Proof.Laws.Wf.of_event rfl rfl
theorem Sys2Proof.Laws.Wf.zilunzorRunning : Sys2Proof.Laws.Wf.Statement .zilunzorRunning := Sys2Proof.Laws.Wf.of_event rfl rfl
theorem Sys2Proof.Laws.Wf.startupSelftestDone : ∀ failed lost, Sys2Proof.Laws.Wf.Statement (.startupSelftestDone failed lost) := fun _ _ => Sys2Proof.Laws.Wf.of_event rfl rfl
theorem Sys2Proof.Laws.Wf.lodgeReady : Sys2Proof.Laws.Wf.Statement .lodgeReady := Sys2Proof.Laws.Wf.of_event rfl rfl
theorem Sys2Proof.Laws.Wf.loopbackTrained : Sys2Proof.Laws.Wf.Statement .loopbackTrained := Sys2Proof.Laws.Wf.of_event rfl rfl
theorem Sys2Proof.Laws.Wf.moduleReady : Sys2Proof.Laws.Wf.Statement .moduleReady := Sys2Proof.Laws.Wf.of_event rfl rfl
theorem Sys2Proof.Laws.Wf.trialBootTimeout : Sys2Proof.Laws.Wf.Statement .trialBootTimeout := Sys2Proof.Laws.Wf.of_event rfl rfl
theorem Sys2Proof.Laws.Wf.liveUpdateImageRead : Sys2Proof.Laws.Wf.Statement .liveUpdateImageRead := Sys2Proof.Laws.Wf.of_event rfl rfl
theorem Sys2Proof.Laws.Wf.liveUpdatePauseDone : Sys2Proof.Laws.Wf.Statement .liveUpdatePauseDone := Sys2Proof.Laws.Wf.of_event rfl rfl
theorem Sys2Proof.Laws.Wf.liveUpdateHandover : ∀ refused, Sys2Proof.Laws.Wf.Statement (.liveUpdateHandover refused) := fun _ => Sys2Proof.Laws.Wf.of_event rfl rfl
theorem Sys2Proof.Laws.Wf.liveUpdateHealthy : Sys2Proof.Laws.Wf.Statement .liveUpdateHealthy := Sys2Proof.Laws.Wf.of_event rfl rfl
theorem Sys2Proof.Laws.Wf.liveUpdateRevert : Sys2Proof.Laws.Wf.Statement .liveUpdateRevert := Sys2Proof.Laws.Wf.of_event rfl rfl
theorem Sys2Proof.Laws.Wf.jtagIdcode : Sys2Proof.Laws.Wf.Statement .jtagIdcode := Sys2Proof.Laws.Wf.of_event rfl rfl
theorem Sys2Proof.Laws.Wf.jtagBypass : Sys2Proof.Laws.Wf.Statement .jtagBypass := Sys2Proof.Laws.Wf.of_event rfl rfl
theorem Sys2Proof.Laws.Wf.jtagSamplePreload : ∀ pins, Sys2Proof.Laws.Wf.Statement (.jtagSamplePreload pins) := fun _ => Sys2Proof.Laws.Wf.of_event rfl rfl
theorem Sys2Proof.Laws.Wf.jtagExtest : ∀ pins, Sys2Proof.Laws.Wf.Statement (.jtagExtest pins) := fun _ => Sys2Proof.Laws.Wf.of_event rfl rfl
theorem Sys2Proof.Laws.Wf.jtagChallenge : Sys2Proof.Laws.Wf.Statement .jtagChallenge := Sys2Proof.Laws.Wf.of_event rfl rfl
theorem Sys2Proof.Laws.Wf.jtagToken : ∀ magicOk tver serial challenge scope rsvZero sigOk, Sys2Proof.Laws.Wf.Statement (.jtagToken magicOk tver serial challenge scope rsvZero sigOk) := fun _ _ _ _ _ _ _ => Sys2Proof.Laws.Wf.of_event rfl rfl
theorem Sys2Proof.Laws.Wf.onfiZqCalibration : ∀ ch, Sys2Proof.Laws.Wf.Statement (.onfiZqCalibration ch) := fun _ => Sys2Proof.Laws.Wf.of_event rfl rfl
end

