-- ==== Sys2Proof/Laws/State.lean ====
section
/-! SUPPORT. One lemma per part of the state for each named update, and what a register reads after its update. -/

namespace Sys2Proof.Machine

/-! ### used -/

@[simp] theorem used_clk (s : State) : (State.used s).clk = s.clk := rfl
@[simp] theorem used_pwr (s : State) : (State.used s).pwr = s.pwr := rfl
@[simp] theorem used_vc (s : State) : (State.used s).vc = s.vc := rfl
@[simp] theorem used_rink (s : State) : (State.used s).rink = s.rink := rfl
@[simp] theorem used_arr (s : State) : (State.used s).arr = s.arr := rfl
@[simp] theorem used_crs (s : State) : (State.used s).crs = s.crs := rfl
@[simp] theorem used_mem (s : State) : (State.used s).mem = s.mem := rfl
@[simp] theorem used_lkr (s : State) : (State.used s).lkr = s.lkr := rfl
@[simp] theorem used_lift (s : State) : (State.used s).lift = s.lift := rfl
@[simp] theorem used_lodge (s : State) : (State.used s).lodge = s.lodge := rfl
@[simp] theorem used_upd (s : State) : (State.used s).upd = s.upd := rfl
@[simp] theorem used_sl (s : State) : (State.used s).sl = s.sl := rfl
@[simp] theorem used_bibs (s : State) : (State.used s).bibs = s.bibs := rfl
@[simp] theorem used_cmd (s : State) : (State.used s).cmd = s.cmd := rfl
@[simp] theorem used_boot (s : State) : (State.used s).boot = s.boot := rfl
@[simp] theorem used_ctr (s : State) : (State.used s).ctr = s.ctr := rfl
@[simp] theorem used_pf (s : State) : (State.used s).pf = s.pf := rfl
@[simp] theorem used_log (s : State) : (State.used s).log = s.log := rfl
@[simp] theorem used_test (s : State) : (State.used s).test = s.test := rfl
@[simp] theorem used_sec (s : State) : (State.used s).sec = s.sec := rfl
@[simp] theorem used_freeCtr (s : State) : (State.used s).freeCtr = s.freeCtr + 1 := rfl
@[simp] theorem used_pending (s : State) : (State.used s).pending = s.pending := rfl

/-! ### raise -/

@[simp] theorem raise_clk (s : State) (e : Event) : (State.raise s e).clk = s.clk := rfl
@[simp] theorem raise_pwr (s : State) (e : Event) : (State.raise s e).pwr = s.pwr := rfl
@[simp] theorem raise_vc (s : State) (e : Event) : (State.raise s e).vc = s.vc := rfl
@[simp] theorem raise_rink (s : State) (e : Event) : (State.raise s e).rink = s.rink := rfl
@[simp] theorem raise_arr (s : State) (e : Event) : (State.raise s e).arr = s.arr := rfl
@[simp] theorem raise_crs (s : State) (e : Event) : (State.raise s e).crs = s.crs := rfl
@[simp] theorem raise_mem (s : State) (e : Event) : (State.raise s e).mem = s.mem := rfl
@[simp] theorem raise_lkr (s : State) (e : Event) : (State.raise s e).lkr = s.lkr := rfl
@[simp] theorem raise_lift (s : State) (e : Event) : (State.raise s e).lift = s.lift := rfl
@[simp] theorem raise_lodge (s : State) (e : Event) : (State.raise s e).lodge = s.lodge := rfl
@[simp] theorem raise_upd (s : State) (e : Event) : (State.raise s e).upd = s.upd := rfl
@[simp] theorem raise_sl (s : State) (e : Event) : (State.raise s e).sl = s.sl := rfl
@[simp] theorem raise_bibs (s : State) (e : Event) : (State.raise s e).bibs = s.bibs := rfl
@[simp] theorem raise_cmd (s : State) (e : Event) : (State.raise s e).cmd = s.cmd := rfl
@[simp] theorem raise_boot (s : State) (e : Event) : (State.raise s e).boot = s.boot := rfl
@[simp] theorem raise_ctr (s : State) (e : Event) : (State.raise s e).ctr = s.ctr := rfl
@[simp] theorem raise_pf (s : State) (e : Event) : (State.raise s e).pf = s.pf := rfl
@[simp] theorem raise_log (s : State) (e : Event) : (State.raise s e).log = { s.log with flight := s.log.flight ++ [e] } := rfl
@[simp] theorem raise_test (s : State) (e : Event) : (State.raise s e).test = s.test := rfl
@[simp] theorem raise_sec (s : State) (e : Event) : (State.raise s e).sec = s.sec := rfl
@[simp] theorem raise_freeCtr (s : State) (e : Event) : (State.raise s e).freeCtr = s.freeCtr := rfl
@[simp] theorem raise_pending (s : State) (e : Event) : (State.raise s e).pending = s.pending := rfl

/-! ### setBib -/

@[simp] theorem setBib_clk (s : State) (b : BitVec 12) (r : Bib) : (State.setBib s b r).clk = s.clk := rfl
@[simp] theorem setBib_pwr (s : State) (b : BitVec 12) (r : Bib) : (State.setBib s b r).pwr = s.pwr := rfl
@[simp] theorem setBib_vc (s : State) (b : BitVec 12) (r : Bib) : (State.setBib s b r).vc = s.vc := rfl
@[simp] theorem setBib_rink (s : State) (b : BitVec 12) (r : Bib) : (State.setBib s b r).rink = s.rink := rfl
@[simp] theorem setBib_arr (s : State) (b : BitVec 12) (r : Bib) : (State.setBib s b r).arr = s.arr := rfl
@[simp] theorem setBib_crs (s : State) (b : BitVec 12) (r : Bib) : (State.setBib s b r).crs = s.crs := rfl
@[simp] theorem setBib_mem (s : State) (b : BitVec 12) (r : Bib) : (State.setBib s b r).mem = s.mem := rfl
@[simp] theorem setBib_lkr (s : State) (b : BitVec 12) (r : Bib) : (State.setBib s b r).lkr = s.lkr := rfl
@[simp] theorem setBib_lift (s : State) (b : BitVec 12) (r : Bib) : (State.setBib s b r).lift = s.lift := rfl
@[simp] theorem setBib_lodge (s : State) (b : BitVec 12) (r : Bib) : (State.setBib s b r).lodge = s.lodge := rfl
@[simp] theorem setBib_upd (s : State) (b : BitVec 12) (r : Bib) : (State.setBib s b r).upd = s.upd := rfl
@[simp] theorem setBib_sl (s : State) (b : BitVec 12) (r : Bib) : (State.setBib s b r).sl = s.sl := rfl
@[simp] theorem setBib_bibs (s : State) (b : BitVec 12) (r : Bib) : (State.setBib s b r).bibs = { s.bibs with recs := s.bibs.recs.write {} b.toNat r } := rfl
@[simp] theorem setBib_cmd (s : State) (b : BitVec 12) (r : Bib) : (State.setBib s b r).cmd = s.cmd := rfl
@[simp] theorem setBib_boot (s : State) (b : BitVec 12) (r : Bib) : (State.setBib s b r).boot = s.boot := rfl
@[simp] theorem setBib_ctr (s : State) (b : BitVec 12) (r : Bib) : (State.setBib s b r).ctr = s.ctr := rfl
@[simp] theorem setBib_pf (s : State) (b : BitVec 12) (r : Bib) : (State.setBib s b r).pf = s.pf := rfl
@[simp] theorem setBib_log (s : State) (b : BitVec 12) (r : Bib) : (State.setBib s b r).log = s.log := rfl
@[simp] theorem setBib_test (s : State) (b : BitVec 12) (r : Bib) : (State.setBib s b r).test = s.test := rfl
@[simp] theorem setBib_sec (s : State) (b : BitVec 12) (r : Bib) : (State.setBib s b r).sec = s.sec := rfl
@[simp] theorem setBib_freeCtr (s : State) (b : BitVec 12) (r : Bib) : (State.setBib s b r).freeCtr = s.freeCtr := rfl
@[simp] theorem setBib_pending (s : State) (b : BitVec 12) (r : Bib) : (State.setBib s b r).pending = s.pending := rfl

/-! ### setKeys -/

@[simp] theorem setKeys_clk (s : State) (b : BitVec 12) (k : BibKeys) : (State.setKeys s b k).clk = s.clk := rfl
@[simp] theorem setKeys_pwr (s : State) (b : BitVec 12) (k : BibKeys) : (State.setKeys s b k).pwr = s.pwr := rfl
@[simp] theorem setKeys_vc (s : State) (b : BitVec 12) (k : BibKeys) : (State.setKeys s b k).vc = s.vc := rfl
@[simp] theorem setKeys_rink (s : State) (b : BitVec 12) (k : BibKeys) : (State.setKeys s b k).rink = s.rink := rfl
@[simp] theorem setKeys_arr (s : State) (b : BitVec 12) (k : BibKeys) : (State.setKeys s b k).arr = s.arr := rfl
@[simp] theorem setKeys_crs (s : State) (b : BitVec 12) (k : BibKeys) : (State.setKeys s b k).crs = s.crs := rfl
@[simp] theorem setKeys_mem (s : State) (b : BitVec 12) (k : BibKeys) : (State.setKeys s b k).mem = s.mem := rfl
@[simp] theorem setKeys_lkr (s : State) (b : BitVec 12) (k : BibKeys) : (State.setKeys s b k).lkr = s.lkr := rfl
@[simp] theorem setKeys_lift (s : State) (b : BitVec 12) (k : BibKeys) : (State.setKeys s b k).lift = s.lift := rfl
@[simp] theorem setKeys_lodge (s : State) (b : BitVec 12) (k : BibKeys) : (State.setKeys s b k).lodge = s.lodge := rfl
@[simp] theorem setKeys_upd (s : State) (b : BitVec 12) (k : BibKeys) : (State.setKeys s b k).upd = s.upd := rfl
@[simp] theorem setKeys_sl (s : State) (b : BitVec 12) (k : BibKeys) : (State.setKeys s b k).sl = s.sl := rfl
@[simp] theorem setKeys_bibs (s : State) (b : BitVec 12) (k : BibKeys) : (State.setKeys s b k).bibs = { s.bibs with keys := s.bibs.keys.write {} b.toNat k } := rfl
@[simp] theorem setKeys_cmd (s : State) (b : BitVec 12) (k : BibKeys) : (State.setKeys s b k).cmd = s.cmd := rfl
@[simp] theorem setKeys_boot (s : State) (b : BitVec 12) (k : BibKeys) : (State.setKeys s b k).boot = s.boot := rfl
@[simp] theorem setKeys_ctr (s : State) (b : BitVec 12) (k : BibKeys) : (State.setKeys s b k).ctr = s.ctr := rfl
@[simp] theorem setKeys_pf (s : State) (b : BitVec 12) (k : BibKeys) : (State.setKeys s b k).pf = s.pf := rfl
@[simp] theorem setKeys_log (s : State) (b : BitVec 12) (k : BibKeys) : (State.setKeys s b k).log = s.log := rfl
@[simp] theorem setKeys_test (s : State) (b : BitVec 12) (k : BibKeys) : (State.setKeys s b k).test = s.test := rfl
@[simp] theorem setKeys_sec (s : State) (b : BitVec 12) (k : BibKeys) : (State.setKeys s b k).sec = s.sec := rfl
@[simp] theorem setKeys_freeCtr (s : State) (b : BitVec 12) (k : BibKeys) : (State.setKeys s b k).freeCtr = s.freeCtr := rfl
@[simp] theorem setKeys_pending (s : State) (b : BitVec 12) (k : BibKeys) : (State.setKeys s b k).pending = s.pending := rfl

/-! ### setCourse -/

@[simp] theorem setCourse_clk (s : State) (c : Nat) (k : Course) : (State.setCourse s c k).clk = s.clk := rfl
@[simp] theorem setCourse_pwr (s : State) (c : Nat) (k : Course) : (State.setCourse s c k).pwr = s.pwr := rfl
@[simp] theorem setCourse_vc (s : State) (c : Nat) (k : Course) : (State.setCourse s c k).vc = s.vc := rfl
@[simp] theorem setCourse_rink (s : State) (c : Nat) (k : Course) : (State.setCourse s c k).rink = s.rink := rfl
@[simp] theorem setCourse_arr (s : State) (c : Nat) (k : Course) : (State.setCourse s c k).arr = s.arr := rfl
@[simp] theorem setCourse_crs (s : State) (c : Nat) (k : Course) : (State.setCourse s c k).crs = { s.crs with courses := s.crs.courses.insert c k } := rfl
@[simp] theorem setCourse_mem (s : State) (c : Nat) (k : Course) : (State.setCourse s c k).mem = s.mem := rfl
@[simp] theorem setCourse_lkr (s : State) (c : Nat) (k : Course) : (State.setCourse s c k).lkr = s.lkr := rfl
@[simp] theorem setCourse_lift (s : State) (c : Nat) (k : Course) : (State.setCourse s c k).lift = s.lift := rfl
@[simp] theorem setCourse_lodge (s : State) (c : Nat) (k : Course) : (State.setCourse s c k).lodge = s.lodge := rfl
@[simp] theorem setCourse_upd (s : State) (c : Nat) (k : Course) : (State.setCourse s c k).upd = s.upd := rfl
@[simp] theorem setCourse_sl (s : State) (c : Nat) (k : Course) : (State.setCourse s c k).sl = s.sl := rfl
@[simp] theorem setCourse_bibs (s : State) (c : Nat) (k : Course) : (State.setCourse s c k).bibs = s.bibs := rfl
@[simp] theorem setCourse_cmd (s : State) (c : Nat) (k : Course) : (State.setCourse s c k).cmd = s.cmd := rfl
@[simp] theorem setCourse_boot (s : State) (c : Nat) (k : Course) : (State.setCourse s c k).boot = s.boot := rfl
@[simp] theorem setCourse_ctr (s : State) (c : Nat) (k : Course) : (State.setCourse s c k).ctr = s.ctr := rfl
@[simp] theorem setCourse_pf (s : State) (c : Nat) (k : Course) : (State.setCourse s c k).pf = s.pf := rfl
@[simp] theorem setCourse_log (s : State) (c : Nat) (k : Course) : (State.setCourse s c k).log = s.log := rfl
@[simp] theorem setCourse_test (s : State) (c : Nat) (k : Course) : (State.setCourse s c k).test = s.test := rfl
@[simp] theorem setCourse_sec (s : State) (c : Nat) (k : Course) : (State.setCourse s c k).sec = s.sec := rfl
@[simp] theorem setCourse_freeCtr (s : State) (c : Nat) (k : Course) : (State.setCourse s c k).freeCtr = s.freeCtr := rfl
@[simp] theorem setCourse_pending (s : State) (c : Nat) (k : Course) : (State.setCourse s c k).pending = s.pending := rfl

/-! ### setDomain -/

@[simp] theorem setDomain_clk (s : State) (c : Nat) (d : Domain) : (State.setDomain s c d).clk = s.clk := rfl
@[simp] theorem setDomain_pwr (s : State) (c : Nat) (d : Domain) : (State.setDomain s c d).pwr = s.pwr := rfl
@[simp] theorem setDomain_vc (s : State) (c : Nat) (d : Domain) : (State.setDomain s c d).vc = s.vc := rfl
@[simp] theorem setDomain_rink (s : State) (c : Nat) (d : Domain) : (State.setDomain s c d).rink = s.rink := rfl
@[simp] theorem setDomain_arr (s : State) (c : Nat) (d : Domain) : (State.setDomain s c d).arr = s.arr := rfl
@[simp] theorem setDomain_crs (s : State) (c : Nat) (d : Domain) : (State.setDomain s c d).crs = { s.crs with domains := s.crs.domains.insert c d } := rfl
@[simp] theorem setDomain_mem (s : State) (c : Nat) (d : Domain) : (State.setDomain s c d).mem = s.mem := rfl
@[simp] theorem setDomain_lkr (s : State) (c : Nat) (d : Domain) : (State.setDomain s c d).lkr = s.lkr := rfl
@[simp] theorem setDomain_lift (s : State) (c : Nat) (d : Domain) : (State.setDomain s c d).lift = s.lift := rfl
@[simp] theorem setDomain_lodge (s : State) (c : Nat) (d : Domain) : (State.setDomain s c d).lodge = s.lodge := rfl
@[simp] theorem setDomain_upd (s : State) (c : Nat) (d : Domain) : (State.setDomain s c d).upd = s.upd := rfl
@[simp] theorem setDomain_sl (s : State) (c : Nat) (d : Domain) : (State.setDomain s c d).sl = s.sl := rfl
@[simp] theorem setDomain_bibs (s : State) (c : Nat) (d : Domain) : (State.setDomain s c d).bibs = s.bibs := rfl
@[simp] theorem setDomain_cmd (s : State) (c : Nat) (d : Domain) : (State.setDomain s c d).cmd = s.cmd := rfl
@[simp] theorem setDomain_boot (s : State) (c : Nat) (d : Domain) : (State.setDomain s c d).boot = s.boot := rfl
@[simp] theorem setDomain_ctr (s : State) (c : Nat) (d : Domain) : (State.setDomain s c d).ctr = s.ctr := rfl
@[simp] theorem setDomain_pf (s : State) (c : Nat) (d : Domain) : (State.setDomain s c d).pf = s.pf := rfl
@[simp] theorem setDomain_log (s : State) (c : Nat) (d : Domain) : (State.setDomain s c d).log = s.log := rfl
@[simp] theorem setDomain_test (s : State) (c : Nat) (d : Domain) : (State.setDomain s c d).test = s.test := rfl
@[simp] theorem setDomain_sec (s : State) (c : Nat) (d : Domain) : (State.setDomain s c d).sec = s.sec := rfl
@[simp] theorem setDomain_freeCtr (s : State) (c : Nat) (d : Domain) : (State.setDomain s c d).freeCtr = s.freeCtr := rfl
@[simp] theorem setDomain_pending (s : State) (c : Nat) (d : Domain) : (State.setDomain s c d).pending = s.pending := rfl

/-! ### setHold -/

@[simp] theorem setHold_clk (s : State) (c : Nat) (h : Hold) : (State.setHold s c h).clk = s.clk := rfl
@[simp] theorem setHold_pwr (s : State) (c : Nat) (h : Hold) : (State.setHold s c h).pwr = s.pwr := rfl
@[simp] theorem setHold_vc (s : State) (c : Nat) (h : Hold) : (State.setHold s c h).vc = s.vc := rfl
@[simp] theorem setHold_rink (s : State) (c : Nat) (h : Hold) : (State.setHold s c h).rink = s.rink := rfl
@[simp] theorem setHold_arr (s : State) (c : Nat) (h : Hold) : (State.setHold s c h).arr = s.arr := rfl
@[simp] theorem setHold_crs (s : State) (c : Nat) (h : Hold) : (State.setHold s c h).crs = { s.crs with holds := s.crs.holds.write {} c h } := rfl
@[simp] theorem setHold_mem (s : State) (c : Nat) (h : Hold) : (State.setHold s c h).mem = s.mem := rfl
@[simp] theorem setHold_lkr (s : State) (c : Nat) (h : Hold) : (State.setHold s c h).lkr = s.lkr := rfl
@[simp] theorem setHold_lift (s : State) (c : Nat) (h : Hold) : (State.setHold s c h).lift = s.lift := rfl
@[simp] theorem setHold_lodge (s : State) (c : Nat) (h : Hold) : (State.setHold s c h).lodge = s.lodge := rfl
@[simp] theorem setHold_upd (s : State) (c : Nat) (h : Hold) : (State.setHold s c h).upd = s.upd := rfl
@[simp] theorem setHold_sl (s : State) (c : Nat) (h : Hold) : (State.setHold s c h).sl = s.sl := rfl
@[simp] theorem setHold_bibs (s : State) (c : Nat) (h : Hold) : (State.setHold s c h).bibs = s.bibs := rfl
@[simp] theorem setHold_cmd (s : State) (c : Nat) (h : Hold) : (State.setHold s c h).cmd = s.cmd := rfl
@[simp] theorem setHold_boot (s : State) (c : Nat) (h : Hold) : (State.setHold s c h).boot = s.boot := rfl
@[simp] theorem setHold_ctr (s : State) (c : Nat) (h : Hold) : (State.setHold s c h).ctr = s.ctr := rfl
@[simp] theorem setHold_pf (s : State) (c : Nat) (h : Hold) : (State.setHold s c h).pf = s.pf := rfl
@[simp] theorem setHold_log (s : State) (c : Nat) (h : Hold) : (State.setHold s c h).log = s.log := rfl
@[simp] theorem setHold_test (s : State) (c : Nat) (h : Hold) : (State.setHold s c h).test = s.test := rfl
@[simp] theorem setHold_sec (s : State) (c : Nat) (h : Hold) : (State.setHold s c h).sec = s.sec := rfl
@[simp] theorem setHold_freeCtr (s : State) (c : Nat) (h : Hold) : (State.setHold s c h).freeCtr = s.freeCtr := rfl
@[simp] theorem setHold_pending (s : State) (c : Nat) (h : Hold) : (State.setHold s c h).pending = s.pending := rfl

/-! ### setGate -/

@[simp] theorem setGate_clk (s : State) (n : Nat) (g : Gate) : (State.setGate s n g).clk = s.clk := rfl
@[simp] theorem setGate_pwr (s : State) (n : Nat) (g : Gate) : (State.setGate s n g).pwr = s.pwr := rfl
@[simp] theorem setGate_vc (s : State) (n : Nat) (g : Gate) : (State.setGate s n g).vc = s.vc := rfl
@[simp] theorem setGate_rink (s : State) (n : Nat) (g : Gate) : (State.setGate s n g).rink = s.rink := rfl
@[simp] theorem setGate_arr (s : State) (n : Nat) (g : Gate) : (State.setGate s n g).arr = s.arr := rfl
@[simp] theorem setGate_crs (s : State) (n : Nat) (g : Gate) : (State.setGate s n g).crs = { s.crs with gates := s.crs.gates.write {} n g } := rfl
@[simp] theorem setGate_mem (s : State) (n : Nat) (g : Gate) : (State.setGate s n g).mem = s.mem := rfl
@[simp] theorem setGate_lkr (s : State) (n : Nat) (g : Gate) : (State.setGate s n g).lkr = s.lkr := rfl
@[simp] theorem setGate_lift (s : State) (n : Nat) (g : Gate) : (State.setGate s n g).lift = s.lift := rfl
@[simp] theorem setGate_lodge (s : State) (n : Nat) (g : Gate) : (State.setGate s n g).lodge = s.lodge := rfl
@[simp] theorem setGate_upd (s : State) (n : Nat) (g : Gate) : (State.setGate s n g).upd = s.upd := rfl
@[simp] theorem setGate_sl (s : State) (n : Nat) (g : Gate) : (State.setGate s n g).sl = s.sl := rfl
@[simp] theorem setGate_bibs (s : State) (n : Nat) (g : Gate) : (State.setGate s n g).bibs = s.bibs := rfl
@[simp] theorem setGate_cmd (s : State) (n : Nat) (g : Gate) : (State.setGate s n g).cmd = s.cmd := rfl
@[simp] theorem setGate_boot (s : State) (n : Nat) (g : Gate) : (State.setGate s n g).boot = s.boot := rfl
@[simp] theorem setGate_ctr (s : State) (n : Nat) (g : Gate) : (State.setGate s n g).ctr = s.ctr := rfl
@[simp] theorem setGate_pf (s : State) (n : Nat) (g : Gate) : (State.setGate s n g).pf = s.pf := rfl
@[simp] theorem setGate_log (s : State) (n : Nat) (g : Gate) : (State.setGate s n g).log = s.log := rfl
@[simp] theorem setGate_test (s : State) (n : Nat) (g : Gate) : (State.setGate s n g).test = s.test := rfl
@[simp] theorem setGate_sec (s : State) (n : Nat) (g : Gate) : (State.setGate s n g).sec = s.sec := rfl
@[simp] theorem setGate_freeCtr (s : State) (n : Nat) (g : Gate) : (State.setGate s n g).freeCtr = s.freeCtr := rfl
@[simp] theorem setGate_pending (s : State) (n : Nat) (g : Gate) : (State.setGate s n g).pending = s.pending := rfl

/-! ### setStn -/

@[simp] theorem setStn_clk (s : State) (p : Nat) (r : Stn) : (State.setStn s p r).clk = s.clk := rfl
@[simp] theorem setStn_pwr (s : State) (p : Nat) (r : Stn) : (State.setStn s p r).pwr = s.pwr := rfl
@[simp] theorem setStn_vc (s : State) (p : Nat) (r : Stn) : (State.setStn s p r).vc = s.vc := rfl
@[simp] theorem setStn_rink (s : State) (p : Nat) (r : Stn) : (State.setStn s p r).rink = { s.rink with stn := s.rink.stn.write {} p r } := rfl
@[simp] theorem setStn_arr (s : State) (p : Nat) (r : Stn) : (State.setStn s p r).arr = s.arr := rfl
@[simp] theorem setStn_crs (s : State) (p : Nat) (r : Stn) : (State.setStn s p r).crs = s.crs := rfl
@[simp] theorem setStn_mem (s : State) (p : Nat) (r : Stn) : (State.setStn s p r).mem = s.mem := rfl
@[simp] theorem setStn_lkr (s : State) (p : Nat) (r : Stn) : (State.setStn s p r).lkr = s.lkr := rfl
@[simp] theorem setStn_lift (s : State) (p : Nat) (r : Stn) : (State.setStn s p r).lift = s.lift := rfl
@[simp] theorem setStn_lodge (s : State) (p : Nat) (r : Stn) : (State.setStn s p r).lodge = s.lodge := rfl
@[simp] theorem setStn_upd (s : State) (p : Nat) (r : Stn) : (State.setStn s p r).upd = s.upd := rfl
@[simp] theorem setStn_sl (s : State) (p : Nat) (r : Stn) : (State.setStn s p r).sl = s.sl := rfl
@[simp] theorem setStn_bibs (s : State) (p : Nat) (r : Stn) : (State.setStn s p r).bibs = s.bibs := rfl
@[simp] theorem setStn_cmd (s : State) (p : Nat) (r : Stn) : (State.setStn s p r).cmd = s.cmd := rfl
@[simp] theorem setStn_boot (s : State) (p : Nat) (r : Stn) : (State.setStn s p r).boot = s.boot := rfl
@[simp] theorem setStn_ctr (s : State) (p : Nat) (r : Stn) : (State.setStn s p r).ctr = s.ctr := rfl
@[simp] theorem setStn_pf (s : State) (p : Nat) (r : Stn) : (State.setStn s p r).pf = s.pf := rfl
@[simp] theorem setStn_log (s : State) (p : Nat) (r : Stn) : (State.setStn s p r).log = s.log := rfl
@[simp] theorem setStn_test (s : State) (p : Nat) (r : Stn) : (State.setStn s p r).test = s.test := rfl
@[simp] theorem setStn_sec (s : State) (p : Nat) (r : Stn) : (State.setStn s p r).sec = s.sec := rfl
@[simp] theorem setStn_freeCtr (s : State) (p : Nat) (r : Stn) : (State.setStn s p r).freeCtr = s.freeCtr := rfl
@[simp] theorem setStn_pending (s : State) (p : Nat) (r : Stn) : (State.setStn s p r).pending = s.pending := rfl

/-! ### setByte -/

@[simp] theorem setByte_clk (s : State) (k : Nat) (b : Byte) : (State.setByte s k b).clk = s.clk := rfl
@[simp] theorem setByte_pwr (s : State) (k : Nat) (b : Byte) : (State.setByte s k b).pwr = s.pwr := rfl
@[simp] theorem setByte_vc (s : State) (k : Nat) (b : Byte) : (State.setByte s k b).vc = s.vc := rfl
@[simp] theorem setByte_rink (s : State) (k : Nat) (b : Byte) : (State.setByte s k b).rink = s.rink := rfl
@[simp] theorem setByte_arr (s : State) (k : Nat) (b : Byte) : (State.setByte s k b).arr = s.arr := rfl
@[simp] theorem setByte_crs (s : State) (k : Nat) (b : Byte) : (State.setByte s k b).crs = s.crs := rfl
@[simp] theorem setByte_mem (s : State) (k : Nat) (b : Byte) : (State.setByte s k b).mem = { s.mem with bytes := s.mem.bytes.write 0 k b } := rfl
@[simp] theorem setByte_lkr (s : State) (k : Nat) (b : Byte) : (State.setByte s k b).lkr = s.lkr := rfl
@[simp] theorem setByte_lift (s : State) (k : Nat) (b : Byte) : (State.setByte s k b).lift = s.lift := rfl
@[simp] theorem setByte_lodge (s : State) (k : Nat) (b : Byte) : (State.setByte s k b).lodge = s.lodge := rfl
@[simp] theorem setByte_upd (s : State) (k : Nat) (b : Byte) : (State.setByte s k b).upd = s.upd := rfl
@[simp] theorem setByte_sl (s : State) (k : Nat) (b : Byte) : (State.setByte s k b).sl = s.sl := rfl
@[simp] theorem setByte_bibs (s : State) (k : Nat) (b : Byte) : (State.setByte s k b).bibs = s.bibs := rfl
@[simp] theorem setByte_cmd (s : State) (k : Nat) (b : Byte) : (State.setByte s k b).cmd = s.cmd := rfl
@[simp] theorem setByte_boot (s : State) (k : Nat) (b : Byte) : (State.setByte s k b).boot = s.boot := rfl
@[simp] theorem setByte_ctr (s : State) (k : Nat) (b : Byte) : (State.setByte s k b).ctr = s.ctr := rfl
@[simp] theorem setByte_pf (s : State) (k : Nat) (b : Byte) : (State.setByte s k b).pf = s.pf := rfl
@[simp] theorem setByte_log (s : State) (k : Nat) (b : Byte) : (State.setByte s k b).log = s.log := rfl
@[simp] theorem setByte_test (s : State) (k : Nat) (b : Byte) : (State.setByte s k b).test = s.test := rfl
@[simp] theorem setByte_sec (s : State) (k : Nat) (b : Byte) : (State.setByte s k b).sec = s.sec := rfl
@[simp] theorem setByte_freeCtr (s : State) (k : Nat) (b : Byte) : (State.setByte s k b).freeCtr = s.freeCtr := rfl
@[simp] theorem setByte_pending (s : State) (k : Nat) (b : Byte) : (State.setByte s k b).pending = s.pending := rfl

/-! ### zeroBytes -/

@[simp] theorem zeroBytes_clk (s : State) (lo n : Nat) : (State.zeroBytes s lo n).clk = s.clk := rfl
@[simp] theorem zeroBytes_pwr (s : State) (lo n : Nat) : (State.zeroBytes s lo n).pwr = s.pwr := rfl
@[simp] theorem zeroBytes_vc (s : State) (lo n : Nat) : (State.zeroBytes s lo n).vc = s.vc := rfl
@[simp] theorem zeroBytes_rink (s : State) (lo n : Nat) : (State.zeroBytes s lo n).rink = s.rink := rfl
@[simp] theorem zeroBytes_arr (s : State) (lo n : Nat) : (State.zeroBytes s lo n).arr = s.arr := rfl
@[simp] theorem zeroBytes_crs (s : State) (lo n : Nat) : (State.zeroBytes s lo n).crs = s.crs := rfl
@[simp] theorem zeroBytes_mem (s : State) (lo n : Nat) : (State.zeroBytes s lo n).mem = { s.mem with bytes := s.mem.bytes.keep (fun k _ => decide (k < lo ∨ lo + n ≤ k)) } := rfl
@[simp] theorem zeroBytes_lkr (s : State) (lo n : Nat) : (State.zeroBytes s lo n).lkr = s.lkr := rfl
@[simp] theorem zeroBytes_lift (s : State) (lo n : Nat) : (State.zeroBytes s lo n).lift = s.lift := rfl
@[simp] theorem zeroBytes_lodge (s : State) (lo n : Nat) : (State.zeroBytes s lo n).lodge = s.lodge := rfl
@[simp] theorem zeroBytes_upd (s : State) (lo n : Nat) : (State.zeroBytes s lo n).upd = s.upd := rfl
@[simp] theorem zeroBytes_sl (s : State) (lo n : Nat) : (State.zeroBytes s lo n).sl = s.sl := rfl
@[simp] theorem zeroBytes_bibs (s : State) (lo n : Nat) : (State.zeroBytes s lo n).bibs = s.bibs := rfl
@[simp] theorem zeroBytes_cmd (s : State) (lo n : Nat) : (State.zeroBytes s lo n).cmd = s.cmd := rfl
@[simp] theorem zeroBytes_boot (s : State) (lo n : Nat) : (State.zeroBytes s lo n).boot = s.boot := rfl
@[simp] theorem zeroBytes_ctr (s : State) (lo n : Nat) : (State.zeroBytes s lo n).ctr = s.ctr := rfl
@[simp] theorem zeroBytes_pf (s : State) (lo n : Nat) : (State.zeroBytes s lo n).pf = s.pf := rfl
@[simp] theorem zeroBytes_log (s : State) (lo n : Nat) : (State.zeroBytes s lo n).log = s.log := rfl
@[simp] theorem zeroBytes_test (s : State) (lo n : Nat) : (State.zeroBytes s lo n).test = s.test := rfl
@[simp] theorem zeroBytes_sec (s : State) (lo n : Nat) : (State.zeroBytes s lo n).sec = s.sec := rfl
@[simp] theorem zeroBytes_freeCtr (s : State) (lo n : Nat) : (State.zeroBytes s lo n).freeCtr = s.freeCtr := rfl
@[simp] theorem zeroBytes_pending (s : State) (lo n : Nat) : (State.zeroBytes s lo n).pending = s.pending := rfl

/-! ### setScale -/

@[simp] theorem setScale_clk (s : State) (slot group : Nat) (r : ScaleRec) : (State.setScale s slot group r).clk = s.clk := rfl
@[simp] theorem setScale_pwr (s : State) (slot group : Nat) (r : ScaleRec) : (State.setScale s slot group r).pwr = s.pwr := rfl
@[simp] theorem setScale_vc (s : State) (slot group : Nat) (r : ScaleRec) : (State.setScale s slot group r).vc = s.vc := rfl
@[simp] theorem setScale_rink (s : State) (slot group : Nat) (r : ScaleRec) : (State.setScale s slot group r).rink = s.rink := rfl
@[simp] theorem setScale_arr (s : State) (slot group : Nat) (r : ScaleRec) : (State.setScale s slot group r).arr = s.arr := rfl
@[simp] theorem setScale_crs (s : State) (slot group : Nat) (r : ScaleRec) : (State.setScale s slot group r).crs = { s.crs with scales := s.crs.scales.insert (s.scaleNo slot group) r } := rfl
@[simp] theorem setScale_mem (s : State) (slot group : Nat) (r : ScaleRec) : (State.setScale s slot group r).mem = s.mem := rfl
@[simp] theorem setScale_lkr (s : State) (slot group : Nat) (r : ScaleRec) : (State.setScale s slot group r).lkr = s.lkr := rfl
@[simp] theorem setScale_lift (s : State) (slot group : Nat) (r : ScaleRec) : (State.setScale s slot group r).lift = s.lift := rfl
@[simp] theorem setScale_lodge (s : State) (slot group : Nat) (r : ScaleRec) : (State.setScale s slot group r).lodge = s.lodge := rfl
@[simp] theorem setScale_upd (s : State) (slot group : Nat) (r : ScaleRec) : (State.setScale s slot group r).upd = s.upd := rfl
@[simp] theorem setScale_sl (s : State) (slot group : Nat) (r : ScaleRec) : (State.setScale s slot group r).sl = s.sl := rfl
@[simp] theorem setScale_bibs (s : State) (slot group : Nat) (r : ScaleRec) : (State.setScale s slot group r).bibs = s.bibs := rfl
@[simp] theorem setScale_cmd (s : State) (slot group : Nat) (r : ScaleRec) : (State.setScale s slot group r).cmd = s.cmd := rfl
@[simp] theorem setScale_boot (s : State) (slot group : Nat) (r : ScaleRec) : (State.setScale s slot group r).boot = s.boot := rfl
@[simp] theorem setScale_ctr (s : State) (slot group : Nat) (r : ScaleRec) : (State.setScale s slot group r).ctr = s.ctr := rfl
@[simp] theorem setScale_pf (s : State) (slot group : Nat) (r : ScaleRec) : (State.setScale s slot group r).pf = s.pf := rfl
@[simp] theorem setScale_log (s : State) (slot group : Nat) (r : ScaleRec) : (State.setScale s slot group r).log = s.log := rfl
@[simp] theorem setScale_test (s : State) (slot group : Nat) (r : ScaleRec) : (State.setScale s slot group r).test = s.test := rfl
@[simp] theorem setScale_sec (s : State) (slot group : Nat) (r : ScaleRec) : (State.setScale s slot group r).sec = s.sec := rfl
@[simp] theorem setScale_freeCtr (s : State) (slot group : Nat) (r : ScaleRec) : (State.setScale s slot group r).freeCtr = s.freeCtr := rfl
@[simp] theorem setScale_pending (s : State) (slot group : Nat) (r : ScaleRec) : (State.setScale s slot group r).pending = s.pending := rfl

/-! ### setTile -/

@[simp] theorem setTile_clk (s : State) (t : TileId) (h : TileHdr) : (State.setTile s t h).clk = s.clk := rfl
@[simp] theorem setTile_pwr (s : State) (t : TileId) (h : TileHdr) : (State.setTile s t h).pwr = s.pwr := rfl
@[simp] theorem setTile_vc (s : State) (t : TileId) (h : TileHdr) : (State.setTile s t h).vc = s.vc := rfl
@[simp] theorem setTile_rink (s : State) (t : TileId) (h : TileHdr) : (State.setTile s t h).rink = s.rink := rfl
@[simp] theorem setTile_arr (s : State) (t : TileId) (h : TileHdr) : (State.setTile s t h).arr = s.arr := rfl
@[simp] theorem setTile_crs (s : State) (t : TileId) (h : TileHdr) : (State.setTile s t h).crs = s.crs := rfl
@[simp] theorem setTile_mem (s : State) (t : TileId) (h : TileHdr) : (State.setTile s t h).mem = { s.mem with hdrs := s.mem.hdrs.insert (tileKey t) h } := rfl
@[simp] theorem setTile_lkr (s : State) (t : TileId) (h : TileHdr) : (State.setTile s t h).lkr = s.lkr := rfl
@[simp] theorem setTile_lift (s : State) (t : TileId) (h : TileHdr) : (State.setTile s t h).lift = s.lift := rfl
@[simp] theorem setTile_lodge (s : State) (t : TileId) (h : TileHdr) : (State.setTile s t h).lodge = s.lodge := rfl
@[simp] theorem setTile_upd (s : State) (t : TileId) (h : TileHdr) : (State.setTile s t h).upd = s.upd := rfl
@[simp] theorem setTile_sl (s : State) (t : TileId) (h : TileHdr) : (State.setTile s t h).sl = s.sl := rfl
@[simp] theorem setTile_bibs (s : State) (t : TileId) (h : TileHdr) : (State.setTile s t h).bibs = s.bibs := rfl
@[simp] theorem setTile_cmd (s : State) (t : TileId) (h : TileHdr) : (State.setTile s t h).cmd = s.cmd := rfl
@[simp] theorem setTile_boot (s : State) (t : TileId) (h : TileHdr) : (State.setTile s t h).boot = s.boot := rfl
@[simp] theorem setTile_ctr (s : State) (t : TileId) (h : TileHdr) : (State.setTile s t h).ctr = s.ctr := rfl
@[simp] theorem setTile_pf (s : State) (t : TileId) (h : TileHdr) : (State.setTile s t h).pf = s.pf := rfl
@[simp] theorem setTile_log (s : State) (t : TileId) (h : TileHdr) : (State.setTile s t h).log = s.log := rfl
@[simp] theorem setTile_test (s : State) (t : TileId) (h : TileHdr) : (State.setTile s t h).test = s.test := rfl
@[simp] theorem setTile_sec (s : State) (t : TileId) (h : TileHdr) : (State.setTile s t h).sec = s.sec := rfl
@[simp] theorem setTile_freeCtr (s : State) (t : TileId) (h : TileHdr) : (State.setTile s t h).freeCtr = s.freeCtr := rfl
@[simp] theorem setTile_pending (s : State) (t : TileId) (h : TileHdr) : (State.setTile s t h).pending = s.pending := rfl

/-! ### countBegun -/

@[simp] theorem countBegun_clk (s : State) (m : Nat) : (State.countBegun s m).clk = s.clk := rfl
@[simp] theorem countBegun_pwr (s : State) (m : Nat) : (State.countBegun s m).pwr = s.pwr := rfl
@[simp] theorem countBegun_vc (s : State) (m : Nat) : (State.countBegun s m).vc = s.vc := rfl
@[simp] theorem countBegun_rink (s : State) (m : Nat) : (State.countBegun s m).rink = s.rink := rfl
@[simp] theorem countBegun_arr (s : State) (m : Nat) : (State.countBegun s m).arr = s.arr := rfl
@[simp] theorem countBegun_crs (s : State) (m : Nat) : (State.countBegun s m).crs = s.crs := rfl
@[simp] theorem countBegun_mem (s : State) (m : Nat) : (State.countBegun s m).mem = { s.mem with begun := s.mem.begun.write 0 m (s.mem.begun.read 0 m + 1) } := rfl
@[simp] theorem countBegun_lkr (s : State) (m : Nat) : (State.countBegun s m).lkr = s.lkr := rfl
@[simp] theorem countBegun_lift (s : State) (m : Nat) : (State.countBegun s m).lift = s.lift := rfl
@[simp] theorem countBegun_lodge (s : State) (m : Nat) : (State.countBegun s m).lodge = s.lodge := rfl
@[simp] theorem countBegun_upd (s : State) (m : Nat) : (State.countBegun s m).upd = s.upd := rfl
@[simp] theorem countBegun_sl (s : State) (m : Nat) : (State.countBegun s m).sl = s.sl := rfl
@[simp] theorem countBegun_bibs (s : State) (m : Nat) : (State.countBegun s m).bibs = s.bibs := rfl
@[simp] theorem countBegun_cmd (s : State) (m : Nat) : (State.countBegun s m).cmd = s.cmd := rfl
@[simp] theorem countBegun_boot (s : State) (m : Nat) : (State.countBegun s m).boot = s.boot := rfl
@[simp] theorem countBegun_ctr (s : State) (m : Nat) : (State.countBegun s m).ctr = s.ctr := rfl
@[simp] theorem countBegun_pf (s : State) (m : Nat) : (State.countBegun s m).pf = s.pf := rfl
@[simp] theorem countBegun_log (s : State) (m : Nat) : (State.countBegun s m).log = s.log := rfl
@[simp] theorem countBegun_test (s : State) (m : Nat) : (State.countBegun s m).test = s.test := rfl
@[simp] theorem countBegun_sec (s : State) (m : Nat) : (State.countBegun s m).sec = s.sec := rfl
@[simp] theorem countBegun_freeCtr (s : State) (m : Nat) : (State.countBegun s m).freeCtr = s.freeCtr := rfl
@[simp] theorem countBegun_pending (s : State) (m : Nat) : (State.countBegun s m).pending = s.pending := rfl

/-! ### countEnded -/

@[simp] theorem countEnded_clk (s : State) (m : Nat) : (State.countEnded s m).clk = s.clk := rfl
@[simp] theorem countEnded_pwr (s : State) (m : Nat) : (State.countEnded s m).pwr = s.pwr := rfl
@[simp] theorem countEnded_vc (s : State) (m : Nat) : (State.countEnded s m).vc = s.vc := rfl
@[simp] theorem countEnded_rink (s : State) (m : Nat) : (State.countEnded s m).rink = s.rink := rfl
@[simp] theorem countEnded_arr (s : State) (m : Nat) : (State.countEnded s m).arr = s.arr := rfl
@[simp] theorem countEnded_crs (s : State) (m : Nat) : (State.countEnded s m).crs = s.crs := rfl
@[simp] theorem countEnded_mem (s : State) (m : Nat) : (State.countEnded s m).mem = { s.mem with ended := s.mem.ended.write 0 m (s.mem.ended.read 0 m + 1) } := rfl
@[simp] theorem countEnded_lkr (s : State) (m : Nat) : (State.countEnded s m).lkr = s.lkr := rfl
@[simp] theorem countEnded_lift (s : State) (m : Nat) : (State.countEnded s m).lift = s.lift := rfl
@[simp] theorem countEnded_lodge (s : State) (m : Nat) : (State.countEnded s m).lodge = s.lodge := rfl
@[simp] theorem countEnded_upd (s : State) (m : Nat) : (State.countEnded s m).upd = s.upd := rfl
@[simp] theorem countEnded_sl (s : State) (m : Nat) : (State.countEnded s m).sl = s.sl := rfl
@[simp] theorem countEnded_bibs (s : State) (m : Nat) : (State.countEnded s m).bibs = s.bibs := rfl
@[simp] theorem countEnded_cmd (s : State) (m : Nat) : (State.countEnded s m).cmd = s.cmd := rfl
@[simp] theorem countEnded_boot (s : State) (m : Nat) : (State.countEnded s m).boot = s.boot := rfl
@[simp] theorem countEnded_ctr (s : State) (m : Nat) : (State.countEnded s m).ctr = s.ctr := rfl
@[simp] theorem countEnded_pf (s : State) (m : Nat) : (State.countEnded s m).pf = s.pf := rfl
@[simp] theorem countEnded_log (s : State) (m : Nat) : (State.countEnded s m).log = s.log := rfl
@[simp] theorem countEnded_test (s : State) (m : Nat) : (State.countEnded s m).test = s.test := rfl
@[simp] theorem countEnded_sec (s : State) (m : Nat) : (State.countEnded s m).sec = s.sec := rfl
@[simp] theorem countEnded_freeCtr (s : State) (m : Nat) : (State.countEnded s m).freeCtr = s.freeCtr := rfl
@[simp] theorem countEnded_pending (s : State) (m : Nat) : (State.countEnded s m).pending = s.pending := rfl

/-! ### itemIn -/

@[simp] theorem itemIn_clk (s : State) (b : BitVec 12) (epoch : Bool) (stack : Nat) : (State.itemIn s b epoch stack).clk = s.clk := rfl
@[simp] theorem itemIn_pwr (s : State) (b : BitVec 12) (epoch : Bool) (stack : Nat) : (State.itemIn s b epoch stack).pwr = s.pwr := rfl
@[simp] theorem itemIn_vc (s : State) (b : BitVec 12) (epoch : Bool) (stack : Nat) : (State.itemIn s b epoch stack).vc = s.vc := rfl
@[simp] theorem itemIn_rink (s : State) (b : BitVec 12) (epoch : Bool) (stack : Nat) : (State.itemIn s b epoch stack).rink = s.rink := rfl
@[simp] theorem itemIn_arr (s : State) (b : BitVec 12) (epoch : Bool) (stack : Nat) : (State.itemIn s b epoch stack).arr = s.arr := rfl
@[simp] theorem itemIn_crs (s : State) (b : BitVec 12) (epoch : Bool) (stack : Nat) : (State.itemIn s b epoch stack).crs = s.crs := rfl
@[simp] theorem itemIn_mem (s : State) (b : BitVec 12) (epoch : Bool) (stack : Nat) : (State.itemIn s b epoch stack).mem = { s.mem with items := s.mem.items.write 0 (itemKey b epoch stack) (s.items b epoch stack + 1) } := rfl
@[simp] theorem itemIn_lkr (s : State) (b : BitVec 12) (epoch : Bool) (stack : Nat) : (State.itemIn s b epoch stack).lkr = s.lkr := rfl
@[simp] theorem itemIn_lift (s : State) (b : BitVec 12) (epoch : Bool) (stack : Nat) : (State.itemIn s b epoch stack).lift = s.lift := rfl
@[simp] theorem itemIn_lodge (s : State) (b : BitVec 12) (epoch : Bool) (stack : Nat) : (State.itemIn s b epoch stack).lodge = s.lodge := rfl
@[simp] theorem itemIn_upd (s : State) (b : BitVec 12) (epoch : Bool) (stack : Nat) : (State.itemIn s b epoch stack).upd = s.upd := rfl
@[simp] theorem itemIn_sl (s : State) (b : BitVec 12) (epoch : Bool) (stack : Nat) : (State.itemIn s b epoch stack).sl = s.sl := rfl
@[simp] theorem itemIn_bibs (s : State) (b : BitVec 12) (epoch : Bool) (stack : Nat) : (State.itemIn s b epoch stack).bibs = s.bibs := rfl
@[simp] theorem itemIn_cmd (s : State) (b : BitVec 12) (epoch : Bool) (stack : Nat) : (State.itemIn s b epoch stack).cmd = s.cmd := rfl
@[simp] theorem itemIn_boot (s : State) (b : BitVec 12) (epoch : Bool) (stack : Nat) : (State.itemIn s b epoch stack).boot = s.boot := rfl
@[simp] theorem itemIn_ctr (s : State) (b : BitVec 12) (epoch : Bool) (stack : Nat) : (State.itemIn s b epoch stack).ctr = s.ctr := rfl
@[simp] theorem itemIn_pf (s : State) (b : BitVec 12) (epoch : Bool) (stack : Nat) : (State.itemIn s b epoch stack).pf = s.pf := rfl
@[simp] theorem itemIn_log (s : State) (b : BitVec 12) (epoch : Bool) (stack : Nat) : (State.itemIn s b epoch stack).log = s.log := rfl
@[simp] theorem itemIn_test (s : State) (b : BitVec 12) (epoch : Bool) (stack : Nat) : (State.itemIn s b epoch stack).test = s.test := rfl
@[simp] theorem itemIn_sec (s : State) (b : BitVec 12) (epoch : Bool) (stack : Nat) : (State.itemIn s b epoch stack).sec = s.sec := rfl
@[simp] theorem itemIn_freeCtr (s : State) (b : BitVec 12) (epoch : Bool) (stack : Nat) : (State.itemIn s b epoch stack).freeCtr = s.freeCtr := rfl
@[simp] theorem itemIn_pending (s : State) (b : BitVec 12) (epoch : Bool) (stack : Nat) : (State.itemIn s b epoch stack).pending = s.pending := rfl

/-! ### itemOut -/

@[simp] theorem itemOut_clk (s : State) (b : BitVec 12) (epoch : Bool) (stack : Nat) : (State.itemOut s b epoch stack).clk = s.clk := rfl
@[simp] theorem itemOut_pwr (s : State) (b : BitVec 12) (epoch : Bool) (stack : Nat) : (State.itemOut s b epoch stack).pwr = s.pwr := rfl
@[simp] theorem itemOut_vc (s : State) (b : BitVec 12) (epoch : Bool) (stack : Nat) : (State.itemOut s b epoch stack).vc = s.vc := rfl
@[simp] theorem itemOut_rink (s : State) (b : BitVec 12) (epoch : Bool) (stack : Nat) : (State.itemOut s b epoch stack).rink = s.rink := rfl
@[simp] theorem itemOut_arr (s : State) (b : BitVec 12) (epoch : Bool) (stack : Nat) : (State.itemOut s b epoch stack).arr = s.arr := rfl
@[simp] theorem itemOut_crs (s : State) (b : BitVec 12) (epoch : Bool) (stack : Nat) : (State.itemOut s b epoch stack).crs = s.crs := rfl
@[simp] theorem itemOut_mem (s : State) (b : BitVec 12) (epoch : Bool) (stack : Nat) : (State.itemOut s b epoch stack).mem = { s.mem with items := s.mem.items.write 0 (itemKey b epoch stack) (s.items b epoch stack - 1) } := rfl
@[simp] theorem itemOut_lkr (s : State) (b : BitVec 12) (epoch : Bool) (stack : Nat) : (State.itemOut s b epoch stack).lkr = s.lkr := rfl
@[simp] theorem itemOut_lift (s : State) (b : BitVec 12) (epoch : Bool) (stack : Nat) : (State.itemOut s b epoch stack).lift = s.lift := rfl
@[simp] theorem itemOut_lodge (s : State) (b : BitVec 12) (epoch : Bool) (stack : Nat) : (State.itemOut s b epoch stack).lodge = s.lodge := rfl
@[simp] theorem itemOut_upd (s : State) (b : BitVec 12) (epoch : Bool) (stack : Nat) : (State.itemOut s b epoch stack).upd = s.upd := rfl
@[simp] theorem itemOut_sl (s : State) (b : BitVec 12) (epoch : Bool) (stack : Nat) : (State.itemOut s b epoch stack).sl = s.sl := rfl
@[simp] theorem itemOut_bibs (s : State) (b : BitVec 12) (epoch : Bool) (stack : Nat) : (State.itemOut s b epoch stack).bibs = s.bibs := rfl
@[simp] theorem itemOut_cmd (s : State) (b : BitVec 12) (epoch : Bool) (stack : Nat) : (State.itemOut s b epoch stack).cmd = s.cmd := rfl
@[simp] theorem itemOut_boot (s : State) (b : BitVec 12) (epoch : Bool) (stack : Nat) : (State.itemOut s b epoch stack).boot = s.boot := rfl
@[simp] theorem itemOut_ctr (s : State) (b : BitVec 12) (epoch : Bool) (stack : Nat) : (State.itemOut s b epoch stack).ctr = s.ctr := rfl
@[simp] theorem itemOut_pf (s : State) (b : BitVec 12) (epoch : Bool) (stack : Nat) : (State.itemOut s b epoch stack).pf = s.pf := rfl
@[simp] theorem itemOut_log (s : State) (b : BitVec 12) (epoch : Bool) (stack : Nat) : (State.itemOut s b epoch stack).log = s.log := rfl
@[simp] theorem itemOut_test (s : State) (b : BitVec 12) (epoch : Bool) (stack : Nat) : (State.itemOut s b epoch stack).test = s.test := rfl
@[simp] theorem itemOut_sec (s : State) (b : BitVec 12) (epoch : Bool) (stack : Nat) : (State.itemOut s b epoch stack).sec = s.sec := rfl
@[simp] theorem itemOut_freeCtr (s : State) (b : BitVec 12) (epoch : Bool) (stack : Nat) : (State.itemOut s b epoch stack).freeCtr = s.freeCtr := rfl
@[simp] theorem itemOut_pending (s : State) (b : BitVec 12) (epoch : Bool) (stack : Nat) : (State.itemOut s b epoch stack).pending = s.pending := rfl

/-! ### setStrm -/

@[simp] theorem setStrm_clk (s : State) (n : Nat) (x : Strm) : (State.setStrm s n x).clk = s.clk := rfl
@[simp] theorem setStrm_pwr (s : State) (n : Nat) (x : Strm) : (State.setStrm s n x).pwr = s.pwr := rfl
@[simp] theorem setStrm_vc (s : State) (n : Nat) (x : Strm) : (State.setStrm s n x).vc = s.vc := rfl
@[simp] theorem setStrm_rink (s : State) (n : Nat) (x : Strm) : (State.setStrm s n x).rink = s.rink := rfl
@[simp] theorem setStrm_arr (s : State) (n : Nat) (x : Strm) : (State.setStrm s n x).arr = s.arr := rfl
@[simp] theorem setStrm_crs (s : State) (n : Nat) (x : Strm) : (State.setStrm s n x).crs = s.crs := rfl
@[simp] theorem setStrm_mem (s : State) (n : Nat) (x : Strm) : (State.setStrm s n x).mem = s.mem := rfl
@[simp] theorem setStrm_lkr (s : State) (n : Nat) (x : Strm) : (State.setStrm s n x).lkr = s.lkr := rfl
@[simp] theorem setStrm_lift (s : State) (n : Nat) (x : Strm) : (State.setStrm s n x).lift = { s.lift with strm := s.lift.strm.insert n { x with held := BitVec.ofNat 18 (slotsHeld x.items) } } := rfl
@[simp] theorem setStrm_lodge (s : State) (n : Nat) (x : Strm) : (State.setStrm s n x).lodge = s.lodge := rfl
@[simp] theorem setStrm_upd (s : State) (n : Nat) (x : Strm) : (State.setStrm s n x).upd = s.upd := rfl
@[simp] theorem setStrm_sl (s : State) (n : Nat) (x : Strm) : (State.setStrm s n x).sl = s.sl := rfl
@[simp] theorem setStrm_bibs (s : State) (n : Nat) (x : Strm) : (State.setStrm s n x).bibs = s.bibs := rfl
@[simp] theorem setStrm_cmd (s : State) (n : Nat) (x : Strm) : (State.setStrm s n x).cmd = s.cmd := rfl
@[simp] theorem setStrm_boot (s : State) (n : Nat) (x : Strm) : (State.setStrm s n x).boot = s.boot := rfl
@[simp] theorem setStrm_ctr (s : State) (n : Nat) (x : Strm) : (State.setStrm s n x).ctr = s.ctr := rfl
@[simp] theorem setStrm_pf (s : State) (n : Nat) (x : Strm) : (State.setStrm s n x).pf = s.pf := rfl
@[simp] theorem setStrm_log (s : State) (n : Nat) (x : Strm) : (State.setStrm s n x).log = s.log := rfl
@[simp] theorem setStrm_test (s : State) (n : Nat) (x : Strm) : (State.setStrm s n x).test = s.test := rfl
@[simp] theorem setStrm_sec (s : State) (n : Nat) (x : Strm) : (State.setStrm s n x).sec = s.sec := rfl
@[simp] theorem setStrm_freeCtr (s : State) (n : Nat) (x : Strm) : (State.setStrm s n x).freeCtr = s.freeCtr := rfl
@[simp] theorem setStrm_pending (s : State) (n : Nat) (x : Strm) : (State.setStrm s n x).pending = s.pending := rfl

/-! ### dropStrm -/

@[simp] theorem dropStrm_clk (s : State) (n : Nat) : (State.dropStrm s n).clk = s.clk := rfl
@[simp] theorem dropStrm_pwr (s : State) (n : Nat) : (State.dropStrm s n).pwr = s.pwr := rfl
@[simp] theorem dropStrm_vc (s : State) (n : Nat) : (State.dropStrm s n).vc = s.vc := rfl
@[simp] theorem dropStrm_rink (s : State) (n : Nat) : (State.dropStrm s n).rink = s.rink := rfl
@[simp] theorem dropStrm_arr (s : State) (n : Nat) : (State.dropStrm s n).arr = s.arr := rfl
@[simp] theorem dropStrm_crs (s : State) (n : Nat) : (State.dropStrm s n).crs = s.crs := rfl
@[simp] theorem dropStrm_mem (s : State) (n : Nat) : (State.dropStrm s n).mem = s.mem := rfl
@[simp] theorem dropStrm_lkr (s : State) (n : Nat) : (State.dropStrm s n).lkr = s.lkr := rfl
@[simp] theorem dropStrm_lift (s : State) (n : Nat) : (State.dropStrm s n).lift = { s.lift with strm := s.lift.strm.remove n } := rfl
@[simp] theorem dropStrm_lodge (s : State) (n : Nat) : (State.dropStrm s n).lodge = s.lodge := rfl
@[simp] theorem dropStrm_upd (s : State) (n : Nat) : (State.dropStrm s n).upd = s.upd := rfl
@[simp] theorem dropStrm_sl (s : State) (n : Nat) : (State.dropStrm s n).sl = s.sl := rfl
@[simp] theorem dropStrm_bibs (s : State) (n : Nat) : (State.dropStrm s n).bibs = s.bibs := rfl
@[simp] theorem dropStrm_cmd (s : State) (n : Nat) : (State.dropStrm s n).cmd = s.cmd := rfl
@[simp] theorem dropStrm_boot (s : State) (n : Nat) : (State.dropStrm s n).boot = s.boot := rfl
@[simp] theorem dropStrm_ctr (s : State) (n : Nat) : (State.dropStrm s n).ctr = s.ctr := rfl
@[simp] theorem dropStrm_pf (s : State) (n : Nat) : (State.dropStrm s n).pf = s.pf := rfl
@[simp] theorem dropStrm_log (s : State) (n : Nat) : (State.dropStrm s n).log = s.log := rfl
@[simp] theorem dropStrm_test (s : State) (n : Nat) : (State.dropStrm s n).test = s.test := rfl
@[simp] theorem dropStrm_sec (s : State) (n : Nat) : (State.dropStrm s n).sec = s.sec := rfl
@[simp] theorem dropStrm_freeCtr (s : State) (n : Nat) : (State.dropStrm s n).freeCtr = s.freeCtr := rfl
@[simp] theorem dropStrm_pending (s : State) (n : Nat) : (State.dropStrm s n).pending = s.pending := rfl

/-! ### setPort -/

@[simp] theorem setPort_clk (s : State) (n : Nat) (p : SlPort) : (State.setPort s n p).clk = s.clk := rfl
@[simp] theorem setPort_pwr (s : State) (n : Nat) (p : SlPort) : (State.setPort s n p).pwr = s.pwr := rfl
@[simp] theorem setPort_vc (s : State) (n : Nat) (p : SlPort) : (State.setPort s n p).vc = s.vc := rfl
@[simp] theorem setPort_rink (s : State) (n : Nat) (p : SlPort) : (State.setPort s n p).rink = s.rink := rfl
@[simp] theorem setPort_arr (s : State) (n : Nat) (p : SlPort) : (State.setPort s n p).arr = s.arr := rfl
@[simp] theorem setPort_crs (s : State) (n : Nat) (p : SlPort) : (State.setPort s n p).crs = s.crs := rfl
@[simp] theorem setPort_mem (s : State) (n : Nat) (p : SlPort) : (State.setPort s n p).mem = s.mem := rfl
@[simp] theorem setPort_lkr (s : State) (n : Nat) (p : SlPort) : (State.setPort s n p).lkr = s.lkr := rfl
@[simp] theorem setPort_lift (s : State) (n : Nat) (p : SlPort) : (State.setPort s n p).lift = s.lift := rfl
@[simp] theorem setPort_lodge (s : State) (n : Nat) (p : SlPort) : (State.setPort s n p).lodge = s.lodge := rfl
@[simp] theorem setPort_upd (s : State) (n : Nat) (p : SlPort) : (State.setPort s n p).upd = s.upd := rfl
@[simp] theorem setPort_sl (s : State) (n : Nat) (p : SlPort) : (State.setPort s n p).sl = { s.sl with ports := s.sl.ports.write {} n p } := rfl
@[simp] theorem setPort_bibs (s : State) (n : Nat) (p : SlPort) : (State.setPort s n p).bibs = s.bibs := rfl
@[simp] theorem setPort_cmd (s : State) (n : Nat) (p : SlPort) : (State.setPort s n p).cmd = s.cmd := rfl
@[simp] theorem setPort_boot (s : State) (n : Nat) (p : SlPort) : (State.setPort s n p).boot = s.boot := rfl
@[simp] theorem setPort_ctr (s : State) (n : Nat) (p : SlPort) : (State.setPort s n p).ctr = s.ctr := rfl
@[simp] theorem setPort_pf (s : State) (n : Nat) (p : SlPort) : (State.setPort s n p).pf = s.pf := rfl
@[simp] theorem setPort_log (s : State) (n : Nat) (p : SlPort) : (State.setPort s n p).log = s.log := rfl
@[simp] theorem setPort_test (s : State) (n : Nat) (p : SlPort) : (State.setPort s n p).test = s.test := rfl
@[simp] theorem setPort_sec (s : State) (n : Nat) (p : SlPort) : (State.setPort s n p).sec = s.sec := rfl
@[simp] theorem setPort_freeCtr (s : State) (n : Nat) (p : SlPort) : (State.setPort s n p).freeCtr = s.freeCtr := rfl
@[simp] theorem setPort_pending (s : State) (n : Nat) (p : SlPort) : (State.setPort s n p).pending = s.pending := rfl

/-! ### setExch -/

@[simp] theorem setExch_clk (s : State) (gate : Nat) (epoch : BitVec 8) (v : Verdict) : (State.setExch s gate epoch v).clk = s.clk := rfl
@[simp] theorem setExch_pwr (s : State) (gate : Nat) (epoch : BitVec 8) (v : Verdict) : (State.setExch s gate epoch v).pwr = s.pwr := rfl
@[simp] theorem setExch_vc (s : State) (gate : Nat) (epoch : BitVec 8) (v : Verdict) : (State.setExch s gate epoch v).vc = s.vc := rfl
@[simp] theorem setExch_rink (s : State) (gate : Nat) (epoch : BitVec 8) (v : Verdict) : (State.setExch s gate epoch v).rink = s.rink := rfl
@[simp] theorem setExch_arr (s : State) (gate : Nat) (epoch : BitVec 8) (v : Verdict) : (State.setExch s gate epoch v).arr = s.arr := rfl
@[simp] theorem setExch_crs (s : State) (gate : Nat) (epoch : BitVec 8) (v : Verdict) : (State.setExch s gate epoch v).crs = { s.crs with verdicts := s.crs.verdicts.write {} (exchKey gate epoch) v } := rfl
@[simp] theorem setExch_mem (s : State) (gate : Nat) (epoch : BitVec 8) (v : Verdict) : (State.setExch s gate epoch v).mem = s.mem := rfl
@[simp] theorem setExch_lkr (s : State) (gate : Nat) (epoch : BitVec 8) (v : Verdict) : (State.setExch s gate epoch v).lkr = s.lkr := rfl
@[simp] theorem setExch_lift (s : State) (gate : Nat) (epoch : BitVec 8) (v : Verdict) : (State.setExch s gate epoch v).lift = s.lift := rfl
@[simp] theorem setExch_lodge (s : State) (gate : Nat) (epoch : BitVec 8) (v : Verdict) : (State.setExch s gate epoch v).lodge = s.lodge := rfl
@[simp] theorem setExch_upd (s : State) (gate : Nat) (epoch : BitVec 8) (v : Verdict) : (State.setExch s gate epoch v).upd = s.upd := rfl
@[simp] theorem setExch_sl (s : State) (gate : Nat) (epoch : BitVec 8) (v : Verdict) : (State.setExch s gate epoch v).sl = s.sl := rfl
@[simp] theorem setExch_bibs (s : State) (gate : Nat) (epoch : BitVec 8) (v : Verdict) : (State.setExch s gate epoch v).bibs = s.bibs := rfl
@[simp] theorem setExch_cmd (s : State) (gate : Nat) (epoch : BitVec 8) (v : Verdict) : (State.setExch s gate epoch v).cmd = s.cmd := rfl
@[simp] theorem setExch_boot (s : State) (gate : Nat) (epoch : BitVec 8) (v : Verdict) : (State.setExch s gate epoch v).boot = s.boot := rfl
@[simp] theorem setExch_ctr (s : State) (gate : Nat) (epoch : BitVec 8) (v : Verdict) : (State.setExch s gate epoch v).ctr = s.ctr := rfl
@[simp] theorem setExch_pf (s : State) (gate : Nat) (epoch : BitVec 8) (v : Verdict) : (State.setExch s gate epoch v).pf = s.pf := rfl
@[simp] theorem setExch_log (s : State) (gate : Nat) (epoch : BitVec 8) (v : Verdict) : (State.setExch s gate epoch v).log = s.log := rfl
@[simp] theorem setExch_test (s : State) (gate : Nat) (epoch : BitVec 8) (v : Verdict) : (State.setExch s gate epoch v).test = s.test := rfl
@[simp] theorem setExch_sec (s : State) (gate : Nat) (epoch : BitVec 8) (v : Verdict) : (State.setExch s gate epoch v).sec = s.sec := rfl
@[simp] theorem setExch_freeCtr (s : State) (gate : Nat) (epoch : BitVec 8) (v : Verdict) : (State.setExch s gate epoch v).freeCtr = s.freeCtr := rfl
@[simp] theorem setExch_pending (s : State) (gate : Nat) (epoch : BitVec 8) (v : Verdict) : (State.setExch s gate epoch v).pending = s.pending := rfl

/-! ### setCell -/

@[simp] theorem setCell_clk (s : State) (p row col : Nat) (c : Cell) : (State.setCell s p row col c).clk = s.clk := rfl
@[simp] theorem setCell_pwr (s : State) (p row col : Nat) (c : Cell) : (State.setCell s p row col c).pwr = s.pwr := rfl
@[simp] theorem setCell_vc (s : State) (p row col : Nat) (c : Cell) : (State.setCell s p row col c).vc = s.vc := rfl
@[simp] theorem setCell_rink (s : State) (p row col : Nat) (c : Cell) : (State.setCell s p row col c).rink = s.rink := rfl
@[simp] theorem setCell_arr (s : State) (p row col : Nat) (c : Cell) : (State.setCell s p row col c).arr = { s.arr with cells := s.arr.cells.write {} (cellKey p row col) c } := rfl
@[simp] theorem setCell_crs (s : State) (p row col : Nat) (c : Cell) : (State.setCell s p row col c).crs = s.crs := rfl
@[simp] theorem setCell_mem (s : State) (p row col : Nat) (c : Cell) : (State.setCell s p row col c).mem = s.mem := rfl
@[simp] theorem setCell_lkr (s : State) (p row col : Nat) (c : Cell) : (State.setCell s p row col c).lkr = s.lkr := rfl
@[simp] theorem setCell_lift (s : State) (p row col : Nat) (c : Cell) : (State.setCell s p row col c).lift = s.lift := rfl
@[simp] theorem setCell_lodge (s : State) (p row col : Nat) (c : Cell) : (State.setCell s p row col c).lodge = s.lodge := rfl
@[simp] theorem setCell_upd (s : State) (p row col : Nat) (c : Cell) : (State.setCell s p row col c).upd = s.upd := rfl
@[simp] theorem setCell_sl (s : State) (p row col : Nat) (c : Cell) : (State.setCell s p row col c).sl = s.sl := rfl
@[simp] theorem setCell_bibs (s : State) (p row col : Nat) (c : Cell) : (State.setCell s p row col c).bibs = s.bibs := rfl
@[simp] theorem setCell_cmd (s : State) (p row col : Nat) (c : Cell) : (State.setCell s p row col c).cmd = s.cmd := rfl
@[simp] theorem setCell_boot (s : State) (p row col : Nat) (c : Cell) : (State.setCell s p row col c).boot = s.boot := rfl
@[simp] theorem setCell_ctr (s : State) (p row col : Nat) (c : Cell) : (State.setCell s p row col c).ctr = s.ctr := rfl
@[simp] theorem setCell_pf (s : State) (p row col : Nat) (c : Cell) : (State.setCell s p row col c).pf = s.pf := rfl
@[simp] theorem setCell_log (s : State) (p row col : Nat) (c : Cell) : (State.setCell s p row col c).log = s.log := rfl
@[simp] theorem setCell_test (s : State) (p row col : Nat) (c : Cell) : (State.setCell s p row col c).test = s.test := rfl
@[simp] theorem setCell_sec (s : State) (p row col : Nat) (c : Cell) : (State.setCell s p row col c).sec = s.sec := rfl
@[simp] theorem setCell_freeCtr (s : State) (p row col : Nat) (c : Cell) : (State.setCell s p row col c).freeCtr = s.freeCtr := rfl
@[simp] theorem setCell_pending (s : State) (p row col : Nat) (c : Cell) : (State.setCell s p row col c).pending = s.pending := rfl

/-! ### setFeeder -/

@[simp] theorem setFeeder_clk (s : State) (k : Nat) (f : Feeder) : (State.setFeeder s k f).clk = s.clk := rfl
@[simp] theorem setFeeder_pwr (s : State) (k : Nat) (f : Feeder) : (State.setFeeder s k f).pwr = s.pwr := rfl
@[simp] theorem setFeeder_vc (s : State) (k : Nat) (f : Feeder) : (State.setFeeder s k f).vc = s.vc := rfl
@[simp] theorem setFeeder_rink (s : State) (k : Nat) (f : Feeder) : (State.setFeeder s k f).rink = s.rink := rfl
@[simp] theorem setFeeder_arr (s : State) (k : Nat) (f : Feeder) : (State.setFeeder s k f).arr = { s.arr with feeders := s.arr.feeders.write {} k f } := rfl
@[simp] theorem setFeeder_crs (s : State) (k : Nat) (f : Feeder) : (State.setFeeder s k f).crs = s.crs := rfl
@[simp] theorem setFeeder_mem (s : State) (k : Nat) (f : Feeder) : (State.setFeeder s k f).mem = s.mem := rfl
@[simp] theorem setFeeder_lkr (s : State) (k : Nat) (f : Feeder) : (State.setFeeder s k f).lkr = s.lkr := rfl
@[simp] theorem setFeeder_lift (s : State) (k : Nat) (f : Feeder) : (State.setFeeder s k f).lift = s.lift := rfl
@[simp] theorem setFeeder_lodge (s : State) (k : Nat) (f : Feeder) : (State.setFeeder s k f).lodge = s.lodge := rfl
@[simp] theorem setFeeder_upd (s : State) (k : Nat) (f : Feeder) : (State.setFeeder s k f).upd = s.upd := rfl
@[simp] theorem setFeeder_sl (s : State) (k : Nat) (f : Feeder) : (State.setFeeder s k f).sl = s.sl := rfl
@[simp] theorem setFeeder_bibs (s : State) (k : Nat) (f : Feeder) : (State.setFeeder s k f).bibs = s.bibs := rfl
@[simp] theorem setFeeder_cmd (s : State) (k : Nat) (f : Feeder) : (State.setFeeder s k f).cmd = s.cmd := rfl
@[simp] theorem setFeeder_boot (s : State) (k : Nat) (f : Feeder) : (State.setFeeder s k f).boot = s.boot := rfl
@[simp] theorem setFeeder_ctr (s : State) (k : Nat) (f : Feeder) : (State.setFeeder s k f).ctr = s.ctr := rfl
@[simp] theorem setFeeder_pf (s : State) (k : Nat) (f : Feeder) : (State.setFeeder s k f).pf = s.pf := rfl
@[simp] theorem setFeeder_log (s : State) (k : Nat) (f : Feeder) : (State.setFeeder s k f).log = s.log := rfl
@[simp] theorem setFeeder_test (s : State) (k : Nat) (f : Feeder) : (State.setFeeder s k f).test = s.test := rfl
@[simp] theorem setFeeder_sec (s : State) (k : Nat) (f : Feeder) : (State.setFeeder s k f).sec = s.sec := rfl
@[simp] theorem setFeeder_freeCtr (s : State) (k : Nat) (f : Feeder) : (State.setFeeder s k f).freeCtr = s.freeCtr := rfl
@[simp] theorem setFeeder_pending (s : State) (k : Nat) (f : Feeder) : (State.setFeeder s k f).pending = s.pending := rfl

/-! ### setUses -/

@[simp] theorem setUses_clk (s : State) (ck : Nat) (l : List UseCfg) : (State.setUses s ck l).clk = s.clk := rfl
@[simp] theorem setUses_pwr (s : State) (ck : Nat) (l : List UseCfg) : (State.setUses s ck l).pwr = s.pwr := rfl
@[simp] theorem setUses_vc (s : State) (ck : Nat) (l : List UseCfg) : (State.setUses s ck l).vc = s.vc := rfl
@[simp] theorem setUses_rink (s : State) (ck : Nat) (l : List UseCfg) : (State.setUses s ck l).rink = s.rink := rfl
@[simp] theorem setUses_arr (s : State) (ck : Nat) (l : List UseCfg) : (State.setUses s ck l).arr = { s.arr with uses := s.arr.uses.write [] ck l } := rfl
@[simp] theorem setUses_crs (s : State) (ck : Nat) (l : List UseCfg) : (State.setUses s ck l).crs = s.crs := rfl
@[simp] theorem setUses_mem (s : State) (ck : Nat) (l : List UseCfg) : (State.setUses s ck l).mem = s.mem := rfl
@[simp] theorem setUses_lkr (s : State) (ck : Nat) (l : List UseCfg) : (State.setUses s ck l).lkr = s.lkr := rfl
@[simp] theorem setUses_lift (s : State) (ck : Nat) (l : List UseCfg) : (State.setUses s ck l).lift = s.lift := rfl
@[simp] theorem setUses_lodge (s : State) (ck : Nat) (l : List UseCfg) : (State.setUses s ck l).lodge = s.lodge := rfl
@[simp] theorem setUses_upd (s : State) (ck : Nat) (l : List UseCfg) : (State.setUses s ck l).upd = s.upd := rfl
@[simp] theorem setUses_sl (s : State) (ck : Nat) (l : List UseCfg) : (State.setUses s ck l).sl = s.sl := rfl
@[simp] theorem setUses_bibs (s : State) (ck : Nat) (l : List UseCfg) : (State.setUses s ck l).bibs = s.bibs := rfl
@[simp] theorem setUses_cmd (s : State) (ck : Nat) (l : List UseCfg) : (State.setUses s ck l).cmd = s.cmd := rfl
@[simp] theorem setUses_boot (s : State) (ck : Nat) (l : List UseCfg) : (State.setUses s ck l).boot = s.boot := rfl
@[simp] theorem setUses_ctr (s : State) (ck : Nat) (l : List UseCfg) : (State.setUses s ck l).ctr = s.ctr := rfl
@[simp] theorem setUses_pf (s : State) (ck : Nat) (l : List UseCfg) : (State.setUses s ck l).pf = s.pf := rfl
@[simp] theorem setUses_log (s : State) (ck : Nat) (l : List UseCfg) : (State.setUses s ck l).log = s.log := rfl
@[simp] theorem setUses_test (s : State) (ck : Nat) (l : List UseCfg) : (State.setUses s ck l).test = s.test := rfl
@[simp] theorem setUses_sec (s : State) (ck : Nat) (l : List UseCfg) : (State.setUses s ck l).sec = s.sec := rfl
@[simp] theorem setUses_freeCtr (s : State) (ck : Nat) (l : List UseCfg) : (State.setUses s ck l).freeCtr = s.freeCtr := rfl
@[simp] theorem setUses_pending (s : State) (ck : Nat) (l : List UseCfg) : (State.setUses s ck l).pending = s.pending := rfl

/-! ### setRing -/

@[simp] theorem setRing_clk (s : State) (b : BitVec 12) (r : Ring) : (State.setRing s b r).clk = s.clk := rfl
@[simp] theorem setRing_pwr (s : State) (b : BitVec 12) (r : Ring) : (State.setRing s b r).pwr = s.pwr := rfl
@[simp] theorem setRing_vc (s : State) (b : BitVec 12) (r : Ring) : (State.setRing s b r).vc = s.vc := rfl
@[simp] theorem setRing_rink (s : State) (b : BitVec 12) (r : Ring) : (State.setRing s b r).rink = s.rink := rfl
@[simp] theorem setRing_arr (s : State) (b : BitVec 12) (r : Ring) : (State.setRing s b r).arr = s.arr := rfl
@[simp] theorem setRing_crs (s : State) (b : BitVec 12) (r : Ring) : (State.setRing s b r).crs = s.crs := rfl
@[simp] theorem setRing_mem (s : State) (b : BitVec 12) (r : Ring) : (State.setRing s b r).mem = s.mem := rfl
@[simp] theorem setRing_lkr (s : State) (b : BitVec 12) (r : Ring) : (State.setRing s b r).lkr = s.lkr := rfl
@[simp] theorem setRing_lift (s : State) (b : BitVec 12) (r : Ring) : (State.setRing s b r).lift = s.lift := rfl
@[simp] theorem setRing_lodge (s : State) (b : BitVec 12) (r : Ring) : (State.setRing s b r).lodge = s.lodge := rfl
@[simp] theorem setRing_upd (s : State) (b : BitVec 12) (r : Ring) : (State.setRing s b r).upd = s.upd := rfl
@[simp] theorem setRing_sl (s : State) (b : BitVec 12) (r : Ring) : (State.setRing s b r).sl = s.sl := rfl
@[simp] theorem setRing_bibs (s : State) (b : BitVec 12) (r : Ring) : (State.setRing s b r).bibs = s.bibs := rfl
@[simp] theorem setRing_cmd (s : State) (b : BitVec 12) (r : Ring) : (State.setRing s b r).cmd = { s.cmd with rings := s.cmd.rings.write {} b.toNat r } := rfl
@[simp] theorem setRing_boot (s : State) (b : BitVec 12) (r : Ring) : (State.setRing s b r).boot = s.boot := rfl
@[simp] theorem setRing_ctr (s : State) (b : BitVec 12) (r : Ring) : (State.setRing s b r).ctr = s.ctr := rfl
@[simp] theorem setRing_pf (s : State) (b : BitVec 12) (r : Ring) : (State.setRing s b r).pf = s.pf := rfl
@[simp] theorem setRing_log (s : State) (b : BitVec 12) (r : Ring) : (State.setRing s b r).log = s.log := rfl
@[simp] theorem setRing_test (s : State) (b : BitVec 12) (r : Ring) : (State.setRing s b r).test = s.test := rfl
@[simp] theorem setRing_sec (s : State) (b : BitVec 12) (r : Ring) : (State.setRing s b r).sec = s.sec := rfl
@[simp] theorem setRing_freeCtr (s : State) (b : BitVec 12) (r : Ring) : (State.setRing s b r).freeCtr = s.freeCtr := rfl
@[simp] theorem setRing_pending (s : State) (b : BitVec 12) (r : Ring) : (State.setRing s b r).pending = s.pending := rfl

/-! ### setReplay -/

@[simp] theorem setReplay_clk (s : State) (b : BitVec 12) (r : Replay) : (State.setReplay s b r).clk = s.clk := rfl
@[simp] theorem setReplay_pwr (s : State) (b : BitVec 12) (r : Replay) : (State.setReplay s b r).pwr = s.pwr := rfl
@[simp] theorem setReplay_vc (s : State) (b : BitVec 12) (r : Replay) : (State.setReplay s b r).vc = s.vc := rfl
@[simp] theorem setReplay_rink (s : State) (b : BitVec 12) (r : Replay) : (State.setReplay s b r).rink = s.rink := rfl
@[simp] theorem setReplay_arr (s : State) (b : BitVec 12) (r : Replay) : (State.setReplay s b r).arr = s.arr := rfl
@[simp] theorem setReplay_crs (s : State) (b : BitVec 12) (r : Replay) : (State.setReplay s b r).crs = s.crs := rfl
@[simp] theorem setReplay_mem (s : State) (b : BitVec 12) (r : Replay) : (State.setReplay s b r).mem = s.mem := rfl
@[simp] theorem setReplay_lkr (s : State) (b : BitVec 12) (r : Replay) : (State.setReplay s b r).lkr = s.lkr := rfl
@[simp] theorem setReplay_lift (s : State) (b : BitVec 12) (r : Replay) : (State.setReplay s b r).lift = s.lift := rfl
@[simp] theorem setReplay_lodge (s : State) (b : BitVec 12) (r : Replay) : (State.setReplay s b r).lodge = s.lodge := rfl
@[simp] theorem setReplay_upd (s : State) (b : BitVec 12) (r : Replay) : (State.setReplay s b r).upd = s.upd := rfl
@[simp] theorem setReplay_sl (s : State) (b : BitVec 12) (r : Replay) : (State.setReplay s b r).sl = s.sl := rfl
@[simp] theorem setReplay_bibs (s : State) (b : BitVec 12) (r : Replay) : (State.setReplay s b r).bibs = { s.bibs with replay := s.bibs.replay.write {} b.toNat r } := rfl
@[simp] theorem setReplay_cmd (s : State) (b : BitVec 12) (r : Replay) : (State.setReplay s b r).cmd = s.cmd := rfl
@[simp] theorem setReplay_boot (s : State) (b : BitVec 12) (r : Replay) : (State.setReplay s b r).boot = s.boot := rfl
@[simp] theorem setReplay_ctr (s : State) (b : BitVec 12) (r : Replay) : (State.setReplay s b r).ctr = s.ctr := rfl
@[simp] theorem setReplay_pf (s : State) (b : BitVec 12) (r : Replay) : (State.setReplay s b r).pf = s.pf := rfl
@[simp] theorem setReplay_log (s : State) (b : BitVec 12) (r : Replay) : (State.setReplay s b r).log = s.log := rfl
@[simp] theorem setReplay_test (s : State) (b : BitVec 12) (r : Replay) : (State.setReplay s b r).test = s.test := rfl
@[simp] theorem setReplay_sec (s : State) (b : BitVec 12) (r : Replay) : (State.setReplay s b r).sec = s.sec := rfl
@[simp] theorem setReplay_freeCtr (s : State) (b : BitVec 12) (r : Replay) : (State.setReplay s b r).freeCtr = s.freeCtr := rfl
@[simp] theorem setReplay_pending (s : State) (b : BitVec 12) (r : Replay) : (State.setReplay s b r).pending = s.pending := rfl

/-! ### takeIn -/

@[simp] theorem takeIn_clk (s : State) (c : Hdr) : (State.takeIn s c).clk = s.clk := rfl
@[simp] theorem takeIn_pwr (s : State) (c : Hdr) : (State.takeIn s c).pwr = s.pwr := rfl
@[simp] theorem takeIn_vc (s : State) (c : Hdr) : (State.takeIn s c).vc = s.vc := rfl
@[simp] theorem takeIn_rink (s : State) (c : Hdr) : (State.takeIn s c).rink = s.rink := rfl
@[simp] theorem takeIn_arr (s : State) (c : Hdr) : (State.takeIn s c).arr = s.arr := rfl
@[simp] theorem takeIn_crs (s : State) (c : Hdr) : (State.takeIn s c).crs = s.crs := rfl
@[simp] theorem takeIn_mem (s : State) (c : Hdr) : (State.takeIn s c).mem = s.mem := rfl
@[simp] theorem takeIn_lkr (s : State) (c : Hdr) : (State.takeIn s c).lkr = s.lkr := rfl
@[simp] theorem takeIn_lift (s : State) (c : Hdr) : (State.takeIn s c).lift = s.lift := rfl
@[simp] theorem takeIn_lodge (s : State) (c : Hdr) : (State.takeIn s c).lodge = s.lodge := rfl
@[simp] theorem takeIn_upd (s : State) (c : Hdr) : (State.takeIn s c).upd = s.upd := rfl
@[simp] theorem takeIn_sl (s : State) (c : Hdr) : (State.takeIn s c).sl = s.sl := rfl
@[simp] theorem takeIn_bibs (s : State) (c : Hdr) : (State.takeIn s c).bibs = s.bibs := rfl
@[simp] theorem takeIn_cmd (s : State) (c : Hdr) : (State.takeIn s c).cmd = { s.cmd with intake := s.cmd.intake ++ [c] } := rfl
@[simp] theorem takeIn_boot (s : State) (c : Hdr) : (State.takeIn s c).boot = s.boot := rfl
@[simp] theorem takeIn_ctr (s : State) (c : Hdr) : (State.takeIn s c).ctr = s.ctr := rfl
@[simp] theorem takeIn_pf (s : State) (c : Hdr) : (State.takeIn s c).pf = s.pf := rfl
@[simp] theorem takeIn_log (s : State) (c : Hdr) : (State.takeIn s c).log = s.log := rfl
@[simp] theorem takeIn_test (s : State) (c : Hdr) : (State.takeIn s c).test = s.test := rfl
@[simp] theorem takeIn_sec (s : State) (c : Hdr) : (State.takeIn s c).sec = s.sec := rfl
@[simp] theorem takeIn_freeCtr (s : State) (c : Hdr) : (State.takeIn s c).freeCtr = s.freeCtr := rfl
@[simp] theorem takeIn_pending (s : State) (c : Hdr) : (State.takeIn s c).pending = s.pending := rfl

/-! ### beginUpdate -/

@[simp] theorem beginUpdate_clk (s : State) : (State.beginUpdate s).clk = s.clk := rfl
@[simp] theorem beginUpdate_pwr (s : State) : (State.beginUpdate s).pwr = s.pwr := rfl
@[simp] theorem beginUpdate_vc (s : State) : (State.beginUpdate s).vc = s.vc := rfl
@[simp] theorem beginUpdate_rink (s : State) : (State.beginUpdate s).rink = s.rink := rfl
@[simp] theorem beginUpdate_arr (s : State) : (State.beginUpdate s).arr = s.arr := rfl
@[simp] theorem beginUpdate_crs (s : State) : (State.beginUpdate s).crs = s.crs := rfl
@[simp] theorem beginUpdate_mem (s : State) : (State.beginUpdate s).mem = s.mem := rfl
@[simp] theorem beginUpdate_lkr (s : State) : (State.beginUpdate s).lkr = s.lkr := rfl
@[simp] theorem beginUpdate_lift (s : State) : (State.beginUpdate s).lift = s.lift := rfl
@[simp] theorem beginUpdate_lodge (s : State) : (State.beginUpdate s).lodge = s.lodge := rfl
@[simp] theorem beginUpdate_upd (s : State) : (State.beginUpdate s).upd = s.upd := rfl
@[simp] theorem beginUpdate_sl (s : State) : (State.beginUpdate s).sl = s.sl := rfl
@[simp] theorem beginUpdate_bibs (s : State) : (State.beginUpdate s).bibs = s.bibs := rfl
@[simp] theorem beginUpdate_cmd (s : State) : (State.beginUpdate s).cmd = s.cmd := rfl
@[simp] theorem beginUpdate_boot (s : State) : (State.beginUpdate s).boot = { s.boot with stat.update := 1, stat.stage := 6 } := rfl
@[simp] theorem beginUpdate_ctr (s : State) : (State.beginUpdate s).ctr = s.ctr := rfl
@[simp] theorem beginUpdate_pf (s : State) : (State.beginUpdate s).pf = s.pf := rfl
@[simp] theorem beginUpdate_log (s : State) : (State.beginUpdate s).log = s.log := rfl
@[simp] theorem beginUpdate_test (s : State) : (State.beginUpdate s).test = s.test := rfl
@[simp] theorem beginUpdate_sec (s : State) : (State.beginUpdate s).sec = s.sec := rfl
@[simp] theorem beginUpdate_freeCtr (s : State) : (State.beginUpdate s).freeCtr = s.freeCtr := rfl
@[simp] theorem beginUpdate_pending (s : State) : (State.beginUpdate s).pending = s.pending := rfl

/-! ### setSecStat -/

@[simp] theorem setSecStat_clk (s : State) (j : Nat) (x : SecStat) : (State.setSecStat s j x).clk = s.clk := rfl
@[simp] theorem setSecStat_pwr (s : State) (j : Nat) (x : SecStat) : (State.setSecStat s j x).pwr = s.pwr := rfl
@[simp] theorem setSecStat_vc (s : State) (j : Nat) (x : SecStat) : (State.setSecStat s j x).vc = s.vc := rfl
@[simp] theorem setSecStat_rink (s : State) (j : Nat) (x : SecStat) : (State.setSecStat s j x).rink = s.rink := rfl
@[simp] theorem setSecStat_arr (s : State) (j : Nat) (x : SecStat) : (State.setSecStat s j x).arr = s.arr := rfl
@[simp] theorem setSecStat_crs (s : State) (j : Nat) (x : SecStat) : (State.setSecStat s j x).crs = s.crs := rfl
@[simp] theorem setSecStat_mem (s : State) (j : Nat) (x : SecStat) : (State.setSecStat s j x).mem = s.mem := rfl
@[simp] theorem setSecStat_lkr (s : State) (j : Nat) (x : SecStat) : (State.setSecStat s j x).lkr = s.lkr := rfl
@[simp] theorem setSecStat_lift (s : State) (j : Nat) (x : SecStat) : (State.setSecStat s j x).lift = s.lift := rfl
@[simp] theorem setSecStat_lodge (s : State) (j : Nat) (x : SecStat) : (State.setSecStat s j x).lodge = s.lodge := rfl
@[simp] theorem setSecStat_upd (s : State) (j : Nat) (x : SecStat) : (State.setSecStat s j x).upd = s.upd := rfl
@[simp] theorem setSecStat_sl (s : State) (j : Nat) (x : SecStat) : (State.setSecStat s j x).sl = s.sl := rfl
@[simp] theorem setSecStat_bibs (s : State) (j : Nat) (x : SecStat) : (State.setSecStat s j x).bibs = s.bibs := rfl
@[simp] theorem setSecStat_cmd (s : State) (j : Nat) (x : SecStat) : (State.setSecStat s j x).cmd = s.cmd := rfl
@[simp] theorem setSecStat_boot (s : State) (j : Nat) (x : SecStat) : (State.setSecStat s j x).boot = s.boot := rfl
@[simp] theorem setSecStat_ctr (s : State) (j : Nat) (x : SecStat) : (State.setSecStat s j x).ctr = s.ctr := rfl
@[simp] theorem setSecStat_pf (s : State) (j : Nat) (x : SecStat) : (State.setSecStat s j x).pf = s.pf := rfl
@[simp] theorem setSecStat_log (s : State) (j : Nat) (x : SecStat) : (State.setSecStat s j x).log = s.log := rfl
@[simp] theorem setSecStat_test (s : State) (j : Nat) (x : SecStat) : (State.setSecStat s j x).test = s.test := rfl
@[simp] theorem setSecStat_sec (s : State) (j : Nat) (x : SecStat) : (State.setSecStat s j x).sec = { s.sec with stats := s.sec.stats.write {} j x } := rfl
@[simp] theorem setSecStat_freeCtr (s : State) (j : Nat) (x : SecStat) : (State.setSecStat s j x).freeCtr = s.freeCtr := rfl
@[simp] theorem setSecStat_pending (s : State) (j : Nat) (x : SecStat) : (State.setSecStat s j x).pending = s.pending := rfl

/-! ### setNear -/

@[simp] theorem setNear_clk (s : State) (d : Nat) (n : NearTier) : (State.setNear s d n).clk = s.clk := rfl
@[simp] theorem setNear_pwr (s : State) (d : Nat) (n : NearTier) : (State.setNear s d n).pwr = s.pwr := rfl
@[simp] theorem setNear_vc (s : State) (d : Nat) (n : NearTier) : (State.setNear s d n).vc = s.vc := rfl
@[simp] theorem setNear_rink (s : State) (d : Nat) (n : NearTier) : (State.setNear s d n).rink = s.rink := rfl
@[simp] theorem setNear_arr (s : State) (d : Nat) (n : NearTier) : (State.setNear s d n).arr = s.arr := rfl
@[simp] theorem setNear_crs (s : State) (d : Nat) (n : NearTier) : (State.setNear s d n).crs = s.crs := rfl
@[simp] theorem setNear_mem (s : State) (d : Nat) (n : NearTier) : (State.setNear s d n).mem = { s.mem with near := s.mem.near.write {} d n } := rfl
@[simp] theorem setNear_lkr (s : State) (d : Nat) (n : NearTier) : (State.setNear s d n).lkr = s.lkr := rfl
@[simp] theorem setNear_lift (s : State) (d : Nat) (n : NearTier) : (State.setNear s d n).lift = s.lift := rfl
@[simp] theorem setNear_lodge (s : State) (d : Nat) (n : NearTier) : (State.setNear s d n).lodge = s.lodge := rfl
@[simp] theorem setNear_upd (s : State) (d : Nat) (n : NearTier) : (State.setNear s d n).upd = s.upd := rfl
@[simp] theorem setNear_sl (s : State) (d : Nat) (n : NearTier) : (State.setNear s d n).sl = s.sl := rfl
@[simp] theorem setNear_bibs (s : State) (d : Nat) (n : NearTier) : (State.setNear s d n).bibs = s.bibs := rfl
@[simp] theorem setNear_cmd (s : State) (d : Nat) (n : NearTier) : (State.setNear s d n).cmd = s.cmd := rfl
@[simp] theorem setNear_boot (s : State) (d : Nat) (n : NearTier) : (State.setNear s d n).boot = s.boot := rfl
@[simp] theorem setNear_ctr (s : State) (d : Nat) (n : NearTier) : (State.setNear s d n).ctr = s.ctr := rfl
@[simp] theorem setNear_pf (s : State) (d : Nat) (n : NearTier) : (State.setNear s d n).pf = s.pf := rfl
@[simp] theorem setNear_log (s : State) (d : Nat) (n : NearTier) : (State.setNear s d n).log = s.log := rfl
@[simp] theorem setNear_test (s : State) (d : Nat) (n : NearTier) : (State.setNear s d n).test = s.test := rfl
@[simp] theorem setNear_sec (s : State) (d : Nat) (n : NearTier) : (State.setNear s d n).sec = s.sec := rfl
@[simp] theorem setNear_freeCtr (s : State) (d : Nat) (n : NearTier) : (State.setNear s d n).freeCtr = s.freeCtr := rfl
@[simp] theorem setNear_pending (s : State) (d : Nat) (n : NearTier) : (State.setNear s d n).pending = s.pending := rfl

/-! ### setStack -/

@[simp] theorem setStack_clk (s : State) (i : Nat) (k : Stack) : (State.setStack s i k).clk = s.clk := rfl
@[simp] theorem setStack_pwr (s : State) (i : Nat) (k : Stack) : (State.setStack s i k).pwr = s.pwr := rfl
@[simp] theorem setStack_vc (s : State) (i : Nat) (k : Stack) : (State.setStack s i k).vc = s.vc := rfl
@[simp] theorem setStack_rink (s : State) (i : Nat) (k : Stack) : (State.setStack s i k).rink = s.rink := rfl
@[simp] theorem setStack_arr (s : State) (i : Nat) (k : Stack) : (State.setStack s i k).arr = s.arr := rfl
@[simp] theorem setStack_crs (s : State) (i : Nat) (k : Stack) : (State.setStack s i k).crs = s.crs := rfl
@[simp] theorem setStack_mem (s : State) (i : Nat) (k : Stack) : (State.setStack s i k).mem = { s.mem with stks := s.mem.stks.write {} i k } := rfl
@[simp] theorem setStack_lkr (s : State) (i : Nat) (k : Stack) : (State.setStack s i k).lkr = s.lkr := rfl
@[simp] theorem setStack_lift (s : State) (i : Nat) (k : Stack) : (State.setStack s i k).lift = s.lift := rfl
@[simp] theorem setStack_lodge (s : State) (i : Nat) (k : Stack) : (State.setStack s i k).lodge = s.lodge := rfl
@[simp] theorem setStack_upd (s : State) (i : Nat) (k : Stack) : (State.setStack s i k).upd = s.upd := rfl
@[simp] theorem setStack_sl (s : State) (i : Nat) (k : Stack) : (State.setStack s i k).sl = s.sl := rfl
@[simp] theorem setStack_bibs (s : State) (i : Nat) (k : Stack) : (State.setStack s i k).bibs = s.bibs := rfl
@[simp] theorem setStack_cmd (s : State) (i : Nat) (k : Stack) : (State.setStack s i k).cmd = s.cmd := rfl
@[simp] theorem setStack_boot (s : State) (i : Nat) (k : Stack) : (State.setStack s i k).boot = s.boot := rfl
@[simp] theorem setStack_ctr (s : State) (i : Nat) (k : Stack) : (State.setStack s i k).ctr = s.ctr := rfl
@[simp] theorem setStack_pf (s : State) (i : Nat) (k : Stack) : (State.setStack s i k).pf = s.pf := rfl
@[simp] theorem setStack_log (s : State) (i : Nat) (k : Stack) : (State.setStack s i k).log = s.log := rfl
@[simp] theorem setStack_test (s : State) (i : Nat) (k : Stack) : (State.setStack s i k).test = s.test := rfl
@[simp] theorem setStack_sec (s : State) (i : Nat) (k : Stack) : (State.setStack s i k).sec = s.sec := rfl
@[simp] theorem setStack_freeCtr (s : State) (i : Nat) (k : Stack) : (State.setStack s i k).freeCtr = s.freeCtr := rfl
@[simp] theorem setStack_pending (s : State) (i : Nat) (k : Stack) : (State.setStack s i k).pending = s.pending := rfl

/-! ### setGrp -/

@[simp] theorem setGrp_clk (s : State) (g : Nat) (x : Grp) : (State.setGrp s g x).clk = s.clk := rfl
@[simp] theorem setGrp_pwr (s : State) (g : Nat) (x : Grp) : (State.setGrp s g x).pwr = s.pwr := rfl
@[simp] theorem setGrp_vc (s : State) (g : Nat) (x : Grp) : (State.setGrp s g x).vc = s.vc := rfl
@[simp] theorem setGrp_rink (s : State) (g : Nat) (x : Grp) : (State.setGrp s g x).rink = s.rink := rfl
@[simp] theorem setGrp_arr (s : State) (g : Nat) (x : Grp) : (State.setGrp s g x).arr = s.arr := rfl
@[simp] theorem setGrp_crs (s : State) (g : Nat) (x : Grp) : (State.setGrp s g x).crs = s.crs := rfl
@[simp] theorem setGrp_mem (s : State) (g : Nat) (x : Grp) : (State.setGrp s g x).mem = s.mem := rfl
@[simp] theorem setGrp_lkr (s : State) (g : Nat) (x : Grp) : (State.setGrp s g x).lkr = s.lkr := rfl
@[simp] theorem setGrp_lift (s : State) (g : Nat) (x : Grp) : (State.setGrp s g x).lift = s.lift := rfl
@[simp] theorem setGrp_lodge (s : State) (g : Nat) (x : Grp) : (State.setGrp s g x).lodge = { s.lodge with grps := s.lodge.grps.write {} g x } := rfl
@[simp] theorem setGrp_upd (s : State) (g : Nat) (x : Grp) : (State.setGrp s g x).upd = s.upd := rfl
@[simp] theorem setGrp_sl (s : State) (g : Nat) (x : Grp) : (State.setGrp s g x).sl = s.sl := rfl
@[simp] theorem setGrp_bibs (s : State) (g : Nat) (x : Grp) : (State.setGrp s g x).bibs = s.bibs := rfl
@[simp] theorem setGrp_cmd (s : State) (g : Nat) (x : Grp) : (State.setGrp s g x).cmd = s.cmd := rfl
@[simp] theorem setGrp_boot (s : State) (g : Nat) (x : Grp) : (State.setGrp s g x).boot = s.boot := rfl
@[simp] theorem setGrp_ctr (s : State) (g : Nat) (x : Grp) : (State.setGrp s g x).ctr = s.ctr := rfl
@[simp] theorem setGrp_pf (s : State) (g : Nat) (x : Grp) : (State.setGrp s g x).pf = s.pf := rfl
@[simp] theorem setGrp_log (s : State) (g : Nat) (x : Grp) : (State.setGrp s g x).log = s.log := rfl
@[simp] theorem setGrp_test (s : State) (g : Nat) (x : Grp) : (State.setGrp s g x).test = s.test := rfl
@[simp] theorem setGrp_sec (s : State) (g : Nat) (x : Grp) : (State.setGrp s g x).sec = s.sec := rfl
@[simp] theorem setGrp_freeCtr (s : State) (g : Nat) (x : Grp) : (State.setGrp s g x).freeCtr = s.freeCtr := rfl
@[simp] theorem setGrp_pending (s : State) (g : Nat) (x : Grp) : (State.setGrp s g x).pending = s.pending := rfl

/-! ### setObject -/

@[simp] theorem setObject_clk (s : State) (id : Nat) (o : LObj) : (State.setObject s id o).clk = s.clk := rfl
@[simp] theorem setObject_pwr (s : State) (id : Nat) (o : LObj) : (State.setObject s id o).pwr = s.pwr := rfl
@[simp] theorem setObject_vc (s : State) (id : Nat) (o : LObj) : (State.setObject s id o).vc = s.vc := rfl
@[simp] theorem setObject_rink (s : State) (id : Nat) (o : LObj) : (State.setObject s id o).rink = s.rink := rfl
@[simp] theorem setObject_arr (s : State) (id : Nat) (o : LObj) : (State.setObject s id o).arr = s.arr := rfl
@[simp] theorem setObject_crs (s : State) (id : Nat) (o : LObj) : (State.setObject s id o).crs = s.crs := rfl
@[simp] theorem setObject_mem (s : State) (id : Nat) (o : LObj) : (State.setObject s id o).mem = s.mem := rfl
@[simp] theorem setObject_lkr (s : State) (id : Nat) (o : LObj) : (State.setObject s id o).lkr = s.lkr := rfl
@[simp] theorem setObject_lift (s : State) (id : Nat) (o : LObj) : (State.setObject s id o).lift = s.lift := rfl
@[simp] theorem setObject_lodge (s : State) (id : Nat) (o : LObj) : (State.setObject s id o).lodge = { s.lodge with objs := s.lodge.objs.insert id o } := rfl
@[simp] theorem setObject_upd (s : State) (id : Nat) (o : LObj) : (State.setObject s id o).upd = s.upd := rfl
@[simp] theorem setObject_sl (s : State) (id : Nat) (o : LObj) : (State.setObject s id o).sl = s.sl := rfl
@[simp] theorem setObject_bibs (s : State) (id : Nat) (o : LObj) : (State.setObject s id o).bibs = s.bibs := rfl
@[simp] theorem setObject_cmd (s : State) (id : Nat) (o : LObj) : (State.setObject s id o).cmd = s.cmd := rfl
@[simp] theorem setObject_boot (s : State) (id : Nat) (o : LObj) : (State.setObject s id o).boot = s.boot := rfl
@[simp] theorem setObject_ctr (s : State) (id : Nat) (o : LObj) : (State.setObject s id o).ctr = s.ctr := rfl
@[simp] theorem setObject_pf (s : State) (id : Nat) (o : LObj) : (State.setObject s id o).pf = s.pf := rfl
@[simp] theorem setObject_log (s : State) (id : Nat) (o : LObj) : (State.setObject s id o).log = s.log := rfl
@[simp] theorem setObject_test (s : State) (id : Nat) (o : LObj) : (State.setObject s id o).test = s.test := rfl
@[simp] theorem setObject_sec (s : State) (id : Nat) (o : LObj) : (State.setObject s id o).sec = s.sec := rfl
@[simp] theorem setObject_freeCtr (s : State) (id : Nat) (o : LObj) : (State.setObject s id o).freeCtr = s.freeCtr := rfl
@[simp] theorem setObject_pending (s : State) (id : Nat) (o : LObj) : (State.setObject s id o).pending = s.pending := rfl

/-! ### setUpdSlot -/

@[simp] theorem setUpdSlot_clk (s : State) (c : Nat) (u : UpdSlot) : (State.setUpdSlot s c u).clk = s.clk := rfl
@[simp] theorem setUpdSlot_pwr (s : State) (c : Nat) (u : UpdSlot) : (State.setUpdSlot s c u).pwr = s.pwr := rfl
@[simp] theorem setUpdSlot_vc (s : State) (c : Nat) (u : UpdSlot) : (State.setUpdSlot s c u).vc = s.vc := rfl
@[simp] theorem setUpdSlot_rink (s : State) (c : Nat) (u : UpdSlot) : (State.setUpdSlot s c u).rink = s.rink := rfl
@[simp] theorem setUpdSlot_arr (s : State) (c : Nat) (u : UpdSlot) : (State.setUpdSlot s c u).arr = s.arr := rfl
@[simp] theorem setUpdSlot_crs (s : State) (c : Nat) (u : UpdSlot) : (State.setUpdSlot s c u).crs = s.crs := rfl
@[simp] theorem setUpdSlot_mem (s : State) (c : Nat) (u : UpdSlot) : (State.setUpdSlot s c u).mem = s.mem := rfl
@[simp] theorem setUpdSlot_lkr (s : State) (c : Nat) (u : UpdSlot) : (State.setUpdSlot s c u).lkr = s.lkr := rfl
@[simp] theorem setUpdSlot_lift (s : State) (c : Nat) (u : UpdSlot) : (State.setUpdSlot s c u).lift = s.lift := rfl
@[simp] theorem setUpdSlot_lodge (s : State) (c : Nat) (u : UpdSlot) : (State.setUpdSlot s c u).lodge = s.lodge := rfl
@[simp] theorem setUpdSlot_upd (s : State) (c : Nat) (u : UpdSlot) : (State.setUpdSlot s c u).upd = { s.upd with slots := s.upd.slots.write {} c u } := rfl
@[simp] theorem setUpdSlot_sl (s : State) (c : Nat) (u : UpdSlot) : (State.setUpdSlot s c u).sl = s.sl := rfl
@[simp] theorem setUpdSlot_bibs (s : State) (c : Nat) (u : UpdSlot) : (State.setUpdSlot s c u).bibs = s.bibs := rfl
@[simp] theorem setUpdSlot_cmd (s : State) (c : Nat) (u : UpdSlot) : (State.setUpdSlot s c u).cmd = s.cmd := rfl
@[simp] theorem setUpdSlot_boot (s : State) (c : Nat) (u : UpdSlot) : (State.setUpdSlot s c u).boot = s.boot := rfl
@[simp] theorem setUpdSlot_ctr (s : State) (c : Nat) (u : UpdSlot) : (State.setUpdSlot s c u).ctr = s.ctr := rfl
@[simp] theorem setUpdSlot_pf (s : State) (c : Nat) (u : UpdSlot) : (State.setUpdSlot s c u).pf = s.pf := rfl
@[simp] theorem setUpdSlot_log (s : State) (c : Nat) (u : UpdSlot) : (State.setUpdSlot s c u).log = s.log := rfl
@[simp] theorem setUpdSlot_test (s : State) (c : Nat) (u : UpdSlot) : (State.setUpdSlot s c u).test = s.test := rfl
@[simp] theorem setUpdSlot_sec (s : State) (c : Nat) (u : UpdSlot) : (State.setUpdSlot s c u).sec = s.sec := rfl
@[simp] theorem setUpdSlot_freeCtr (s : State) (c : Nat) (u : UpdSlot) : (State.setUpdSlot s c u).freeCtr = s.freeCtr := rfl
@[simp] theorem setUpdSlot_pending (s : State) (c : Nat) (u : UpdSlot) : (State.setUpdSlot s c u).pending = s.pending := rfl

/-! ### setLanes -/

@[simp] theorem setLanes_clk (s : State) (pipe : Nat) (l : List LanePatch) : (State.setLanes s pipe l).clk = s.clk := rfl
@[simp] theorem setLanes_pwr (s : State) (pipe : Nat) (l : List LanePatch) : (State.setLanes s pipe l).pwr = s.pwr := rfl
@[simp] theorem setLanes_vc (s : State) (pipe : Nat) (l : List LanePatch) : (State.setLanes s pipe l).vc = s.vc := rfl
@[simp] theorem setLanes_rink (s : State) (pipe : Nat) (l : List LanePatch) : (State.setLanes s pipe l).rink = s.rink := rfl
@[simp] theorem setLanes_arr (s : State) (pipe : Nat) (l : List LanePatch) : (State.setLanes s pipe l).arr = s.arr := rfl
@[simp] theorem setLanes_crs (s : State) (pipe : Nat) (l : List LanePatch) : (State.setLanes s pipe l).crs = s.crs := rfl
@[simp] theorem setLanes_mem (s : State) (pipe : Nat) (l : List LanePatch) : (State.setLanes s pipe l).mem = s.mem := rfl
@[simp] theorem setLanes_lkr (s : State) (pipe : Nat) (l : List LanePatch) : (State.setLanes s pipe l).lkr = s.lkr := rfl
@[simp] theorem setLanes_lift (s : State) (pipe : Nat) (l : List LanePatch) : (State.setLanes s pipe l).lift = s.lift := rfl
@[simp] theorem setLanes_lodge (s : State) (pipe : Nat) (l : List LanePatch) : (State.setLanes s pipe l).lodge = s.lodge := rfl
@[simp] theorem setLanes_upd (s : State) (pipe : Nat) (l : List LanePatch) : (State.setLanes s pipe l).upd = { s.upd with lanes := s.upd.lanes.write [] pipe l } := rfl
@[simp] theorem setLanes_sl (s : State) (pipe : Nat) (l : List LanePatch) : (State.setLanes s pipe l).sl = s.sl := rfl
@[simp] theorem setLanes_bibs (s : State) (pipe : Nat) (l : List LanePatch) : (State.setLanes s pipe l).bibs = s.bibs := rfl
@[simp] theorem setLanes_cmd (s : State) (pipe : Nat) (l : List LanePatch) : (State.setLanes s pipe l).cmd = s.cmd := rfl
@[simp] theorem setLanes_boot (s : State) (pipe : Nat) (l : List LanePatch) : (State.setLanes s pipe l).boot = s.boot := rfl
@[simp] theorem setLanes_ctr (s : State) (pipe : Nat) (l : List LanePatch) : (State.setLanes s pipe l).ctr = s.ctr := rfl
@[simp] theorem setLanes_pf (s : State) (pipe : Nat) (l : List LanePatch) : (State.setLanes s pipe l).pf = s.pf := rfl
@[simp] theorem setLanes_log (s : State) (pipe : Nat) (l : List LanePatch) : (State.setLanes s pipe l).log = s.log := rfl
@[simp] theorem setLanes_test (s : State) (pipe : Nat) (l : List LanePatch) : (State.setLanes s pipe l).test = s.test := rfl
@[simp] theorem setLanes_sec (s : State) (pipe : Nat) (l : List LanePatch) : (State.setLanes s pipe l).sec = s.sec := rfl
@[simp] theorem setLanes_freeCtr (s : State) (pipe : Nat) (l : List LanePatch) : (State.setLanes s pipe l).freeCtr = s.freeCtr := rfl
@[simp] theorem setLanes_pending (s : State) (pipe : Nat) (l : List LanePatch) : (State.setLanes s pipe l).pending = s.pending := rfl

/-! ### emit -/

@[simp] theorem emit_clk (s : State) (c b p : Nat) : (State.emit s c b p).clk = s.clk := rfl
@[simp] theorem emit_pwr (s : State) (c b p : Nat) : (State.emit s c b p).pwr = s.pwr := rfl
@[simp] theorem emit_vc (s : State) (c b p : Nat) : (State.emit s c b p).vc = s.vc := rfl
@[simp] theorem emit_rink (s : State) (c b p : Nat) : (State.emit s c b p).rink = s.rink := rfl
@[simp] theorem emit_arr (s : State) (c b p : Nat) : (State.emit s c b p).arr = s.arr := rfl
@[simp] theorem emit_crs (s : State) (c b p : Nat) : (State.emit s c b p).crs = s.crs := rfl
@[simp] theorem emit_mem (s : State) (c b p : Nat) : (State.emit s c b p).mem = s.mem := rfl
@[simp] theorem emit_lkr (s : State) (c b p : Nat) : (State.emit s c b p).lkr = s.lkr := rfl
@[simp] theorem emit_lift (s : State) (c b p : Nat) : (State.emit s c b p).lift = s.lift := rfl
@[simp] theorem emit_lodge (s : State) (c b p : Nat) : (State.emit s c b p).lodge = s.lodge := rfl
@[simp] theorem emit_upd (s : State) (c b p : Nat) : (State.emit s c b p).upd = { s.upd with emitted := s.upd.emitted.insert c ((b, p) :: (s.upd.emitted.read [] c)) } := rfl
@[simp] theorem emit_sl (s : State) (c b p : Nat) : (State.emit s c b p).sl = s.sl := rfl
@[simp] theorem emit_bibs (s : State) (c b p : Nat) : (State.emit s c b p).bibs = s.bibs := rfl
@[simp] theorem emit_cmd (s : State) (c b p : Nat) : (State.emit s c b p).cmd = s.cmd := rfl
@[simp] theorem emit_boot (s : State) (c b p : Nat) : (State.emit s c b p).boot = s.boot := rfl
@[simp] theorem emit_ctr (s : State) (c b p : Nat) : (State.emit s c b p).ctr = s.ctr := rfl
@[simp] theorem emit_pf (s : State) (c b p : Nat) : (State.emit s c b p).pf = s.pf := rfl
@[simp] theorem emit_log (s : State) (c b p : Nat) : (State.emit s c b p).log = s.log := rfl
@[simp] theorem emit_test (s : State) (c b p : Nat) : (State.emit s c b p).test = s.test := rfl
@[simp] theorem emit_sec (s : State) (c b p : Nat) : (State.emit s c b p).sec = s.sec := rfl
@[simp] theorem emit_freeCtr (s : State) (c b p : Nat) : (State.emit s c b p).freeCtr = s.freeCtr := rfl
@[simp] theorem emit_pending (s : State) (c b p : Nat) : (State.emit s c b p).pending = s.pending := rfl

/-! ### setByp -/

@[simp] theorem setByp_clk (s : State) (i : Nat) (b : Byp) : (State.setByp s i b).clk = s.clk := rfl
@[simp] theorem setByp_pwr (s : State) (i : Nat) (b : Byp) : (State.setByp s i b).pwr = s.pwr := rfl
@[simp] theorem setByp_vc (s : State) (i : Nat) (b : Byp) : (State.setByp s i b).vc = s.vc := rfl
@[simp] theorem setByp_rink (s : State) (i : Nat) (b : Byp) : (State.setByp s i b).rink = s.rink := rfl
@[simp] theorem setByp_arr (s : State) (i : Nat) (b : Byp) : (State.setByp s i b).arr = s.arr := rfl
@[simp] theorem setByp_crs (s : State) (i : Nat) (b : Byp) : (State.setByp s i b).crs = s.crs := rfl
@[simp] theorem setByp_mem (s : State) (i : Nat) (b : Byp) : (State.setByp s i b).mem = s.mem := rfl
@[simp] theorem setByp_lkr (s : State) (i : Nat) (b : Byp) : (State.setByp s i b).lkr = s.lkr := rfl
@[simp] theorem setByp_lift (s : State) (i : Nat) (b : Byp) : (State.setByp s i b).lift = s.lift := rfl
@[simp] theorem setByp_lodge (s : State) (i : Nat) (b : Byp) : (State.setByp s i b).lodge = s.lodge := rfl
@[simp] theorem setByp_upd (s : State) (i : Nat) (b : Byp) : (State.setByp s i b).upd = s.upd := rfl
@[simp] theorem setByp_sl (s : State) (i : Nat) (b : Byp) : (State.setByp s i b).sl = { s.sl with byps := s.sl.byps.write {} i b } := rfl
@[simp] theorem setByp_bibs (s : State) (i : Nat) (b : Byp) : (State.setByp s i b).bibs = s.bibs := rfl
@[simp] theorem setByp_cmd (s : State) (i : Nat) (b : Byp) : (State.setByp s i b).cmd = s.cmd := rfl
@[simp] theorem setByp_boot (s : State) (i : Nat) (b : Byp) : (State.setByp s i b).boot = s.boot := rfl
@[simp] theorem setByp_ctr (s : State) (i : Nat) (b : Byp) : (State.setByp s i b).ctr = s.ctr := rfl
@[simp] theorem setByp_pf (s : State) (i : Nat) (b : Byp) : (State.setByp s i b).pf = s.pf := rfl
@[simp] theorem setByp_log (s : State) (i : Nat) (b : Byp) : (State.setByp s i b).log = s.log := rfl
@[simp] theorem setByp_test (s : State) (i : Nat) (b : Byp) : (State.setByp s i b).test = s.test := rfl
@[simp] theorem setByp_sec (s : State) (i : Nat) (b : Byp) : (State.setByp s i b).sec = s.sec := rfl
@[simp] theorem setByp_freeCtr (s : State) (i : Nat) (b : Byp) : (State.setByp s i b).freeCtr = s.freeCtr := rfl
@[simp] theorem setByp_pending (s : State) (i : Nat) (b : Byp) : (State.setByp s i b).pending = s.pending := rfl

/-! ### atRow -/

@[simp] theorem atRow_clk (s : State) (r : BootRow) : (State.atRow s r).clk = s.clk := rfl
@[simp] theorem atRow_pwr (s : State) (r : BootRow) : (State.atRow s r).pwr = s.pwr := rfl
@[simp] theorem atRow_vc (s : State) (r : BootRow) : (State.atRow s r).vc = s.vc := rfl
@[simp] theorem atRow_rink (s : State) (r : BootRow) : (State.atRow s r).rink = s.rink := rfl
@[simp] theorem atRow_arr (s : State) (r : BootRow) : (State.atRow s r).arr = s.arr := rfl
@[simp] theorem atRow_crs (s : State) (r : BootRow) : (State.atRow s r).crs = s.crs := rfl
@[simp] theorem atRow_mem (s : State) (r : BootRow) : (State.atRow s r).mem = s.mem := rfl
@[simp] theorem atRow_lkr (s : State) (r : BootRow) : (State.atRow s r).lkr = s.lkr := rfl
@[simp] theorem atRow_lift (s : State) (r : BootRow) : (State.atRow s r).lift = s.lift := rfl
@[simp] theorem atRow_lodge (s : State) (r : BootRow) : (State.atRow s r).lodge = s.lodge := rfl
@[simp] theorem atRow_upd (s : State) (r : BootRow) : (State.atRow s r).upd = s.upd := rfl
@[simp] theorem atRow_sl (s : State) (r : BootRow) : (State.atRow s r).sl = s.sl := rfl
@[simp] theorem atRow_bibs (s : State) (r : BootRow) : (State.atRow s r).bibs = s.bibs := rfl
@[simp] theorem atRow_cmd (s : State) (r : BootRow) : (State.atRow s r).cmd = s.cmd := rfl
@[simp] theorem atRow_boot (s : State) (r : BootRow) : (State.atRow s r).boot = { s.boot with rows := s.boot.rows ++ [r] } := rfl
@[simp] theorem atRow_ctr (s : State) (r : BootRow) : (State.atRow s r).ctr = s.ctr := rfl
@[simp] theorem atRow_pf (s : State) (r : BootRow) : (State.atRow s r).pf = s.pf := rfl
@[simp] theorem atRow_log (s : State) (r : BootRow) : (State.atRow s r).log = s.log := rfl
@[simp] theorem atRow_test (s : State) (r : BootRow) : (State.atRow s r).test = s.test := rfl
@[simp] theorem atRow_sec (s : State) (r : BootRow) : (State.atRow s r).sec = s.sec := rfl
@[simp] theorem atRow_freeCtr (s : State) (r : BootRow) : (State.atRow s r).freeCtr = s.freeCtr := rfl
@[simp] theorem atRow_pending (s : State) (r : BootRow) : (State.atRow s r).pending = s.pending := rfl

/-! ### Reading back -/

/-- A register read back. -/
theorem setHold_hold (s : State) (k n : Nat) (x : Hold) : (s.setHold k x).hold n = if k = n then x else s.hold n :=
  Table.read_write ({} : Hold) s.crs.holds k n x

/-- A register read back. -/
theorem setGate_gate (s : State) (k n : Nat) (x : Gate) : (s.setGate k x).gate n = if k = n then x else s.gate n :=
  Table.read_write ({} : Gate) s.crs.gates k n x

/-- A register read back. -/
theorem setStn_stn (s : State) (k n : Nat) (x : Stn) : (s.setStn k x).stn n = if k = n then x else s.stn n :=
  Table.read_write ({} : Stn) s.rink.stn k n x

/-- A register read back. -/
theorem setPort_port (s : State) (k n : Nat) (x : SlPort) : (s.setPort k x).port n = if k = n then x else s.port n :=
  Table.read_write ({} : SlPort) s.sl.ports k n x

/-- A register read back. -/
theorem setByp_byp (s : State) (k n : Nat) (x : Byp) : (s.setByp k x).byp n = if k = n then x else s.byp n :=
  Table.read_write ({} : Byp) s.sl.byps k n x

/-- A register read back. -/
theorem setNear_near (s : State) (k n : Nat) (x : NearTier) : (s.setNear k x).near n = if k = n then x else s.near n :=
  Table.read_write ({} : NearTier) s.mem.near k n x

/-- A register read back. -/
theorem setStack_stack (s : State) (k n : Nat) (x : Stack) : (s.setStack k x).stack n = if k = n then x else s.stack n :=
  Table.read_write ({} : Stack) s.mem.stks k n x

/-- A register read back. -/
theorem setGrp_grp (s : State) (k n : Nat) (x : Grp) : (s.setGrp k x).grp n = if k = n then x else s.grp n :=
  Table.read_write ({} : Grp) s.lodge.grps k n x

/-- A register read back. -/
theorem setUpdSlot_updSlot (s : State) (k n : Nat) (x : UpdSlot) : (s.setUpdSlot k x).updSlot n = if k = n then x else s.updSlot n :=
  Table.read_write ({} : UpdSlot) s.upd.slots k n x

/-- A register read back. -/
theorem setSecStat_secStat (s : State) (k n : Nat) (x : SecStat) : (s.setSecStat k x).secStat n = if k = n then x else s.secStat n :=
  Table.read_write ({} : SecStat) s.sec.stats k n x

/-- A record read back. -/
theorem setBib_bib (s : State) (k n : BitVec 12) (x : Bib) : (s.setBib k x).bib n = if k.toNat = n.toNat then x else s.bib n :=
  Table.read_write ({} : Bib) s.bibs.recs k.toNat n.toNat x

/-- A record read back. -/
theorem setKeys_keysOf (s : State) (k n : BitVec 12) (x : BibKeys) : (s.setKeys k x).keysOf n = if k.toNat = n.toNat then x else s.keysOf n :=
  Table.read_write ({} : BibKeys) s.bibs.keys k.toNat n.toNat x

/-- A record read back. -/
theorem setReplay_replay (s : State) (k n : BitVec 12) (x : Replay) : (s.setReplay k x).replay n = if k.toNat = n.toNat then x else s.replay n :=
  Table.read_write ({} : Replay) s.bibs.replay k.toNat n.toNat x

/-- An entry read back. -/
@[simp] theorem setCourse_course (s : State) (k : Nat) (x : Course) : (s.setCourse k x).course k = some x := Table.lookup_insert_self ..

/-- Another entry. -/
theorem setCourse_course_ne (s : State) {k n : Nat} (h : k ≠ n) (x : Course) : (s.setCourse k x).course n = s.course n := Table.lookup_insert_ne _ h _

/-- An entry read back. -/
@[simp] theorem setDomain_domain (s : State) (k : Nat) (x : Domain) : (s.setDomain k x).domain k = some x := Table.lookup_insert_self ..

/-- Another entry. -/
theorem setDomain_domain_ne (s : State) {k n : Nat} (h : k ≠ n) (x : Domain) : (s.setDomain k x).domain n = s.domain n := Table.lookup_insert_ne _ h _

/-- An entry read back. -/
@[simp] theorem setObject_object (s : State) (k : Nat) (x : LObj) : (s.setObject k x).object k = some x := Table.lookup_insert_self ..

/-- Another entry. -/
theorem setObject_object_ne (s : State) {k n : Nat} (h : k ≠ n) (x : LObj) : (s.setObject k x).object n = s.object n := Table.lookup_insert_ne _ h _

end Sys2Proof.Machine
end

