-- ==== Sys2Proof/Tests/Slice0.lean ====
section
/-! SUPPORT. Tests: small states, an ill-formed term for each check of WellFormed, values from the spec's tables, and for every obligation states and
operands that meet the hypotheses of each of its clauses together. -/

namespace Sys2Proof.Tests
open Sys2Proof.Machine
set_option maxRecDepth 100000
set_option Elab.async false
set_option linter.unusedTactic false
set_option linter.unreachableTactic false

/-! ## States and records for the tests -/

/-- A module that is up and serves every path. -/
def up : State := { State.reset with pwr.reset := false, boot.rows := [.b7], boot.ready := true }

/-- A packet header: role, bib, slot. -/
def hd (r : BitVec 2) (b : BitVec 12 := 0) (sl : BitVec 8 := 0) : Hdr := { role := r, bib := b, slot := sl, tag := 7 }

/-- `up` with bib 3 in a state. -/
def bib3 (st : BibState) (a : BibArgs := {}) : State := { up with bibs.recs := [(3, { state := st, args := a })] }

/-- An empty course of bib 3. -/
def course0 : Course :=
  { bib := 3, hdr := 0, segs := [], uses := [], streams := [], blocks := [], convs := [], patches := [], conflicts := [], tensors := [], gates := []
    lists := [], locker := [], stages := [], progs := [], consts := [], binds := [], gateMap := [], hdrBase := [], digest := 0, members := 1 }

/-- A kept reply of TAG 7. -/
def rep0 : Reply :=
  { path := .eth 0, opcode := 2, bib := 0, slot := 0, status := .ok, final := true, tag := 7, event := 0, ts := 0, epoch := 0, signed := false, result := .none }

/-- A sealed block of bib 3. -/
def seal0 : Seal := { dir := false, bib := 3, len := 64, seq := 5, rsv := 0, tagOk := true }

/-- A job of this module alone, bib 3. -/
def job0 : Job :=
  { args := { jobId := 9, jxm := 0, jym := 0, jzm := 0, jxc := 0, jyc := 0, jzc := 0, bib := 3, jtag := 1, members := [{ module := 0, bib := 3, feeds := [] }]
              mirrors := [], policy := true, force := false, fixedNb := none, fixedNl := none, fores := [] }, rank := 0 }

/-- A running domain of bib 3 on station 0. -/
def dom0 : Domain := { bib := 3, running := true, s := 1, run := [0] }

/-- A wrapped link key for job 9 of bib 3. -/
def wrap0 (ok : Bool) : WrappedKey := { wver := 1, bib := 3, jobId := 9, epoch := true, nonce := 0, rsv := 0, ct := 5, tagOk := ok }

/-- A scrub in progress of bib 3. -/
def scrub0 : Scrub := { nonce := 5, hdr := { (hd 1 3) with opcode := 0x0107 } }

/-- Bib 3 is clearing. -/
def clearing0 (pages : Bool) : State :=
  { (bib3 .clearing) with bibs.scrubs := [(3, { scrub0 with pages := pages })], mem.owners := [(frameKey 2 4, 3)]
                          mem.bytes := [(byteKey 2 (4 * 2 ^ 21) + 6, 9)], mem.ptes := [(pageKey 3 8, { tier := 2, frame := 4, state := 1 })] }

/-- A record with the named fields. -/
def rec_ (l : List (Nat × Nat)) : Nat := (l.map (fun e => e.2 * 2 ^ e.1)).sum

/-- A segment on one station: its first use, step end or not, patch point or not, its SIG_A. -/
def seg0 (stepEnd patch sigA : Nat) : Nat :=
  rec_ [(250, stepEnd), (249, patch), (241, 1), (214, 1), (130, 1), (117, 0x1FFF), (104, 0x1FFF), (91, sigA), (78, 0x1FFF)]

/-- A use in E4M3 with a BF16 output tile, no gates, no group. -/
def use0 : Nat :=
  rec_ [(497, 0x7F), (486, 1), (482, 1), (478, 6), (446, 0x7FFF), (433, 0x1FFF), (420, 0), (400, 0xFFFFF), (216, 1)]

/-- A course of bib 3 with one segment of one use and one gate. -/
def course1 (stepEnd patch : Nat) : Course :=
  { course0 with hdr := rec_ [(351, 1), (355, 1), (337, 1)], segs := [seg0 stepEnd patch 0], uses := [use0], gates := [rec_ [(21, 5), (5, 1)]], gateMap := [4]
                 tensors := [rec_ [(60, 1), (40, 1), (36, 1)], rec_ [(60, 1), (40, 1), (36, 6)]] }

/-- Course 1 in slot 2, running on station 0 with one gate. -/
def running1 (stepEnd patch : Nat) (d : Domain) : State :=
  { (bib3 .running) with crs.courses := [(2, course1 stepEnd patch)], crs.domains := [(2, d)]
                         crs.gates := [(4, { bib := 3, state := 1, target := 2, wd := 5 })] }

/-- The header of tile 0 of a tensor of bib 3. -/
def hdr0 (tensor : BitVec 24) (fmt : BitVec 4) (off : BitVec 50) : TileHdr :=
  { fmt := fmt, id := { bib := 3, tensor := tensor, tile := 0 }, home := { tier := 1, off := off } }

/-- A use in progress on a carve. -/
def cfg0 : UseCfg :=
  { slot := 2, seg := 0, use := 0, off := 0, pass := 0, ord := 0, gen := 0, mode := 0, trans := false, opT := false, swap := false, visits := 0
    opFmt := .e4m3, stFmt := .e4m3, outFmt := .bf16, kUse := 256, route := 0, acc := 0, sr := false, seed := 0, group := 0x7FFF, pOut := 127, pc := 0
    term := 0, tensor := 1, st := { bib := 3, tensor := 0, tile := 0 }, out := { bib := 3, tensor := 1, tile := 0 }, index := 0, recompute := false
    step := 0, x := {}, conv := none, thresh := [], patch0 := 0, useOrd := 0 }

/-- The live segment 0. -/
def live0 : LiveSeg := { ord := 0, s := 1 }

/-- The bytes of a course file of 512 bytes: header, directory, one segment, one use, one tensor, locker records, digest. -/
def file0 : List Byte :=
  leBytes 64 (rec_ [(480, 0x45535243), (472, 1), (464, 1), (432, 512), (362, 5), (355, 1), (351, 1), (302, 1), (269, 0x1FFF), (256, 0x1FFF), (216, 1)])
    ++ leBytes 16 (rec_ [(120, 1), (64, 192), (32, 32), (0, 1)]) ++ leBytes 16 (rec_ [(120, 2), (64, 256), (32, 64), (0, 1)])
    ++ leBytes 16 (rec_ [(120, 7), (64, 320), (32, 16), (0, 1)]) ++ leBytes 16 (rec_ [(120, 9), (64, 384), (32, 32), (0, 4)])
    ++ leBytes 16 (rec_ [(120, 14), (64, 448), (32, 64), (0, 1)]) ++ leBytes 48 0
    ++ leBytes 64 (seg0 1 0 0x1FFF)
    ++ leBytes 64 (rec_ [(497, 0x7F), (486, 1), (482, 1), (478, 6), (446, 0x7FFF), (433, 0x1FFF), (420, 0x1FFF), (400, 0xFFFFF)])
    ++ leBytes 64 (rec_ [(60, 1), (40, 1), (36, 1)]) ++ leBytes 64 0 ++ leBytes 64 5

/-- A table of the nonzero bytes of a list from a number up. -/
def cellsFrom : Nat → List Byte → Table Byte
  | _, [] => []
  | k, b :: bs => if b = 0 then cellsFrom (k + 1) bs else (k, b) :: cellsFrom (k + 1) bs

/-- Bib 3 has a course file in page 0, which is T2 frame 4. -/
def fileState (f : List Byte) : State :=
  { (bib3 .admitted { courses := 1, carves := 1, streams := 1, t2Quota := 9 }) with
    mem.ptes := [(pageKey 3 0, { tier := 2, frame := 4, state := 1, wr := true })], mem.owners := [(frameKey 2 4, 3)]
    mem.bytes := cellsFrom (byteKey 2 (4 * 2 ^ 21)) f }

/-- A use on the carve of station 0, with a lapping tile. -/
def using0 (u : UseCfg) (d : Domain := dom0) : State :=
  { (running1 1 0 d) with arr.uses := [(0, [u])] }

/-- A lapping tile with visits left. -/
def lap0 (n : Nat) : LapTile := { slot := 2, tile := { bib := 3, tensor := 0, tile := 0 }, visits := n, fmt := .e4m3, src := .stream, plain := true, col := 0, head := [] }

/-- An element on its way. -/
def elem0 : Operand := { code := 0x38, scale := 127, token := 0, void := false, swap := false }

/-- A domain of bib 3 on stations 0 and 1. -/
def dom1 : Domain := { bib := 3, running := true, s := 2, run := [0, 1] }

/-- Tile 0 of tensor 0 of bib 3. -/
def tid0 : TileId := { bib := 3, tensor := 0, tile := 0 }

/-- Course 1 runs; tile 0 of tensor 0 has a header. -/
def tiled (h : TileHdr) : State := { (running1 1 0 dom0) with mem.hdrs := [(tileKey tid0, h)] }

/-- A sum tile in T2. -/
def sumHdr : TileHdr := { fmt := 8, id := tid0, home := { tier := 2, off := 0x40000 }, prot := true, terms := 3, version := 7 }

/-- Two T2 pages of bib 3. -/
def paged2 : State :=
  { (running1 1 0 dom0) with
    mem.ptes := [(pageKey 3 0, { tier := 2, frame := 4, state := 1, wr := true, prot := true }), (pageKey 3 1, { tier := 2, frame := 5, state := 1, wr := true })]
    mem.owners := [(frameKey 2 4, 3), (frameKey 2 5, 3)], mem.bytes := [(byteKey 2 (4 * 2 ^ 21) + 6, 9), (byteKey 2 (5 * 2 ^ 21) + 3, 8)]
    bibs.recs := [(3, { state := .running, args := { t2Quota := 2, t1Quota0 := 1 }, t2Used := 2 })] }

/-- A move of the tile from T2 to T1. -/
def move0 (p : MovePhase) : Move := { tile := tileKey tid0, src := { tier := 2, off := 0x40000 }, dst := { tier := 1, off := 0x80000 }, phase := p, mover := 5 }

/-- The tile in a move. -/
def moving (p : MovePhase) (h : TileHdr) : State :=
  { (tiled h) with mem.moves := [(8, move0 p)], mem.slots := [(1, { reserved := 1, held := 1 })], mem.bytes := [(byteKey 2 0x40005, 7)] }

/-- A locker entry of slot 2 on die 1. -/
def entry0 (r : BitVec 2) : LkrEntry :=
  { kind := 2, tier := 0, reads := r, bib := 3, tensor := 3, unit := 4, mb := 5, home := 6, slot := 2, die := 1, size := 8192, seq := 0 }

/-- A stream declaration of one tile of tensor 0: where to, one to two slots. -/
def decl0 (dispose dest extra : Nat) : Nat := rec_ [(250, dispose), (248, dest), (234, if dispose = 1 then 1 else 0), (174, 1), (136, 1), (118, 2), (44, 1), (24, 1)] + extra

/-- Course 1 with one stream of `n` tiles. -/
def course2 (d n : Nat) : Course :=
  { course1 1 0 with segs := [seg0 1 0 0 + rec_ [(18, 1)]], streams := [d], blocks := [rec_ [(12, n), (0, 1)]]
                     tensors := [rec_ [(60, 1), (40, 8), (36, 1)], rec_ [(60, 1), (40, 1), (36, 6)]] }

/-- An open stream of slot 2. -/
def strm0 : Strm := { bib := 3, slot := 2, state := 2, cls := 1 }

/-- An item of a stream at its destination. -/
def item0 : LiftItem := { src := { tier := 2, off := 0x800000 }, dst := { tier := 1, off := 0 }, committed := true }

/-- Course 2 runs with its stream; its tiles stand in T2 page 0. -/
def lifting (d n : Nat) (x : List (Nat × Strm)) (dom : Domain := dom0) (e : Pte := { tier := 2, frame := 4, state := 1, wr := true }) : State :=
  { (bib3 .running { t1Quota0 := 4 }) with
    crs.courses := [(2, course2 d n)], crs.domains := [(2, dom)], lift.strm := x, lift.reserved := [(2, 1)], mem.ptes := [(pageKey 3 0, e)]
    mem.hdrs := [(tileKey tid0, { hdr0 0 1 0x800000 with home := { tier := 2, off := 0x800000 } })] }

/-- A binding of tensor 0 with working copy 1 and FP32 masters in tensor 2. -/
def bind0 : Nat := rec_ [(208, 1), (184, 2), (160, 0xFFFFFF), (136, 0xFFFFFF), (127, 1)]

/-- A training course with one binding; its verdict gate is module gate 4. -/
def course3 (binds : List Nat) : Course :=
  { course1 1 0 with hdr := rec_ [(355, 1), (337, 1)], binds := binds, progs := [[]], consts := [[]], tensors := [rec_ [(60, 1), (40, 1), (36, 1)],
                     rec_ [(60, 1), (40, 1), (36, 1)], rec_ [(60, 1), (40, 8), (34, 2)]] }

/-- The training course runs, a token is due. -/
def training (binds : List Nat) (d : Domain := { dom0 with tokens := 1 }) : State :=
  { (bib3 .running) with crs.courses := [(2, course3 binds)], crs.domains := [(2, d)], crs.gates := [(4, { bib := 3, state := 1, target := 1, wd := 5, count := 1 })]
                         mem.ptes := [(pageKey 3 0, { tier := 2, frame := 4, state := 1, wr := true }), (pageKey 3 1, { tier := 2, frame := 5, state := 1, wr := true })] }

/-- The verdict of the step is held. -/
def decided (ov : Bool) (d : Domain := { dom0 with tokens := 1 }) : State :=
  { (training [] d) with crs.verdicts := [(4 * 256, { formed := true, ready := true, overflow := ov })] }

/-- A job of two modules in x. -/
def job2 : Job :=
  { job0 with args := { job0.args with jxm := 1, members := [{ module := 0, bib := 3, feeds := [] }, { module := 1, bib := 3, feeds := [] }] } }

/-- A patch in a lane group. -/
def lane0 (ended : Bool) : LanePatch :=
  { slot := 2, binding := 0, patch := 5, master := List.replicate 64 0x3F800000, s1 := [], s2 := [], frozen := false, ended := ended, wc := List.replicate 64 0x38, wcScale := 127 }

/-- A system map of 4 by 4 by 4 modules; this module is number 1. -/
def map0 : SysMap := { dx := 4, dy := 4, dz := 4, sysid := 5, x := 1, y := 0, z := 0 }

/-- A trained port with messages open on it. -/
def port0 : SlPort := { state := 3, ver := 1, lanes := 0xFF, peer := 2, trained := true }

/-- A module on the map with port 0. -/
def linked (p : SlPort) (byp : SwState := .joined) : State :=
  { (bib3 .running) with sl.sysmap := some map0, sl.ports := [(0, p)], sl.byps := [(0, { state := byp, join := true })], sl.heartbeat := true }

/-- A data frame. -/
def frame0 : Frame := { ftype := 1, seq := 0, ack := 0, nak := false, cr := [], slots := [], msg := .none }

/-- The capability message of module 2. -/
def cap0 : Capability := { slvMin := 1, slvMax := 1, arch := 0, module := 2, rail := false, dim := 0, dir := true, sysid := 5 }

/-- The open header of a write message for a module. -/
def msg0 (dst : BitVec 11) : MsgOpen :=
  { stream := 9, dst := dst, src := 2, kind := 0, jtag := 1, epoch := false, dbib := 3, va := 6, bytes := 2, term := 0, mseq := 0, rnd := false, seed := 0, rsv := 0 }

/-- A message of bib 3 in reception on stream 9 of port 0, with page 0 mapped and the job's link key. -/
def receiving (m : MsgOpen) : State :=
  { (linked { port0 with ins := [(9, m)] }) with
    sl.rx := [(9, { hdr := m, data := [1, 2] })], sl.jobs := [(15, job2)], bibs.linkKeys := [(30, 7)]
    mem.ptes := [(pageKey 3 0, { tier := 2, frame := 4, state := 1, wr := true })], mem.owners := [(frameKey 2 4, 3)] }

/-- The training course in a job of two modules; gate 4 has job scope. -/
def jobTraining (binds : List Nat) : State :=
  { (training binds) with sl.jobs := [(15, job2)], sl.ports := [(0, port0)], sl.sysmap := some map0
                          crs.gates := [(4, { bib := 3, scope := true, state := 1, target := 1, wd := 5, count := 1 })] }

/-- Switch 0 with a trained port 0 and a port 1. -/
def switched (b : Byp) (p1 : SlPort) : State :=
  { (linked port0) with sl.byps := [(0, b)], sl.ports := [(0, port0), (1, p1)] }

/-- A place of the lodge and a tag for it. -/
def place0 : LodgePlace := { ch := 1, die := 2, blk := 3, wl := 4, pg := 0 }

/-- A volatile unit of bib 3. -/
def tag0 : UnitTag := { cls := 2, epoch := false, prot := false, bib := 3, lun := 64, seq := 5 }

/-- The unit is programmed at the place and reachable; its block group is `g`. -/
def lodged (g : Grp) : State :=
  { (bib3 .running) with lodge.map := [(64, place0)], lodge.tags := [(placeKey place0, tag0)], lodge.grps := [(grpOf place0, g)] }

/-- A page of bib 3 in the lodge; a rebuild of it may be in progress. -/
def lodgePage (ops : List PageOp) (reps : List (BitVec 11)) : State :=
  { (bib3 .running { t2Quota := 2 }) with
    mem.ptes := [(pageKey 3 0, { tier := 3, frame := 2, state := 2, wr := true })], mem.bytes := [(byteKey 3 (64 * 65536 + 6), 9)]
    lodge.pages := ops.map (fun o => (pageKey 3 0, o)), lodge.replicas := [(2, reps)] }

/-- An object of bib 3. -/
def obj0 : LObj := { bib := 3, kind := 3, job := 9, bytes := [1, 2] }

/-- Job 9 configured for four modules in x. -/
def args4 (feeds : BitVec 32 → List (BitVec 32)) : JobArgs :=
  { job0.args with jxm := 3, members := (List.range 4).map (fun i => { module := BitVec.ofNat 11 i, bib := 3, feeds := feeds (BitVec.ofNat 32 i) }), fixedNb := some 4, fixedNl := some 8 }

/-- Job record 15 with its securing record; the training course of bib 3 is resident. -/
def securing (jb : Job) (st : SecStat) : State :=
  { (jobTraining [bind0]) with sl.jobs := [(15, jb)], sec.stats := [(15, st)], bibs.linkKeys := [(30, 7), (31, 8)] }

/-- What a copy of step 7 holds. -/
def body0 : SecBody := { slot := 2, blocks := [], scales := [(1, { h := 2 })], seeds := [5, 6], step := 7, clip := 9, clipEn := true, inputSeq := 44 }

/-- A local copy of step 7. -/
def copy0 (done : Bool) : SecCopy := { job := 9, rank := 0, step := 7, kind := 0, done := done, body := some body0 }

/-- Job 2 with a reserved forerunner. -/
def job3 : Job := { job2 with args := { job2.args with fores := [7] } }

/-- A suspended job with balanced accounts. -/
def stopped (st : SecStat) : State :=
  { (securing job2 st) with bibs.recs := [(3, { state := .suspended, why := .fault })], crs.gates := [(4, { bib := 3, scope := true, state := 1, target := 1, wd := 5 })], lift.strm := [] }

/-- An accepted image. -/
def image0 (kind : BitVec 8) : Image :=
  { kind := kind, magicOk := true, iver := 1, arch := 1, rsvZero := true, svn := 5, version := 1, digest := 2, keyOk := true, sigOk := true, digestOk := true }

/-- A module in a boot, with all images in both slots. -/
def booting (rows : List BootRow) : State :=
  { up with boot.rows := rows, boot.ready := false
            boot.images := [imgKey false 1, imgKey false 2, imgKey false 3, imgKey true 1, imgKey true 2, imgKey true 3].zip ([1, 2, 3, 1, 2, 3].map image0) }

/-- A live update at a phase, its command waiting. -/
def updating (phase : BitVec 3) : State :=
  { (booting [.b7]) with boot.ready := true, boot.stat := { stage := 6, update := phase }, boot.zilM := 6, boot.oldZilM := 9, cmd.waiting := [(.update, { hd 1 with opcode := 0x0602 })] }

/-- An event. -/
def event0 : Event := { arg := .keyRotate false 0 5 6 }

/-- A self-test outcome. -/
def tested (pass : Bool) (part : BitVec 4) : TestOutcome := { pass := pass, part := part, row := 3, col := 5, qtr := 1 }

/-- Station 3 is withdrawn and claimed by bib 9. -/
def withdrawn3 : State := { up with rink.stn := [(3, { withdraw := true, wdDone := true, bib1 := 9 })], lift.strm := [] }

/-- A page of bib 3 with three bytes. -/
def page0 : State := fileState [1, 2, 3]

/-- An outcome of a walk that is no address. -/
theorem not_ok {x : Xlat} (h : (match x with | .ok _ => true | _ => false) = false) : ∀ a, x ≠ .ok a := by
  intro a e
  rw [e] at h
  cases h

/-- Two sum tiles of bib 3 in T2: tile 0 of tensor 0 and tile 0 of tensor 1. -/
def add0 : State :=
  { (running1 1 0 dom0) with mem.hdrs := [(tileKey tid0, sumHdr), (tileKey { tid0 with tensor := 1 }, { sumHdr with id := { tid0 with tensor := 1 }, home := { tier := 2, off := 0x200000 } })] }

/-- The values of the second. -/
def addVals : List (BitVec 40) :=
  (List.range 65536).map (fun i => BitVec.ofNat 40 (add0.elemAt (homeKey { tier := 2, off := 0x200000 }) .w40 (i / 256) (i % 256)))

/-- They are what a base add of it adds. -/
theorem add0_addend (n : BitVec 32) : add0.addend tid0 2 (.tile { tid0 with tensor := 1 } n false 3) = some (addVals, n, false, 3) := rfl

/-- The course with a keep area of two units on die 1. -/
def courseK : Course := { course1 1 0 with locker := [0, rec_ [(14, 2)], 0, 0] }

/-- A tile of E4M3 to be kept as a boundary entry, and a locker with room. -/
def keep0 : State :=
  { (running1 1 0 { dom0 with live := [(0, live0)] }) with crs.courses := [(2, courseK)], mem.hdrs := [(tileKey tid0, hdr0 0 1 0)] }

/-- The tile's bytes. -/
def keepData : List Byte := keep0.bytesAt (homeKey { tier := 1, off := 0 }) (tileBytesOf 1)

/-- They are the entry's data. -/
theorem keep0_data : keep0.entryData courseK 2 1 1 0 0 = .ready keepData := rfl

/-- A lapping tile that the array carries on its way. -/
def lapC (n : Nat) : LapTile := { lap0 n with src := .carried [] }

/-- A sum on its way. -/
def sum0 : PSum := { token := 0, lanes := [freshLane 0 18] }

/-- Every row of row reduction 7 of the use has come. -/
def rows0 : State := { using0 cfg0 with arr.rows := [(14, (List.range 65536).map (fun i => (i, 0)))] }

/-! ## Ill-formed terms: one for each check -/

/-- Readings of four dies. -/
def readings (rates : List (BitVec 16)) : Readings :=
  { rate := rates, tj := [50, 50, 50, 50], ceil := 0x30, pin := 0, iinA := 0, iinB := 0, vinA := 0, vinB := 0, tIn := 0, tOut := 0 }

theorem test_wf_beatMonitorWindow : (Instr.beatMonitorWindow (readings [1, 2, 3])).wf = false ∧ (Instr.beatMonitorWindow (readings [1, 2, 3, 4])).wf = true := by decide

theorem test_wf_useStart :
    (Instr.useStart 0 0 0 96 0 {}).wf = false ∧ (Instr.useStart 0 0 0 95 0 { col := 5 }).wf = false ∧ (Instr.useStart 0 0 0 95 0 { col := 32 }).wf = true := by decide

theorem test_wf_gradientPatchArrival : (Instr.gradientPatchArrival 0 0 0 0 [1]).wf = false := by decide

theorem test_wf_slFrameRx :
    (Instr.slFrameRx 0 [] true { frame0 with cr := [(0, 1), (1, 1), (2, 1)] }).wf = false
      ∧ (Instr.slFrameRx 0 [] true { frame0 with slots := List.replicate 7 { vc := 0, stream := 0, data := [] } }).wf = false
      ∧ (Instr.slFrameRx 0 [] true frame0).wf = true := by decide

theorem test_wf_collectiveChunkRx : (Instr.collectiveChunkRx 0 0 0 0 (.gather [] 0) []).wf = false ∧ (Instr.collectiveChunkRx 0 0 0 0 (.reduce 0 [] [] 0 false 0 true) []).wf = false := by
  decide

theorem test_wf_patternTestEnd : (Instr.patternTestEnd 0 [0]).wf = false := by decide

theorem test_wf_lodgeUnitReadDone :
    (Instr.lodgeUnitReadDone { place0 with pg := 3 } true).wf = false ∧ (Instr.lodgeUnitReadDone { place0 with wl := 511 } true).wf = false
      ∧ (Instr.lodgeUnitReadDone { place0 with blk := 1242 } true).wf = false ∧ (Instr.lodgeUnitReadDone place0 true).wf = true := by decide

theorem test_wf_lodgeStripeProgrammed :
    (Instr.lodgeStripeProgrammed 1242 0 0 none []).wf = false ∧ (Instr.lodgeStripeProgrammed 0 511 0 none []).wf = false
      ∧ (Instr.lodgeStripeProgrammed 3 4 2 none [({ place0 with pg := 3 }, tag0, none)]).wf = false := by decide

theorem test_wf_lodgeEraseDone : (Instr.lodgeEraseDone 0 0 1242 true).wf = false ∧ (Instr.lodgeEraseDone 0 0 1241 true).wf = true := by decide

theorem test_wf_lodgeWearLevelTimer : (Instr.lodgeWearLevelTimer 0 0 1242 0).wf = false ∧ (Instr.lodgeWearLevelTimer 0 0 0 1242).wf = false := by decide

theorem test_wf_lodgeRetentionScan : (Instr.lodgeRetentionScan 0 0 1242 0 0).wf = false := by decide

/-! ## Values from the spec's tables -/

/-- The field of a next state. -/
def after {α : Type} (o : Out) (f : State → α) (d : α) : α :=
  match o with
  | .next t => f t
  | _ => d

/-- E4M3's greatest value is 448 and its least subnormal 2^-9 (Table 4.2). -/
theorem test_e4m3_ends : decodeElem .e4m3 0x7E = .fin { m := 14, e := 5 } ∧ decodeElem .e4m3 0x01 = .fin { m := 1, e := -9 } := by decide

/-- A wrap raises the epoch by one (R28). -/
theorem test_timestamp_wrap : after (exec .timestampWrap { up with clk := { ts := 2 ^ 64 - 1, epoch := 4 } }) (·.clk.epoch) 0 = 5 := by decide +kernel

/-- IDCODE (R378). -/
theorem test_idcode : after (exec .jtagIdcode State.reset) (·.test.dr) 0 = 0x10512A6B := by decide +kernel

/-- A TARGET above 0x30 is stored as 0x30 (Table 2.3). -/
theorem test_vcore_target : after (exec (.vcoreTargetWrite 0x31) up) (·.vc.target) 0 = 0x30 ∧ after (exec (.vcoreTargetWrite 0x28) up) (·.vc.target) 0 = 0x28 := by decide +kernel

/-- A step takes the front of the queue, and an empty queue idles. -/
theorem test_step_queue :
    after (step { up with pending := [.jtagIdcode, .jtagBypass] }) (·.pending) [] = [.jtagBypass] ∧ after (step up) (·.pending) [.tickToken] = [] := by decide +kernel

/-! ## Witnesses -/

/-- The hypotheses of each clause of FeedAndPowerSequenceRows can be met together. -/
theorem witness_FeedAndPowerSequenceRows :
  (∃ (vin : BitVec 16),
    (4700 ≤ vin.toNat)) ∧
  (∃ (s : State) (b : Bool) (vin : BitVec 16),
    (vin.toNat < 4600) ∧ ((s.feed (!b)).present = true)) ∧
  (∃ (s : State),
    (s.pwr.stage = .good)) ∧
  (∃ (s : State) (low : Nat),
    (s.pwr.stage = .dark) ∧ (s.pwr.pwrEn = false) ∧ (s.fed = true) ∧ (1000 ≤ low)) ∧
  (∃ (low : Nat),
    (low < 1000)) ∧
  (∃ (s : State),
    (s.pwr.stage = .rising .vaux)) ∧
  (∃ (s : State),
    (s.pwr.stage = .rising .vphy)) ∧
  (∃ (s : State),
    (s.pwr.stage = .rising .vdram)) ∧
  (∃ (s : State),
    (s.pwr.stage = .rising .vcore)) ∧
  (∃ (s : State) (us : Nat),
    (s.pwr.pwrGood = true) ∧ (1000 ≤ us)) ∧
  (∃ (us : Nat),
    (us < 1000)) ∧
  (∃ (s : State) (r : Rail),
    (s.pwr.stage = .rising r)) ∧
  (∃ (s : State) (r : Rail),
    (s.pwr.stage = .good) ∧ (r ≠ .vaux)) ∧
  (∃ (s : State),
    (s.pwr.stage = .good) ∧ (s.pwr.resetN = true)) ∧
  (∃ (s : State),
    (s.pwr.stage = .good) ∧ (s.pwr.resetN = false)) ∧
  (∃ (s : State),
    (s.pwr.stage = .holdup)) ∧
  (∃ (s : State) (a : BitVec 8) (b : BitVec 8) (c : BitVec 8) (d : BitVec 8) (e : BitVec 8),
    (s.pwr.stage = .good) ∧ (115 ≤ a.toNat ∨ 115 ≤ b.toNat ∨ 115 ≤ c.toNat ∨ 110 ≤ d.toNat ∨ 65 ≤ e.toNat)) ∧
  (∃ (s : State),
    (s.pwr.stage = .tripped) ∧ (s.pwr.pwrEn = false)) := by
  refine
      ⟨⟨4700, ?_⟩,
      ⟨State.reset, true, 4599, ?_, ?_⟩,
      ⟨up, ?_⟩,
      ⟨({ up with pwr.stage := .dark, pwr.pwrEn := false }), 1000, ?_, ?_, ?_, ?_⟩,
      ⟨999, ?_⟩,
      ⟨({ State.reset with pwr.stage := .rising .vaux }), ?_⟩,
      ⟨({ State.reset with pwr.stage := .rising .vphy }), ?_⟩,
      ⟨({ State.reset with pwr.stage := .rising .vdram }), ?_⟩,
      ⟨({ State.reset with pwr.stage := .rising .vcore }), ?_⟩,
      ⟨State.reset, 1000, ?_, ?_⟩,
      ⟨999, ?_⟩,
      ⟨({ State.reset with pwr.stage := .rising .vphy }), .vphy, ?_⟩,
      ⟨up, .vphy, ?_, ?_⟩,
      ⟨({ up with pwr.resetN := true }), ?_, ?_⟩,
      ⟨({ up with pwr.resetN := false }), ?_, ?_⟩,
      ⟨({ up with pwr.stage := .holdup }), ?_⟩,
      ⟨up, 115, 0, 0, 0, 0, ?_, ?_⟩,
      ⟨({ State.reset with pwr.stage := .tripped, pwr.pwrEn := false, pwr.thermTripN := false }), ?_, ?_⟩⟩ <;>
    first | decide +kernel | exact ⟨by decide +kernel, by decide +kernel, by decide +kernel⟩ | rfl | exact ⟨_, rfl⟩

/-- The hypotheses of each clause of VcoreAndWindowRows can be met together. -/
theorem witness_VcoreAndWindowRows :
  (∃ (s : State),
    (s.up = true)) ∧
  (∃ (s : State) (c : Hdr),
    (s.accepts 0x0505 c)) ∧
  (∃ (s : State),
    (s.up = true) ∧ (s.vc.rail.toNat < s.vc.settle.actual.toNat)) ∧
  (∃ (s : State),
    (s.up = true) ∧ (s.vc.settle.actual.toNat < s.vc.rail.toNat)) ∧
  (∃ (s : State) (r : Readings),
    (s.up = true) ∧ (r.rate.length = 4) ∧ (r.tj.length = 4)) := by
  refine
      ⟨⟨up, ?_⟩,
      ⟨up, (hd 1), ?_⟩,
      ⟨({ up with vc.rail := 0x1F }), ?_, ?_⟩,
      ⟨({ up with vc.rail := 0x21 }), ?_, ?_⟩,
      ⟨up, ({ rate := [1, 2, 3, 4], tj := [1, 2, 3, 4], ceil := 0x30, pin := 7, iinA := 8, iinB := 9, vinA := 4700, vinB := 4700, tIn := 1, tOut := 2 }), ?_, ?_, ?_⟩⟩ <;>
    first | decide +kernel | exact ⟨by decide +kernel, by decide +kernel, by decide +kernel⟩ | rfl | exact ⟨_, rfl⟩

/-- The hypotheses of each clause of TimeBaseAndHeartbeatRows can be met together. -/
theorem witness_TimeBaseAndHeartbeatRows :
  (∃ (s : State),
    (s.vauxUp = true) ∧ (2 ^ 64 ≤ s.clk.ts.toNat + 1000)) ∧
  (∃ (s : State),
    (s.clk.ts.toNat + 1000 < 2 ^ 64)) ∧
  (∃ (s : State),
    (s.up = true) ∧ (s.zilUp = true) ∧ (s.boot.rowLost = false)) ∧
  (∃ (s : State),
    (s.up = true) ∧ (1000 ≤ s.sl.quiet)) ∧
  (∃ (s : State),
    (s.sl.quiet < 1000)) ∧
  (∃ (s : State),
    (s.up = true)) ∧
  (∃ (s : State),
    (s.up = true)) ∧
  (∃ (s : State),
    (s.up = true) ∧ (s.vc.piece = some 0)) ∧
  (∃ (s : State),
    (s.vc.piece ≠ some 0)) ∧
  (∃ (s : State),
    (s.vauxUp = true)) ∧
  (∃ (s : State),
    (s.up = true) ∧ (s.pf.again = true) ∧ (s.pf.busy = false) ∧ (s.pfTooSoon = false)) ∧
  (∃ (s : State) (b : BitVec 12) (r : Bib),
    (s.up = true) ∧ (s.bibs.recs = [(BitVec.toNat (w := 12) b, r)])) := by
  refine
      ⟨⟨({ up with clk.ts := 0xFFFFFFFFFFFFFFFF }), ?_, ?_⟩,
      ⟨up, ?_⟩,
      ⟨up, ?_, ?_, ?_⟩,
      ⟨({ up with sl.quiet := 1000 }), ?_, ?_⟩,
      ⟨up, ?_⟩,
      ⟨up, ?_⟩,
      ⟨up, ?_⟩,
      ⟨({ up with vc.piece := some 0 }), ?_, ?_⟩,
      ⟨up, ?_⟩,
      ⟨({ up with clk.ts := 0xFFFFFFFFFFFFFFFF }), ?_⟩,
      ⟨({ up with pf.again := true }), ?_, ?_, ?_, ?_⟩,
      ⟨({ up with bibs.recs := [(3, {})] }), 3, ({}), ?_, ?_⟩⟩ <;>
    first | decide +kernel | exact ⟨by decide +kernel, by decide +kernel, by decide +kernel⟩ | rfl | exact ⟨_, rfl⟩

/-- The hypotheses of each clause of RegisterWriteFollowsAccessCodes can be met together. -/
theorem witness_RegisterWriteFollowsAccessCodes :
  (∃ (s : State),
    (s.up = true)) ∧
  (∃ (s : State) (p : Nat),
    (s.up = true) ∧ (p < 104)) ∧
  (∃ (s : State) (c : Nat),
    (s.up = true) ∧ (c < 256)) ∧
  (∃ (s : State) (i : Nat),
    (s.up = true) ∧ (i < 8)) ∧
  (∃ (s : State),
    (s.up = true)) ∧
  (∃ (off : BitVec 32),
    (0x20000 ≤ off.toNat)) := by
  refine
      ⟨⟨up, ?_⟩,
      ⟨up, 103, ?_, ?_⟩,
      ⟨up, 255, ?_, ?_⟩,
      ⟨({ up with mem.stks := [(7, { second := true })] }), 7, ?_, ?_⟩,
      ⟨up, ?_⟩,
      ⟨0x20000, ?_⟩⟩ <;>
    first | decide +kernel | exact ⟨by decide +kernel, by decide +kernel, by decide +kernel⟩ | rfl | exact ⟨_, rfl⟩

/-- The hypotheses of each clause of RcFieldReadAndFieldWriteRows can be met together. -/
theorem witness_RcFieldReadAndFieldWriteRows :
  (∃ (s : State) (k : Nat),
    (s.up = true) ∧ (k < 4)) ∧
  (∃ (s : State) (d : Nat),
    (s.up = true) ∧ (d < 4)) ∧
  (∃ (s : State),
    (s.up = true)) ∧
  (∃ (s : State),
    (s.up = true)) ∧
  (∃ (s : State) (p : Nat),
    (s.up = true) ∧ (p < 104)) ∧
  (∃ (off : BitVec 32),
    (0x20000 ≤ off.toNat)) ∧
  (∃ (s : State) (cfg : BitVec 4),
    (s.up = true) ∧ (cfg ≠ 0) ∧ (cfg.toNat ≤ 5)) ∧
  (∃ (s : State) (cfg : BitVec 4),
    (s.up = true) ∧ (cfg = 0 ∨ 5 < cfg.toNat)) ∧
  (∃ (s : State),
    (s.up = true)) ∧
  (∃ (s : State) (c : BitVec 8) (d : Domain),
    (s.up = true) ∧ (s.domain c.toNat = some d) ∧ (d.running = true)) ∧
  (∃ (s : State) (c : BitVec 8),
    (s.up = true) ∧ (s.domain c.toNat = none)) ∧
  (∃ (s : State),
    (s.up = true) ∧ (s.pf.busy = false) ∧ (s.pfTooSoon = false)) ∧
  (∃ (s : State) (c : BitVec 8) (k : Course),
    (s.up = true) ∧ (s.course c.toNat = some k)) ∧
  (∃ (s : State) (c : BitVec 8) (g : BitVec 14) (sr : BitVec 4) (w : BitVec 2) (po : BitVec 2) (f : BitVec 4) (x : ScaleRec),
    (s.up = true) ∧ (s.scaleRec c.toNat g.toNat = some x) ∧ (s.crs.domains = []) ∧ (sr.toNat ≤ 12) ∧ (w ≠ 3) ∧ (po.toNat ≤ 1) ∧ (f ≠ 0) ∧ (f.toNat ≤ 5) ∧ (¬(po = 1 ∧ f = 2))) ∧
  (∃ (s : State) (c : BitVec 8) (g : BitVec 14) (sr : BitVec 4) (w : BitVec 2) (x : ScaleRec),
    (s.up = true) ∧ (s.scaleRec c.toNat g.toNat = some x) ∧ (sr.toNat ≤ 12) ∧ (w ≠ 3)) := by
  refine
      ⟨⟨up, 3, ?_, ?_⟩,
      ⟨({ up with mem.near := [(3, { tjMax := 9 })] }), 3, ?_, ?_⟩,
      ⟨({ up with pwr.modPwr.pinMax := 5 }), ?_⟩,
      ⟨({ up with pwr.modPwr.pinMax := 5 }), ?_⟩,
      ⟨({ up with mem.near := [(3, { tjMax := 9 })] }), 20, ?_, ?_⟩,
      ⟨0x20000, ?_⟩,
      ⟨up, 5, ?_, ?_, ?_⟩,
      ⟨up, 6, ?_, ?_⟩,
      ⟨up, ?_⟩,
      ⟨({ up with crs.domains := [(2, { bib := 3, running := true, run := [0], s := 1 })] }), 2, ({ bib := 3, running := true, run := [0], s := 1 }), ?_, ?_, ?_⟩,
      ⟨({ up with crs.holds := [(2, { pause := true })] }), 2, ?_, ?_⟩,
      ⟨up, ?_, ?_, ?_⟩,
      ⟨({ up with crs.courses := [(2, course0)] }), 2, course0, ?_, ?_⟩,
      ⟨({ up with crs.courses := [(2, course0)], crs.scales := [(3 * 16384 + 9, {})], crs.domains := [] }), 2, 9, 12, 2, 1, 5, ({}), ?_, ?_, ?_, ?_, ?_, ?_, ?_, ?_, ?_⟩,
      ⟨({ up with crs.courses := [(2, course0)], crs.scales := [(3 * 16384 + 9, {})], crs.domains := [] }), 2, 9, 12, 2, ({}), ?_, ?_, ?_, ?_⟩⟩ <;>
    first | decide +kernel | exact ⟨by decide +kernel, by decide +kernel, by decide +kernel⟩ | rfl | exact ⟨_, rfl⟩

/-- The hypotheses of each clause of HelloAgreesOnVersionOne can be met together. -/
theorem witness_HelloAgreesOnVersionOne :
  (∃ (s : State) (c : Hdr) (low : BitVec 8) (high : BitVec 8),
    (s.accepts 0x0001 c) ∧ (low.toNat ≤ 1) ∧ (1 ≤ high.toNat)) ∧
  (∃ (s : State) (c : Hdr) (low : BitVec 8) (high : BitVec 8),
    (s.accepts 0x0001 c) ∧ (1 < low.toNat ∨ high = 0)) ∧
  (∃ (s : State) (c : Hdr),
    (s.accepts 0x0002 c)) := by
  refine
      ⟨⟨(bib3 .admitted), (hd 1), 1, 1, ?_, ?_, ?_⟩,
      ⟨(bib3 .admitted), (hd 0 3), 2, 3, ?_, ?_⟩,
      ⟨(bib3 .admitted), (hd 0 3), ?_⟩⟩ <;>
    first | decide +kernel | exact ⟨by decide +kernel, by decide +kernel, by decide +kernel⟩ | rfl | exact ⟨_, rfl⟩

/-- The hypotheses of each clause of RecordCommandsAnswer can be met together. -/
theorem witness_RecordCommandsAnswer :
  (∃ (s : State) (c : Hdr) (n : Nat),
    (s.accepts 0x0003 c) ∧ (n ≤ 128) ∧ (c.bib = 0 ∨ (s.keysOf c.bib).ke ≠ none)) ∧
  (∃ (s : State) (c : Hdr) (n : Nat),
    (s.accepts 0x0003 c) ∧ (128 < n)) ∧
  (∃ (s : State) (c : Hdr),
    (s.accepts 0x0004 c)) ∧
  (∃ (s : State) (c : Hdr) (tag : BitVec 32),
    (s.accepts 0x0006 c) ∧ ((∀ r ∈ s.cmd.kept.read [] (keptKey c), r.tag ≠ tag))) ∧
  (∃ (s : State) (c : Hdr) (tag : BitVec 32) (r : Reply),
    (s.accepts 0x0006 c) ∧ ((s.cmd.kept.read [] (keptKey c)).reverse.find? (fun x => x.tag = tag) = some r)) ∧
  (∃ (s : State) (c : Hdr),
    (s.accepts 0x0007 c) ∧ ((∀ k r, (k, r) ∈ s.bibs.recs → r.state = .free ∨ r.state = .clearing))) ∧
  (∃ (s : State) (c : Hdr) (k : Nat) (r : Bib),
    (s.accepts 0x0007 c) ∧ ((k, r) ∈ s.bibs.recs) ∧ (r.state = .admitted ∨ r.state = .running ∨ r.state = .suspended)) ∧
  (∃ (s : State) (c : Hdr) (names : List (BitVec 16)),
    (s.accepts 0x0005 c) ∧ ((∀ n ∈ names, isCounter n.toNat = true)) ∧ (s.pf.busy = false) ∧ (s.pfTooSoon = false)) := by
  refine
      ⟨⟨up, (hd 1), 128, ?_, ?_, ?_⟩,
      ⟨up, (hd 1), 129, ?_, ?_⟩,
      ⟨({ up with log.ring := [(4, { ts := 0, epoch := 0, index := 4, ev := { arg := .keyRotate false 0 0 0 } }), (5, { ts := 0, epoch := 0, index := 5, ev := { arg := .keyRotate false 0 0 0 } })], log.next := 6 }), (hd 1), ?_⟩,
      ⟨up, (hd 1), 7, ?_, ?_⟩,
      ⟨({ up with cmd.kept := [(keptKey (hd 1), [rep0])] }), (hd 1), 7, rep0, ?_, ?_⟩,
      ⟨(bib3 .clearing), ({ path := .i3c, role := 2 }), ?_, ?_⟩,
      ⟨(bib3 .suspended), ({ path := .i3c, role := 2 }), 3, ({ state := .suspended }), ?_, ?_, ?_⟩,
      ⟨up, (hd 1), ([]), ?_, ?_, ?_, ?_⟩⟩ <;>
    first | decide +kernel | exact ⟨by decide +kernel, by decide +kernel, by decide +kernel⟩ | rfl | exact ⟨_, rfl⟩ | (intro k r h; obtain ⟨rfl, rfl⟩ := Prod.mk.inj (List.mem_singleton.mp h); decide)

/-- The hypotheses of each clause of PacketChecks can be met together. -/
theorem witness_PacketChecks :
  (∃ (i : Instr) (s : State) (c : Hdr) (op : Nat) (st : Status),
    (i.packet = some c) ∧ (i.opcode = some op) ∧ (s.serves op c.path = true) ∧ (pathTakes c.path c.role = true) ∧ (s.firstFailure op c = some st)) ∧
  (∃ (i : Instr) (s : State) (c : Hdr) (op : Nat),
    (i.packet = some c) ∧ (i.opcode = some op) ∧ (s.serves op c.path = true) ∧ (pathTakes c.path c.role = false)) ∧
  (∃ (i : Instr) (s : State) (c : Hdr) (op : Nat),
    (i.packet = some c) ∧ (i.opcode = some op) ∧ (s.serves op c.path = false)) := by
  refine
      ⟨⟨(.seeds (hd 1) []), up, (hd 1), 0x0104, .auth, ?_, ?_, ?_, ?_, ?_⟩,
      ⟨(.identity (hd 2)), up, (hd 2), 2, ?_, ?_, ?_, ?_⟩,
      ⟨(.identity (hd 1)), State.reset, (hd 1), 2, ?_, ?_, ?_⟩⟩ <;>
    first | decide +kernel | exact ⟨by decide +kernel, by decide +kernel, by decide +kernel⟩ | rfl | exact ⟨_, rfl⟩

/-- The hypotheses of each clause of IntakePathRows can be met together. -/
theorem witness_IntakePathRows :
  (∃ (s : State) (b : BitVec 12),
    (s.up = true) ∧ (s.boot.ready = true) ∧ ((s.bib b).args.vf ≠ 0) ∧ ((s.bib b).state ≠ .free) ∧ ((s.bib b).state ≠ .clearing) ∧ (s.cmd.polled = false) ∧ ((s.ring b).interval ≤ (s.ring b).ticks)) ∧
  (∃ (s : State) (b : BitVec 12),
    ((s.ring b).ticks < (s.ring b).interval ∨ s.cmd.polled = true)) ∧
  (∃ (s : State) (b : BitVec 12) (k : Seal) (h : Hdr),
    (s.up = true) ∧ ((s.ring b).asked = true) ∧ (s.cmd.paused = false) ∧ (((s.ring b).posted - (s.ring b).rdone).toNat < 64) ∧ (s.waitingOf b < 16) ∧ ((s.ring b).isNew b k = true) ∧ (h.role = 0) ∧ (h.pver = 1) ∧ (s.sealCheck b k = .accept) ∧ (opRoles h.opcode.toNat ≠ []) ∧ (h.bib = b) ∧ (s.firstFailure h.opcode.toNat { h with path := .host } = none)) ∧
  (∃ (s : State) (b : BitVec 12) (rep : Reply),
    (s.up = true) ∧ (s.nextReply b = some rep) ∧ (((s.ring b).posted - (s.ring b).rdone).toNat < 64)) ∧
  (∃ (s : State),
    (s.up = true)) ∧
  (∃ (s : State) (p : Fin 2) (h : Hdr),
    (s.up = true) ∧ (s.boot.ready = true) ∧ (s.ethUsed p.val < 4096) ∧ (h.role = 1) ∧ (h.pver = 1) ∧ (s.operatorOk h true = true) ∧ (s.firstFailure h.opcode.toNat { h with path := .eth p } = none)) ∧
  (∃ (s : State) (p : Fin 2),
    (s.up = true) ∧ (s.boot.ready = false ∨ 4096 ≤ s.ethUsed p.val)) ∧
  (∃ (s : State) (p : Fin 2) (h : Hdr),
    (s.up = true) ∧ (s.boot.ready = true) ∧ (s.ethUsed p.val < 4096) ∧ (h.role = 1) ∧ (h.pver = 1)) ∧
  (∃ (s : State) (h : Hdr),
    (s.up = true) ∧ (s.serves h.opcode.toNat .i3c = true) ∧ (h.role = 2) ∧ (s.firstFailure h.opcode.toNat { h with path := .i3c } = none)) := by
  refine
      ⟨⟨({ bib3 .admitted { vf := 1 } with cmd.rings := [(3, { ticks := 1000, idle := 10000 })] }), 3, ?_, ?_, ?_, ?_, ?_, ?_, ?_⟩,
      ⟨up, 3, ?_⟩,
      ⟨({ bib3 .admitted { vf := 1 } with cmd.rings := [(3, { asked := true })], bibs.keys := [(3, { host := some 1 })] }), 3, seal0, ({ bib := 3, opcode := 2 }), ?_, ?_, ?_, ?_, ?_, ?_, ?_, ?_, ?_, ?_, ?_, ?_⟩,
      ⟨({ up with cmd.outbox := [{ rep0 with path := .host, bib := 3 }] }), 3, ({ rep0 with path := .host, bib := 3 }), ?_, ?_, ?_⟩,
      ⟨up, ?_⟩,
      ⟨({ up with cmd.opkey := some 5 }), 1, ({ role := 1, opcode := 2, oseq := 9 }), ?_, ?_, ?_, ?_, ?_, ?_, ?_⟩,
      ⟨({ up with boot.ready := false }), 1, ?_, ?_⟩,
      ⟨up, 1, ({ role := 1 }), ?_, ?_, ?_, ?_, ?_⟩,
      ⟨up, ({ role := 2, opcode := 2 }), ?_, ?_, ?_, ?_⟩⟩ <;>
    first | decide +kernel | exact ⟨by decide +kernel, by decide +kernel, by decide +kernel⟩ | rfl | exact ⟨_, rfl⟩

/-- The hypotheses of each clause of AdmitQuotaAndSeeds can be met together. -/
theorem witness_AdmitQuotaAndSeeds :
  (∃ (s : State) (c : Hdr) (a : BibArgs),
    (s.accepts 0x0101 c) ∧ (inRange a = true) ∧ (s.test.unlocked = none) ∧ (s.quotasFit c.bib a = true) ∧ (s.vfTaken c.bib a = false)) ∧
  (∃ (s : State) (c : Hdr) (a : BibArgs),
    (s.accepts 0x0101 c) ∧ (inRange a = true) ∧ (s.test.unlocked = none) ∧ (s.quotasFit c.bib a = false)) ∧
  (∃ (s : State) (b : BitVec 12),
    (s.up = true) ∧ ((s.keysOf b).kemDue = true)) ∧
  (∃ (s : State) (c : Hdr) (a : BibArgs),
    (s.accepts 0x0103 c) ∧ (inRange a = true) ∧ (s.quotasFit c.bib a = true) ∧ (a.t2Quota ≤ (s.bib c.bib).args.t2Quota)) ∧
  (∃ (s : State) (c : Hdr) (a : BibArgs),
    (s.accepts 0x0103 c) ∧ (inRange a = true) ∧ (s.quotasFit c.bib a = true) ∧ ((s.bib c.bib).args.t2Quota < a.t2Quota)) ∧
  (∃ (s : State) (c : Hdr) (set : List (BitVec 64)),
    (s.accepts 0x0104 c) ∧ (set.length = 16) ∧ (s.runningOf c.bib = [])) ∧
  (∃ (s : State) (c : Hdr) (set : List (BitVec 64)),
    (s.accepts 0x0104 c) ∧ (set.length = 16) ∧ (s.runningOf c.bib ≠ [])) := by
  refine
      ⟨⟨up, (hd 1 3), ({ t2Quota := 5, t1Quota0 := 4096 }), ?_, ?_, ?_, ?_, ?_⟩,
      ⟨up, (hd 1 3), ({ t2Quota := 0x3FFFF }), ?_, ?_, ?_, ?_⟩,
      ⟨({ bib3 .admitted with bibs.keys := [(3, { kemDue := true })] }), 3, ?_, ?_⟩,
      ⟨(bib3 .running { t2Quota := 5 }), (hd 1 3), ({ t2Quota := 5, sMin := 96, prio := 2 }), ?_, ?_, ?_, ?_⟩,
      ⟨({ bib3 .running { t2Quota := 5 } with crs.courses := [(2, course0)], crs.holds := [(2, { cause := 0x20 })] }), (hd 1 3), ({ t2Quota := 6 }), ?_, ?_, ?_, ?_⟩,
      ⟨(bib3 .running), (hd 0 3), ([1, 2, 3, 4, 5, 6, 7, 8, 9, 10, 11, 12, 13, 14, 15, 16]), ?_, ?_, ?_⟩,
      ⟨({ bib3 .running with crs.domains := [(2, dom0)] }), (hd 0 3), ([1, 2, 3, 4, 5, 6, 7, 8, 9, 10, 11, 12, 13, 14, 15, 16]), ?_, ?_, ?_⟩⟩ <;>
    first | decide +kernel | exact ⟨by decide +kernel, by decide +kernel, by decide +kernel⟩ | rfl | exact ⟨_, rfl⟩

/-- The hypotheses of each clause of KeyRows can be met together. -/
theorem witness_KeyRows :
  (∃ (s : State) (c : Hdr) (w : WrappedKey) (dk : BitVec 256) (j : Nat),
    (s.accepts 0x0102 c) ∧ ((s.keysOf c.bib).dk = some dk) ∧ (w.wver = 1) ∧ (w.rsv = 0) ∧ (w.bib = c.bib) ∧ (w.tagOk = true) ∧ (s.keyJob c.bib w = some j)) ∧
  (∃ (s : State) (c : Hdr) (w : WrappedKey) (dk : BitVec 256) (j : Nat),
    (s.accepts 0x0102 c) ∧ ((s.keysOf c.bib).dk = some dk) ∧ (w.wver = 1) ∧ (w.rsv = 0) ∧ (w.bib = c.bib) ∧ (w.tagOk = false) ∧ (s.keyJob c.bib w = some j)) ∧
  (∃ (s : State) (c : Hdr) (ke : BitVec 256),
    (s.accepts 0x0105 c) ∧ ((s.bib c.bib).rotating = false) ∧ ((s.keysOf c.bib).ke = some ke)) ∧
  (∃ (s : State) (b : BitVec 12) (ke : BitVec 256),
    (s.up = true) ∧ ((s.bib b).state = .admitted ∨ (s.bib b).state = .running ∨ (s.bib b).state = .suspended) ∧ ((s.bib b).rotating = false) ∧ ((s.keysOf b).ke = some ke)) ∧
  (∃ (s : State) (b : BitVec 12) (k : Nat) (h : TileHdr),
    (s.up = true) ∧ ((s.bib b).rotating = true) ∧ ((s.bib b).state = .running) ∧ (s.oldTile b 3 = some (k, h))) ∧
  (∃ (s : State) (b : BitVec 12) (p : Nat) (u : UnitTag),
    (s.up = true) ∧ ((s.bib b).rotating = true) ∧ ((s.bib b).state = .running) ∧ (s.oldUnit b = some (p, u)) ∧ (s.lodgeReadOnly = false)) ∧
  (∃ (s : State) (b : BitVec 12),
    (s.up = true) ∧ ((s.bib b).rotating = true) ∧ ((s.bib b).state = .running) ∧ ((s.keysOf b).due = false) ∧ ((∀ i, i < 9 → s.items b (!(s.bib b).curEpoch) i = 0))) ∧
  (∃ (s : State) (job : BitVec 8) (jb : Job) (k : BitVec 256),
    (s.up = true) ∧ (s.sl.jobs.lookup job.toNat = some jb) ∧ (jb.rotating = false) ∧ (jb.oldLive = false) ∧ (s.bibs.linkKeys.lookup (2 * job.toNat + jb.kepoch.toNat) = some k)) := by
  refine
      ⟨⟨({ bib3 .admitted with bibs.keys := [(3, { dk := some 4, ek := some 6, gen := 9 })], sl.jobs := [(15, job0)], bibs.replay := [(3, { h := 9 })] }), (hd 0 3), (wrap0 true), 4, 15, ?_, ?_, ?_, ?_, ?_, ?_, ?_⟩,
      ⟨({ bib3 .admitted with bibs.keys := [(3, { dk := some 4, ek := some 6 })], sl.jobs := [(15, job0)], bibs.linkKeys := [(30, 8)] }), (hd 0 3), (wrap0 false), 4, 15, ?_, ?_, ?_, ?_, ?_, ?_, ?_⟩,
      ⟨({ bib3 .running with bibs.keys := [(3, { ke := some 4, data0 := some 8 })] }), (hd 0 3), 4, ?_, ?_, ?_⟩,
      ⟨({ bib3 .running with bibs.keys := [(3, { ke := some 4, data0 := some 8 })] }), 3, 4, ?_, ?_, ?_, ?_⟩,
      ⟨({ bib3 .running with bibs.recs := [(3, { state := .running, rotating := true })], mem.hdrs := [(tileKey { bib := 3, tensor := 1, tile := 0 }, { id := { bib := 3, tensor := 1, tile := 0 }, prot := true, epoch := true, home := { tier := 2, off := 0x3000000000 } })] }), 3, (tileKey { bib := 3, tensor := 1, tile := 0 }), ({ id := { bib := 3, tensor := 1, tile := 0 }, prot := true, epoch := true, home := { tier := 2, off := 0x3000000000 } }), ?_, ?_, ?_, ?_⟩,
      ⟨({ up with bibs.recs := [(3, { state := .running, rotating := true })], lodge.map := [(4, { ch := 1, die := 2, blk := 3, wl := 4, pg := 1 })], lodge.tags := [(placeKey { ch := 1, die := 2, blk := 3, wl := 4, pg := 1 }, { cls := 1, epoch := true, prot := true, bib := 3, lun := 4, seq := 2 })] }), 3, (placeKey { ch := 1, die := 2, blk := 3, wl := 4, pg := 1 }), ({ cls := 1, epoch := true, prot := true, bib := 3, lun := 4, seq := 2 }), ?_, ?_, ?_, ?_, ?_⟩,
      ⟨({ up with bibs.recs := [(3, { state := .running, rotating := true, curEpoch := true })], bibs.keys := [(3, { ke := some 4, data0 := some 3, data1 := some 5, gen := 1 })] }), 3, ?_, ?_, ?_, ?_, ?_⟩,
      ⟨({ up with sl.jobs := [(255, job0)], bibs.linkKeys := [(510, 6)] }), 255, job0, 6, ?_, ?_, ?_, ?_, ?_⟩⟩ <;>
    first | decide +kernel | exact ⟨by decide +kernel, by decide +kernel, by decide +kernel⟩ | rfl | exact ⟨_, rfl⟩

/-- The hypotheses of each clause of MapWritesThePageTable can be met together. -/
theorem witness_MapWritesThePageTable :
  (∃ (s : State) (c : Hdr) (a : MapArgs),
    (s.accepts 0x0108 c) ∧ (a.map = true) ∧ (a.shared = []) ∧ (a.count = 1) ∧ (a.page.toNat + 1 ≤ 2 ^ 27) ∧ (a.tier = 1 ∨ a.tier = 2) ∧ (a.owner ≠ 0) ∧ ((s.bib a.owner).state = .running) ∧ ((s.pte a.owner a.page.toNat).state = 0) ∧ (s.frameFree a.tier.toNat a.frame.toNat = true) ∧ ((s.quotaBib a.owner).quotaFor a.tier.toNat a.frame.toNat = true) ∧ ((∀ e ∈ s.crs.courses, e.2.bib ≠ a.owner))) ∧
  (∃ (s : State) (c : Hdr) (a : MapArgs),
    (s.accepts 0x0108 c) ∧ (a.map = true) ∧ (a.shared = []) ∧ (a.count = 1) ∧ (a.page.toNat + 1 ≤ 2 ^ 27) ∧ (a.tier = 1 ∨ a.tier = 2) ∧ (a.owner ≠ 0) ∧ ((s.bib a.owner).state = .running) ∧ ((s.pte a.owner a.page.toNat).state = 0) ∧ (s.frameFree a.tier.toNat a.frame.toNat = true) ∧ ((s.quotaBib a.owner).quotaFor a.tier.toNat a.frame.toNat = false)) := by
  refine
      ⟨⟨(bib3 .running { t2Quota := 1 }), (hd 1), ({ map := true, owner := 3, page := 0x7FFFFFF, count := 1, tier := 2, frame := 9, wr := true, prot := true, shared := [] }), ?_, ?_, ?_, ?_, ?_, ?_, ?_, ?_, ?_, ?_, ?_, ?_⟩,
      ⟨(bib3 .running), (hd 1), ({ map := true, owner := 3, page := 5, count := 1, tier := 2, frame := 9, wr := true, prot := true, shared := [] }), ?_, ?_, ?_, ?_, ?_, ?_, ?_, ?_, ?_, ?_, ?_⟩⟩ <;>
    first | decide +kernel | exact ⟨by decide +kernel, by decide +kernel, by decide +kernel⟩ | rfl | exact ⟨_, rfl⟩

/-- The hypotheses of each clause of ReleaseScrubAndResume can be met together. -/
theorem witness_ReleaseScrubAndResume :
  (∃ (s : State) (c : Hdr),
    (s.accepts 0x0107 c) ∧ (s.ownsShared c.bib = false)) ∧
  (∃ (s : State) (c : Hdr),
    (s.accepts 0x0107 c) ∧ (s.ownsShared c.bib = true)) ∧
  (∃ (s : State) (b : BitVec 12) (z : Scrub),
    (s.up = true) ∧ (s.bibs.scrubs.lookup b.toNat = some z) ∧ ((s.bib b).state = .clearing) ∧ (z.pages = false) ∧ (s.stillHeld b = false)) ∧
  (∃ (s : State) (b : BitVec 12) (z : Scrub),
    (s.up = true) ∧ (s.bibs.scrubs.lookup b.toNat = some z) ∧ (z.pages = true) ∧ (z.hdr.opcode ≠ 0)) ∧
  (∃ (s : State) (c : Hdr),
    (s.accepts 0x0106 c) ∧ (s.jobOf c.bib = none)) := by
  refine
      ⟨⟨({ bib3 .running with crs.courses := [(2, course0)], crs.domains := [(2, dom0)], lift.strm := [(4, { bib := 3, state := 1 }), (4095, { bib := 77, slot := 200, state := 1 })] }), (hd 1 3), ?_, ?_⟩,
      ⟨({ bib3 .running with mem.ptes := [(pageKey 3 8, { tier := 2, frame := 4, state := 1, shr := true }), (pageKey 4 8, { tier := 2, frame := 4, state := 1, shr := true })], mem.owners := [(frameKey 2 4, 3)], bibs.recs := [(3, { state := .running }), (4, { state := .running })] }), (hd 1 3), ?_, ?_⟩,
      ⟨(clearing0 false), 3, scrub0, ?_, ?_, ?_, ?_, ?_⟩,
      ⟨(clearing0 true), 3, ({ scrub0 with pages := true }), ?_, ?_, ?_, ?_⟩,
      ⟨(bib3 .suspended), (hd 1 3), ?_, ?_⟩⟩ <;>
    first | decide +kernel | exact ⟨by decide +kernel, by decide +kernel, by decide +kernel⟩ | rfl | exact ⟨_, rfl⟩

/-- The hypotheses of each clause of CourseCommandRows can be met together. -/
theorem witness_CourseCommandRows :
  (∃ (s : State) (c : Hdr) (va : BitVec 48) (len : BitVec 32) (ok : Bool),
    (s.accepts 0x0201 c) ∧ (let u := s.started 0x0201 c; u.vaFault c.bib va.toNat len.toNat false = none) ∧ (let u := s.started 0x0201 c; (∀ p ∈ pagesOf va.toNat len.toNat, (u.pte c.bib p).tier = 2)) ∧ (let u := s.started 0x0201 c; u.course c.slot.toNat = none) ∧ (let u := s.started 0x0201 c; u.crs.courses.length < 256) ∧ (let u := s.started 0x0201 c; let f := u.vaRead c.bib va.toNat len.toNat; let k := fileCourse f c.bib (u.jobM c.bib); u.loadFault f len.toNat k ok = none) ∧ (let u := s.started 0x0201 c; let f := u.vaRead c.bib va.toNat len.toNat; let k := fileCourse f c.bib (u.jobM c.bib); let r := (u.chargeHeaders (u.install c.slot.toNat k (sectionRecs f (fileSections f) 0x08)) c.bib).bib c.bib; r.t2Used ≤ r.args.t2Quota.toNat)) ∧
  (∃ (s : State) (c : Hdr) (va : BitVec 48) (len : BitVec 32) (ok : Bool) (st : Status),
    (s.accepts 0x0201 c) ∧ (let u := s.started 0x0201 c; u.vaFault c.bib va.toNat len.toNat false = none) ∧ (let u := s.started 0x0201 c; (∀ p ∈ pagesOf va.toNat len.toNat, (u.pte c.bib p).tier = 2)) ∧ (let u := s.started 0x0201 c; u.course c.slot.toNat = none) ∧ (let u := s.started 0x0201 c; u.crs.courses.length < 256) ∧ (let u := s.started 0x0201 c; let f := u.vaRead c.bib va.toNat len.toNat; u.loadFault f len.toNat (fileCourse f c.bib (u.jobM c.bib)) ok = some st)) ∧
  (∃ (s : State) (c : Hdr) (k : Course) (table : List Bool),
    (s.accepts 0x0205 c) ∧ (s.course c.slot.toNat = some k) ∧ (k.bib = c.bib) ∧ (table.length = k.binds.length)) ∧
  (∃ (s : State) (c : Hdr) (k : Course) (prog : BitVec 4) (ks : List (BitVec 40)),
    (s.accepts 0x0206 c) ∧ (s.course c.slot.toNat = some k) ∧ (k.bib = c.bib) ∧ (prog.toNat < k.progs.length) ∧ (ks.length = 16)) ∧
  (∃ (s : State) (c : Hdr) (k : Course),
    (s.accepts 0x0207 c) ∧ (s.course c.slot.toNat = some k) ∧ (k.bib = c.bib)) := by
  refine
      ⟨⟨(fileState file0), (hd 0 3 2), 0, 512, true, ?_, ?_, ?_, ?_, ?_, ?_, ?_⟩,
      ⟨(fileState []), (hd 0 3 2), 0, 512, true, .format, ?_, ?_, ?_, ?_, ?_, ?_⟩,
      ⟨({ bib3 .running with crs.courses := [(2, { course0 with binds := [0, 0] })] }), (hd 1 3 2), ({ course0 with binds := [0, 0] }), ([true, false]), ?_, ?_, ?_, ?_⟩,
      ⟨({ bib3 .running with crs.courses := [(2, { course0 with progs := [[], []] })] }), (hd 1 3 2), ({ course0 with progs := [[], []] }), 1, ([0, 1, 2, 3, 4, 5, 6, 7, 8, 9, 10, 11, 12, 13, 14, 15]), ?_, ?_, ?_, ?_, ?_⟩,
      ⟨({ bib3 .running with crs.courses := [(2, course0)] }), (hd 1 3 2), course0, ?_, ?_, ?_⟩⟩ <;>
    first | decide +kernel | exact ⟨by decide +kernel, by decide +kernel, by decide +kernel⟩ | rfl | exact ⟨_, rfl⟩

/-- The hypotheses of each clause of UnloadFreesTheCourse can be met together. -/
theorem witness_UnloadFreesTheCourse :
  (∃ (s : State) (c : Hdr) (k : Course),
    (s.accepts 0x0202 c) ∧ (s.course c.slot.toNat = some k) ∧ (k.bib = c.bib) ∧ (s.domain c.slot.toNat = none) ∧ ((∀ n ∈ k.gateMap, (s.gate n).waits = []))) ∧
  (∃ (s : State) (c : Hdr) (k : Course),
    (s.accepts 0x0202 c) ∧ (s.course c.slot.toNat = some k) ∧ (k.bib = c.bib) ∧ (((s.domain c.slot.toNat).isSome = true ∨ ∃ n ∈ k.gateMap, (s.gate n).waits ≠ []))) := by
  refine
      ⟨⟨({ (running1 1 0 dom0) with crs.domains := [], lkr.entries := [{ kind := 1, tier := 0, reads := 1, bib := 3, tensor := 3, unit := 4, mb := 5, home := 6, slot := 2, die := 1, size := 64, seq := 1}], crs.scales := [(2 * 16384 + 9, {})] }), (hd 0 3 2), (course1 1 0), ?_, ?_, ?_, ?_, ?_⟩,
      ⟨(running1 1 0 dom0), (hd 0 3 2), (course1 1 0), ?_, ?_, ?_, ?_⟩⟩ <;>
    first | decide +kernel | exact ⟨by decide +kernel, by decide +kernel, by decide +kernel⟩ | rfl | exact ⟨_, rfl⟩

/-- The hypotheses of each clause of RunRows can be met together. -/
theorem witness_RunRows :
  (∃ (s : State) (c : Hdr) (k : Course),
    (s.accepts 0x0203 c) ∧ (s.course c.slot.toNat = some k) ∧ (k.bib = c.bib) ∧ ((∀ e ∈ s.crs.domains, e.2.bib ≠ c.bib)) ∧ ((s.grant k (s.bib c.bib).args (s.barredFor s.crs.requests)).isSome = false)) ∧
  (∃ (s : State) (c : Hdr) (k : Course) (e : Nat × Domain),
    (s.accepts 0x0203 c) ∧ (s.course c.slot.toNat = some k) ∧ (k.bib = c.bib) ∧ (e ∈ s.crs.domains) ∧ (e.2.bib = c.bib)) ∧
  (∃ (s : State) (slot : BitVec 8) (r : RunReq) (k : Course) (d : Domain) (o : Offer),
    (s.up = true) ∧ (s.crs.requests.find? (fun r => r.slot = slot) = some r) ∧ (s.course slot.toNat = some k) ∧ (s.domain slot.toNat = some d) ∧ ((∀ x ∈ earlier s.crs.requests slot, s.couldMeet x = false)) ∧ ((s.bib r.bib).state = .admitted) ∧ (s.grant k (s.bib r.bib).args (s.barredFor (earlier s.crs.requests slot)) = some o)) ∧
  (∃ (s : State),
    (s.up = true)) ∧
  (∃ (s : State) (slot : BitVec 8) (k : Course) (d : Domain),
    (s.up = true) ∧ (s.course slot.toNat = some k) ∧ (s.domain slot.toNat = some d) ∧ (d.running = true) ∧ (d.live = []) ∧ (d.tokens = 0) ∧ (d.steps ≠ 0) ∧ (d.steps ≤ d.stepsDone) ∧ ((s.bib d.bib).state = .running)) ∧
  (∃ (s : State) (c : Hdr) (k : Course) (d : Domain),
    (s.accepts 0x0204 c) ∧ (s.course c.slot.toNat = some k) ∧ (k.bib = c.bib) ∧ (s.domain c.slot.toNat = some d)) := by
  refine
      ⟨⟨({ bib3 .admitted { carves := 0 } with crs.courses := [(2, course1 1 0)] }), (hd 0 3 2), (course1 1 0), ?_, ?_, ?_, ?_, ?_⟩,
      ⟨({ bib3 .admitted with crs.courses := [(2, course1 1 0)], crs.domains := [(9, { dom0 with running := false })] }), (hd 0 3 2), (course1 1 0), ((9, { dom0 with running := false })), ?_, ?_, ?_, ?_, ?_⟩,
      ⟨({ bib3 .admitted { carves := 4, sMin := 1 } with crs.courses := [(2, { course1 1 0 with hdr := rec_ [(351, 1), (355, 3), (353, 1)] })], crs.domains := [(2, { bib := 3, steps := 4 })], crs.requests := [{ slot := 2, bib := 3, prio := 0, waited := false }] }), 2, ({ slot := 2, bib := 3, prio := 0, waited := false }), ({ course1 1 0 with hdr := rec_ [(351, 1), (355, 3), (353, 1)] }), ({ bib := 3, steps := 4 }), ({ q := 0, run := [0, 1, 2] }), ?_, ?_, ?_, ?_, ?_, ?_, ?_⟩,
      ⟨({ bib3 .admitted with crs.requests := [{ slot := 2, bib := 3, prio := 0, waited := false }] }), ?_⟩,
      ⟨(running1 1 0 { dom0 with steps := 2, stepsDone := 2 }), 2, (course1 1 0), ({ dom0 with steps := 2, stepsDone := 2 }), ?_, ?_, ?_, ?_, ?_, ?_, ?_, ?_, ?_⟩,
      ⟨(running1 1 0 dom0), (hd 0 3 2), (course1 1 0), dom0, ?_, ?_, ?_, ?_⟩⟩ <;>
    first | decide +kernel | exact ⟨by decide +kernel, by decide +kernel, by decide +kernel⟩ | rfl | exact ⟨_, rfl⟩

/-- The hypotheses of each clause of SequencerRows can be met together. -/
theorem witness_SequencerRows :
  (∃ (s : State) (slot : BitVec 8) (seg : BitVec 20) (work : List Nat) (k : Course) (d : Domain),
    (s.up = true) ∧ (s.course slot.toNat = some k) ∧ (s.domain slot.toNat = some d) ∧ (s.mayRun slot.toNat = true) ∧ (d.next k = some seg.toNat) ∧ (sgPatchPoint (k.seg seg.toNat) = false ∨ s.leaving d = []) ∧ (sgFirst (k.seg seg.toNat) + sgS (k.seg seg.toNat) ≤ d.s) ∧ (d.workFits k work = true) ∧ (sgFence (k.seg seg.toNat) = false ∨ d.live = []) ∧ (d.live.has seg.toNat = false) ∧ (s.gateOpen k (sgWaitA (k.seg seg.toNat)) (d.passes.read 0 seg.toNat) = true) ∧ (s.gateOpen k (sgWaitB (k.seg seg.toNat)) (d.passes.read 0 seg.toNat) = true) ∧ (d.stationsFree k seg.toNat = true) ∧ (s.streamsOpen slot.toNat (k.seg seg.toNat) = true) ∧ (s.changeStops d = false) ∧ ((∀ r ∈ segOffsets (k.seg seg.toNat), d.run.getD r 0 ∉ s.leaving d))) ∧
  (∃ (s : State) (slot : BitVec 8) (seg : BitVec 20) (work : List Nat) (k : Course) (d : Domain),
    (s.up = true) ∧ (s.course slot.toNat = some k) ∧ (s.domain slot.toNat = some d) ∧ (s.mayRun slot.toNat = true) ∧ (d.bib = k.bib) ∧ (d.next k = some seg.toNat) ∧ (sgPatchPoint (k.seg seg.toNat) = false ∨ s.leaving d = []) ∧ (d.s < sgFirst (k.seg seg.toNat) + sgS (k.seg seg.toNat) ∨ d.workFits k work = false) ∧ (sgFence (k.seg seg.toNat) = false ∨ d.live = []) ∧ (d.live.has seg.toNat = false) ∧ (s.gateOpen k (sgWaitA (k.seg seg.toNat)) (d.passes.read 0 seg.toNat) = true) ∧ (s.gateOpen k (sgWaitB (k.seg seg.toNat)) (d.passes.read 0 seg.toNat) = true) ∧ (d.stationsFree k seg.toNat = true) ∧ (s.streamsOpen slot.toNat (k.seg seg.toNat) = true) ∧ (s.changeStops d = false) ∧ ((∀ r ∈ segOffsets (k.seg seg.toNat), d.run.getD r 0 ∉ s.leaving d))) ∧
  (∃ (s : State) (slot : BitVec 8) (seg : BitVec 20) (k : Course) (d : Domain) (l : LiveSeg),
    (s.up = true) ∧ (s.course slot.toNat = some k) ∧ (s.domain slot.toNat = some d) ∧ (d.live.lookup seg.toNat = some l) ∧ (d.running = true) ∧ (d.suspended = false) ∧ (l.allDone k seg.toNat = true)) ∧
  (∃ (s : State) (slot : BitVec 8) (k : Course) (d : Domain) (o : Nat) (rest : List Nat),
    (s.up = true) ∧ (s.course slot.toNat = some k) ∧ (s.domain slot.toNat = some d) ∧ (d.ends = o :: rest) ∧ (d.running = true) ∧ (d.suspended = false) ∧ (s.held slot.toNat = false) ∧ ((∀ e ∈ d.live, o < e.2.ord))) ∧
  (∃ (s : State) (slot : BitVec 8),
    (s.up = true) ∧ (s.held slot.toNat = true)) := by
  refine
      ⟨⟨(running1 1 0 dom0), 2, 0, ([]), (course1 1 0), dom0, ?_, ?_, ?_, ?_, ?_, ?_, ?_, ?_, ?_, ?_, ?_, ?_, ?_, ?_, ?_, ?_⟩,
      ⟨(running1 1 0 { dom0 with s := 0 }), 2, 0, ([]), (course1 1 0), ({ dom0 with s := 0 }), ?_, ?_, ?_, ?_, ?_, ?_, ?_, ?_, ?_, ?_, ?_, ?_, ?_, ?_, ?_, ?_⟩,
      ⟨({ running1 1 0 { dom0 with live := [(0, { live0 with done := [(0, 1)] })], passes := [(0, 1)] } with mem.hdrs := [(5, { hdr0 1 6 0 with wslot := 2, wact := true })] }), 2, 0, (course1 1 0), ({ dom0 with live := [(0, { live0 with done := [(0, 1)] })], passes := [(0, 1)] }), ({ live0 with done := [(0, 1)] }), ?_, ?_, ?_, ?_, ?_, ?_, ?_⟩,
      ⟨({ (running1 1 0 { dom0 with ends := [0] }) with bibs.seedsNext := [(3, [8])], lkr.entries := [{ kind := 1, tier := 0, reads := 1, bib := 3, tensor := 3, unit := 4, mb := 5, home := 6, slot := 2, die := 1, size := 64, seq := 1}] }), 2, (course1 1 0), ({ dom0 with ends := [0] }), 0, ([]), ?_, ?_, ?_, ?_, ?_, ?_, ?_, ?_⟩,
      ⟨({ (running1 1 0 dom0) with crs.holds := [(2, { cause := 1 })] }), 2, ?_, ?_⟩⟩ <;>
    first | decide +kernel | exact ⟨by decide +kernel, by decide +kernel, by decide +kernel⟩ | rfl | exact ⟨_, rfl⟩

/-- The hypotheses of each clause of UseRows can be met together. -/
theorem witness_UseRows :
  (∃ (s : State) (slot : BitVec 8) (seg : BitVec 20) (use : BitVec 24) (off : BitVec 7) (pass : BitVec 20) (x : UseExtra) (k : Course) (d : Domain) (l : LiveSeg) (fo : Fmt) (fs : Fmt) (fu : Fmt) (hs : TileHdr) (ho : Option TileHdr) (hu : Option TileHdr),
    (s.up = true) ∧ (s.course slot.toNat = some k) ∧ (s.domain slot.toNat = some d) ∧ (d.live.lookup (BitVec.toNat seg) = some l) ∧ (s.mayRun slot.toNat = true) ∧ (BitVec.toNat off < sgS (k.seg seg.toNat)) ∧ (l.nextUse k seg.toNat off.toNat = some (BitVec.toNat use, BitVec.toNat pass)) ∧ (let r := k.use use.toNat; let p := d.run.getD (sgFirst (k.seg seg.toNat) + off.toNat) 0; let ck := 4 * p + d.quarter; s.gateOpen k (usWait r) (d.usePass.read 0 (use.toNat * 128 + off.toNat) + ((s.usesOf ck).filter (fun u => u.slot = slot && u.use = use.toNat)).length) = true) ∧ (let r := k.use use.toNat; usStn r = 0x7F ∨ usStn r < sgS (k.seg seg.toNat)) ∧ (let r := k.use use.toNat; fmtOf (usOpFmt r) = some fo) ∧ (let r := k.use use.toNat; fmtOf (usStFmt r) = some fs) ∧ (let r := k.use use.toNat; fmtOf (usOutFmt r) = some fu) ∧ (let r := k.use use.toNat; let p := d.run.getD (sgFirst (k.seg seg.toNat) + off.toNat) 0; let ck := 4 * p + d.quarter; let find (tensor : Nat) (idx : Int) (fmt : Nat) (read : Bool) := s.access ck slot.toNat k seg.toNat use.toNat tensor idx fmt read; find (s.resolve slot.toNat k (usStTensor r)) (tileRef (usStBase r) (usStDs r) (usStDi r) off.toNat pass.toNat) (usStFmt r) true = .good hs) ∧ (let r := k.use use.toNat; let p := d.run.getD (sgFirst (k.seg seg.toNat) + off.toNat) 0; let ck := 4 * p + d.quarter; let injects := usVisits r ≠ 0 ∧ usGathers r = false; let find (tensor : Nat) (idx : Int) (fmt : Nat) (read : Bool) := s.access ck slot.toNat k seg.toNat use.toNat tensor idx fmt read; (injects → ∃ h, ho = some h ∧ find (s.resolve slot.toNat k (usOpTensor r)) (tileRef (usOpBase r) (usOpDs r) (usOpDi r) off.toNat pass.toNat) (usOpFmt r) true = .good h)) ∧ (let r := k.use use.toNat; let injects := usVisits r ≠ 0 ∧ usGathers r = false; (¬injects → ho = none)) ∧ (let r := k.use use.toNat; let p := d.run.getD (sgFirst (k.seg seg.toNat) + off.toNat) 0; let ck := 4 * p + d.quarter; let find (tensor : Nat) (idx : Int) (fmt : Nat) (read : Bool) := s.access ck slot.toNat k seg.toNat use.toNat tensor idx fmt read; (usRoute r = 0 ∧ s.mirrorOf k.bib (BitVec.ofNat 24 (usOutTensor r)) = none → ∃ h, hu = some h ∧ find (usOutTensor r) (tileRef (usOutBase r) (usOutDs r) (usOutDi r) off.toNat pass.toNat) (usOutFmt r) false = .good h)) ∧ (let r := k.use use.toNat; (¬(usRoute r = 0 ∧ s.mirrorOf k.bib (BitVec.ofNat 24 (usOutTensor r)) = none) → hu = none)) ∧ (let p := d.run.getD (sgFirst (k.seg seg.toNat) + off.toNat) 0; let ck := 4 * p + d.quarter; let find (tensor : Nat) (idx : Int) (fmt : Nat) (read : Bool) := s.access ck slot.toNat k seg.toNat use.toNat tensor idx fmt read; (∀ f ∈ x.post, ∀ e ∈ puTiles (postExpr f), ∃ h, find e.1.toNat (e.2.toNat : Int) (tnFmt (k.tensor e.1.toNat)) true = .good h)) ∧ (let r := k.use use.toNat; let p := d.run.getD (sgFirst (k.seg seg.toNat) + off.toNat) 0; let desc := k.convs.getD (usConv r) 0; (usGathers r = true → s.planeFault k.bib desc (p / 26) = none ∧ planeFmt fo = true)) ∧ (let r := k.use use.toNat; let desc := k.convs.getD (usConv r) 0; (usMode r = 0 ∧ pairing fo fs = true) ∨ (usMode r ≠ 0 ∧ fo = .int8 ∧ fs = .int8 ∧ usOrient r = 0 ∧ (fu = .fp32 ∨ fu = .w40) ∧ (∀ h, h = hs ∨ ho = some h → s.oneScale h.home (s.byte (homeKey hs.home)) = true) ∧ (usGathers r = true → s.planeScale k.bib (cvPlane desc) = s.byte (homeKey hs.home)))) ∧ (let r := k.use use.toNat; (usRoute r = 1 → planeFmt fu = true ∨ fu = .w40)) ∧ (let r := k.use use.toNat; (hasScale fu = true → ∃ y, s.scaleRec slot.toNat (usGroup r) = some y ∧ y.fmt.toNat = usOutFmt r)) ∧ (let r := k.use use.toNat; (usSeed r = 15 → ∀ f ∈ x.post, puDrops (postExpr f) = false)) ∧ (let r := k.use use.toNat; (usAcc r ≠ 2 → ∀ h, hu = some h → h.wact = true → h.wslot = slot ∧ h.wseg = seg)) ∧ (let r := k.use use.toNat; let p := d.run.getD (sgFirst (k.seg seg.toNat) + off.toNat) 0; let ck := 4 * p + d.quarter; let injects := usVisits r ≠ 0 ∧ usGathers r = false; (injects → s.queueRoom ck (tileBytes fo) = true))) ∧
  (∃ (s : State) (slot : BitVec 8) (off : BitVec 7) (k : Course) (d : Domain) (u : UseCfg) (rest : List UseCfg) (l : LiveSeg),
    (s.up = true) ∧ (s.course slot.toNat = some k) ∧ (s.domain slot.toNat = some d) ∧ (let ck := 4 * d.run.getD (BitVec.toNat off) 0 + d.quarter; s.usesOf ck = u :: rest) ∧ (u.slot = slot) ∧ (d.live.lookup u.seg = some l) ∧ (let ck := 4 * d.run.getD (BitVec.toNat off) 0 + d.quarter; s.useDone ck u = true)) := by
  refine
      ⟨⟨({ running1 1 0 { dom0 with live := [(0, live0)] } with mem.hdrs := [(tileKey { bib := 3, tensor := 0, tile := 0 }, hdr0 0 1 0), (tileKey { bib := 3, tensor := 1, tile := 0 }, hdr0 1 6 0x40000)] }), 2, 0, 0, 0, 0, ({}), (course1 1 0), ({ dom0 with live := [(0, live0)] }), live0, .e4m3, .e4m3, .bf16, (hdr0 0 1 0), none, (some (hdr0 1 6 0x40000)), ?_, ?_, ?_, ?_, ?_, ?_, ?_, ?_, ?_, ?_, ?_, ?_, ?_, ?_, ?_, ?_, ?_, ?_, ?_, ?_, ?_, ?_, ?_, ?_, ?_⟩,
      ⟨({ running1 1 0 { dom0 with live := [(0, live0)] } with arr.uses := [(0, [{ cfg0 with accepted := 65536 }])], mem.hdrs := [(tileKey { bib := 3, tensor := 1, tile := 0 }, hdr0 1 6 0x40000)] }), 2, 0, (course1 1 0), ({ dom0 with live := [(0, live0)] }), ({ cfg0 with accepted := 65536 }), ([]), live0, ?_, ?_, ?_, ?_, ?_, ?_, ?_⟩⟩ <;>
    first | decide +kernel | exact ⟨by decide +kernel, by decide +kernel, by decide +kernel⟩ | rfl | exact ⟨_, rfl⟩ | exact (fun _ hf => nomatch hf) | exact fun h => absurd h (by decide +kernel) | exact fun _ => ⟨_, rfl, rfl⟩ | exact Or.inl (by decide +kernel)

/-- The hypotheses of each clause of GateRows can be met together. -/
theorem witness_GateRows :
  (∃ (s : State) (gate : BitVec 15) (e : BitVec 8),
    (s.up = true) ∧ ((s.gate gate.toNat).state = 1) ∧ (e = (s.gate gate.toNat).epoch) ∧ ((s.gate gate.toNat).count + 1 ≠ (s.gate gate.toNat).target) ∧ ((s.gate gate.toNat).count ≠ (s.gate gate.toNat).target)) ∧
  (∃ (s : State) (gate : BitVec 15) (e : BitVec 8),
    (s.up = true) ∧ ((s.gate gate.toNat).state = 1) ∧ ((s.gate gate.toNat).scope = false) ∧ (e = (s.gate gate.toNat).epoch) ∧ ((s.gate gate.toNat).count ≠ (s.gate gate.toNat).target) ∧ ((s.gate gate.toNat).count + 1 = (s.gate gate.toNat).target) ∧ ((s.gate gate.toNat).next = 0) ∧ ((s.gate gate.toNat).target ≠ 0)) ∧
  (∃ (s : State) (gate : BitVec 15) (e : BitVec 8),
    (s.up = true) ∧ ((s.gate gate.toNat).state = 1) ∧ (e = (s.gate gate.toNat).epoch + 1) ∧ ((s.gate gate.toNat).next.toNat < (s.gate gate.toNat).target.toNat) ∧ ((s.gate gate.toNat).next.toNat < 511)) ∧
  (∃ (s : State) (gate : BitVec 15) (e : BitVec 8) (c : Nat) (l : Nat) (k : Course),
    (s.up = true) ∧ ((s.gate gate.toNat).state = 1) ∧ (e ≠ (s.gate gate.toNat).epoch) ∧ (e ≠ (s.gate gate.toNat).epoch + 1) ∧ (s.gateSlot gate.toNat = some (c, l)) ∧ (s.course c = some k) ∧ ((s.bib k.bib).state = .running)) ∧
  (∃ (s : State) (gate : BitVec 15) (e : BitVec 8),
    (s.up = true) ∧ ((s.gate gate.toNat).state = 1) ∧ (e = (s.gate gate.toNat).epoch ∨ e = (s.gate gate.toNat).epoch + 1)) ∧
  (∃ (s : State) (gate : BitVec 15) (e : BitVec 8),
    (s.up = true) ∧ ((s.gate gate.toNat).state = 1) ∧ ((s.gate gate.toNat).passed e = true)) ∧
  (∃ (s : State) (gate : BitVec 15) (c : Nat) (l : Nat) (k : Course),
    (s.up = true) ∧ ((s.gate gate.toNat).state = 1) ∧ ((s.gate gate.toNat).waits ≠ []) ∧ (1000 * (s.gate gate.toNat).wd.toNat ≤ max (s.gate gate.toNat).ticks (s.gate gate.toNat).ticksNext) ∧ (s.gateSlot gate.toNat = some (c, l)) ∧ (s.course c = some k) ∧ ((s.bib k.bib).state = .running)) ∧
  (∃ (s : State) (gate : BitVec 15),
    (s.up = true) ∧ ((s.gate gate.toNat).state = 1) ∧ (max (s.gate gate.toNat).ticks (s.gate gate.toNat).ticksNext < 1000 * (s.gate gate.toNat).wd.toNat)) := by
  refine
      ⟨⟨({ (running1 1 0 dom0) with crs.signals := [(4, 0)] }), 4, 0, ?_, ?_, ?_, ?_, ?_⟩,
      ⟨({ (running1 1 0 dom0) with crs.gates := [(4, { bib := 3, state := 1, target := 2, count := 1, wd := 5, waits := [(0, 2), (1, 3)] })], crs.signals := [(4, 0)] }), 4, 0, ?_, ?_, ?_, ?_, ?_, ?_, ?_, ?_⟩,
      ⟨(running1 1 0 dom0), 4, 1, ?_, ?_, ?_, ?_, ?_⟩,
      ⟨(running1 1 0 dom0), 4, 2, 2, 0, (course1 1 0), ?_, ?_, ?_, ?_, ?_, ?_, ?_⟩,
      ⟨(running1 1 0 dom0), 4, 1, ?_, ?_, ?_⟩,
      ⟨(running1 1 0 dom0), 4, 255, ?_, ?_, ?_⟩,
      ⟨({ (running1 1 0 dom0) with crs.gates := [(4, { bib := 3, state := 1, target := 2, wd := 5, waits := [(0, 2)], ticks := 5000 })] }), 4, 2, 0, (course1 1 0), ?_, ?_, ?_, ?_, ?_, ?_, ?_⟩,
      ⟨({ (running1 1 0 dom0) with crs.gates := [(4, { bib := 3, state := 1, target := 2, wd := 5, waits := [(0, 2)], ticks := 4999 })] }), 4, ?_, ?_, ?_⟩⟩ <;>
    first | decide +kernel | exact ⟨by decide +kernel, by decide +kernel, by decide +kernel⟩ | rfl | exact ⟨_, rfl⟩

/-- The hypotheses of each clause of HoldRows can be met together. -/
theorem witness_HoldRows :
  (∃ (s : State) (slot : BitVec 8) (d : Domain),
    (s.up = true) ∧ (s.domain slot.toNat = some d) ∧ (d.running = true)) ∧
  (∃ (s : State) (slot : BitVec 8),
    (s.up = true) ∧ ((s.hold slot.toNat).cause ≠ 0)) ∧
  (∃ (s : State) (slot : BitVec 8) (d : Domain),
    (s.up = true) ∧ (s.domain slot.toNat = some d) ∧ ((s.hold slot.toNat).stopped = true) ∧ (s.sumsInFlight d = false)) ∧
  (∃ (s : State) (slot : BitVec 8) (cause : Fin 7),
    (s.up = true) ∧ (((s.hold slot.toNat).cause).getLsbD cause.val = true) ∧ ((cause = 3 → (s.hold slot.toNat).pause = false)) ∧ ((cause = 0 → ∀ e ∈ s.strmsOf slot.toNat, e.2.late = []))) ∧
  (∃ (s : State) (slot : BitVec 8),
    (s.up = true) ∧ ((s.hold slot.toNat).pause = true)) ∧
  (∃ (s : State) (slot : BitVec 8) (e : Nat × Strm),
    (s.up = true) ∧ (e ∈ s.strmsOf slot.toNat) ∧ (e.2.late ≠ [])) ∧
  (∃ (s : State) (slot : BitVec 8),
    (s.up = true) ∧ ((s.hold slot.toNat).cause ≠ 0) ∧ ((s.hold slot.toNat).marked = false) ∧ (100 * (s.hold slot.toNat).limit.toNat < (s.hold slot.toNat).current.toNat)) ∧
  (∃ (s : State) (slot : BitVec 8),
    (s.up = true) ∧ ((s.hold slot.toNat).marked = true ∨ (s.hold slot.toNat).current.toNat ≤ 100 * (s.hold slot.toNat).limit.toNat)) := by
  refine
      ⟨⟨(running1 1 0 dom0), 2, dom0, ?_, ?_, ?_⟩,
      ⟨({ (running1 1 0 dom0) with crs.holds := [(2, { cause := 1 })] }), 2, ?_, ?_⟩,
      ⟨({ (running1 1 0 dom0) with crs.holds := [(2, { cause := 1, stopped := true })] }), 2, dom0, ?_, ?_, ?_, ?_⟩,
      ⟨({ (running1 1 0 dom0) with crs.holds := [(2, { cause := 0x12, stopped := true, limit := 9 })] }), 2, 4, ?_, ?_, ?_, ?_⟩,
      ⟨({ (running1 1 0 dom0) with crs.holds := [(2, { cause := 8, pause := true })] }), 2, ?_, ?_⟩,
      ⟨({ (running1 1 0 dom0) with crs.holds := [(2, { cause := 1 })], lift.strm := [(0, { strm0 with late := [0] })] }), 2, ((0, { strm0 with late := [0] })), ?_, ?_, ?_⟩,
      ⟨({ (running1 1 0 dom0) with crs.holds := [(2, { cause := 8, limit := 9, current := 901 })] }), 2, ?_, ?_, ?_, ?_⟩,
      ⟨({ (running1 1 0 dom0) with crs.holds := [(2, { cause := 8, limit := 9 })] }), 2, ?_, ?_⟩⟩ <;>
    first | decide +kernel | exact ⟨by decide +kernel, by decide +kernel, by decide +kernel⟩ | rfl | exact ⟨_, rfl⟩

/-- The hypotheses of each clause of ReleasesLoadsAndAnchors can be met together. -/
theorem witness_ReleasesLoadsAndAnchors :
  (∃ (s : State) (stn : Fin 104) (q : Fin 4) (tap : Fin 260) (u : UseCfg) (token : Nat) (l : LapTile),
    (s.up = true) ∧ (let ck := s.carveAt (Fin.val stn) (Fin.val q); s.nextToken ck tap.val = some (u, token)) ∧ (s.mayRun u.slot.toNat = true) ∧ ((u.swap = true → token % 256 ≠ 0)) ∧ (u.lap = some l) ∧ (let ck := s.carveAt (Fin.val stn) (Fin.val q); s.tapIndex ck u tap.val = none ∨ (l.src ≠ .stream ∧ s.lapReady l = true)) ∧ (let ck := s.carveAt (Fin.val stn) (Fin.val q); s.mayEnter ck u token = true) ∧ (let ck := s.carveAt (Fin.val stn) (Fin.val q); tap.val = 0 ∨ token < (s.feeder ck).released.read 0 (tap.val - 1)) ∧ (let ck := s.carveAt (Fin.val stn) (Fin.val q); let row := if u.trans then 0 else Fin.val tap; let col := if u.trans then 65 * (ck % 4) + tap.val else 65 * (ck % 4); (s.cell (ck / 4) row col).op = none)) ∧
  (∃ (s : State) (stn : Fin 104) (q : Fin 4) (tap : Fin 260) (u : UseCfg) (token : Nat) (l : LapTile),
    (s.up = true) ∧ (let ck := s.carveAt (Fin.val stn) (Fin.val q); s.nextToken ck tap.val = some (u, token)) ∧ (s.mayRun u.slot.toNat = true) ∧ (u.swap = true) ∧ (token % 256 = 0) ∧ (u.lap = some l) ∧ (let ck := s.carveAt (Fin.val stn) (Fin.val q); s.tapIndex ck u tap.val = none ∨ (l.src ≠ .stream ∧ s.lapReady l = true)) ∧ (let ck := s.carveAt (Fin.val stn) (Fin.val q); s.mayEnter ck u token = true) ∧ (let ck := s.carveAt (Fin.val stn) (Fin.val q); tap.val = 0 ∨ token < (s.feeder ck).released.read 0 (tap.val - 1)) ∧ (let ck := s.carveAt (Fin.val stn) (Fin.val q); let row := if u.trans then 0 else Fin.val tap; let col := if u.trans then 65 * (ck % 4) + tap.val else 65 * (ck % 4); (s.cell (ck / 4) row col).op = none) ∧ (let ck := s.carveAt (Fin.val stn) (Fin.val q); s.loaded ck (s.carveW ck) u.gen = true)) ∧
  (∃ (s : State) (stn : Fin 104) (q : Fin 4) (tap : Fin 260) (u : UseCfg) (token : Nat),
    (s.up = true) ∧ (let ck := s.carveAt (Fin.val stn) (Fin.val q); s.nextToken ck (Fin.val tap) = some (u, token)) ∧ (u.swap = true) ∧ (token % 256 = 0) ∧ (let ck := s.carveAt (Fin.val stn) (Fin.val q); s.loaded ck (s.carveW ck) u.gen = false)) ∧
  (∃ (s : State) (stn : Fin 104) (q : Fin 4) (u : UseCfg) (h : TileHdr),
    (s.up = true) ∧ (let p := Fin.val stn; let ck := s.carveAt p (Fin.val q); let f := s.feeder (4 * p + q.val); let row := f.loadRows; let gen := if row = 0 then f.loads + 1 else f.loads; (s.usesOf ck).find? (fun u => u.swap && u.gen = gen) = some u) ∧ (s.tileHdr u.st = some h) ∧ (let p := Fin.val stn; let f := s.feeder (4 * p + q.val); f.loadDone = false) ∧ (let p := Fin.val stn; let f := s.feeder (4 * p + q.val); let row := f.loadRows; row < 260) ∧ (h.state = 0) ∧ (h.home.tier.toNat < 2) ∧ (let p := Fin.val stn; let f := s.feeder (4 * p + q.val); let row := f.loadRows; let gen := if row = 0 then f.loads + 1 else f.loads; (∀ i, i < 65 → (s.cell p row (65 * q.val + i)).backG ≤ (s.cell p row (65 * q.val + i)).frontG ∨ (s.cell p row (65 * q.val + i)).backG = gen))) ∧
  (∃ (s : State) (stn : Fin 104) (q : Fin 4),
    (s.up = true) ∧ ((s.feeder (4 * Fin.val stn + Fin.val q)).loadRows = 260)) ∧
  (∃ (s : State) (stn : Fin 104) (q : Fin 4) (tp : BitVec 5) (u : UseCfg) (l : LapTile),
    (s.up = true) ∧ (let ck := s.carveAt (Fin.val stn) (Fin.val q); (s.usesOf ck).find? (fun u => u.mode = 0 && !s.arr.anchors.has (anchorKey (u.key ck) (BitVec.toNat tp))) = some u) ∧ (u.lap = some l) ∧ (let ck := s.carveAt (Fin.val stn) (Fin.val q); let w := s.carveW ck; s.weightsIn ck w u.gen = true)) := by
  refine
      ⟨⟨({ using0 { cfg0 with lap := some (lapC 3) } with arr.anchors := [(0, [])] }), 0, 0, 0, ({ cfg0 with lap := some (lapC 3) }), 0, (lapC 3), ?_, ?_, ?_, ?_, ?_, ?_, ?_, ?_, ?_⟩,
      ⟨({ using0 { cfg0 with swap := true, lap := some (lapC 3) } with arr.anchors := [(0, [])], arr.feeders := [(0, { loadDone := true }), (1, { loadDone := true }), (2, { loadDone := true }), (3, { loadDone := true })] }), 0, 0, 0, ({ cfg0 with swap := true, lap := some (lapC 3) }), 0, (lapC 3), ?_, ?_, ?_, ?_, ?_, ?_, ?_, ?_, ?_, ?_, ?_⟩,
      ⟨(using0 { cfg0 with swap := true, lap := some (lapC 3) }), 0, 0, 0, ({ cfg0 with swap := true, lap := some (lapC 3) }), 0, ?_, ?_, ?_, ?_, ?_⟩,
      ⟨({ using0 { cfg0 with swap := true, gen := 1 } with mem.hdrs := [(tileKey tid0, hdr0 0 1 0)] }), 0, 2, ({ cfg0 with swap := true, gen := 1 }), (hdr0 0 1 0), ?_, ?_, ?_, ?_, ?_, ?_, ?_, ?_⟩,
      ⟨({ using0 cfg0 with arr.feeders := [(3, { loadRows := 260 })] }), 0, 3, ?_, ?_⟩,
      ⟨(using0 { cfg0 with lap := some (lapC 3) }), 0, 0, 5, ({ cfg0 with lap := some (lapC 3) }), (lapC 3), ?_, ?_, ?_, ?_⟩⟩ <;>
    first | decide +kernel | exact ⟨by decide +kernel, by decide +kernel, by decide +kernel⟩ | rfl | exact ⟨_, rfl⟩

/-- The hypotheses of each clause of CellsFire can be met together. -/
theorem witness_CellsFire :
  (∃ (s : State) (stn : Fin 104) (row : Fin 260) (col : Fin 260) (u : UseCfg) (o : Operand) (x : PSum),
    (s.up = true) ∧ (let p := Fin.val stn; let c := s.cell p (Fin.val row) col.val; c.op = some o) ∧ (let p := Fin.val stn; let ck := s.carveAt p (Fin.val col / 65); s.useFor ck o.token = some u) ∧ (let p := Fin.val stn; let ck := s.carveAt p (Fin.val col / 65); let c := s.cell p (Fin.val row) col.val; let lr := s.logicalRow p row.val; let lc := (s.logicalCol p col.val).map (fun n => 64 * (col.val / 65 - ck % 4) + n); let first := 65 * (ck % 4); s.sumAt ck u (if u.trans then decide (col.val = first) else decide (row.val = 0)) (if u.trans then lr else lc) o c = some x) ∧ (let p := Fin.val stn; let ck := s.carveAt p (Fin.val col / 65); let w := s.carveW ck; let first := 65 * (ck % 4); let last := first + 65 * w - 1; let opEdge := if u.trans then row.val = 259 else col.val = last; (opEdge → s.edgeFree ck u = true)) ∧ (let p := Fin.val stn; let ck := s.carveAt p (Fin.val col / 65); let w := s.carveW ck; let first := 65 * (ck % 4); let last := first + 65 * w - 1; let opEdge := if u.trans then row.val = 259 else col.val = last; let opAt := if u.trans then (row.val + 1, col.val) else (row.val, col.val + 1); (¬opEdge → (s.cell p opAt.1 opAt.2).op = none)) ∧ (let p := Fin.val stn; let ck := s.carveAt p (Fin.val col / 65); let w := s.carveW ck; let lr := s.logicalRow p row.val; let lc := (s.logicalCol p col.val).map (fun n => 64 * (col.val / 65 - ck % 4) + n); let first := 65 * (ck % 4); let last := first + 65 * w - 1; let sumEdge := if u.trans then col.val = last else row.val = 259; (sumEdge → ∀ l, u.laneOf lr lc = some l → s.arr.drainIn.has (laneKey ck l) = false)) ∧ (let p := Fin.val stn; let ck := s.carveAt p (Fin.val col / 65); let w := s.carveW ck; let first := 65 * (ck % 4); let last := first + 65 * w - 1; let sumEdge := if u.trans then col.val = last else row.val = 259; let sumAt := if u.trans then (row.val, col.val + 1) else (row.val + 1, col.val); (¬sumEdge → (s.cell p sumAt.1 sumAt.2).sum = none))) ∧
  (∃ (s : State) (stn : Fin 104) (row : Fin 260) (col : Fin 260) (u : UseCfg) (o : Operand) (x : PSum),
    (s.up = true) ∧ (let p := Fin.val stn; let c := s.cell p (Fin.val row) col.val; c.op = some o) ∧ (let p := Fin.val stn; let ck := s.carveAt p (Fin.val col / 65); s.useFor ck o.token = some u) ∧ (let p := Fin.val stn; let ck := s.carveAt p (Fin.val col / 65); let c := s.cell p (Fin.val row) col.val; let lr := s.logicalRow p row.val; let lc := (s.logicalCol p col.val).map (fun n => 64 * (col.val / 65 - ck % 4) + n); let first := 65 * (ck % 4); s.sumAt ck u (if u.trans then decide (col.val = first) else decide (row.val = 0)) (if u.trans then lr else lc) o c = some x) ∧ (let p := Fin.val stn; let ck := s.carveAt p (Fin.val col / 65); let w := s.carveW ck; let first := 65 * (ck % 4); let last := first + 65 * w - 1; let opEdge := if u.trans then row.val = 259 else col.val = last; (opEdge → s.edgeFree ck u = true)) ∧ (let p := Fin.val stn; let ck := s.carveAt p (Fin.val col / 65); let w := s.carveW ck; let first := 65 * (ck % 4); let last := first + 65 * w - 1; let opEdge := if u.trans then row.val = 259 else col.val = last; let opAt := if u.trans then (row.val + 1, col.val) else (row.val, col.val + 1); (¬opEdge → (s.cell p opAt.1 opAt.2).op = none)) ∧ (let p := Fin.val stn; let ck := s.carveAt p (Fin.val col / 65); let w := s.carveW ck; let lr := s.logicalRow p row.val; let lc := (s.logicalCol p col.val).map (fun n => 64 * (col.val / 65 - ck % 4) + n); let first := 65 * (ck % 4); let last := first + 65 * w - 1; let sumEdge := if u.trans then col.val = last else row.val = 259; (sumEdge → ∀ l, u.laneOf lr lc = some l → s.arr.drainIn.has (laneKey ck l) = false)) ∧ (let p := Fin.val stn; let ck := s.carveAt p (Fin.val col / 65); let w := s.carveW ck; let first := 65 * (ck % 4); let last := first + 65 * w - 1; let sumEdge := if u.trans then col.val = last else row.val = 259; let sumAt := if u.trans then (row.val, col.val + 1) else (row.val + 1, col.val); (¬sumEdge → (s.cell p sumAt.1 sumAt.2).sum = none))) ∧
  (∃ (s : State) (stn : Fin 104) (row : Fin 260) (col : Fin 260) (u : UseCfg) (o : Operand) (x : PSum),
    (s.up = true) ∧ (let p := Fin.val stn; let c := s.cell p (Fin.val row) col.val; c.op = some o) ∧ (let p := Fin.val stn; let ck := s.carveAt p (Fin.val col / 65); s.useFor ck o.token = some u) ∧ (let p := Fin.val stn; let ck := s.carveAt p (Fin.val col / 65); let c := s.cell p (Fin.val row) col.val; let lr := s.logicalRow p row.val; let lc := (s.logicalCol p col.val).map (fun n => 64 * (col.val / 65 - ck % 4) + n); let first := 65 * (ck % 4); s.sumAt ck u (if u.trans then decide (col.val = first) else decide (row.val = 0)) (if u.trans then lr else lc) o c = some x) ∧ (let p := Fin.val stn; let ck := s.carveAt p (Fin.val col / 65); let w := s.carveW ck; let first := 65 * (ck % 4); let last := first + 65 * w - 1; let opEdge := if u.trans then row.val = 259 else col.val = last; (opEdge → s.edgeFree ck u = true)) ∧ (let p := Fin.val stn; let ck := s.carveAt p (Fin.val col / 65); let w := s.carveW ck; let first := 65 * (ck % 4); let last := first + 65 * w - 1; let opEdge := if u.trans then row.val = 259 else col.val = last; let opAt := if u.trans then (row.val + 1, col.val) else (row.val, col.val + 1); (¬opEdge → (s.cell p opAt.1 opAt.2).op = none)) ∧ (let p := Fin.val stn; let ck := s.carveAt p (Fin.val col / 65); let w := s.carveW ck; let lr := s.logicalRow p row.val; let lc := (s.logicalCol p col.val).map (fun n => 64 * (col.val / 65 - ck % 4) + n); let first := 65 * (ck % 4); let last := first + 65 * w - 1; let sumEdge := if u.trans then col.val = last else row.val = 259; (sumEdge → ∀ l, u.laneOf lr lc = some l → s.arr.drainIn.has (laneKey ck l) = false)) ∧ (let p := Fin.val stn; let ck := s.carveAt p (Fin.val col / 65); let w := s.carveW ck; let first := 65 * (ck % 4); let last := first + 65 * w - 1; let sumEdge := if u.trans then col.val = last else row.val = 259; let sumAt := if u.trans then (row.val, col.val + 1) else (row.val + 1, col.val); (¬sumEdge → (s.cell p sumAt.1 sumAt.2).sum = none))) ∧
  (∃ (s : State) (stn : Fin 104) (row : Fin 260) (col : Fin 260) (u : UseCfg) (o : Operand) (x : PSum),
    (s.up = true) ∧ (let p := Fin.val stn; let c := s.cell p (Fin.val row) col.val; c.op = some o) ∧ (let p := Fin.val stn; let ck := s.carveAt p (Fin.val col / 65); s.useFor ck o.token = some u) ∧ (let p := Fin.val stn; let ck := s.carveAt p (Fin.val col / 65); let c := s.cell p (Fin.val row) col.val; let lr := s.logicalRow p row.val; let lc := (s.logicalCol p col.val).map (fun n => 64 * (col.val / 65 - ck % 4) + n); let first := 65 * (ck % 4); s.sumAt ck u (if u.trans then decide (col.val = first) else decide (row.val = 0)) (if u.trans then lr else lc) o c = some x) ∧ (let p := Fin.val stn; let ck := s.carveAt p (Fin.val col / 65); let w := s.carveW ck; let first := 65 * (ck % 4); let last := first + 65 * w - 1; let opEdge := if u.trans then row.val = 259 else col.val = last; (opEdge → s.edgeFree ck u = true)) ∧ (let p := Fin.val stn; let ck := s.carveAt p (Fin.val col / 65); let w := s.carveW ck; let first := 65 * (ck % 4); let last := first + 65 * w - 1; let opEdge := if u.trans then row.val = 259 else col.val = last; let opAt := if u.trans then (row.val + 1, col.val) else (row.val, col.val + 1); (¬opEdge → (s.cell p opAt.1 opAt.2).op = none)) ∧ (let p := Fin.val stn; let ck := s.carveAt p (Fin.val col / 65); let w := s.carveW ck; let lr := s.logicalRow p row.val; let lc := (s.logicalCol p col.val).map (fun n => 64 * (col.val / 65 - ck % 4) + n); let first := 65 * (ck % 4); let last := first + 65 * w - 1; let sumEdge := if u.trans then col.val = last else row.val = 259; (sumEdge → ∀ l, u.laneOf lr lc = some l → s.arr.drainIn.has (laneKey ck l) = false)) ∧ (let p := Fin.val stn; let ck := s.carveAt p (Fin.val col / 65); let w := s.carveW ck; let first := 65 * (ck % 4); let last := first + 65 * w - 1; let sumEdge := if u.trans then col.val = last else row.val = 259; let sumAt := if u.trans then (row.val, col.val + 1) else (row.val + 1, col.val); (¬sumEdge → (s.cell p sumAt.1 sumAt.2).sum = none))) := by
  refine
      ⟨⟨({ using0 cfg0 with arr.cells := [(cellKey 0 1 0, { op := some elem0, sum := some sum0 })] }), 0, 1, 0, cfg0, elem0, sum0, ?_, ?_, ?_, ?_, ?_, ?_, ?_, ?_⟩,
      ⟨({ using0 { cfg0 with trans := true } with arr.cells := [(cellKey 0 1 0, { op := some elem0, sum := some sum0 })] }), 0, 1, 0, ({ cfg0 with trans := true }), elem0, sum0, ?_, ?_, ?_, ?_, ?_, ?_, ?_, ?_⟩,
      ⟨({ using0 cfg0 with arr.cells := [(cellKey 0 259 0, { op := some elem0, sum := some sum0 })] }), 0, 259, 0, cfg0, elem0, sum0, ?_, ?_, ?_, ?_, ?_, ?_, ?_, ?_⟩,
      ⟨({ using0 { cfg0 with lap := some (lapC 1) } with arr.cells := [(cellKey 0 1 259, { op := some elem0, sum := some sum0 })] }), 0, 1, 259, ({ cfg0 with lap := some (lapC 1) }), elem0, sum0, ?_, ?_, ?_, ?_, ?_, ?_, ?_, ?_⟩⟩ <;>
    first | decide +kernel | exact ⟨by decide +kernel, by decide +kernel, by decide +kernel⟩ | rfl | exact ⟨_, rfl⟩ | exact fun h => absurd h (by decide +kernel) | exact fun _ l h => Option.some.inj (show some 0 = some l from h) ▸ (by decide +kernel)

/-- The hypotheses of each clause of DrainRows can be met together. -/
theorem witness_DrainRows :
  (∃ (s : State) (stn : Fin 104) (q : Fin 4) (lane : BitVec 8) (u : UseCfg) (x : PSum),
    (s.up = true) ∧ (let ck := s.carveAt (Fin.val stn) (Fin.val q); s.arr.drainIn.lookup (laneKey ck (BitVec.toNat lane)) = some x) ∧ (let ck := s.carveAt (Fin.val stn) (Fin.val q); s.useFor ck x.token = some u) ∧ (let ck := s.carveAt (Fin.val stn) (Fin.val q); s.arr.drainOut.has (laneKey ck lane.toNat) = false)) ∧
  (∃ (s : State) (stn : Fin 104) (q : Fin 4) (lane : BitVec 8) (u : UseCfg) (o : DrainOut) (rest : List DrainOut) (h : TileHdr),
    (s.up = true) ∧ (let ck := s.carveAt (Fin.val stn) (Fin.val q); let key := laneKey ck (BitVec.toNat lane); s.arr.drainOut.read [] key = o :: rest) ∧ (let ck := s.carveAt (Fin.val stn) (Fin.val q); s.useFor ck o.token = some u) ∧ (s.accepting u.slot.toNat = true) ∧ (let ck := s.carveAt (Fin.val stn) (Fin.val q); s.laneTurn ck u lane.toNat o.token = true) ∧ (let ck := s.carveAt (Fin.val stn) (Fin.val q); let key := laneKey ck (BitVec.toNat lane); (s.arr.lanes.read {} key).result = none) ∧ (u.acc = 0) ∧ (u.x.post = []) ∧ (u.route = 0) ∧ (s.mirrorOf u.out.bib u.tensor = none) ∧ (s.tileHdr u.out = some h) ∧ (h.state ≠ 1)) ∧
  (∃ (s : State) (stn : Fin 104) (q : Fin 4) (lane : BitVec 8) (u : UseCfg) (o : DrainOut) (rest : List DrainOut),
    (s.up = true) ∧ (let ck := s.carveAt (Fin.val stn) (Fin.val q); let key := laneKey ck (BitVec.toNat lane); s.arr.drainOut.read [] key = o :: rest) ∧ (let ck := s.carveAt (Fin.val stn) (Fin.val q); s.useFor ck o.token = some u) ∧ (s.accepting u.slot.toNat = true) ∧ (let ck := s.carveAt (Fin.val stn) (Fin.val q); s.laneTurn ck u lane.toNat o.token = true) ∧ (let ck := s.carveAt (Fin.val stn) (Fin.val q); let key := laneKey ck (BitVec.toNat lane); (s.arr.lanes.read {} key).result = none) ∧ (u.acc = 1)) ∧
  (∃ (s : State) (stn : Fin 104) (q : Fin 4) (lane : BitVec 8) (u : UseCfg) (o : DrainOut),
    (s.up = true) ∧ (let ck := s.carveAt (Fin.val stn) (Fin.val q); let key := laneKey ck (BitVec.toNat lane); (s.arr.lanes.read {} key).result = some o) ∧ (let ck := s.carveAt (Fin.val stn) (Fin.val q); s.useFor ck o.token = some u) ∧ (s.accepting u.slot.toNat = true) ∧ (u.route ≠ 1) ∧ (let ck := s.carveAt (Fin.val stn) (Fin.val q); let token := o.token % 256; let sum := s.arr.sums.read {} (u.sumKey ck lane.toNat token); u.term.toNat = sum.terms + 1) ∧ (u.x.last = .no)) ∧
  (∃ (s : State) (stn : Fin 104) (q : Fin 4) (lane : BitVec 8) (u : UseCfg) (o : DrainOut) (k : Course),
    (s.up = true) ∧ (let ck := s.carveAt (Fin.val stn) (Fin.val q); let key := laneKey ck (BitVec.toNat lane); (s.arr.lanes.read {} key).result = some o) ∧ (let ck := s.carveAt (Fin.val stn) (Fin.val q); s.useFor ck o.token = some u) ∧ (s.accepting u.slot.toNat = true) ∧ (u.route ≠ 1) ∧ (let ck := s.carveAt (Fin.val stn) (Fin.val q); u.term.toNat ≠ (s.arr.sums.read {} (u.sumKey ck lane.toNat (o.token % 256))).terms + 1) ∧ (s.course u.slot.toNat = some k) ∧ ((s.bib k.bib).state = .running)) ∧
  (∃ (s : State) (stn : Fin 104) (q : Fin 4) (id : BitVec 8) (term : BitVec 32) (u : UseCfg),
    (s.up = true) ∧ (let ck := s.carveAt (Fin.val stn) (Fin.val q); let rows (v : UseCfg) (m : Bool) := s.arr.rows.read [] ((v.key ck * 256 + BitVec.toNat id) * 2 + m.toNat); let whole (v : UseCfg) (m : Bool) := decide ((rows v m).length = 256 * v.laneCount (s.carveW ck)); (s.usesOf ck).find? (fun v => whole v false || whole v true) = some u) ∧ (let ck := s.carveAt (Fin.val stn) (Fin.val q); let rows (v : UseCfg) (m : Bool) := s.arr.rows.read [] ((v.key ck * 256 + BitVec.toNat id) * 2 + m.toNat); let whole (v : UseCfg) (m : Bool) := decide ((rows v m).length = 256 * v.laneCount (s.carveW ck)); whole u true = false) ∧ (s.accepting u.slot.toNat = true) ∧ (let old := s.arr.red.read {} (u.redKey id); old.whole = false) ∧ (let old := s.arr.red.read {} (u.redKey id); BitVec.toNat term = old.terms + 1)) ∧
  (∃ (s : State) (stn : Fin 104) (q : Fin 4) (id : BitVec 8) (term : BitVec 32) (u : UseCfg) (k : Course),
    (s.up = true) ∧ (let ck := s.carveAt (Fin.val stn) (Fin.val q); let whole (v : UseCfg) (m : Bool) := decide ((s.arr.rows.read [] ((v.key ck * 256 + BitVec.toNat id) * 2 + m.toNat)).length = 256 * v.laneCount (s.carveW ck)); (s.usesOf ck).find? (fun v => whole v false || whole v true) = some u) ∧ (s.accepting u.slot.toNat = true) ∧ ((s.arr.red.read {} (u.redKey id)).whole = false) ∧ (BitVec.toNat term ≠ (s.arr.red.read {} (u.redKey id)).terms + 1) ∧ (s.course u.slot.toNat = some k) ∧ ((s.bib k.bib).state = .running)) := by
  refine
      ⟨⟨({ using0 cfg0 with arr.drainIn := [(5, sum0)] }), 0, 2, 5, cfg0, sum0, ?_, ?_, ?_, ?_⟩,
      ⟨({ using0 cfg0 with arr.lanes := [(4, { next := 1 })], arr.drainOut := [(5, [{ token := 0, code := 0x3F80, fmt := .bf16 }])], mem.hdrs := [(tileKey cfg0.out, hdr0 1 6 0)] }), 0, 2, 5, cfg0, ({ token := 0, code := 0x3F80, fmt := .bf16 }), ([]), (hdr0 1 6 0), ?_, ?_, ?_, ?_, ?_, ?_, ?_, ?_, ?_, ?_, ?_, ?_⟩,
      ⟨({ using0 { cfg0 with acc := 1 } with arr.lanes := [(4, { next := 1 })], arr.drainOut := [(5, [{ token := 0, code := 0x3F80000000, fmt := .w40 }])] }), 0, 2, 5, ({ cfg0 with acc := 1 }), ({ token := 0, code := 0x3F80000000, fmt := .w40 }), ([]), ?_, ?_, ?_, ?_, ?_, ?_, ?_⟩,
      ⟨({ using0 { cfg0 with acc := 1, term := 1 } with arr.lanes := [(5, { result := some { token := 0, code := 0x3F80000000, fmt := .w40 } })] }), 0, 2, 5, ({ cfg0 with acc := 1, term := 1 }), ({ token := 0, code := 0x3F80000000, fmt := .w40 }), ?_, ?_, ?_, ?_, ?_, ?_, ?_⟩,
      ⟨({ using0 { cfg0 with acc := 1, term := 2 } with arr.lanes := [(5, { result := some { token := 0, code := 0x3F80000000, fmt := .w40 } })] }), 0, 2, 5, ({ cfg0 with acc := 1, term := 2 }), ({ token := 0, code := 0x3F80000000, fmt := .w40 }), (course1 1 0), ?_, ?_, ?_, ?_, ?_, ?_, ?_, ?_⟩,
      ⟨rows0, 0, 2, 7, 1, cfg0, ?_, ?_, ?_, ?_, ?_, ?_⟩,
      ⟨rows0, 0, 2, 7, 2, cfg0, (course1 1 0), ?_, ?_, ?_, ?_, ?_, ?_, ?_⟩⟩ <;>
    first | decide +kernel | exact ⟨by decide +kernel, by decide +kernel, by decide +kernel⟩ | rfl | exact ⟨_, rfl⟩

/-- The hypotheses of each clause of LapRows can be met together. -/
theorem witness_LapRows :
  (∃ (s : State) (stn : Fin 104) (next : Fin 104) (q : Fin 4) (e : Nat × Operand × LapTile) (rest : List (Nat × Operand × LapTile)) (u : UseCfg) (tap : Nat),
    (s.up = true) ∧ (s.arr.hops.read [] (4 * Fin.val stn + q.val) = e :: rest) ∧ (s.mayRun e.2.2.slot.toNat = true) ∧ (s.nextStation e.2.2.slot.toNat stn.val = some next.val) ∧ (let dst := 4 * Fin.val next + Fin.val q; s.hopTaker dst e = some (u, tap)) ∧ (u.lap = none) ∧ (e.2.2.fmt = u.opFmt) ∧ (u.mode = 0)) ∧
  (∃ (s : State) (stn : Fin 104) (next : Fin 104) (q : Fin 4) (e : Nat × Operand × LapTile) (rest : List (Nat × Operand × LapTile)) (u : UseCfg) (tap : Nat) (l : LapTile),
    (s.up = true) ∧ (s.arr.hops.read [] (4 * Fin.val stn + q.val) = e :: rest) ∧ (s.mayRun e.2.2.slot.toNat = true) ∧ (s.nextStation e.2.2.slot.toNat stn.val = some next.val) ∧ (let dst := 4 * Fin.val next + Fin.val q; s.hopTaker dst e = some (u, tap)) ∧ (u.lap = some l) ∧ (let dst := 4 * Fin.val next + Fin.val q; let token := 256 * u.ord + e.2.1.token; tap = 0 ∨ token < (s.feeder dst).released.read 0 (tap - 1)) ∧ (let dst := 4 * Fin.val next + Fin.val q; let row := if u.trans then 0 else tap; let col := if u.trans then 65 * (dst % 4) + tap else 65 * (dst % 4); (s.cell (dst / 4) row col).op = none) ∧ (let dst := 4 * Fin.val next + Fin.val q; let token := 256 * u.ord + e.2.1.token; (u.swap = true → token % 256 = 0 → s.loaded dst (s.carveW dst) u.gen = true)) ∧ (let dst := 4 * Fin.val next + Fin.val q; let token := 256 * u.ord + e.2.1.token; s.mayEnter dst u token = true)) ∧
  (∃ (s : State) (die : Fin 4) (stn : Fin 104) (q : Fin 4) (e : LapTile × Nat) (u : UseCfg) (head : List (List (Option (BitVec 8)))),
    (s.up = true) ∧ (let ck := 4 * Fin.val stn + Fin.val q; (s.arr.inject.read [] (Fin.val die)).find? (fun e => e.2 = ck) = some e) ∧ (let ck := 4 * Fin.val stn + Fin.val q; s.injectTaker ck e.1 = some u) ∧ (s.mayRun e.1.slot.toNat = true) ∧ (s.lapReady e.1 = true) ∧ (head = (match e.1.src with | .carried _ => e.1.head | _ => s.headOf e.1)) ∧ (e.1.fmt = u.opFmt) ∧ (u.mode = 0 ∨ ({ e.1 with head := head } : LapTile).oneScale u.pc = true)) ∧
  (∃ (s : State) (stn : Fin 104) (q : Fin 4) (key : Nat) (es : List (Nat × Operand × LapTile)) (e : Nat × Operand × LapTile),
    (s.up = true) ∧ (let ck := 4 * Fin.val stn + Fin.val q; s.arr.retire.find? (fun e => e.1 % 512 = ck) = some (key, es)) ∧ (es.head? = some e) ∧ (e.2.2.visits ≤ 1) ∧ (let ck := 4 * Fin.val stn + Fin.val q; (∀ u ∈ s.usesOf ck, u.ord = key / 512 → s.summed ck u = true))) ∧
  (∃ (s : State) (stn : Fin 104) (q : Fin 4) (key : Nat) (es : List (Nat × Operand × LapTile)) (e : Nat × Operand × LapTile) (d : Domain) (p : Nat),
    (s.up = true) ∧ (let ck := 4 * Fin.val stn + Fin.val q; s.arr.retire.find? (fun e => e.1 % 512 = ck) = some (key, es)) ∧ (es.head? = some e) ∧ (1 < e.2.2.visits) ∧ (let ck := 4 * Fin.val stn + Fin.val q; (∀ u ∈ s.usesOf ck, u.ord = key / 512 → s.summed ck u = true)) ∧ (s.domain e.2.2.slot.toNat = some d) ∧ (d.run.head? = some p) ∧ (let start := 4 * p + d.quarter; State.queueRoom { s with arr.retire := s.arr.retire.remove key } start (tileBytes e.2.2.fmt) = true)) := by
  refine
      ⟨⟨({ using0 cfg0 dom1 with arr.uses := [(4, [cfg0])], arr.hops := [(0, [(0, elem0, lap0 3)])] }), 0, 1, 0, ((0, elem0, lap0 3)), ([]), cfg0, 0, ?_, ?_, ?_, ?_, ?_, ?_, ?_, ?_⟩,
      ⟨({ using0 cfg0 dom1 with arr.uses := [(4, [{ cfg0 with lap := some (lap0 2) }])], arr.hops := [(0, [(0, elem0, lap0 3)])], arr.anchors := [(128, [])] }), 0, 1, 0, ((0, elem0, lap0 3)), ([]), ({ cfg0 with lap := some (lap0 2) }), 0, (lap0 2), ?_, ?_, ?_, ?_, ?_, ?_, ?_, ?_, ?_, ?_⟩,
      ⟨({ using0 cfg0 with arr.inject := [(0, [(lapC 1, 4), (lapC 1, 0)])] }), 0, 0, 0, ((lapC 1, 0)), cfg0, ([]), ?_, ?_, ?_, ?_, ?_, ?_, ?_, ?_⟩,
      ⟨({ running1 1 0 dom0 with arr.retire := [(0, [(0, elem0, lap0 1)])] }), 0, 0, 0, ([(0, elem0, lap0 1)]), ((0, elem0, lap0 1)), ?_, ?_, ?_, ?_, ?_⟩,
      ⟨({ running1 1 0 dom0 with arr.retire := [(0, [(0, elem0, lap0 3)])] }), 0, 0, 0, ([(0, elem0, lap0 3)]), ((0, elem0, lap0 3)), dom0, 0, ?_, ?_, ?_, ?_, ?_, ?_, ?_, ?_⟩⟩ <;>
    first | decide +kernel | exact ⟨by decide +kernel, by decide +kernel, by decide +kernel⟩ | rfl | exact ⟨_, rfl⟩

/-- The hypotheses of each clause of CarveFaultRows can be met together. -/
theorem witness_CarveFaultRows :
  (∃ (s : State) (stn : Fin 104) (q : Fin 4) (b : BitVec 12),
    (s.up = true) ∧ ((s.stn (Fin.val stn)).bibOf (Fin.val q) = b) ∧ (b ≠ 0) ∧ ((s.bib b).state = .running)) ∧
  (∃ (s : State) (stn : Fin 104) (q : Fin 4),
    (s.up = true) ∧ ((s.stn (Fin.val stn)).bibOf (Fin.val q) = 0) ∧ (4 * stn.val + q.val ∉ s.rink.checking)) ∧
  (∃ (s : State),
    (s.up = true)) ∧
  (∃ (s : State) (stn : Fin 104) (q : Fin 4),
    (s.up = true) ∧ (4 * Fin.val stn + Fin.val q ∈ s.rink.draining)) ∧
  (∃ (s : State) (stn : Fin 104) (q : Fin 4),
    (s.up = true) ∧ (4 * Fin.val stn + Fin.val q ∈ s.rink.clearing) ∧ (s.leavingBank stn.val q.val = false)) ∧
  (∃ (s : State) (stn : Fin 104) (q : Fin 4),
    (s.up = true) ∧ (4 * Fin.val stn + Fin.val q ∈ s.rink.checking)) ∧
  (∃ (s : State) (stn : Fin 104) (q : Fin 4),
    (s.up = true) ∧ (4 * Fin.val stn + Fin.val q ∈ s.rink.checking)) := by
  refine
      ⟨⟨({ using0 cfg0 with rink.stn := [(0, { bib0 := 3, bib1 := 3, bib2 := 3, bib3 := 3 })] }), 0, 2, 3, ?_, ?_, ?_, ?_⟩,
      ⟨up, 103, 3, ?_, ?_, ?_⟩,
      ⟨({ using0 cfg0 with rink.stn := [(0, { bib0 := 3, bib1 := 3, bib2 := 3, bib3 := 3 })] }), ?_⟩,
      ⟨({ using0 cfg0 with rink.stn := [(0, { bib0 := 3 })], rink.draining := [0], arr.cells := [(cellKey 0 3 5, { op := some elem0 }), (cellKey 0 3 65, { op := some elem0 })] }), 0, 0, ?_, ?_⟩,
      ⟨({ up with rink.stn := [(0, { bib0 := 3, clearing := 1 })], rink.clearing := [0], arr.cells := [(cellKey 0 3 5, { frontW := 7 }), (cellKey 0 3 65, { op := some elem0 })], mem.bytes := [(bankKey 0 0, 4), (bankKey 0 0 + 0x140000, 5)] }), 0, 0, ?_, ?_, ?_⟩,
      ⟨({ up with rink.stn := [(103, { bib3 := 3, fault := 8 })], rink.checking := [415] }), 103, 3, ?_, ?_⟩,
      ⟨({ up with rink.stn := [(103, { bib3 := 3, fault := 8 })], rink.checking := [415] }), 103, 3, ?_, ?_⟩⟩ <;>
    first | decide +kernel | exact ⟨by decide +kernel, by decide +kernel, by decide +kernel⟩ | rfl | exact ⟨_, rfl⟩

/-- The hypotheses of each clause of RinkAndWithdrawRows can be met together. -/
theorem witness_RinkAndWithdrawRows :
  (∃ (s : State) (c : Hdr) (cfg : BitVec 4),
    (s.accepts 0x0504 c) ∧ (cfg ≠ 0) ∧ (cfg.toNat ≤ 5) ∧ (cfg ≠ s.rink.cfg.active)) ∧
  (∃ (s : State) (c : Hdr) (cfg : BitVec 4),
    (s.accepts 0x0504 c) ∧ (cfg = s.rink.cfg.active) ∧ (cfg ≠ 0) ∧ (cfg.toNat ≤ 5)) ∧
  (∃ (s : State) (c : Hdr) (cfg : BitVec 4),
    (s.accepts 0x0504 c) ∧ (cfg = 0 ∨ 5 < cfg.toNat)) ∧
  (∃ (s : State),
    (s.up = true) ∧ (s.rink.cfg.busy = true) ∧ ((∀ e ∈ s.crs.domains, e.2.running = true → s.touchesChange e.2 = true → s.fits s.rink.cfg.request.toNat e.2 = true ∧ e.2.live = []))) ∧
  (∃ (s : State) (e : Nat × Domain),
    (s.up = true) ∧ (e ∈ s.crs.domains) ∧ (e.2.running = true) ∧ (s.touchesChange e.2 = true) ∧ (e.2.live ≠ [])) ∧
  (∃ (s : State) (c : Hdr) (stn : BitVec 7),
    (s.accepts 0x0506 c) ∧ (BitVec.toNat stn < 104) ∧ (s.active stn.toNat = true) ∧ ((s.stn stn.toNat).wdDone = false)) ∧
  (∃ (s : State) (c : Hdr) (stn : BitVec 7),
    (s.accepts 0x0506 c) ∧ (BitVec.toNat stn < 104) ∧ (s.active stn.toNat = true)) ∧
  (∃ (s : State) (c : Hdr) (stn : BitVec 7),
    (s.accepts 0x0506 c) ∧ (104 ≤ BitVec.toNat stn ∨ s.active stn.toNat = false)) ∧
  (∃ (s : State) (stn : Fin 104),
    (s.up = true) ∧ ((s.stn (Fin.val stn)).withdraw = true) ∧ ((s.stn stn.val).wdDone = false) ∧ ((∀ e ∈ s.crs.domains, e.2.running = true → stn.val ∉ e.2.run)) ∧ ((∀ q, q < 4 → s.quarterBusy stn.val q = false)) ∧ (s.homesAt stn.val = false)) ∧
  (∃ (s : State) (stn : Fin 104),
    (s.up = true) ∧ (s.homesAt (Fin.val stn) = true)) := by
  refine
      ⟨⟨up, (hd 1), 5, ?_, ?_, ?_, ?_⟩,
      ⟨up, (hd 1), 1, ?_, ?_, ?_, ?_⟩,
      ⟨up, (hd 1), 6, ?_, ?_⟩,
      ⟨({ up with rink.cfg := { busy := true, request := 4 }, cmd.waiting := [(.rink, hd 1)] }), ?_, ?_, ?_⟩,
      ⟨({ (running1 1 0 { dom0 with live := [(0, live0)] }) with rink.cfg := { busy := true, request := 2 } }), ((2, { dom0 with live := [(0, live0)] })), ?_, ?_, ?_, ?_, ?_⟩,
      ⟨up, (hd 1), 0, ?_, ?_, ?_, ?_⟩,
      ⟨({ up with rink.stn := [(0, { withdraw := true })] }), (hd 1), 0, ?_, ?_, ?_⟩,
      ⟨up, (hd 1), 103, ?_, ?_⟩,
      ⟨({ up with rink.stn := [(103, { withdraw := true })], cmd.waiting := [(.withdraw 103, hd 1)] }), 103, ?_, ?_, ?_, ?_, ?_, ?_⟩,
      ⟨({ up with mem.hdrs := [(5, { home := { tier := 0, off := 0 } })], rink.stn := [(0, { withdraw := true })] }), 0, ?_, ?_⟩⟩ <;>
    first | decide +kernel | exact ⟨by decide +kernel, by decide +kernel, by decide +kernel⟩ | rfl | exact ⟨_, rfl⟩

/-- The hypotheses of each clause of NearTierRows can be met together. -/
theorem witness_NearTierRows :
  (∃ (s : State),
    (s.up = true)) ∧
  (∃ (s : State),
    (s.up = true)) ∧
  (∃ (s : State) (d : Fin 4),
    (s.up = true) ∧ ((s.near (Fin.val d)).band ≠ 0) ∧ ((s.near d.val).burst = false) ∧ ((s.near d.val).due = true ∨ burstEvery (s.near d.val).band.toNat ≤ (s.near d.val).since + 1)) ∧
  (∃ (s : State) (d : Fin 4),
    (s.up = true) ∧ ((s.near (Fin.val d)).due = false) ∧ ((s.near d.val).since + 1 < burstEvery (s.near d.val).band.toNat)) ∧
  (∃ (s : State) (d : Fin 4),
    (s.up = true) ∧ ((s.near (Fin.val d)).burst = true)) := by
  refine
      ⟨⟨({ up with mem.near := [(3, { slot := 9 })] }), ?_⟩,
      ⟨up, ?_⟩,
      ⟨({ (running1 1 0 dom0) with mem.near := [(0, { band := 1, due := true })] }), 0, ?_, ?_, ?_, ?_⟩,
      ⟨({ (running1 1 0 dom0) with mem.near := [(0, { band := 1 })] }), 0, ?_, ?_, ?_⟩,
      ⟨({ (running1 1 0 dom0) with mem.near := [(0, { band := 1, burst := true })], crs.holds := [(2, { cause := 2 })] }), 0, ?_, ?_⟩⟩ <;>
    first | decide +kernel | exact ⟨by decide +kernel, by decide +kernel, by decide +kernel⟩ | rfl | exact ⟨_, rfl⟩

/-- The hypotheses of each clause of StackRows can be met together. -/
theorem witness_StackRows :
  (∃ (s : State),
    (s.up = true)) ∧
  (∃ (s : State) (k : Fin 8),
    (s.up = true) ∧ (2 * 4096 + Fin.val k ∈ s.test.running)) ∧
  (∃ (s : State),
    (s.up = true)) ∧
  (∃ (s : State),
    (s.up = true)) ∧
  (∃ (s : State) (k : Fin 8) (line : Nat) (b : BitVec 12) (tensor : BitVec 24) (tile : BitVec 40) (h : TileHdr),
    (s.up = true) ∧ (line ∉ (s.stack (Fin.val k)).poison) ∧ (s.tileHdr { bib := b, tensor := tensor, tile := tile } = some h)) ∧
  (∃ (s : State) (k : Fin 8) (line : Nat),
    (s.up = true) ∧ (line ∈ (s.stack (Fin.val k)).poison)) ∧
  (∃ (s : State),
    (s.up = true)) ∧
  (∃ (s : State) (k : Fin 8) (die : BitVec 4) (line : Nat),
    (s.up = true) ∧ ((s.stack (Fin.val k)).marked = false) ∧ ((die.toNat, line) ∉ (s.stack k.val).lines) ∧ (((s.stack k.val).lines.filter (fun e => e.1 = BitVec.toNat die)).length = 3)) ∧
  (∃ (s : State) (k : Fin 8) (die : BitVec 4),
    (s.up = true) ∧ (((s.stack (Fin.val k)).lines.filter (fun e => e.1 = BitVec.toNat die)).length < 3)) := by
  refine
      ⟨⟨({ up with cmd.waiting := [(.calibrate 2 7, hd 1), (.calibrate 2 6, hd 1)] }), ?_⟩,
      ⟨({ up with test.running := [2 * 4096 + 7] }), 7, ?_, ?_⟩,
      ⟨({ (running1 1 0 dom0) with sl.ports := [(3, { trained := true })] }), ?_⟩,
      ⟨up, ?_⟩,
      ⟨(tiled sumHdr), 7, 5, 3, 0, 0, sumHdr, ?_, ?_, ?_⟩,
      ⟨({ up with mem.stks := [(7, { poison := [5] })] }), 7, 5, ?_, ?_⟩,
      ⟨up, ?_⟩,
      ⟨({ up with mem.stks := [(7, { lines := [(9, 1), (9, 2), (9, 3), (8, 4)] })] }), 7, 9, 4, ?_, ?_, ?_, ?_⟩,
      ⟨({ up with mem.stks := [(7, { lines := [(9, 1), (9, 2)] })] }), 7, 9, ?_, ?_⟩⟩ <;>
    first | decide +kernel | exact ⟨by decide +kernel, by decide +kernel, by decide +kernel⟩ | rfl | exact ⟨_, rfl⟩

/-- The hypotheses of each clause of BaseEngineRows can be met together. -/
theorem witness_BaseEngineRows :
  (∃ (s : State) (t : TileId) (slot : BitVec 8) (src : AddSrc) (vals : List (BitVec 40)) (term : BitVec 32) (sr : Bool) (seed : BitVec 4) (k : Course) (h : TileHdr),
    (s.up = true) ∧ (s.course (BitVec.toNat slot) = some k) ∧ (s.addend t slot src = some (vals, term, sr, seed)) ∧ (s.tileHdr t = some h) ∧ (s.mirrorOf t.bib t.tensor = none) ∧ (h.state = 0) ∧ (h.id = t) ∧ (h.reserved = false) ∧ (h.fmt = 8) ∧ (h.poison = false) ∧ (h.home.tier.toNat ≤ 2) ∧ (BitVec.toNat term = h.terms.toNat + 1)) ∧
  (∃ (s : State) (t : TileId) (slot : BitVec 8) (src : AddSrc) (vals : List (BitVec 40)) (term : BitVec 32) (sr : Bool) (seed : BitVec 4) (k : Course) (h : TileHdr),
    (s.up = true) ∧ (s.course (BitVec.toNat slot) = some k) ∧ (s.addend t slot src = some (vals, term, sr, seed)) ∧ (s.tileHdr t = some h) ∧ (s.mirrorOf t.bib t.tensor = none) ∧ (h.state = 0) ∧ (h.id = t) ∧ (h.fmt = 8) ∧ (h.poison = false) ∧ (BitVec.toNat term ≠ h.terms.toNat + 1) ∧ ((s.bib k.bib).state = .running)) ∧
  (∃ (s : State) (bib : BitVec 12) (src : BitVec 48) (dst : BitVec 48) (a : HomeAddr) (b : HomeAddr) (dir : GatherDir),
    (s.up = true) ∧ (s.memoryWf) ∧ (s.xlate bib (BitVec.toNat src) false false = .ok a) ∧ (s.xlate bib (BitVec.toNat dst) true false = .ok b) ∧ (a.tier = 2) ∧ (b.tier = 2) ∧ (stackOf a = stackOf b) ∧ (dir ≠ .scatterAdd) ∧ (src.toNat % 2 ^ 21 + 64 ≤ 2 ^ 21) ∧ (dst.toNat % 2 ^ 21 + 64 ≤ 2 ^ 21)) ∧
  (∃ (s : State) (bib : BitVec 12) (src : BitVec 48) (dst : BitVec 48) (a : HomeAddr) (b : HomeAddr),
    (s.up = true) ∧ (s.xlate bib (BitVec.toNat src) false false = .ok a) ∧ (s.xlate bib (BitVec.toNat dst) true false = .ok b) ∧ (a.tier = 2) ∧ (b.tier = 2) ∧ (stackOf a = stackOf b) ∧ (src.toNat % 2 ^ 21 + 320 ≤ 2 ^ 21) ∧ (dst.toNat % 2 ^ 21 + 320 ≤ 2 ^ 21) ∧ (homeKey a + 320 ≤ homeKey b ∨ homeKey b + 320 ≤ homeKey a)) ∧
  (∃ (s : State) (bib : BitVec 12) (cand : Cand) (l : TopList),
    (s.up = true) ∧ (s.mem.lists.lookup (BitVec.toNat bib * 2 ^ 24 + cand.list.toNat) = some l) ∧ (l.bib = bib) ∧ (isNan cand.dist = false)) ∧
  (∃ (s : State) (bib : BitVec 12) (cand : Cand) (l : TopList),
    (s.up = true) ∧ (s.mem.lists.lookup (BitVec.toNat bib * 2 ^ 24 + cand.list.toNat) = some l) ∧ (l.bib = bib) ∧ (isNan cand.dist = true) ∧ (l.nanDrop ≠ 0xFFFF)) ∧
  (∃ (s : State) (id : TileId) (h : TileHdr),
    (s.up = true) ∧ (s.tileHdr id = some h) ∧ (h.state ≠ 1) ∧ (h.home.tier = 2)) ∧
  (∃ (s : State) (id : TileId) (h : TileHdr),
    (s.up = true) ∧ (s.tileHdr id = some h) ∧ (h.state ≠ 1) ∧ (h.home.tier ≠ 2)) ∧
  (∃ (s : State) (home : HomeAddr) (n : Nat),
    (s.up = true) ∧ (home.tier = 2) ∧ (s.addrOk home = true) ∧ (home.off.toNat % 2 ^ 21 + n ≤ 2 ^ 21)) ∧
  (∃ (s : State) (home : HomeAddr) (n : Nat),
    (s.up = true) ∧ (home.tier ≠ 2 ∨ s.addrOk home = false ∨ 2 ^ 21 < home.off.toNat % 2 ^ 21 + n)) ∧
  (∃ (s : State) (lines : List Nat) (bad : List Nat) (l : Nat),
    (s.up = true) ∧ (l ∈ lines) ∧ (l ∈ bad)) := by
  refine
      ⟨⟨add0, tid0, 2, (.tile { tid0 with tensor := 1 } 4 false 3), addVals, 4, false, 3, (course1 1 0), sumHdr, ?_, ?_, ?_, ?_, ?_, ?_, ?_, ?_, ?_, ?_, ?_, ?_⟩,
      ⟨add0, tid0, 2, (.tile { tid0 with tensor := 1 } 5 false 3), addVals, 5, false, 3, (course1 1 0), sumHdr, ?_, ?_, ?_, ?_, ?_, ?_, ?_, ?_, ?_, ?_, ?_⟩,
      ⟨paged2, 3, 0, 0x200000, ({ tier := 2, off := 0x800000 }), ({ tier := 2, off := 0xA00000 }), .gather, ?_, ?_, ?_, ?_, ?_, ?_, ?_, ?_, ?_, ?_⟩,
      ⟨paged2, 3, 0, 0x200000, ({ tier := 2, off := 0x800000 }), ({ tier := 2, off := 0xA00000 }), ?_, ?_, ?_, ?_, ?_, ?_, ?_, ?_, ?_⟩,
      ⟨({ up with mem.lists := [(3 * 2 ^ 24 + 9, { bib := 3, k := 2, sense := false, thresh := 0x7F80000000, entries := [(5, 6)] })] }), 3, ({ list := 9, dist := 4, index := 8 }), ({ bib := 3, k := 2, sense := false, thresh := 0x7F80000000, entries := [(5, 6)] }), ?_, ?_, ?_, ?_⟩,
      ⟨({ up with mem.lists := [(3 * 2 ^ 24 + 9, { bib := 3, k := 2, sense := false, thresh := 0x7F80000000 })] }), 3, ({ list := 9, dist := 0x7FC0000000, index := 8 }), ({ bib := 3, k := 2, sense := false, thresh := 0x7F80000000 }), ?_, ?_, ?_, ?_, ?_⟩,
      ⟨({ (tiled sumHdr) with mem.bytes := [(byteKey 2 0x40000, 7), (byteKey 2 0x40000 + tileBytesOf 8, 7)] }), tid0, sumHdr, ?_, ?_, ?_, ?_⟩,
      ⟨(tiled { sumHdr with home := { tier := 1, off := 0 } }), tid0, ({ sumHdr with home := { tier := 1, off := 0 } }), ?_, ?_, ?_, ?_⟩,
      ⟨({ up with mem.bytes := [(byteKey 2 0x40000, 7), (byteKey 2 0x40040, 7)] }), ({ tier := 2, off := 0x40000 }), 64, ?_, ?_, ?_, ?_⟩,
      ⟨up, ({ tier := 2, off := 0x1FFFC0 }), 65, ?_, ?_⟩,
      ⟨up, ([4, 5]), ([5, 9]), 5, ?_, ?_, ?_⟩⟩ <;>
    first | with_reducible exact add0_addend _ | decide +kernel | exact ⟨by decide +kernel, by decide +kernel, by decide +kernel⟩ | rfl | exact ⟨_, rfl⟩

/-- The hypotheses of each clause of HeaderAndPageRows can be met together. -/
theorem witness_HeaderAndPageRows :
  (∃ (s : State) (id : TileId) (fmt : BitVec 4) (home : HomeAddr) (h : TileHdr),
    (s.up = true) ∧ (s.tileHdr id = some h) ∧ (h.state = 0) ∧ (h.id = id) ∧ (h.home = home) ∧ (h.fmt = fmt) ∧ (h.poison = false) ∧ (h.reserved = false) ∧ (home.tier.toNat ≤ 4) ∧ (h.wact = false)) ∧
  (∃ (s : State) (id : TileId) (fmt : BitVec 4) (home : HomeAddr) (h : TileHdr),
    (s.up = true) ∧ (s.tileHdr id = some h) ∧ (h.state = 0) ∧ (h.id = id) ∧ (h.home = home) ∧ (h.fmt = fmt) ∧ (h.poison = false) ∧ (h.reserved = false) ∧ (home.tier.toNat ≤ 4)) ∧
  (∃ (s : State) (id : TileId) (slot : BitVec 8) (home : HomeAddr) (h : TileHdr) (k : Course),
    (s.up = true) ∧ (s.tileHdr id = some h) ∧ (h.state ≠ 1) ∧ (h.home ≠ home) ∧ (s.course (BitVec.toNat slot) = some k) ∧ ((s.bib k.bib).state = .running)) ∧
  (∃ (s : State) (id : TileId) (h : TileHdr) (hcrc : BitVec 32),
    (s.up = true) ∧ (s.tileHdr id = some h) ∧ (h.state ≠ 1) ∧ (hcrc ≠ h.hcrc)) ∧
  (∃ (s : State) (bib : BitVec 12) (page : BitVec 27) (w : Bool) (strm : Option (BitVec 12)) (h : HomeAddr),
    (s.up = true) ∧ (s.xlate bib (BitVec.toNat page * 2 ^ 21) w (Option.isSome strm) = .ok h)) ∧
  (∃ (s : State) (bib : BitVec 12) (page : BitVec 27) (tier : BitVec 3) (frame : BitVec 29),
    (s.up = true) ∧ (s.memoryWf) ∧ (let e := s.pte bib (BitVec.toNat page); e.state = 1) ∧ (s.frameFree (BitVec.toNat tier) (BitVec.toNat frame) = true) ∧ (let e := s.pte bib (BitVec.toNat page); s.mem.owners.lookup (frameKey e.tier.toNat e.frame.toNat) = some bib) ∧ (let e := s.pte bib (BitVec.toNat page); s.frameMoving e.tier.toNat e.frame.toNat = false) ∧ (let e := s.pte bib (BitVec.toNat page); ((s.quotaBib bib).usePage e.tier.toNat e.frame.toNat false).quotaFor tier.toNat frame.toNat = true)) ∧
  (∃ (s : State) (tier : BitVec 3),
    (s.up = true) ∧ (4 < BitVec.toNat tier)) := by
  refine
      ⟨⟨(tiled sumHdr), tid0, 8, ({ tier := 2, off := 0x40000 }), sumHdr, ?_, ?_, ?_, ?_, ?_, ?_, ?_, ?_, ?_, ?_⟩,
      ⟨(tiled sumHdr), tid0, 8, ({ tier := 2, off := 0x40000 }), sumHdr, ?_, ?_, ?_, ?_, ?_, ?_, ?_, ?_, ?_⟩,
      ⟨(tiled sumHdr), tid0, 2, ({ tier := 2, off := 0x40001 }), sumHdr, (course1 1 0), ?_, ?_, ?_, ?_, ?_, ?_⟩,
      ⟨(tiled sumHdr), tid0, sumHdr, (sumHdr.hcrc + 1), ?_, ?_, ?_, ?_⟩,
      ⟨paged2, 3, 1, true, none, ({ tier := 2, off := 0xA00000 }), ?_, ?_⟩,
      ⟨paged2, 3, 0, 2, 9, ?_, ?_, ?_, ?_, ?_, ?_, ?_⟩,
      ⟨paged2, 5, ?_, ?_⟩⟩ <;>
    first | decide +kernel | exact ⟨by decide +kernel, by decide +kernel, by decide +kernel⟩ | rfl | exact ⟨_, rfl⟩

/-- The hypotheses of each clause of MoveRows can be met together. -/
theorem witness_MoveRows :
  (∃ (s : State) (id : Nat) (tile : TileId) (dst : HomeAddr) (m : Fin 16) (h : TileHdr),
    (s.up = true) ∧ (s.tileHdr tile = some h) ∧ (s.addrOkFor tile.bib dst = true) ∧ (s.mem.moves.has id = false) ∧ (s.moveOk (tileKey tile) h dst (Fin.val m) = true) ∧ (s.scratchOver h dst = none)) ∧
  (∃ (s : State) (tile : TileId) (dst : HomeAddr),
    (s.up = true) ∧ (s.addrOkFor (TileId.bib tile) dst = false)) ∧
  (∃ (s : State) (id : Nat) (tile : TileId) (dst : HomeAddr) (m : Fin 16) (h : TileHdr) (c : Nat) (seg : Nat) (k : Course),
    (s.up = true) ∧ (s.tileHdr tile = some h) ∧ (s.addrOkFor tile.bib dst = true) ∧ (s.mem.moves.has id = false) ∧ (s.moveOk (tileKey tile) h dst (Fin.val m) = true) ∧ (s.scratchOver h dst = some (c, seg)) ∧ (s.course c = some k) ∧ ((s.bib k.bib).state = .running)) ∧
  (∃ (s : State) (id : Nat) (mv : Move) (h : TileHdr),
    (s.up = true) ∧ (s.mem.moves.lookup id = some mv) ∧ (s.mem.hdrs.lookup mv.tile = some h) ∧ (mv.phase = .accepted) ∧ (h.state = 0)) ∧
  (∃ (s : State) (id : Nat) (mv : Move) (h : TileHdr),
    (s.up = true) ∧ (s.memoryWf) ∧ (s.mem.moves.lookup id = some mv) ∧ (s.mem.hdrs.lookup mv.tile = some h) ∧ (mv.phase = .moving)) ∧
  (∃ (s : State) (id : Nat) (mv : Move) (h : TileHdr),
    (s.up = true) ∧ (s.mem.moves.lookup id = some mv) ∧ (s.mem.hdrs.lookup mv.tile = some h) ∧ (mv.phase = .arrived) ∧ (mv.strm = none)) ∧
  (∃ (s : State) (id : Nat) (mv : Move) (n : Nat) (x : Strm),
    (s.up = true) ∧ (s.mem.moves.lookup id = some mv) ∧ ((s.mem.hdrs.lookup mv.tile).isSome = true) ∧ (mv.phase = .arrived) ∧ (mv.strm = some n) ∧ (s.strm n = some x) ∧ (mv.ret = 0)) ∧
  (∃ (s : State) (id : Nat) (mv : Move),
    (s.up = true) ∧ (s.mem.moves.lookup id = some mv) ∧ (mv.phase = .committed) ∧ (mv.strm = none)) ∧
  (∃ (s : State) (id : Nat) (mv : Move) (h : TileHdr),
    (s.up = true) ∧ (s.mem.moves.lookup id = some mv) ∧ (s.mem.hdrs.lookup mv.tile = some h) ∧ (mv.phase = .moving) ∧ (h.state = 1) ∧ (mv.reissued = false)) := by
  refine
      ⟨⟨(tiled sumHdr), 8, tid0, ({ tier := 1, off := 0x80000 }), 15, sumHdr, ?_, ?_, ?_, ?_, ?_, ?_⟩,
      ⟨(tiled sumHdr), tid0, ({ tier := 5, off := 0 }), ?_, ?_⟩,
      ⟨({ (running1 1 0 { dom0 with live := [(0, live0)] }) with mem.hdrs := [(tileKey tid0, hdr0 0 1 0)] }), 8, tid0, ({ tier := 0, off := 0 }), 3, (hdr0 0 1 0), 2, 0, (course1 1 0), ?_, ?_, ?_, ?_, ?_, ?_, ?_, ?_⟩,
      ⟨(moving .accepted sumHdr), 8, (move0 .accepted), sumHdr, ?_, ?_, ?_, ?_, ?_⟩,
      ⟨(moving .moving { sumHdr with state := 1 }), 8, (move0 .moving), ({ sumHdr with state := 1 }), ?_, ?_, ?_, ?_, ?_⟩,
      ⟨(moving .arrived { sumHdr with state := 1 }), 8, (move0 .arrived), ({ sumHdr with state := 1 }), ?_, ?_, ?_, ?_, ?_⟩,
      ⟨({ (moving .arrived { sumHdr with state := 1 }) with mem.moves := [(8, { move0 .arrived with strm := some 6, item := 1 })], lift.strm := [(6, { bib := 3, slot := 2, state := 2, late := [1] })] }), 8, ({ move0 .arrived with strm := some 6, item := 1 }), 6, ({ bib := 3, slot := 2, state := 2, late := [1] }), ?_, ?_, ?_, ?_, ?_, ?_, ?_⟩,
      ⟨({ (moving .committed sumHdr) with mem.moves := [(8, { move0 .committed with src := { tier := 1, off := 5 } })] }), 8, ({ move0 .committed with src := { tier := 1, off := 5 } }), ?_, ?_, ?_, ?_⟩,
      ⟨(moving .moving { sumHdr with state := 1 }), 8, (move0 .moving), ({ sumHdr with state := 1 }), ?_, ?_, ?_, ?_, ?_, ?_⟩⟩ <;>
    first | decide +kernel | exact ⟨by decide +kernel, by decide +kernel, by decide +kernel⟩ | rfl | exact ⟨_, rfl⟩

/-- The hypotheses of each clause of LockerRows can be met together. -/
theorem witness_LockerRows :
  (∃ (s : State) (slot : BitVec 8) (seg : BitVec 20) (die : Fin 4) (kind : BitVec 4) (fmt : BitVec 4) (reads : BitVec 2) (tensor : BitVec 32) (unit : BitVec 24) (k : Course) (d : Domain) (l : LiveSeg) (data : List Byte),
    (s.up = true) ∧ (s.course (BitVec.toNat slot) = some k) ∧ (s.domain slot.toNat = some d) ∧ (d.live.lookup (BitVec.toNat seg) = some l) ∧ (d.running = true) ∧ (d.suspended = false) ∧ (BitVec.toNat kind ≠ 0) ∧ (BitVec.toNat kind ≤ 5) ∧ ((BitVec.toNat kind = 1 → (fmtOf (BitVec.toNat fmt)).isSome = true)) ∧ (BitVec.toNat reads ≠ 0) ∧ (s.entryData k slot kind.toNat (BitVec.toNat fmt) tensor unit = .ready data) ∧ ((∀ e ∈ s.lkr.entries, e.slot = slot → e.die = Fin.val die → e.tier ≠ 0 ∧ e.tier ≠ 3)) ∧ (entrySize kind.toNat (BitVec.toNat fmt) ≤ bits (k.locker.getD die.val 0) 14 10 * 65536)) ∧
  (∃ (s : State) (slot : BitVec 8) (die : Fin 4) (tensor : BitVec 32) (unit : BitVec 24) (mb : BitVec 8) (e : LkrEntry),
    (s.up = true) ∧ (s.lkr.entries.find? (fun e => e.slot = slot && e.die = Fin.val die && e.tensor = tensor && e.unit = unit && e.mb = mb) = some e) ∧ (e.tier = 0) ∧ (s.tileAway e = false)) ∧
  (∃ (s : State) (slot : BitVec 8) (die : Fin 4) (tensor : BitVec 32) (unit : BitVec 24) (mb : BitVec 8) (e : LkrEntry) (d : Domain),
    (s.up = true) ∧ (s.lkr.entries.find? (fun e => e.slot = slot && e.die = Fin.val die && e.tensor = tensor && e.unit = unit && e.mb = mb) = some e) ∧ (e.tier = 0) ∧ (s.tileAway e = false) ∧ (s.domain (BitVec.toNat slot) = some d)) ∧
  (∃ (s : State) (slot : BitVec 8) (die : Fin 4) (tensor : BitVec 32) (unit : BitVec 24) (mb : BitVec 8) (k : Course),
    (s.up = true) ∧ ((∀ e ∈ s.lkr.entries, e.slot = slot → e.die = Fin.val die → e.tensor = tensor → e.unit = unit → e.mb ≠ mb)) ∧ (s.course (BitVec.toNat slot) = some k) ∧ ((s.bib k.bib).state = .running)) := by
  refine
      ⟨⟨keep0, 2, 0, 1, 1, 1, 3, 0, 0, courseK, ({ dom0 with live := [(0, live0)] }), live0, keepData, ?_, ?_, ?_, ?_, ?_, ?_, ?_, ?_, ?_, ?_, ?_, ?_, ?_⟩,
      ⟨({ (running1 1 0 dom0) with lkr.entries := [entry0 1] }), 2, 1, 3, 4, 5, (entry0 1), ?_, ?_, ?_, ?_⟩,
      ⟨({ (running1 1 0 dom0) with lkr.entries := [entry0 1] }), 2, 1, 3, 4, 5, (entry0 1), dom0, ?_, ?_, ?_, ?_, ?_⟩,
      ⟨({ (running1 1 0 dom0) with lkr.entries := [entry0 1] }), 2, 1, 3, 4, 6, (course1 1 0), ?_, ?_, ?_, ?_⟩⟩ <;>
    first | with_reducible exact keep0_data | decide +kernel | exact ⟨by decide +kernel, by decide +kernel, by decide +kernel⟩ | rfl | exact ⟨_, rfl⟩

/-- The hypotheses of each clause of StreamLifeRows can be met together. -/
theorem witness_StreamLifeRows :
  (∃ (s : State) (slot : BitVec 8) (decl : BitVec 20) (strm : BitVec 12) (k : Course) (d : Domain),
    (s.up = true) ∧ (s.course (BitVec.toNat slot) = some k) ∧ (s.domain slot.toNat = some d) ∧ (s.mayRun slot.toNat = true) ∧ (d.pc ∈ k.openers (BitVec.toNat decl)) ∧ (s.lift.strm.has (BitVec.toNat strm) = false) ∧ ((∀ e ∈ s.lift.strm, e.2.slot = slot → e.2.decl ≠ decl)) ∧ ((s.strmsOf slot.toNat).length < s.lift.reserved.read 0 slot.toNat)) ∧
  (∃ (s : State) (strm : BitVec 12) (x : Strm) (k : Course) (d : Domain),
    (s.up = true) ∧ (s.strm (BitVec.toNat strm) = some x) ∧ (s.course x.slot.toNat = some k) ∧ (s.domain x.slot.toNat = some d) ∧ (x.fin0 < d.finishes.read 0 (stClose (k.stream x.decl.toNat))) ∧ (2 ≤ x.state.toNat) ∧ (x.state.toNat ≤ 4) ∧ (x.items = [])) ∧
  (∃ (s : State) (strm : BitVec 12) (dst : HomeAddr) (m : Fin 16) (x : Strm) (k : Course) (d : Domain) (h : TileHdr) (j : Nat),
    (s.up = true) ∧ (s.strm (BitVec.toNat strm) = some x) ∧ (s.course x.slot.toNat = some k) ∧ (s.domain x.slot.toNat = some d) ∧ (s.mayIssue x = true) ∧ ((∀ e ∈ x.items, e.2.ret = 0)) ∧ (x.state = 2) ∧ (x.pick = j) ∧ (j < (k.items x.decl.toNat).length) ∧ (x.items.has j = false) ∧ (d.running = true) ∧ (d.suspended = false) ∧ (s.held x.slot.toNat = false ∨ x.owesLate = true) ∧ ((∃ a, s.xlate k.bib (k.itemVa x.decl.toNat j) false true = .ok a)) ∧ (s.mem.hdrs.lookup (tileKey (k.itemId x.decl.toNat j)) = some h) ∧ (h.fmt.toNat = tnFmt (k.tensor (stTensor (k.stream x.decl.toNat)))) ∧ (s.itemDst k d x.decl.toNat j dst = true) ∧ (s.slotFree k (s.bib x.bib).args (BitVec.toNat strm) x d.w (k.itemStn d x.decl.toNat j) = true) ∧ (s.moveOk (tileKey (k.itemId x.decl.toNat j)) h dst (Fin.val m) = true)) ∧
  (∃ (s : State) (strm : BitVec 12) (dst : HomeAddr) (x : Strm) (k : Course),
    (s.up = true) ∧ (s.strm (BitVec.toNat strm) = some x) ∧ (s.course x.slot.toNat = some k) ∧ (4 < (HomeAddr.tier dst).toNat)) ∧
  (∃ (s : State) (strm : BitVec 12) (x : Strm),
    (s.up = true) ∧ (s.strm (BitVec.toNat strm) = some x) ∧ (x.items = [])) ∧
  (∃ (s : State) (strm : BitVec 12),
    (s.up = true) ∧ (s.strm (BitVec.toNat strm) = none)) := by
  refine
      ⟨⟨(lifting (decl0 0 0 0) 4 []), 2, 0, 9, (course2 (decl0 0 0 0) 4), dom0, ?_, ?_, ?_, ?_, ?_, ?_, ?_, ?_⟩,
      ⟨(lifting (decl0 1 0 0) 4 [(9, strm0)] { dom0 with finishes := [(0, 1)] }), 9, strm0, (course2 (decl0 1 0 0) 4), ({ dom0 with finishes := [(0, 1)] }), ?_, ?_, ?_, ?_, ?_, ?_, ?_, ?_⟩,
      ⟨(lifting (decl0 0 0 0) 4 [(9, strm0)]), 9, ({ tier := 1, off := 0x10000 }), 15, strm0, (course2 (decl0 0 0 0) 4), dom0, ({ hdr0 0 1 0x800000 with home := { tier := 2, off := 0x800000 } }), 0, ?_, ?_, ?_, ?_, ?_, ?_, ?_, ?_, ?_, ?_, ?_, ?_, ?_, ?_, ?_, ?_, ?_, ?_, ?_⟩,
      ⟨(lifting (decl0 0 0 0) 4 [(9, strm0)]), 9, ({ tier := 5, off := 0 }), strm0, (course2 (decl0 0 0 0) 4), ?_, ?_, ?_, ?_⟩,
      ⟨(lifting (decl0 0 0 0) 4 [(9, strm0)]), 9, strm0, ?_, ?_, ?_⟩,
      ⟨up, 9, ?_, ?_⟩⟩ <;>
    first | decide +kernel | exact ⟨by decide +kernel, by decide +kernel, by decide +kernel⟩ | rfl | exact ⟨_, rfl⟩

/-- The hypotheses of each clause of StreamItemRows can be met together. -/
theorem witness_StreamItemRows :
  (∃ (s : State) (strm : BitVec 12) (item : BitVec 24) (x : Strm) (k : Course) (i : LiftItem),
    (s.up = true) ∧ (s.strm (BitVec.toNat strm) = some x) ∧ (s.course x.slot.toNat = some k) ∧ (x.items.lookup (BitVec.toNat item) = some i) ∧ (i.committed = true) ∧ (stDispose (k.stream x.decl.toNat) ≠ 2)) ∧
  (∃ (s : State) (strm : BitVec 12) (item : BitVec 24) (x : Strm) (k : Course) (d : Domain),
    (s.up = true) ∧ (s.strm (BitVec.toNat strm) = some x) ∧ (s.course x.slot.toNat = some k) ∧ (s.domain x.slot.toNat = some d) ∧ (d.running = true) ∧ (d.suspended = false) ∧ (2 ≤ x.state.toNat) ∧ (x.state.toNat ≤ 4) ∧ (BitVec.toNat item < (k.items x.decl.toNat).length) ∧ (x.items.lookup item.toNat = none) ∧ (item.toNat ∉ x.late)) ∧
  (∃ (s : State) (strm : BitVec 12) (item : BitVec 24) (va : BitVec 48) (x : Strm) (k : Course),
    (s.up = true) ∧ (s.strm (BitVec.toNat strm) = some x) ∧ (s.course x.slot.toNat = some k) ∧ (x.pick = BitVec.toNat item) ∧ (item.toNat < (k.items x.decl.toNat).length) ∧ (k.itemVa x.decl.toNat item.toNat / 2 ^ 21 = BitVec.toNat va / 2 ^ 21) ∧ (s.xlate k.bib (k.itemVa x.decl.toNat item.toNat) false true = .halt) ∧ (x.state = 2)) ∧
  (∃ (s : State) (strm : BitVec 12) (x : Strm) (k : Course) (h : HomeAddr),
    (s.up = true) ∧ (s.strm (BitVec.toNat strm) = some x) ∧ (s.course x.slot.toNat = some k) ∧ (x.state = 3) ∧ (s.xlate k.bib (k.itemVa x.decl.toNat x.next.toNat) false true = .ok h) ∧ ((∀ y, s.tileHdr (k.itemId x.decl.toNat x.next.toNat) = some y → y.state ≠ 2))) ∧
  (∃ (s : State) (strm : BitVec 12) (other : BitVec 12) (x : Strm) (y : Strm) (k : Course) (ky : Course) (d : Domain),
    (s.up = true) ∧ (s.strm (BitVec.toNat strm) = some x) ∧ (s.strm (BitVec.toNat other) = some y) ∧ (s.course x.slot.toNat = some k) ∧ (s.course y.slot.toNat = some ky) ∧ (s.domain x.slot.toNat = some d) ∧ (64 ≤ s.lift.cycle.read 0 strm.toNat) ∧ (64 ≤ s.lift.cycle.read 0 other.toNat) ∧ (x.bib = y.bib) ∧ (samePool (k.stream x.decl.toNat) (ky.stream y.decl.toNat) = true) ∧ (s.oldestDue y ≤ s.oldestDue x) ∧ (d.unwinds = 0)) ∧
  (∃ (s : State) (strm : BitVec 12) (other : BitVec 12) (x : Strm) (y : Strm) (k : Course) (ky : Course) (d : Domain),
    (s.up = true) ∧ (s.strm (BitVec.toNat strm) = some x) ∧ (s.strm (BitVec.toNat other) = some y) ∧ (s.course x.slot.toNat = some k) ∧ (s.course y.slot.toNat = some ky) ∧ (s.domain x.slot.toNat = some d) ∧ (64 ≤ s.lift.cycle.read 0 strm.toNat) ∧ (64 ≤ s.lift.cycle.read 0 other.toNat) ∧ (x.bib = y.bib) ∧ (samePool (k.stream x.decl.toNat) (ky.stream y.decl.toNat) = true) ∧ (s.oldestDue y ≤ s.oldestDue x) ∧ (d.unwinds ≠ 0) ∧ ((s.bib k.bib).state = .running)) := by
  refine
      ⟨⟨(lifting (decl0 1 0 0) 4 [(9, { strm0 with items := [(0, item0)] })]), 9, 0, ({ strm0 with items := [(0, item0)] }), (course2 (decl0 1 0 0) 4), item0, ?_, ?_, ?_, ?_, ?_, ?_⟩,
      ⟨(lifting (decl0 0 0 0) 4 [(9, strm0)]), 9, 3, strm0, (course2 (decl0 0 0 0) 4), dom0, ?_, ?_, ?_, ?_, ?_, ?_, ?_, ?_, ?_, ?_, ?_⟩,
      ⟨(lifting (decl0 0 0 0) 4 [(9, strm0)] dom0 { tier := 2, frame := 4, state := 2 }), 9, 0, 0x1FFFFF, strm0, (course2 (decl0 0 0 0) 4), ?_, ?_, ?_, ?_, ?_, ?_, ?_, ?_⟩,
      ⟨(lifting (decl0 0 0 0) 4 [(9, { strm0 with state := 3 })]), 9, ({ strm0 with state := 3 }), (course2 (decl0 0 0 0) 4), ({ tier := 2, off := 0x800000 }), ?_, ?_, ?_, ?_, ?_, ?_⟩,
      ⟨({ lifting (decl0 0 0 0) 4 [(9, { strm0 with items := [(0, item0)], next := 1 }), (10, strm0)] with lift.cycle := [(9, 64), (10, 64)] }), 9, 10, ({ strm0 with items := [(0, item0)], next := 1 }), strm0, (course2 (decl0 0 0 0) 4), (course2 (decl0 0 0 0) 4), dom0, ?_, ?_, ?_, ?_, ?_, ?_, ?_, ?_, ?_, ?_, ?_, ?_⟩,
      ⟨({ lifting (decl0 0 0 0) 4 [(9, { strm0 with items := [(0, item0)], next := 1 }), (10, strm0)] { dom0 with unwinds := 1 } with lift.cycle := [(9, 64), (10, 64)] }), 9, 10, ({ strm0 with items := [(0, item0)], next := 1 }), strm0, (course2 (decl0 0 0 0) 4), (course2 (decl0 0 0 0) 4), ({ dom0 with unwinds := 1 }), ?_, ?_, ?_, ?_, ?_, ?_, ?_, ?_, ?_, ?_, ?_, ?_, ?_⟩⟩ <;>
    first | decide +kernel | exact ⟨by decide +kernel, by decide +kernel, by decide +kernel⟩ | rfl | exact ⟨_, rfl⟩

/-- The hypotheses of each clause of MxConvertRow can be met together. -/
theorem witness_MxConvertRow :
  (∃ (s : State) (strm : BitVec 12) (item : BitVec 24) (x : Strm) (k : Course) (d : Domain) (h : TileHdr),
    (s.up = true) ∧ (s.strm (BitVec.toNat strm) = some x) ∧ (s.course x.slot.toNat = some k) ∧ (s.domain x.slot.toNat = some d) ∧ (let r := k.stream x.decl.toNat; stDest r = 3) ∧ (x.state = 2) ∧ (x.next = item) ∧ (item.toNat < (k.items x.decl.toNat).length) ∧ (s.mayRun x.slot.toNat = true) ∧ (let r := k.stream x.decl.toNat; let t := tileOf k.bib (stTensor r) ((k.items x.decl.toNat).getD (BitVec.toNat item) 0); s.tileHdr t = some h) ∧ (h.state = 0) ∧ (let r := k.stream x.decl.toNat; h.fmt.toNat = fmtCode (mxFmt (stMxFmt r))) ∧ (let r := k.stream x.decl.toNat; stMxDir r = false) ∧ (let r := k.stream x.decl.toNat; (∀ a, s.xlate k.bib (bits (k.blocks.getD (stBlFirst r) 0) 0 48) false false ≠ .ok a))) := by
  refine
      ⟨({ lifting (decl0 0 3 (rec_ [(244, 5)])) 4 [(9, strm0)] with crs.courses := [(2, { course2 (decl0 0 3 (rec_ [(244, 5)]) - rec_ [(174, 1)] + rec_ [(174, 2)]) 4 with blocks := [2 ^ 47, rec_ [(12, 4), (0, 1)]] })], mem.hdrs := [(tileKey tid0, { hdr0 0 4 0x800000 with home := { tier := 2, off := 0x800000 } })] }), 9, 0, strm0, ({ course2 (decl0 0 3 (rec_ [(244, 5)]) - rec_ [(174, 1)] + rec_ [(174, 2)]) 4 with blocks := [2 ^ 47, rec_ [(12, 4), (0, 1)]] }), dom0, ({ hdr0 0 4 0x800000 with home := { tier := 2, off := 0x800000 } }), ?_, ?_, ?_, ?_, ?_, ?_, ?_, ?_, ?_, ?_, ?_, ?_, ?_, ?_⟩ <;>
    first | decide +kernel | exact ⟨by decide +kernel, by decide +kernel, by decide +kernel⟩ | rfl | exact ⟨_, rfl⟩ | exact not_ok (by decide +kernel)

/-- The hypotheses of each clause of VerdictRows can be met together. -/
theorem witness_VerdictRows :
  (∃ (s : State) (slot : BitVec 8) (k : Course) (d : Domain) (n : Nat) (l : Nat),
    (s.up = true) ∧ (s.course (BitVec.toNat slot) = some k) ∧ (s.domain slot.toNat = some d) ∧ (s.verdictGate slot.toNat = some (n, l)) ∧ (d.running = true) ∧ (d.suspended = false) ∧ (d.lost = false) ∧ (d.tokens ≠ 0) ∧ ((s.exch n (s.gate n).epoch).formed = false) ∧ ((s.gate n).state = 1) ∧ ((s.updated slot.toNat).length = (s.ownedPatches k).length) ∧ (s.upd.lanes.any (fun _ x => x.any (fun y => y.slot = slot)) = false)) ∧
  (∃ (s : State) (slot : BitVec 8) (plus : Bool) (ov : Bool) (k : Course) (n : Nat) (l : Nat) (j : Nat) (jb : Job),
    (s.up = true) ∧ (s.course (BitVec.toNat slot) = some k) ∧ (s.verdictGate slot.toNat = some (n, l)) ∧ (s.jobOf k.bib = some (j, jb)) ∧ (let v := s.exch n (s.gate n).epoch; (2 * jb.roundDim (v.rounds jb) + Bool.toNat (!plus), ov) ∈ v.inbox)) ∧
  (∃ (s : State) (slot : BitVec 8) (k : Course) (d : Domain) (n : Nat) (l : Nat),
    (s.up = true) ∧ (s.course (BitVec.toNat slot) = some k) ∧ (s.domain slot.toNat = some d) ∧ (s.verdictGate slot.toNat = some (n, l)) ∧ (d.running = true) ∧ (d.suspended = false) ∧ (d.lost = false) ∧ (d.tokens ≠ 0) ∧ (s.verdictReady slot.toNat k n = true) ∧ ((s.exch n (s.gate n).epoch).overflow = false) ∧ (s.jobOf k.bib = none)) ∧
  (∃ (s : State) (slot : BitVec 8) (k : Course) (d : Domain) (n : Nat) (l : Nat),
    (s.up = true) ∧ (s.course (BitVec.toNat slot) = some k) ∧ (s.domain slot.toNat = some d) ∧ (s.verdictGate slot.toNat = some (n, l)) ∧ (d.running = true) ∧ (d.suspended = false) ∧ (d.lost = false) ∧ (d.tokens ≠ 0) ∧ (s.verdictReady slot.toNat k n = true) ∧ ((s.exch n (s.gate n).epoch).overflow = true) ∧ (d.skips < 7)) ∧
  (∃ (s : State) (slot : BitVec 8) (k : Course) (d : Domain) (n : Nat) (l : Nat),
    (s.up = true) ∧ (s.course (BitVec.toNat slot) = some k) ∧ (s.domain slot.toNat = some d) ∧ (s.verdictGate slot.toNat = some (n, l)) ∧ (d.running = true) ∧ (d.suspended = false) ∧ (d.lost = false) ∧ (d.tokens ≠ 0) ∧ (s.verdictReady slot.toNat k n = true) ∧ ((s.exch n (s.gate n).epoch).overflow = true) ∧ (d.skips = 7) ∧ ((s.bib k.bib).state = .running)) ∧
  (∃ (s : State) (slot : BitVec 8) (d : Domain),
    (s.up = true) ∧ (s.domain (BitVec.toNat slot) = some d) ∧ (d.lost = true)) ∧
  (∃ (s : State) (slot : BitVec 8) (k : Course) (d : Domain),
    (s.up = true) ∧ (s.course (BitVec.toNat slot) = some k) ∧ (s.domain slot.toNat = some d) ∧ (chKind k.hdr ≠ 0) ∧ (d.boundary ≠ 0)) ∧
  (∃ (s : State) (slot : BitVec 8) (k : Course) (d : Domain),
    (s.up = true) ∧ (s.course (BitVec.toNat slot) = some k) ∧ (s.domain slot.toNat = some d) ∧ (d.boundary = 0)) := by
  refine
      ⟨⟨(training []), 2, (course3 []), ({ dom0 with tokens := 1 }), 4, 0, ?_, ?_, ?_, ?_, ?_, ?_, ?_, ?_, ?_, ?_, ?_, ?_⟩,
      ⟨({ (decided false) with sl.jobs := [(15, job2)], crs.verdicts := [(4 * 256, { formed := true, inbox := [(0, true)] })] }), 2, true, true, (course3 []), 4, 0, 15, job2, ?_, ?_, ?_, ?_, ?_⟩,
      ⟨(decided false), 2, (course3 []), ({ dom0 with tokens := 1 }), 4, 0, ?_, ?_, ?_, ?_, ?_, ?_, ?_, ?_, ?_, ?_, ?_⟩,
      ⟨(decided true { dom0 with tokens := 1, skips := 6 }), 2, (course3 []), ({ dom0 with tokens := 1, skips := 6 }), 4, 0, ?_, ?_, ?_, ?_, ?_, ?_, ?_, ?_, ?_, ?_, ?_⟩,
      ⟨(decided true { dom0 with tokens := 1, skips := 7 }), 2, (course3 []), ({ dom0 with tokens := 1, skips := 7 }), 4, 0, ?_, ?_, ?_, ?_, ?_, ?_, ?_, ?_, ?_, ?_, ?_, ?_⟩,
      ⟨(running1 1 0 { dom0 with lost := true }), 2, ({ dom0 with lost := true }), ?_, ?_, ?_⟩,
      ⟨(running1 1 0 { dom0 with boundary := 1 }), 2, (course1 1 0), ({ dom0 with boundary := 1 }), ?_, ?_, ?_, ?_, ?_⟩,
      ⟨(running1 1 0 dom0), 2, (course1 1 0), dom0, ?_, ?_, ?_, ?_⟩⟩ <;>
    first | decide +kernel | exact ⟨by decide +kernel, by decide +kernel, by decide +kernel⟩ | rfl | exact ⟨_, rfl⟩

/-- The hypotheses of each clause of UpdateRows can be met together. -/
theorem witness_UpdateRows :
  (∃ (s : State) (pipe : Fin 12) (slot : BitVec 8) (b : BitVec 12) (p : BitVec 40) (k : Course),
    (s.up = true) ∧ (s.course (BitVec.toNat slot) = some k) ∧ (BitVec.toNat b < k.binds.length) ∧ (let o := ownedRange (k.patchCount (k.binds.getD b.toNat 0)) (s.jobShape k.bib).1 (s.jobShape k.bib).2; o.1 ≤ BitVec.toNat p) ∧ (let o := ownedRange (k.patchCount (k.binds.getD b.toNat 0)) (s.jobShape k.bib).1 (s.jobShape k.bib).2; p.toNat < o.2) ∧ ((s.stagedAt (Fin.val pipe)).length < 96) ∧ ((slot, b.toNat, p.toNat) ∉ s.stagedAt pipe.val) ∧ ((b.toNat, p.toNat) ∉ s.updated slot.toNat)) ∧
  (∃ (s : State) (pipe : Fin 12) (slot : BitVec 8) (b : BitVec 12) (p : BitVec 40) (grad : List (BitVec 40)) (k : Course) (d : Domain),
    (s.up = true) ∧ (s.course (BitVec.toNat slot) = some k) ∧ (s.domain slot.toNat = some d) ∧ (BitVec.toNat b < k.binds.length) ∧ (let o := ownedRange (k.patchCount (k.binds.getD b.toNat 0)) (s.jobShape k.bib).1 (s.jobShape k.bib).2; o.1 ≤ BitVec.toNat p) ∧ (let o := ownedRange (k.patchCount (k.binds.getD b.toNat 0)) (s.jobShape k.bib).1 (s.jobShape k.bib).2; p.toNat < o.2) ∧ (s.held slot.toNat = false) ∧ ((b.toNat, p.toNat) ∉ s.updated slot.toNat) ∧ ((∀ v, s.sl.chunks.lookup (chunkKey slot.toNat b.toNat p.toNat) = some v → v = (Fin.val pipe, grad))) ∧ (s.upd.lanes.any (fun _ l => l.any (fun x => x.slot = slot && x.binding = b.toNat && x.patch = p.toNat)) = false) ∧ (((s.updSlot slot.toNat).clipEn = true → (s.updSlot slot.toNat).clipArmed = true)) ∧ ((s.lanesOf pipe.val).length < 8)) ∧
  (∃ (s : State) (pipe : Fin 12) (slot : BitVec 8) (b : BitVec 12) (p : BitVec 40) (k : Course) (d : Domain) (v : Nat × List (BitVec 40)),
    (s.up = true) ∧ (s.course (BitVec.toNat slot) = some k) ∧ (s.domain slot.toNat = some d) ∧ (BitVec.toNat b < k.binds.length) ∧ (let o := ownedRange (k.patchCount (k.binds.getD b.toNat 0)) (s.jobShape k.bib).1 (s.jobShape k.bib).2; o.1 ≤ BitVec.toNat p) ∧ (let o := ownedRange (k.patchCount (k.binds.getD b.toNat 0)) (s.jobShape k.bib).1 (s.jobShape k.bib).2; p.toNat < o.2) ∧ (s.sl.chunks.lookup (chunkKey slot.toNat b.toNat p.toNat) = some v) ∧ (v.1 ≠ Fin.val pipe)) ∧
  (∃ (s : State) (slot : BitVec 8) (b : BitVec 12) (p : BitVec 40) (k : Course) (d : Domain),
    (s.up = true) ∧ (s.course (BitVec.toNat slot) = some k) ∧ (s.domain slot.toNat = some d) ∧ (BitVec.toNat b < k.binds.length) ∧ ((ownedRange (k.patchCount (k.binds.getD b.toNat 0)) (s.jobShape k.bib).1 (s.jobShape k.bib).2).2 ≤ BitVec.toNat p) ∧ ((s.bib k.bib).state = .running) ∧ (s.held slot.toNat = false)) ∧
  (∃ (s : State) (pipe : Fin 12) (x : LanePatch) (k : Course) (rest : List LanePatch),
    (s.up = true) ∧ (s.lanesOf (Fin.val pipe) = x :: rest) ∧ (x.ended = false) ∧ (s.course x.slot.toNat = some k)) ∧
  (∃ (s : State) (pipe : Fin 12) (x : LanePatch) (k : Course) (h : TileHdr),
    (s.up = true) ∧ ((s.lanesOf (Fin.val pipe)).find? (fun x => x.ended) = some x) ∧ (s.course x.slot.toNat = some k) ∧ ((s.updSlot x.slot.toNat).pin (!(s.updSlot x.slot.toNat).curState) = 0) ∧ (let bd := k.binds.getD x.binding 0; s.tileHdr (s.writingTile x.slot.toNat k bd x.patch) = some h) ∧ (h.state = 0) ∧ (let bd := k.binds.getD x.binding 0; h.id = s.writingTile x.slot.toNat k bd x.patch) ∧ (h.reserved = false) ∧ (h.home.tier.toNat ≤ 4) ∧ (let bd := k.binds.getD x.binding 0; h.fmt.toNat = tnFmt (k.tensor (bdTensor bd))) ∧ (let bd := k.binds.getD x.binding 0; (∀ e ∈ k.stateBlocks bd (!(s.updSlot x.slot.toNat).curState) (x.patch - (ownedRange (k.patchCount bd) (s.jobShape k.bib).1 (s.jobShape k.bib).2).1), s.vaFault k.bib e.1 e.2 true = none))) ∧
  (∃ (s : State) (pipe : Fin 12) (x : LanePatch) (k : Course),
    (s.up = true) ∧ ((s.lanesOf (Fin.val pipe)).find? (fun x => x.ended) = some x) ∧ (s.course x.slot.toNat = some k) ∧ ((s.updSlot x.slot.toNat).pin (!(s.updSlot x.slot.toNat).curState) ≠ 0)) ∧
  (∃ (s : State) (slot : BitVec 8),
    (s.up = true) ∧ (s.upd.sums.has (BitVec.toNat slot) = true)) ∧
  (∃ (s : State) (slot : BitVec 8),
    (s.up = true) ∧ (s.upd.sums.has (BitVec.toNat slot) = false)) := by
  refine
      ⟨⟨(training [bind0]), 11, 2, 0, 1023, (course3 [bind0]), ?_, ?_, ?_, ?_, ?_, ?_, ?_, ?_⟩,
      ⟨(training [bind0]), 11, 2, 0, 5, ([0x3F80000000]), (course3 [bind0]), ({ dom0 with tokens := 1 }), ?_, ?_, ?_, ?_, ?_, ?_, ?_, ?_, ?_, ?_, ?_, ?_⟩,
      ⟨({ (training [bind0]) with sl.chunks := [(chunkKey 2 0 5, (4, [1]))] }), 11, 2, 0, 5, (course3 [bind0]), ({ dom0 with tokens := 1 }), ((4, [1])), ?_, ?_, ?_, ?_, ?_, ?_, ?_, ?_⟩,
      ⟨(training [bind0]), 2, 0, 1024, (course3 [bind0]), ({ dom0 with tokens := 1 }), ?_, ?_, ?_, ?_, ?_, ?_, ?_⟩,
      ⟨({ (training [bind0]) with upd.lanes := [(11, [lane0 false])] }), 11, (lane0 false), (course3 [bind0]), ([]), ?_, ?_, ?_, ?_⟩,
      ⟨({ (training [bind0]) with upd.lanes := [(11, [lane0 true])], mem.hdrs := [(tileKey { bib := 3, tensor := 1, tile := 0 }, hdr0 1 1 0x40000)] }), 11, (lane0 true), (course3 [bind0]), (hdr0 1 1 0x40000), ?_, ?_, ?_, ?_, ?_, ?_, ?_, ?_, ?_, ?_, ?_⟩,
      ⟨({ (training [bind0]) with upd.lanes := [(11, [lane0 true])], upd.slots := [(2, { pin1 := 1 })] }), 11, (lane0 true), (course3 [bind0]), ?_, ?_, ?_, ?_⟩,
      ⟨({ up with upd.sums := [(2, 5)] }), 2, ?_, ?_⟩,
      ⟨up, 2, ?_, ?_⟩⟩ <;>
    first | decide +kernel | exact ⟨by decide +kernel, by decide +kernel, by decide +kernel⟩ | rfl | exact ⟨_, rfl⟩

/-- The hypotheses of each clause of FrameSendingRows can be met together. -/
theorem witness_FrameSendingRows :
  (∃ (s : State) (port : Fin 12),
    (s.up = true) ∧ ((s.port (Fin.val port)).trained = false)) ∧
  (∃ (s : State) (port : Fin 12),
    (s.up = true) ∧ ((s.port (Fin.val port)).trained = true) ∧ ((s.port port.val).state ≠ 2) ∧ ((s.port port.val).pattern = true)) ∧
  (∃ (s : State) (port : Fin 12) (f : Frame) (rest : List Frame),
    (s.up = true) ∧ ((s.port (Fin.val port)).trained = true) ∧ ((s.port port.val).state ≠ 2) ∧ ((s.port port.val).pattern = false) ∧ ((s.port port.val).resend = f :: rest)) ∧
  (∃ (s : State) (port : Fin 12),
    (s.up = true) ∧ ((s.port (Fin.val port)).trained = true) ∧ ((s.port port.val).state ≠ 2) ∧ ((s.port port.val).pattern = false) ∧ ((s.port port.val).resend = []) ∧ (s.sl.outgoing = []) ∧ ((s.port port.val).nextSlots = []) ∧ ((s.port port.val).nextMsg = .none)) ∧
  (∃ (s : State) (port : Fin 12),
    (s.up = true) ∧ ((s.port (Fin.val port)).trained = true) ∧ ((s.port port.val).state ≠ 2) ∧ ((s.port port.val).pattern = false) ∧ ((s.port port.val).resend = []) ∧ (s.sl.outgoing = []) ∧ (((s.port port.val).nextSlots ≠ [] ∨ (s.port port.val).nextMsg ≠ .none)) ∧ ((s.port port.val).retry.length < 256)) := by
  refine
      ⟨⟨up, 1, ?_, ?_⟩,
      ⟨(linked { port0 with pattern := true }), 0, ?_, ?_, ?_, ?_⟩,
      ⟨(linked { port0 with resend := [frame0, { frame0 with seq := 1 }], retry := [frame0, { frame0 with seq := 1 }], txSeq := 2, owed := [(0, 3), (1, 2), (2, 1)] }), 0, frame0, ([{ frame0 with seq := 1 }]), ?_, ?_, ?_, ?_, ?_⟩,
      ⟨(linked port0), 0, ?_, ?_, ?_, ?_, ?_, ?_, ?_, ?_⟩,
      ⟨(linked { port0 with msgq := [.control 1 0 0 true false] }), 0, ?_, ?_, ?_, ?_, ?_, ?_, ?_, ?_⟩⟩ <;>
    first | decide +kernel | exact ⟨by decide +kernel, by decide +kernel, by decide +kernel⟩ | rfl | exact ⟨_, rfl⟩

/-- The hypotheses of each clause of FrameReceptionRows can be met together. -/
theorem witness_FrameReceptionRows :
  (∃ (s : State) (port : Fin 12),
    (s.up = true) ∧ ((s.port (Fin.val port)).trained = false)) ∧
  (∃ (s : State) (port : Fin 12) (errs : List Nat) (ok : Bool),
    (s.up = true) ∧ ((s.port (Fin.val port)).trained = true) ∧ (((∃ e ∈ errs, 15 < e) ∨ ok = false))) ∧
  (∃ (s : State) (port : Fin 12) (errs : List Nat) (f : Frame),
    (s.up = true) ∧ ((s.port (Fin.val port)).trained = true) ∧ ((∀ e ∈ errs, e ≤ 15)) ∧ (f.ftype = 1) ∧ (f.seq = (s.port port.val).rxSeq + 1)) ∧
  (∃ (s : State) (port : Fin 12) (f : Frame) (x : SlotRef) (r : RxMsg),
    (s.up = true) ∧ ((s.port (Fin.val port)).trained = true) ∧ (f.ftype = 1) ∧ (f.seq = (s.port port.val).rxSeq + 1) ∧ (f.slots = [x]) ∧ (x.vc.toNat < 5) ∧ ((s.port port.val).given ≠ 0) ∧ (hasCredit (s.port port.val).taken x.vc.toNat = true) ∧ (s.sl.rx.lookup (port.val * 4096 + x.stream.toNat) = some r)) ∧
  (∃ (s : State) (port : Fin 12) (f : Frame) (x : SlotRef),
    (s.up = true) ∧ ((s.port (Fin.val port)).trained = true) ∧ (f.ftype = 1) ∧ (f.seq = (s.port port.val).rxSeq + 1) ∧ (f.slots = [x]) ∧ (((s.port port.val).given = 0 ∨ hasCredit (s.port port.val).taken x.vc.toNat = false))) ∧
  (∃ (s : State) (port : Fin 12) (errs : List Nat) (f : Frame),
    (s.up = true) ∧ ((s.port (Fin.val port)).trained = true) ∧ ((∀ e ∈ errs, e ≤ 15)) ∧ ((f.ftype = 1 ∨ f.ftype = 2)) ∧ ((s.port port.val).nakWait = true) ∧ (¬(f.ftype = 1 ∧ f.seq = (s.port port.val).rxSeq + 1))) ∧
  (∃ (s : State) (port : Fin 12) (f : Frame),
    (s.up = true) ∧ ((s.port (Fin.val port)).trained = true) ∧ (f.ftype = 5)) := by
  refine
      ⟨⟨up, 1, ?_, ?_⟩,
      ⟨(linked port0), 0, ([16]), true, ?_, ?_, ?_⟩,
      ⟨(linked { port0 with retry := [{ frame0 with seq := 0 }, { frame0 with seq := 1 }] }), 0, ([15]), ({ frame0 with nak := true }), ?_, ?_, ?_, ?_, ?_⟩,
      ⟨({ (receiving (msg0 1)) with sl.ports := [(0, { port0 with ins := [(9, msg0 1)], given := 5 })] }), 0, ({ frame0 with slots := [{ vc := 2, stream := 9, data := [7] }] }), ({ vc := 2, stream := 9, data := [7] }), ({ hdr := msg0 1, data := [1, 2] }), ?_, ?_, ?_, ?_, ?_, ?_, ?_, ?_, ?_⟩,
      ⟨({ (receiving (msg0 1)) with sl.ports := [(0, { port0 with ins := [(9, msg0 1)], given := 0 })] }), 0, ({ frame0 with slots := [{ vc := 2, stream := 9, data := [7] }] }), ({ vc := 2, stream := 9, data := [7] }), ?_, ?_, ?_, ?_, ?_, ?_⟩,
      ⟨(linked { port0 with nakWait := true }), 0, ([4]), ({ frame0 with seq := 1 }), ?_, ?_, ?_, ?_, ?_, ?_⟩,
      ⟨(linked { port0 with retry := [frame0], run := 7 }), 0, ({ frame0 with ftype := 5 }), ?_, ?_, ?_⟩⟩ <;>
    first | decide +kernel | exact ⟨by decide +kernel, by decide +kernel, by decide +kernel⟩ | rfl | exact ⟨_, rfl⟩

/-- The hypotheses of each clause of TrainingRows can be met together. -/
theorem witness_TrainingRows :
  (∃ (s : State) (port : Fin 12) (good : BitVec 8) (l : BitVec 8),
    (s.up = true) ∧ ((s.byp (switchOf (Fin.val port))).state = .loop) ∧ (s.rink.failed = false) ∧ (lanesFor good = some l)) ∧
  (∃ (s : State) (port : Fin 12) (cap : Capability) (good : BitVec 8) (l : BitVec 8),
    (s.up = true) ∧ (((s.byp (switchOf (Fin.val port))).state = .train ∨ (s.byp (switchOf port.val)).state = .joined)) ∧ (s.rink.failed = false) ∧ (s.trainFault port.val cap good = none) ∧ (lanesFor good = some l)) ∧
  (∃ (s : State) (port : Fin 12) (cap : Capability) (good : BitVec 8) (w : BitVec 4),
    (s.up = true) ∧ (((s.byp (switchOf (Fin.val port))).state = .train ∨ (s.byp (switchOf port.val)).state = .joined)) ∧ (s.rink.failed = false) ∧ (s.trainFault port.val cap good = some w)) ∧
  (∃ (s : State) (port : Fin 12),
    (s.up = true) ∧ ((s.port (Fin.val port)).trained = true) ∧ ((8 ≤ (s.port port.val).run.toNat ∨ 1 ≤ (s.port port.val).retrains)) ∧ ((s.port port.val).retrains < 2)) ∧
  (∃ (s : State) (port : Fin 12),
    (s.up = true) ∧ (2 ≤ (s.port (Fin.val port)).retrains)) ∧
  (∃ (s : State) (port : Fin 12),
    (s.up = true) ∧ ((s.port (Fin.val port)).retrains < 2)) := by
  refine
      ⟨⟨(linked { drain := true } .loop), 0, 0xFF, 0xFF, ?_, ?_, ?_, ?_⟩,
      ⟨(linked { port0 with peer := 2, fail := 3, retry := [frame0] } .train), 0, cap0, 0xFF, 0xFF, ?_, ?_, ?_, ?_, ?_⟩,
      ⟨(linked { port0 with drain := true } .train), 0, ({ cap0 with sysid := 6 }), 0xFF, 9, ?_, ?_, ?_, ?_⟩,
      ⟨(linked { port0 with run := 8, retry := [frame0] }), 0, ?_, ?_, ?_, ?_⟩,
      ⟨(linked { port0 with retrains := 2, retry := [frame0] }), 0, ?_, ?_⟩,
      ⟨(linked { port0 with retrains := 1 }), 0, ?_, ?_⟩⟩ <;>
    first | decide +kernel | exact ⟨by decide +kernel, by decide +kernel, by decide +kernel⟩ | rfl | exact ⟨_, rfl⟩

/-- The hypotheses of each clause of MessageRows can be met together. -/
theorem witness_MessageRows :
  (∃ (s : State) (port : Fin 12) (m : MsgOpen),
    (s.up = true) ∧ ((s.port (Fin.val port)).trained = true) ∧ ((s.port port.val).ins.has m.stream.toNat = false) ∧ (m.bytes ≠ 0) ∧ (m.bytes.toNat ≤ 262144) ∧ (m.rsv = 0) ∧ (s.sl.sysmap.isSome = true) ∧ (m.dst = s.moduleNum)) ∧
  (∃ (s : State) (port : Fin 12) (m : MsgOpen) (h : Hop) (so : Nat),
    (s.up = true) ∧ ((s.port (Fin.val port)).trained = true) ∧ ((s.port port.val).ins.has m.stream.toNat = false) ∧ (m.bytes ≠ 0) ∧ (m.bytes.toNat ≤ 262144) ∧ (m.rsv = 0) ∧ (s.sl.sysmap.isSome = true) ∧ (m.dst ≠ s.moduleNum) ∧ (s.relays port.val m = false) ∧ (s.route m.src.toNat m.dst.toNat (port.val / 6) = some h) ∧ ((s.port (s.exitPort h.port)).freeOut = some so)) ∧
  (∃ (s : State) (port : Fin 12) (m : MsgOpen),
    (s.up = true) ∧ (m.dst ≠ s.moduleNum) ∧ (s.relays (Fin.val port) m = false) ∧ (s.route m.src.toNat m.dst.toNat (port.val / 6) = none)) ∧
  (∃ (s : State) (port : Fin 12) (st : BitVec 12) (m : MsgOpen) (x : RxMsg) (k : BitVec 256),
    (s.up = true) ∧ ((s.port (Fin.val port)).ins.lookup (BitVec.toNat st) = some m) ∧ (s.sl.fwd.lookup (port.val * 4096 + st.toNat) = none) ∧ (s.sl.rx.lookup (port.val * 4096 + st.toNat) = some x) ∧ (x.relay = false) ∧ (s.rxKey m = some k) ∧ (s.msgWaits m = false) ∧ (m.kind = 0) ∧ (s.tensorAt m.dbib m.va.toNat = none) ∧ (let data := openText k m (x.data.take m.bytes.toNat); s.vaFault m.dbib m.va.toNat data.length true = none)) ∧
  (∃ (s : State) (port : Fin 12) (st : BitVec 12) (m : MsgOpen) (x : RxMsg),
    (s.up = true) ∧ ((s.port (Fin.val port)).ins.lookup (BitVec.toNat st) = some m) ∧ (s.sl.fwd.lookup (port.val * 4096 + st.toNat) = none) ∧ (s.sl.rx.lookup (port.val * 4096 + st.toNat) = some x) ∧ (x.relay = false) ∧ ((s.bib m.dbib).state = .running)) ∧
  (∃ (s : State) (port : Fin 12) (st : BitVec 12) (m : MsgOpen) (o : Nat),
    (s.up = true) ∧ ((s.port (Fin.val port)).ins.lookup (BitVec.toNat st) = some m) ∧ (s.sl.fwd.lookup (port.val * 4096 + st.toNat) = some o)) ∧
  (∃ (s : State) (port : Fin 12) (st : BitVec 12) (m : MsgOpen) (x : RxMsg),
    (s.up = true) ∧ ((s.port (Fin.val port)).ins.lookup (BitVec.toNat st) = some m) ∧ (s.sl.fwd.lookup (port.val * 4096 + st.toNat) = none) ∧ (s.sl.rx.lookup (port.val * 4096 + st.toNat) = some x) ∧ (x.relay = false) ∧ ((s.bib x.hdr.dbib).state = .running)) ∧
  (∃ (s : State) (port : Fin 12) (st : BitVec 12),
    (s.up = true) ∧ ((s.port (Fin.val port)).ins.lookup (BitVec.toNat st) = none)) ∧
  (∃ (s : State) (port : Fin 12) (st : Nat) (m : MsgOpen) (x : RxMsg),
    (s.up = true) ∧ ((s.port (Fin.val port)).trained = true) ∧ ((s.port port.val).ins = [(st, m)]) ∧ ((s.port port.val).outs = []) ∧ ((s.port port.val).txq = []) ∧ ((s.byp (switchOf port.val)).state ≠ .joined) ∧ (s.sl.fwd.lookup (port.val * 4096 + st) = none) ∧ (s.sl.rx.lookup (port.val * 4096 + st) = some x) ∧ (x.relay = false) ∧ ((s.bib x.hdr.dbib).state = .running)) := by
  refine
      ⟨⟨(linked port0), 0, (msg0 1), ?_, ?_, ?_, ?_, ?_, ?_, ?_, ?_⟩,
      ⟨(linked port0), 0, (msg0 0), ({ port := 1, dim := 0, wrap := false }), 0, ?_, ?_, ?_, ?_, ?_, ?_, ?_, ?_, ?_, ?_, ?_⟩,
      ⟨({ (linked port0) with sl.away := [0] }), 0, (msg0 0), ?_, ?_, ?_, ?_⟩,
      ⟨(receiving (msg0 1)), 0, 9, (msg0 1), ({ hdr := msg0 1, data := [1, 2] }), 7, ?_, ?_, ?_, ?_, ?_, ?_, ?_, ?_, ?_, ?_⟩,
      ⟨(receiving (msg0 1)), 0, 9, (msg0 1), ({ hdr := msg0 1, data := [1, 2] }), ?_, ?_, ?_, ?_, ?_, ?_⟩,
      ⟨({ (linked { port0 with ins := [(9, msg0 0)] }) with sl.fwd := [(9, 4096 + 3)] }), 0, 9, (msg0 0), 4099, ?_, ?_, ?_⟩,
      ⟨(receiving (msg0 1)), 0, 9, (msg0 1), ({ hdr := msg0 1, data := [1, 2] }), ?_, ?_, ?_, ?_, ?_, ?_⟩,
      ⟨(linked port0), 0, 9, ?_, ?_⟩,
      ⟨({ (receiving (msg0 1)) with sl.byps := [(0, { state := .train })] }), 0, 9, (msg0 1), ({ hdr := msg0 1, data := [1, 2] }), ?_, ?_, ?_, ?_, ?_, ?_, ?_, ?_, ?_, ?_⟩⟩ <;>
    first | decide +kernel | exact ⟨by decide +kernel, by decide +kernel, by decide +kernel⟩ | rfl | exact ⟨_, rfl⟩

/-- The hypotheses of each clause of CollectiveRows can be met together. -/
theorem witness_CollectiveRows :
  (∃ (s : State) (jtag : BitVec 16),
    (s.up = true) ∧ (s.sl.jobs.find? (fun e => e.2.args.jtag = jtag) = none)) ∧
  (∃ (s : State) (port : Fin 12) (jtag : BitVec 16) (g : BitVec 13) (ep : BitVec 8) (e : Nat × Job) (n : Nat),
    (s.up = true) ∧ (s.sl.jobs.find? (fun e => e.2.args.jtag = jtag) = some e) ∧ (s.jobGate e.2.args.bib (BitVec.toNat g) = some n) ∧ (s.isVerdict n = true) ∧ (((s.exch n ep).got.read 0 ((Fin.val port + 6) % 12)) ≤ (s.exch n ep).got.read 0 port.val)) ∧
  (∃ (s : State) (port : Fin 12) (jtag : BitVec 16) (g : BitVec 13) (ep : BitVec 8) (e : Nat × Job) (n : Nat),
    (s.up = true) ∧ (s.sl.jobs.find? (fun e => e.2.args.jtag = jtag) = some e) ∧ (s.jobGate e.2.args.bib (BitVec.toNat g) = some n) ∧ ((s.exch n ep).got.read 0 (Fin.val port) < (s.exch n ep).got.read 0 ((port.val + 6) % 12))) ∧
  (∃ (s : State) (port : Fin 12) (slot : BitVec 8) (b : BitVec 12) (p : BitVec 40) (term : BitVec 32) (k : Course) (j : Nat) (jb : Job),
    (s.up = true) ∧ (s.course (BitVec.toNat slot) = some k) ∧ (s.jobOf k.bib = some (j, jb)) ∧ (BitVec.toNat b < k.binds.length) ∧ (BitVec.toNat p < k.patchCount (k.binds.getD b.toNat 0)) ∧ ((s.port (Fin.val port)).trained = true) ∧ (s.held slot.toNat = false) ∧ (collectiveTerm term = true)) ∧
  (∃ (s : State) (port : Fin 12) (slot : BitVec 8) (b : BitVec 12) (p : BitVec 40) (k : Course) (j : Nat) (jb : Job) (h : TileHdr),
    (s.up = true) ∧ (s.course (BitVec.toNat slot) = some k) ∧ (s.jobOf k.bib = some (j, jb)) ∧ (BitVec.toNat b < k.binds.length) ∧ (let bd := k.binds.getD b.toNat 0; BitVec.toNat p < k.patchCount bd) ∧ ((s.port (Fin.val port)).trained = true) ∧ (s.held slot.toNat = false) ∧ (let bd := k.binds.getD b.toNat 0; s.tileHdr (s.writingTile slot.toNat k bd p.toNat) = some h) ∧ (h.state ≠ 1)) ∧
  (∃ (s : State) (term : BitVec 32),
    (s.up = true) ∧ (collectiveTerm term = false)) ∧
  (∃ (s : State) (slot : BitVec 8),
    (s.up = true) ∧ (s.held (BitVec.toNat slot) = true)) ∧
  (∃ (s : State) (slot : BitVec 8) (k : Course),
    (s.up = true) ∧ (s.course (BitVec.toNat slot) = some k) ∧ (s.jobOf k.bib = none)) := by
  refine
      ⟨⟨up, 5, ?_, ?_⟩,
      ⟨(jobTraining []), 0, 1, 0, 0, ((15, job2)), 4, ?_, ?_, ?_, ?_, ?_⟩,
      ⟨({ (jobTraining []) with crs.verdicts := [(4 * 256, { got := [(6, 1)] })] }), 0, 1, 0, 0, ((15, job2)), 4, ?_, ?_, ?_, ?_⟩,
      ⟨(jobTraining [bind0]), 0, 2, 0, 5, 0x100001, (course3 [bind0]), 15, job2, ?_, ?_, ?_, ?_, ?_, ?_, ?_, ?_⟩,
      ⟨({ (jobTraining [bind0]) with mem.hdrs := [(tileKey { bib := 3, tensor := 1, tile := 0 }, hdr0 1 1 0x40000)] }), 0, 2, 0, 5, (course3 [bind0]), 15, job2, (hdr0 1 1 0x40000), ?_, ?_, ?_, ?_, ?_, ?_, ?_, ?_, ?_⟩,
      ⟨up, 3, ?_, ?_⟩,
      ⟨({ (training [bind0]) with crs.holds := [(2, { cause := 1 })] }), 2, ?_, ?_⟩,
      ⟨(training [bind0]), 2, (course3 [bind0]), ?_, ?_, ?_⟩⟩ <;>
    first | decide +kernel | exact ⟨by decide +kernel, by decide +kernel, by decide +kernel⟩ | rfl | exact ⟨_, rfl⟩

/-- The hypotheses of each clause of BypassRows can be met together. -/
theorem witness_BypassRows :
  (∃ (s : State) (rail : Fin 2) (dim : Fin 3),
    (s.up = true) ∧ ((s.byp (bypKey (Fin.val rail) (Fin.val dim))).state = .bypass) ∧ (s.zilUp = true) ∧ (s.sl.heartbeat = true) ∧ (s.sizeOne dim.val = false) ∧ (s.rink.failed = false)) ∧
  (∃ (s : State) (rail : Fin 2) (dim : Fin 3),
    (s.up = true) ∧ ((s.byp (bypKey (Fin.val rail) (Fin.val dim))).state = .bypass) ∧ (s.sizeOne dim.val = true)) ∧
  (∃ (s : State) (rail : Fin 2) (dim : Fin 3),
    (s.up = true) ∧ ((s.byp (bypKey (Fin.val rail) (Fin.val dim))).state = .loop) ∧ ((s.byp (bypKey rail.val dim.val)).join = true) ∧ (s.bothTrained (bypKey rail.val dim.val) = true) ∧ (s.sl.heartbeat = true) ∧ (s.sl.sysmap.isSome = true) ∧ ((s.byp (bypKey rail.val dim.val)).open_ = false)) ∧
  (∃ (s : State) (rail : Fin 2) (dim : Fin 3),
    (s.up = true) ∧ ((s.byp (bypKey (Fin.val rail) (Fin.val dim))).state = .opening)) ∧
  (∃ (s : State) (rail : Fin 2) (dim : Fin 3),
    (s.up = true) ∧ ((s.byp (bypKey (Fin.val rail) (Fin.val dim))).state ≠ .opening)) ∧
  (∃ (s : State) (rail : Fin 2) (dim : Fin 3),
    (s.up = true) ∧ ((s.byp (bypKey (Fin.val rail) (Fin.val dim))).state = .train) ∧ (s.bothTrained (bypKey rail.val dim.val) = true)) ∧
  (∃ (s : State) (rail : Fin 2) (dim : Fin 3),
    (s.up = true) ∧ ((s.byp (bypKey (Fin.val rail) (Fin.val dim))).state = .train) ∧ (s.bothTrained (bypKey rail.val dim.val) = false) ∧ (s.rink.failed = false)) ∧
  (∃ (s : State) (rail : Fin 2) (dim : Fin 3),
    (s.up = true) ∧ (s.sl.heartbeat = false) ∧ (((s.byp (bypKey (Fin.val rail) (Fin.val dim))).state = .opening ∨ (s.byp (bypKey rail.val dim.val)).state = .train ∨ (s.byp (bypKey rail.val dim.val)).state = .joined))) ∧
  (∃ (s : State) (rail : Fin 2) (dim : Fin 3),
    (s.up = true) ∧ (s.sl.heartbeat = false) ∧ ((s.byp (bypKey (Fin.val rail) (Fin.val dim))).state = .loop)) ∧
  (∃ (s : State) (rail : Fin 2) (dim : Fin 3),
    (s.up = true) ∧ ((s.byp (bypKey (Fin.val rail) (Fin.val dim))).state = .closing)) ∧
  (∃ (s : State) (rail : Fin 2) (dim : Fin 3),
    (s.up = true) ∧ ((s.byp (bypKey (Fin.val rail) (Fin.val dim))).hold = false)) ∧
  (∃ (s : State),
    (s.up = true)) ∧
  (∃ (s : State) (rail : Fin 2) (dim : Fin 3),
    (s.up = true) ∧ ((s.byp (bypKey (Fin.val rail) (Fin.val dim))).state = .joined)) := by
  refine
      ⟨⟨({ up with sl.heartbeat := true, sl.sysmap := some map0 }), 1, 2, ?_, ?_, ?_, ?_, ?_, ?_⟩,
      ⟨({ up with sl.sysmap := some { map0 with dz := 1 } }), 1, 2, ?_, ?_, ?_⟩,
      ⟨(switched { state := .loop, join := true } port0), 0, 0, ?_, ?_, ?_, ?_, ?_, ?_, ?_⟩,
      ⟨(switched { state := .opening, join := true, hold := true } {}), 0, 0, ?_, ?_⟩,
      ⟨up, 0, 0, ?_, ?_⟩,
      ⟨({ (switched { state := .train, join := true, hold := true } { port0 with peer := 3 }) with sl.drained := [0, 4] }), 0, 0, ?_, ?_, ?_⟩,
      ⟨(switched { state := .train, join := true, hold := true } { fail := 7 }), 0, 0, ?_, ?_, ?_, ?_⟩,
      ⟨({ (switched { state := .opening, hold := true } port0) with sl.heartbeat := false }), 0, 0, ?_, ?_, ?_⟩,
      ⟨({ (switched { state := .loop } port0) with sl.heartbeat := false }), 0, 0, ?_, ?_, ?_⟩,
      ⟨(switched { state := .closing, reason := 6, open_ := true } {}), 0, 0, ?_, ?_⟩,
      ⟨(switched { state := .bypass, reason := 6 } {}), 0, 0, ?_, ?_⟩,
      ⟨(switched { state := .train } {}), ?_⟩,
      ⟨(switched { state := .joined, join := true } port0), 0, 0, ?_, ?_⟩⟩ <;>
    first | decide +kernel | exact ⟨by decide +kernel, by decide +kernel, by decide +kernel⟩ | rfl | exact ⟨_, rfl⟩

/-- The hypotheses of each clause of RingRows can be met together. -/
theorem witness_RingRows :
  (∃ (s : State) (c : Hdr),
    (s.accepts 0x0502 c)) ∧
  (∃ (s : State) (c : Hdr) (dim : BitVec 2),
    (s.accepts 0x0502 c) ∧ (dim ≠ 3) ∧ (s.sl.sysmap = none)) ∧
  (∃ (s : State) (c : Hdr) (rail : Fin 2) (dim : BitVec 2),
    (s.accepts 0x0502 c) ∧ (dim ≠ 3) ∧ (s.sl.sysmap.isSome = true) ∧ (bypKey (Fin.val rail) (BitVec.toNat dim) ∉ s.sl.waitJoin) ∧ ((s.byp (bypKey rail.val dim.toNat)).join = false) ∧ ((s.byp (bypKey rail.val dim.toNat)).state ≠ .joined) ∧ (bypKey rail.val dim.toNat ∈ s.sl.drained)) ∧
  (∃ (s : State) (c : Hdr) (rail : Fin 2) (dim : BitVec 2),
    (s.accepts 0x0502 c) ∧ (dim ≠ 3) ∧ (s.sl.sysmap.isSome = true) ∧ (bypKey (Fin.val rail) (BitVec.toNat dim) ∉ s.sl.waitJoin) ∧ ((s.byp (bypKey rail.val dim.toNat)).join = false) ∧ ((s.byp (bypKey rail.val dim.toNat)).state ≠ .joined) ∧ (bypKey rail.val dim.toNat ∉ s.sl.drained)) ∧
  (∃ (s : State) (c : Hdr) (rail : Fin 2) (dim : BitVec 2),
    (s.accepts 0x0502 c) ∧ (dim ≠ 3) ∧ (s.sl.sysmap.isSome = true) ∧ (bypKey (Fin.val rail) (BitVec.toNat dim) ∉ s.sl.waitJoin) ∧ ((s.byp (bypKey rail.val dim.toNat)).state = .joined)) ∧
  (∃ (s : State) (c : Hdr) (dx : BitVec 5) (dy : BitVec 5) (dz : BitVec 5) (x : BitVec 4) (y : BitVec 4) (z : BitVec 3),
    (s.accepts 0x0501 c) ∧ (dx ≠ 0) ∧ (BitVec.toNat dx ≤ 16) ∧ (dy ≠ 0) ∧ (BitVec.toNat dy ≤ 16) ∧ (dz ≠ 0) ∧ (BitVec.toNat dz ≤ 8) ∧ (BitVec.toNat x < dx.toNat) ∧ (BitVec.toNat y < dy.toNat) ∧ (BitVec.toNat z < dz.toNat) ∧ ((∀ i, i < 6 → (s.byp i).state = .bypass))) ∧
  (∃ (s : State) (c : Hdr) (dx : BitVec 5) (dy : BitVec 5) (dz : BitVec 5) (x : BitVec 4) (y : BitVec 4) (z : BitVec 3),
    (s.accepts 0x0501 c) ∧ ((dx = 0 ∨ 16 < BitVec.toNat dx ∨ dy = 0 ∨ 16 < BitVec.toNat dy ∨ dz = 0 ∨ 8 < BitVec.toNat dz ∨ dx.toNat ≤ BitVec.toNat x ∨ dy.toNat ≤ BitVec.toNat y ∨ dz.toNat ≤ BitVec.toNat z))) ∧
  (∃ (s : State) (c : Hdr) (port : BitVec 4),
    (s.accepts 0x0503 c) ∧ (12 ≤ BitVec.toNat port)) ∧
  (∃ (s : State) (c : Hdr) (port : BitVec 4),
    (s.accepts 0x0503 c) ∧ (BitVec.toNat port < 12)) ∧
  (∃ (s : State),
    (s.up = true)) ∧
  (∃ (s : State) (port : Fin 12),
    (s.up = true) ∧ ((s.port (Fin.val port)).pattern = false) ∧ (port.val ∉ s.sl.waitPat) ∧ (s.patternFree port.val = true)) ∧
  (∃ (s : State) (port : Fin 12),
    (s.up = true) ∧ ((s.port (Fin.val port)).pattern = false) ∧ (port.val ∉ s.sl.waitPat) ∧ (s.patternFree port.val = false)) ∧
  (∃ (s : State) (rail : Fin 2) (dim : Fin 3),
    (s.up = true) ∧ ((∀ p ∈ portsOf (bypKey (Fin.val rail) (Fin.val dim)), (s.port p).carriesJob = false)) ∧ (bypKey rail.val dim.val ∉ s.sl.waitJoin)) ∧
  (∃ (s : State) (rail : Fin 2) (dim : Fin 3) (p : Nat),
    (s.up = true) ∧ (p ∈ portsOf (bypKey (Fin.val rail) (Fin.val dim))) ∧ ((s.port p).carriesJob = true)) ∧
  (∃ (s : State) (port : Fin 12),
    (s.up = true) ∧ ((s.port (Fin.val port)).pattern = true)) ∧
  (∃ (s : State) (port : Fin 12),
    (s.up = true) ∧ ((s.port (Fin.val port)).pattern = false)) := by
  refine
      ⟨⟨up, (hd 1), ?_⟩,
      ⟨up, (hd 1), 0, ?_, ?_, ?_⟩,
      ⟨({ (switched { state := .loop } port0) with sl.drained := [0] }), (hd 1), 0, 0, ?_, ?_, ?_, ?_, ?_, ?_, ?_⟩,
      ⟨(switched { state := .loop } port0), (hd 1), 0, 0, ?_, ?_, ?_, ?_, ?_, ?_, ?_⟩,
      ⟨(switched { state := .joined, join := true } port0), (hd 1), 0, 0, ?_, ?_, ?_, ?_, ?_⟩,
      ⟨up, (hd 1), 16, 1, 8, 15, 0, 7, ?_, ?_, ?_, ?_, ?_, ?_, ?_, ?_, ?_, ?_, ?_⟩,
      ⟨up, (hd 1), 16, 1, 9, 15, 0, 7, ?_, ?_⟩,
      ⟨up, (hd 1), 12, ?_, ?_⟩,
      ⟨up, (hd 1), 11, ?_, ?_⟩,
      ⟨({ (linked { port0 with state := 4, drain := true }) with sl.drained := [0] }), ?_⟩,
      ⟨(switched { state := .loop } port0), 0, ?_, ?_, ?_, ?_⟩,
      ⟨(linked port0), 0, ?_, ?_, ?_, ?_⟩,
      ⟨({ (switched { state := .joined } port0) with sl.waitPat := [1, 5] }), 0, 0, ?_, ?_, ?_⟩,
      ⟨(linked { port0 with outs := [(1, 0)] }), 0, 0, 0, ?_, ?_, ?_⟩,
      ⟨(linked { port0 with pattern := true }), 0, ?_, ?_⟩,
      ⟨(linked port0), 0, ?_, ?_⟩⟩ <;>
    first | decide +kernel | exact ⟨by decide +kernel, by decide +kernel, by decide +kernel⟩ | rfl | exact ⟨_, rfl⟩

/-- The hypotheses of each clause of LodgeUnitRows can be met together. -/
theorem witness_LodgeUnitRows :
  (∃ (s : State) (p : LodgePlace),
    (s.up = true) ∧ (s.lodge.tags.has (placeKey p) = false)) ∧
  (∃ (s : State) (p : LodgePlace),
    (s.up = true) ∧ (s.lodge.tags.has (placeKey p) = true) ∧ (s.lodge.ladder.read 1 (placeKey p) < 4) ∧ ((s.grp (grpOf p)).reads + 1 < 100000)) ∧
  (∃ (s : State) (p : LodgePlace),
    (s.up = true) ∧ (s.lodge.tags.has (placeKey p) = true) ∧ (99999 ≤ (s.grp (grpOf p)).reads) ∧ (s.lodge.ladder.read 1 (placeKey p) < 4)) ∧
  (∃ (s : State) (p : LodgePlace),
    (s.up = true) ∧ (s.lodge.tags.has (placeKey p) = true) ∧ (s.lodge.ladder.read 1 (placeKey p) < 3) ∧ ((s.grp (grpOf p)).reads + 1 < 100000)) ∧
  (∃ (s : State) (blk : BitVec 11) (wl : BitVec 9) (die : BitVec 4) (u : LodgePlace × UnitTag × Option LodgePlace),
    (s.up = true) ∧ (s.lodgeReadOnly = false) ∧ (s.stripeUnit blk wl die u = true) ∧ (u.2.1.cls = 2) ∧ (u.2.2 = none) ∧ (u.2.1.prot = false) ∧ (u.2.1.lun.toNat < lodgeUnits) ∧ (s.lodge.map.lookup u.2.1.lun.toNat = none)) ∧
  (∃ (s : State) (blk : BitVec 11) (wl : BitVec 9) (die : BitVec 4) (c : BitVec 4) (units : List (LodgePlace × UnitTag × Option LodgePlace)),
    (s.up = true) ∧ (s.lodgeReadOnly = false) ∧ ((∀ u ∈ units, s.stripeUnit blk wl die u = true)) ∧ ((s.grp (grpKey (BitVec.toNat c) (BitVec.toNat die) (BitVec.toNat blk))).state ≠ .retired)) ∧
  (∃ (s : State),
    (s.up = true) ∧ (s.lodgeReadOnly = true)) ∧
  (∃ (s : State) (blk : BitVec 11) (wl : BitVec 9) (die : BitVec 4) (units : List (LodgePlace × UnitTag × Option LodgePlace)) (u : LodgePlace × UnitTag × Option LodgePlace),
    (s.up = true) ∧ (u ∈ units) ∧ ((u.1.blk ≠ blk ∨ u.1.wl ≠ wl ∨ u.1.die ≠ die ∨ s.onDead u.1 = true ∨ s.lodge.tags.has (placeKey u.1) = true ∨ (s.lodge.stat.lost = false ∧ (u.2.1.cls = 3 ↔ u.1.ch.toNat ≠ parityCh blk.toNat wl.toNat die.toNat))))) ∧
  (∃ (s : State) (ch : BitVec 4) (die : BitVec 4) (blk : BitVec 11),
    (s.up = true) ∧ (s.grpBusy (grpKey (BitVec.toNat ch) (BitVec.toNat die) (BitVec.toNat blk)) = false) ∧ ((s.grp (grpKey ch.toNat die.toNat blk.toNat)).state ≠ .bad) ∧ ((s.grp (grpKey ch.toNat die.toNat blk.toNat)).state ≠ .retired)) ∧
  (∃ (s : State) (ch : BitVec 4) (die : BitVec 4) (blk : BitVec 11),
    (s.up = true) ∧ (s.grpBusy (grpKey (BitVec.toNat ch) (BitVec.toNat die) (BitVec.toNat blk)) = true)) ∧
  (∃ (s : State) (ch : BitVec 4) (die : BitVec 4) (low : BitVec 11) (high : BitVec 11),
    (s.up = true) ∧ ((s.grp (grpKey (BitVec.toNat ch) (BitVec.toNat die) (BitVec.toNat low))).erases + 150 < (s.grp (grpKey ch.toNat die.toNat (BitVec.toNat high))).erases)) ∧
  (∃ (s : State) (worst : Nat) (age : Nat),
    (s.up = true) ∧ (worst ≤ 100) ∧ (60 < worst ∨ 180 < age)) ∧
  (∃ (s : State) (ch : BitVec 4) (die : BitVec 4),
    (s.up = true) ∧ (s.dieDead (BitVec.toNat ch) (BitVec.toNat die) = true)) ∧
  (∃ (s : State) (ch : BitVec 4) (die : BitVec 4),
    (s.up = true) ∧ (s.dieDead (BitVec.toNat ch) (BitVec.toNat die) = false) ∧ (s.lodge.map = []) ∧ (s.lodgeReadOnly = false)) ∧
  (∃ (s : State),
    (s.up = true) ∧ (s.lodge.stat.lost = false) ∧ (s.lodge.map = []) ∧ (s.lodgeReadOnly = false)) := by
  refine
      ⟨⟨up, place0, ?_, ?_⟩,
      ⟨(lodged { reads := 99998 }), place0, ?_, ?_, ?_, ?_⟩,
      ⟨(lodged { reads := 99999 }), place0, ?_, ?_, ?_, ?_⟩,
      ⟨({ (lodged { reads := 9 }) with lodge.ladder := [(placeKey place0, 2)] }), place0, ?_, ?_, ?_, ?_⟩,
      ⟨({ up with lodge.map := [] }), 3, 4, 2, ((place0, tag0, none)), ?_, ?_, ?_, ?_, ?_, ?_, ?_, ?_⟩,
      ⟨up, 3, 4, 2, 1, ([(place0, tag0, none)]), ?_, ?_, ?_, ?_⟩,
      ⟨({ up with lodge.stat := { state := 4 } }), ?_, ?_⟩,
      ⟨up, 3, 4, 1, ([(place0, tag0, none)]), ((place0, tag0, none)), ?_, ?_, ?_⟩,
      ⟨up, 1, 2, 3, ?_, ?_, ?_, ?_⟩,
      ⟨(lodged {}), 1, 2, 3, ?_, ?_⟩,
      ⟨({ up with lodge.grps := [(grpOf place0 + 1, { erases := 157 }), (grpOf place0, { erases := 6 })] }), 1, 2, 3, 4, ?_, ?_⟩,
      ⟨(lodged {}), 61, 0, ?_, ?_, ?_⟩,
      ⟨({ up with lodge.chs := [(1, { dead := 4 })] }), 1, 2, ?_, ?_⟩,
      ⟨({ up with lodge.map := [] }), 1, 2, ?_, ?_, ?_, ?_⟩,
      ⟨({ up with lodge.map := [] }), ?_, ?_, ?_, ?_⟩⟩ <;>
    first | decide +kernel | exact ⟨by decide +kernel, by decide +kernel, by decide +kernel⟩ | rfl | exact ⟨_, rfl⟩

/-- The hypotheses of each clause of LodgePageAndObjectRows can be met together. -/
theorem witness_LodgePageAndObjectRows :
  (∃ (s : State) (b : BitVec 12) (page : BitVec 27) (ok : Bool) (op : PageOp),
    (s.up = true) ∧ (s.lodge.pages.lookup (pageKey b (BitVec.toNat page)) = some op) ∧ (op.rebuild = true) ∧ (op.ready = false) ∧ (op.peers < 3) ∧ (op.peers < (s.replicasOf op.lun).length) ∧ (ok = true ∨ op.peers + 1 < min 3 (s.replicasOf op.lun).length)) ∧
  (∃ (s : State) (b : BitVec 12) (page : BitVec 27) (op : PageOp),
    (s.up = true) ∧ (s.lodge.pages.lookup (pageKey b (BitVec.toNat page)) = some op) ∧ (3 ≤ op.peers)) ∧
  (∃ (s : State) (b : BitVec 12) (page : BitVec 27) (lun : BitVec 29) (frame : BitVec 29),
    (s.up = true) ∧ (s.memoryWf) ∧ ((s.pte b (BitVec.toNat page)).tier = 3) ∧ ((s.pte b page.toNat).state = 2) ∧ (BitVec.toNat lun = (s.pte b page.toNat).lun) ∧ (s.lodge.pages.lookup (pageKey b page.toNat) = none) ∧ (s.frameFree 2 (BitVec.toNat frame) = true) ∧ ((s.quotaBib b).quotaFor 2 frame.toNat = true)) ∧
  (∃ (s : State) (b : BitVec 12) (page : BitVec 27),
    (s.up = true) ∧ ((s.pte b (BitVec.toNat page)).state = 1) ∧ (s.lodge.pages.lookup (pageKey b page.toNat) = none)) ∧
  (∃ (s : State),
    (s.up = true)) ∧
  (∃ (s : State) (id : Nat) (o : LObj),
    (s.up = true) ∧ (s.object id = some o) ∧ (o.first.isSome = true) ∧ (o.copies = 0) ∧ (s.lodgeReadOnly = false)) ∧
  (∃ (s : State) (id : Nat) (o : LObj),
    (s.up = true) ∧ (s.object id = some o) ∧ (o.first.isSome = true) ∧ (o.copies = 0)) ∧
  (∃ (s : State) (id : Nat) (o : LObj),
    (s.up = true) ∧ (s.object id = some o) ∧ (o.first.isSome = true) ∧ (o.copies = 1) ∧ (o.kind ≠ 1) ∧ (o.kind ≠ 2) ∧ (s.lodgeReadOnly = false)) ∧
  (∃ (s : State) (id : Nat),
    (s.up = true) ∧ (s.object id = none)) ∧
  (∃ (s : State),
    (s.up = true) ∧ (s.lodge.started = false)) ∧
  (∃ (s : State),
    (s.up = true) ∧ (s.lodge.started = true)) ∧
  (∃ (s : State),
    (s.up = true)) ∧
  (∃ (s : State) (c : Hdr) (id : Nat) (kind : BitVec 8),
    (s.accepts 0x0403 c) ∧ (kind ≠ 0) ∧ (BitVec.toNat kind ≤ 6) ∧ (s.object id = none)) ∧
  (∃ (s : State) (c : Hdr) (kind : BitVec 8),
    (s.accepts 0x0403 c) ∧ (kind = 0 ∨ 6 < BitVec.toNat kind)) ∧
  (∃ (s : State) (c : Hdr) (id : Nat) (o : LObj),
    (s.accepts 0x0403 c) ∧ (s.object id = some o) ∧ (o.bib = c.bib) ∧ (o.first = none)) ∧
  (∃ (s : State) (c : Hdr) (act : ObjAct) (id : Nat) (o : LObj),
    (s.accepts 0x0403 c) ∧ (act ≠ .create) ∧ (s.object id = some o) ∧ (o.bib ≠ c.bib)) := by
  refine
      ⟨⟨(lodgePage [{ lun := 64, waiting := [2], rebuild := true, peers := 2 }] [5, 6, 7]), 3, 0, true, ({ lun := 64, waiting := [2], rebuild := true, peers := 2 }), ?_, ?_, ?_, ?_, ?_, ?_, ?_⟩,
      ⟨(lodgePage [{ lun := 64, waiting := [2], rebuild := true, peers := 3 }] [5, 6, 7]), 3, 0, ({ lun := 64, waiting := [2], rebuild := true, peers := 3 }), ?_, ?_, ?_⟩,
      ⟨(lodgePage [] []), 3, 0, 64, 4, ?_, ?_, ?_, ?_, ?_, ?_, ?_, ?_⟩,
      ⟨paged2, 3, 0, ?_, ?_, ?_⟩,
      ⟨(lodgePage [] [5]), ?_⟩,
      ⟨({ up with lodge.objs := [(5, { obj0 with first := some 64 })], cmd.waiting := [(.object 5, hd 1 3)] }), 5, ({ obj0 with first := some 64 }), ?_, ?_, ?_, ?_, ?_⟩,
      ⟨({ up with lodge.objs := [(5, { obj0 with first := some 64 })], cmd.waiting := [(.object 5, hd 1 3)] }), 5, ({ obj0 with first := some 64 }), ?_, ?_, ?_, ?_⟩,
      ⟨({ up with lodge.objs := [(5, { obj0 with first := some 64, copies := 1 })] }), 5, ({ obj0 with first := some 64, copies := 1 }), ?_, ?_, ?_, ?_, ?_, ?_, ?_⟩,
      ⟨up, 5, ?_, ?_⟩,
      ⟨({ (lodged {}) with lodge.objs := [(5, { obj0 with copies := 1 }), (6, obj0)] }), ?_, ?_⟩,
      ⟨({ up with lodge.started := true }), ?_, ?_⟩,
      ⟨up, ?_⟩,
      ⟨(bib3 .running), (hd 0 3), 5, 6, ?_, ?_, ?_, ?_⟩,
      ⟨(bib3 .running), (hd 0 3), 7, ?_, ?_⟩,
      ⟨({ (bib3 .running) with lodge.objs := [(5, obj0)] }), (hd 0 3), 5, obj0, ?_, ?_, ?_, ?_⟩,
      ⟨({ (bib3 .running) with lodge.objs := [(5, { obj0 with bib := 4 })] }), (hd 0 3), .commit, 5, ({ obj0 with bib := 4 }), ?_, ?_, ?_, ?_⟩⟩ <;>
    first | decide +kernel | exact ⟨by decide +kernel, by decide +kernel, by decide +kernel⟩ | rfl | exact ⟨_, rfl⟩

/-- The hypotheses of each clause of JobAndSecuringRows can be met together. -/
theorem witness_JobAndSecuringRows :
  (∃ (s : State) (c : Hdr) (a : JobArgs) (i : Nat) (o : Option (Nat × ℤ)),
    (s.accepts 0x0301 c) ∧ (a.mirrors.any (fun m => m.act = 3) = false) ∧ (jobInRange a = true) ∧ (a.jobId = c.jobId) ∧ ((s.bib a.bib).state ≠ .free) ∧ ((s.bib a.bib).state ≠ .clearing) ∧ (a.bib ≠ 0) ∧ (s.sl.jobs.any (fun _ j => j.args.jobId = a.jobId || j.args.jtag = a.jtag || j.args.bib = a.bib) = false) ∧ ((s.bib a.bib).t2Used + 4 * s.copyPages a.bib ≤ (s.bib a.bib).args.t2Quota.toNat) ∧ (s.freeJob = some i) ∧ (Job.chooseOffset { args := a, rank := BitVec.ofNat 11 (rankOf a) } = (o, []))) ∧
  (∃ (s : State) (c : Hdr) (a : JobArgs) (i : Nat) (o : Nat × ℤ) (pairs : List (Nat × Nat)),
    (s.accepts 0x0301 c) ∧ (a.mirrors.any (fun m => m.act = 3) = false) ∧ (jobInRange a = true) ∧ (a.jobId = c.jobId) ∧ ((s.bib a.bib).state ≠ .free) ∧ ((s.bib a.bib).state ≠ .clearing) ∧ (a.bib ≠ 0) ∧ (s.sl.jobs.any (fun _ j => j.args.jobId = a.jobId || j.args.jtag = a.jtag || j.args.bib = a.bib) = false) ∧ ((s.bib a.bib).t2Used + 4 * s.copyPages a.bib ≤ (s.bib a.bib).args.t2Quota.toNat) ∧ (s.freeJob = some i) ∧ (pairs ≠ []) ∧ (a.force = false) ∧ (Job.chooseOffset { args := a, rank := BitVec.ofNat 11 (rankOf a) } = (some o, pairs))) ∧
  (∃ (s : State) (c : Hdr) (j : Nat) (jb : Job),
    (s.accepts 0x0302 c) ∧ (s.jobNamed c = some (j, jb))) ∧
  (∃ (s : State) (c : Hdr),
    (s.accepts 0x0302 c) ∧ (s.jobNamed c = none)) ∧
  (∃ (s : State) (c : Hdr) (j : Nat) (jb : Job),
    (s.accepts 0x0303 c) ∧ (s.jobNamed c = some (j, jb)) ∧ (s.lodgeReadOnly = false)) ∧
  (∃ (s : State) (c : Hdr) (nb : BitVec 13) (nl : BitVec 22) (j : Nat) (jb : Job),
    (s.accepts 0x0303 c) ∧ (s.jobNamed c = some (j, jb)) ∧ (nb ≠ 0) ∧ (BitVec.toNat nb ≤ 4096) ∧ (nl ≠ 0) ∧ (jb.args.force = false)) ∧
  (∃ (s : State) (c : Hdr) (rank : BitVec 11) (j : Nat) (jb : Job),
    (s.accepts 0x0304 c) ∧ (s.jobNamed c = some (j, jb)) ∧ (BitVec.toNat rank < jb.args.members.length) ∧ ((s.secStat j).state = 1) ∧ ((s.secStat j).swap = none) ∧ ((s.secStat j).regrow = [])) ∧
  (∃ (s : State) (c : Hdr) (rank : BitVec 11) (j : Nat) (jb : Job),
    (s.accepts 0x0304 c) ∧ (s.jobNamed c = some (j, jb)) ∧ (BitVec.toNat rank < jb.args.members.length) ∧ ((s.secStat j).state ≠ 1)) ∧
  (∃ (s : State) (c : Hdr) (fores : List (BitVec 11)) (j : Nat) (jb : Job),
    (s.accepts 0x0305 c) ∧ (s.jobNamed c = some (j, jb)) ∧ (fores ≠ []) ∧ ((∀ f ∈ fores, f ∈ jb.args.fores)) ∧ ((s.secStat j).state = 1) ∧ ((s.secStat j).swap = none) ∧ ((s.secStat j).regrow = [])) ∧
  (∃ (s : State) (c : Hdr) (fores : List (BitVec 11)) (j : Nat) (jb : Job) (f : BitVec 11),
    (s.accepts 0x0305 c) ∧ (s.jobNamed c = some (j, jb)) ∧ (f ∈ fores) ∧ (f ∉ jb.args.fores)) ∧
  (∃ (s : State) (job : BitVec 8),
    (s.up = true) ∧ (s.sl.jobs.lookup (BitVec.toNat job) = none)) ∧
  (∃ (s : State) (job : BitVec 8) (jb : Job) (c : Nat) (k : Course),
    (s.up = true) ∧ (s.sl.jobs.lookup (BitVec.toNat job) = some jb) ∧ (s.trainSlot jb.args.bib = some (c, k))) ∧
  (∃ (s : State) (job : BitVec 8) (rank : BitVec 11) (kind : Fin 4) (jb : Job),
    (s.up = true) ∧ (s.sl.jobs.lookup (BitVec.toNat job) = some jb) ∧ (rank ≠ jb.rank) ∧ ((∀ y ∈ s.sec.copies, y.job = jb.args.jobId → y.rank = rank → y.kind ≠ Fin.val kind))) ∧
  (∃ (s : State) (job : BitVec 8) (step : BitVec 64) (jb : Job) (c : Nat) (k : Course) (x : SecCopy) (b : SecBody),
    (s.up = true) ∧ (s.sl.jobs.lookup (BitVec.toNat job) = some jb) ∧ (s.trainSlot jb.args.bib = some (c, k)) ∧ (s.sec.copies.find? (fun y => y.job = jb.args.jobId && y.rank = jb.rank && y.step = step && y.kind = 0 && !y.done) = some x) ∧ (x.body = some b) ∧ ((s.updSlot c).step = b.step) ∧ ((s.secStat job.toNat).keep = none)) := by
  refine
      ⟨⟨(bib3 .admitted), ({ hd 1 with jobId := 9 }), (args4 (fun i => [i])), 0, (some (0, 1)), ?_, ?_, ?_, ?_, ?_, ?_, ?_, ?_, ?_, ?_, ?_⟩,
      ⟨(bib3 .admitted), ({ hd 1 with jobId := 9 }), (args4 (fun _ => [5])), 0, ((0, 1)), ([(0, 1), (1, 2), (2, 3), (3, 0)]), ?_, ?_, ?_, ?_, ?_, ?_, ?_, ?_, ?_, ?_, ?_, ?_, ?_⟩,
      ⟨(securing job2 {}), ({ hd 1 with jobId := 9 }), 15, job2, ?_, ?_⟩,
      ⟨up, ({ hd 1 with jobId := 9 }), ?_, ?_⟩,
      ⟨(securing job2 { state := 1, nb := 4 }), ({ hd 1 with jobId := 9 }), 15, job2, ?_, ?_, ?_⟩,
      ⟨(securing job2 { state := 1, nb := 4 }), ({ hd 1 with jobId := 9 }), 4096, 77, 15, job2, ?_, ?_, ?_, ?_, ?_, ?_⟩,
      ⟨(securing job2 { state := 1, nb := 4 }), ({ hd 1 with jobId := 9 }), 1, 15, job2, ?_, ?_, ?_, ?_, ?_, ?_⟩,
      ⟨(securing job2 { state := 3, nb := 4 }), ({ hd 1 with jobId := 9 }), 1, 15, job2, ?_, ?_, ?_, ?_⟩,
      ⟨(securing job3 { state := 1, nb := 4 }), ({ hd 1 with jobId := 9 }), ([7]), 15, job3, ?_, ?_, ?_, ?_, ?_, ?_, ?_⟩,
      ⟨(securing job3 { state := 1, nb := 4 }), ({ hd 1 with jobId := 9 }), ([7, 8]), 15, job3, 8, ?_, ?_, ?_, ?_⟩,
      ⟨up, 15, ?_, ?_⟩,
      ⟨({ (securing job2 { state := 1 }) with upd.slots := [(2, { step := 9 })] }), 15, job2, 2, (course3 [bind0]), ?_, ?_, ?_⟩,
      ⟨(securing job2 { state := 1 }), 15, 1, 3, job2, ?_, ?_, ?_, ?_⟩,
      ⟨({ (securing job2 { state := 1 }) with sec.copies := [copy0 false], upd.slots := [(2, { step := 7, pin0 := 1, pin1 := 2 })] }), 15, 7, job2, 2, (course3 [bind0]), (copy0 false), body0, ?_, ?_, ?_, ?_, ?_, ?_, ?_⟩⟩ <;>
    first | decide +kernel | exact ⟨by decide +kernel, by decide +kernel, by decide +kernel⟩ | rfl | exact ⟨_, rfl⟩

/-- The hypotheses of each clause of RecoveryRows can be met together. -/
theorem witness_RecoveryRows :
  (∃ (s : State) (job : BitVec 8) (rank : BitVec 11) (jb : Job),
    (s.up = true) ∧ (s.sl.jobs.lookup (BitVec.toNat job) = some jb) ∧ (BitVec.toNat rank < jb.args.members.length) ∧ (rank ≠ jb.rank) ∧ (rank ∉ (s.secStat job.toNat).failed) ∧ ((s.secStat job.toNat).state ≠ 2) ∧ ((s.secStat job.toNat).state ≠ 4) ∧ ((s.bib jb.args.bib).state = .running)) ∧
  (∃ (s : State) (job : BitVec 8) (jb : Job),
    (s.up = true) ∧ (s.sl.jobs.lookup (BitVec.toNat job) = some jb)) ∧
  (∃ (s : State) (job : BitVec 8) (f : BitVec 11) (jb : Job),
    (s.up = true) ∧ (s.sl.jobs.lookup (BitVec.toNat job) = some jb) ∧ (((s.secStat job.toNat).state = 3 ∨ (s.secStat job.toNat).state = 4 ∨ (s.secStat job.toNat).state = 5)) ∧ (f ∈ jb.args.fores) ∧ ((s.secStat job.toNat).failed ≠ [])) ∧
  (∃ (s : State) (job : BitVec 8) (jb : Job),
    (s.up = true) ∧ (s.sl.jobs.lookup (BitVec.toNat job) = some jb) ∧ (((s.secStat job.toNat).state = 3 ∨ (s.secStat job.toNat).state = 4 ∨ (s.secStat job.toNat).state = 5))) ∧
  (∃ (s : State) (job : BitVec 8) (jb : Job),
    (s.up = true) ∧ (s.sl.jobs.lookup (BitVec.toNat job) = some jb) ∧ (((s.secStat job.toNat).state = 3 ∨ (s.secStat job.toNat).state = 4 ∨ (s.secStat job.toNat).state = 5))) ∧
  (∃ (s : State) (job : BitVec 8) (jb : Job),
    (s.up = true) ∧ (s.sl.jobs.lookup (BitVec.toNat job) = some jb) ∧ ((s.secStat job.toNat).state = 4) ∧ ((s.secStat job.toNat).row = 5)) ∧
  (∃ (s : State) (job : BitVec 8) (jb : Job) (f : BitVec 11) (r : BitVec 11),
    (s.up = true) ∧ (s.sl.jobs.lookup (BitVec.toNat job) = some jb) ∧ ((s.secStat job.toNat).state = 4) ∧ ((s.secStat job.toNat).row = 6) ∧ ((s.secStat job.toNat).fore = some f) ∧ ((s.secStat job.toNat).swap = none) ∧ ((s.secStat job.toNat).failed = [r]) ∧ (r.toNat < jb.args.members.length)) ∧
  (∃ (s : State) (job : BitVec 8) (jb : Job) (n : BitVec 64) (c : Nat) (k : Course) (b : SecBody),
    (s.up = true) ∧ (s.sl.jobs.lookup (BitVec.toNat job) = some jb) ∧ ((s.secStat job.toNat).state = 4) ∧ ((s.secStat job.toNat).row = 7) ∧ ((s.secStat job.toNat).step = some n) ∧ (s.trainSlot jb.args.bib = some (c, k)) ∧ (s.source jb n = some b)) ∧
  (∃ (s : State) (job : BitVec 8) (jb : Job),
    (s.up = true) ∧ (s.sl.jobs.lookup (BitVec.toNat job) = some jb) ∧ ((s.secStat job.toNat).state = 4) ∧ ((s.secStat job.toNat).row = 8)) ∧
  (∃ (s : State) (job : BitVec 8) (row : Fin 11) (jb : Job),
    (s.up = true) ∧ (s.sl.jobs.lookup (BitVec.toNat job) = some jb) ∧ ((s.secStat job.toNat).state = 4) ∧ (Fin.val row ≠ (s.secStat job.toNat).row + 1)) ∧
  (∃ (s : State) (job : BitVec 8) (jb : Job),
    (s.up = true) ∧ (s.sl.jobs.lookup (BitVec.toNat job) = some jb) ∧ ((s.bib jb.args.bib).state ≠ .suspended)) ∧
  (∃ (s : State) (job : BitVec 8) (jb : Job),
    (s.up = true) ∧ (s.sl.jobs.lookup (BitVec.toNat job) = some jb) ∧ ((s.bib jb.args.bib).state = .suspended) ∧ ((s.secStat job.toNat).state = 1) ∧ (jb.args.policy = true) ∧ (s.waitsForOperator jb.args.bib = false) ∧ ((s.secStat job.toNat).resumes = 0) ∧ (s.audits = []) ∧ (s.rink.failed = false)) ∧
  (∃ (s : State) (job : BitVec 8) (jb : Job),
    (s.up = true) ∧ (s.sl.jobs.lookup (BitVec.toNat job) = some jb) ∧ ((s.bib jb.args.bib).state = .suspended) ∧ ((s.secStat job.toNat).state = 7) ∧ ((s.secStat job.toNat).failed = []) ∧ (s.waitsForOperator jb.args.bib = true) ∧ (s.audits = []) ∧ (s.rink.failed = false)) ∧
  (∃ (s : State) (job : BitVec 8) (jb : Job) (c : Nat) (k : Course),
    (s.up = true) ∧ (s.sl.jobs.lookup (BitVec.toNat job) = some jb) ∧ ((s.bib jb.args.bib).state = .suspended) ∧ ((s.secStat job.toNat).state = 1) ∧ (jb.args.policy = true) ∧ (s.waitsForOperator jb.args.bib = false) ∧ (s.trainSlot jb.args.bib = some (c, k)) ∧ (2 ≤ (s.secStat job.toNat).resumes) ∧ ((s.secStat job.toNat).lastStep = (s.updSlot c).step) ∧ ((s.secStat job.toNat).lastWhy = (s.bib jb.args.bib).why)) ∧
  (∃ (s : State) (job : BitVec 8) (jb : Job),
    (s.up = true) ∧ (s.sl.jobs.lookup (BitVec.toNat job) = some jb) ∧ ((s.secStat job.toNat).state = 5)) ∧
  (∃ (s : State) (job : BitVec 8) (d : Fin 3) (planes : BitVec 16) (m : BitVec 12) (jb : Job),
    (s.up = true) ∧ (s.sl.jobs.lookup (BitVec.toNat job) = some jb) ∧ ((s.secStat job.toNat).state = 5) ∧ ((s.secStat job.toNat).regrow = []) ∧ ((∀ r ∈ (s.secStat job.toNat).failed, planes.getLsbD (jb.coord r.toNat (Fin.val d)) = true)) ∧ (planes ≠ 0) ∧ ((jb.contract d.val planes).args.members.length = BitVec.toNat m) ∧ (m ≠ 0) ∧ (planes.getLsbD (jb.coord jb.rank.toNat d.val) = false) ∧ (s.trainSlot jb.args.bib = none)) ∧
  (∃ (s : State) (job : BitVec 8) (d : Fin 3) (planes : BitVec 16) (m : BitVec 12) (jb : Job),
    (s.up = true) ∧ (s.sl.jobs.lookup (BitVec.toNat job) = some jb) ∧ ((s.secStat job.toNat).state = 5) ∧ ((s.secStat job.toNat).regrow = []) ∧ ((∀ r ∈ (s.secStat job.toNat).failed, planes.getLsbD (jb.coord r.toNat (Fin.val d)) = true)) ∧ (planes ≠ 0) ∧ ((jb.contract d.val planes).args.members.length = BitVec.toNat m) ∧ (m ≠ 0) ∧ (planes.getLsbD (jb.coord jb.rank.toNat d.val) = true) ∧ ((∀ c k, s.trainSlot jb.args.bib = some (c, k) → s.courseTakes job.toNat (jb.contract d.val planes) k = true))) ∧
  (∃ (s : State) (job : BitVec 8) (d : Fin 3) (planes : BitVec 16) (jb : Job) (c : Nat) (k : Course),
    (s.up = true) ∧ (s.sl.jobs.lookup (BitVec.toNat job) = some jb) ∧ ((s.secStat job.toNat).state = 5) ∧ ((s.secStat job.toNat).regrow = []) ∧ (s.trainSlot jb.args.bib = some (c, k)) ∧ (s.courseTakes job.toNat (jb.contract (Fin.val d) planes) k = false)) ∧
  (∃ (s : State) (job : BitVec 8) (jb : Job),
    (s.up = true) ∧ (s.sl.jobs.lookup (BitVec.toNat job) = some jb) ∧ ((s.secStat job.toNat).state ≠ 5)) := by
  refine
      ⟨⟨(securing job2 { state := 1 }), 15, 1, job2, ?_, ?_, ?_, ?_, ?_, ?_, ?_, ?_⟩,
      ⟨(securing job2 { state := 1 }), 15, job2, ?_, ?_⟩,
      ⟨(securing job3 { state := 3, failed := [1] }), 15, 7, job3, ?_, ?_, ?_, ?_, ?_⟩,
      ⟨(securing job3 { state := 3, failed := [1] }), 15, job3, ?_, ?_, ?_⟩,
      ⟨(securing job3 { state := 4, failed := [1], step := some 3 }), 15, job3, ?_, ?_, ?_⟩,
      ⟨(securing job3 { state := 4, failed := [1], row := 5 }), 15, job3, ?_, ?_, ?_, ?_⟩,
      ⟨(securing job3 { state := 4, failed := [1], row := 6, fore := some 7 }), 15, job3, 7, 1, ?_, ?_, ?_, ?_, ?_, ?_, ?_, ?_⟩,
      ⟨({ (securing job3 { state := 4, failed := [1], row := 7, step := some 7 }) with sec.copies := [copy0 true] }), 15, job3, 7, 2, (course3 [bind0]), body0, ?_, ?_, ?_, ?_, ?_, ?_, ?_⟩,
      ⟨(securing job3 { state := 4, failed := [1], row := 8 }), 15, job3, ?_, ?_, ?_, ?_⟩,
      ⟨(securing job3 { state := 4, failed := [1], row := 8 }), 15, 8, job3, ?_, ?_, ?_, ?_⟩,
      ⟨(securing job2 { state := 1 }), 15, job2, ?_, ?_, ?_⟩,
      ⟨(stopped { state := 1 }), 15, job2, ?_, ?_, ?_, ?_, ?_, ?_, ?_, ?_, ?_⟩,
      ⟨({ (stopped { state := 7 }) with bibs.recs := [(3, { state := .suspended, why := .auth })] }), 15, job2, ?_, ?_, ?_, ?_, ?_, ?_, ?_, ?_⟩,
      ⟨(stopped { state := 1, resumes := 2, lastWhy := .fault }), 15, job2, 2, (course3 [bind0]), ?_, ?_, ?_, ?_, ?_, ?_, ?_, ?_, ?_, ?_⟩,
      ⟨(securing job2 { state := 5, failed := [1] }), 15, job2, ?_, ?_, ?_⟩,
      ⟨({ (bib3 .suspended) with sl.jobs := [(15, job2)], sec.stats := [(15, { state := 5, failed := [1] })] }), 15, 0, 2, 1, job2, ?_, ?_, ?_, ?_, ?_, ?_, ?_, ?_, ?_, ?_⟩,
      ⟨({ (bib3 .suspended) with sl.jobs := [(15, job2)], sec.stats := [(15, { state := 5 })] }), 15, 0, 1, 1, job2, ?_, ?_, ?_, ?_, ?_, ?_, ?_, ?_, ?_, ?_⟩,
      ⟨({ (securing job2 { state := 5, failed := [1] }) with crs.courses := [(2, { course3 [bind0] with patches := [0] })] }), 15, 0, 2, job2, 2, ({ course3 [bind0] with patches := [0] }), ?_, ?_, ?_, ?_, ?_, ?_⟩,
      ⟨(securing job2 { state := 1 }), 15, job2, ?_, ?_, ?_⟩⟩ <;>
    first | decide +kernel | exact ⟨by decide +kernel, by decide +kernel, by decide +kernel⟩ | rfl | exact ⟨_, rfl⟩ | exact fun _ _ h => nomatch (show (none : Option (Nat × Course)) = some _ from h)

/-- The hypotheses of each clause of PhotoFinishAndLogRows can be met together. -/
theorem witness_PhotoFinishAndLogRows :
  (∃ (s : State),
    (s.up = true) ∧ (s.zilUp = true) ∧ (s.pf.busy = false) ∧ (s.pfTooSoon = false)) ∧
  (∃ (s : State),
    (s.up = true) ∧ (s.pf.busy = true)) ∧
  (∃ (s : State) (u : Fin 14),
    (s.up = true) ∧ (s.pf.busy = true) ∧ (s.pf.back = false) ∧ (Fin.val u ∉ s.pf.latched)) ∧
  (∃ (s : State) (u : Fin 14),
    (s.up = true) ∧ (Fin.val u ∈ s.pf.latched)) ∧
  (∃ (s : State),
    (s.up = true) ∧ (s.pf.busy = true) ∧ (s.pf.back = false) ∧ ((∀ u, u < 14 → u ∈ s.pf.latched)) ∧ (s.audits = [])) ∧
  (∃ (s : State) (u : Nat),
    (s.up = true) ∧ (u < 14) ∧ (u ∉ s.pf.latched)) ∧
  (∃ (s : State),
    (s.up = true) ∧ (s.pf.busy = true) ∧ (s.pf.back = true)) ∧
  (∃ (s : State),
    (s.up = true) ∧ (s.log.flight = [])) ∧
  (∃ (s : State) (e : Event) (rest : List Event),
    (s.up = true) ∧ (s.log.flight = e :: rest) ∧ (s.log.up = false) ∧ ((s.bib e.bib).state ≠ .running)) ∧
  (∃ (s : State) (e : Event) (rest : List Event),
    (s.up = true) ∧ (s.log.flight = e :: rest) ∧ (s.log.up = true) ∧ ((s.bib e.bib).state ≠ .running)) ∧
  (∃ (s : State),
    (s.up = true) ∧ (s.log.up = true) ∧ (s.lodge.started = true) ∧ (s.lodgeReadOnly = false) ∧ (s.entriesFrom s.lodge.flushed.toNat ≠ [])) ∧
  (∃ (s : State),
    (s.up = true) ∧ (s.log.up = false)) := by
  refine
      ⟨⟨up, ?_, ?_, ?_, ?_⟩,
      ⟨({ up with pf.busy := true }), ?_, ?_⟩,
      ⟨({ up with pf.busy := true, ctr := [(ctrKey 0x0705 0, { value := 5 }), (ctrKey 0x0705 1, { value := 6 }), (ctrKey 0x0501 7, { value := 9 })] }), 0, ?_, ?_, ?_, ?_⟩,
      ⟨({ up with pf.busy := true, pf.latched := [3] }), 3, ?_, ?_⟩,
      ⟨({ up with pf.busy := true, pf.latched := List.range 14, lift.strm := [] }), ?_, ?_, ?_, ?_, ?_⟩,
      ⟨up, 13, ?_, ?_, ?_⟩,
      ⟨({ up with pf.busy := true, pf.back := true, pf.taking := 4 }), ?_, ?_, ?_⟩,
      ⟨({ up with log.flight := [] }), ?_, ?_⟩,
      ⟨({ up with log.flight := [event0, event0] }), event0, ([event0]), ?_, ?_, ?_, ?_⟩,
      ⟨({ up with log.flight := [event0, event0], log.up := true, log.next := 9 }), event0, ([event0]), ?_, ?_, ?_, ?_⟩,
      ⟨({ up with log.up := true, log.next := 9, log.ring := [(8, { ts := 1, epoch := 0, index := 8, ev := event0 })], lodge.started := true }), ?_, ?_, ?_, ?_, ?_⟩,
      ⟨up, ?_, ?_⟩⟩ <;>
    first | decide +kernel | exact ⟨by decide +kernel, by decide +kernel, by decide +kernel⟩ | rfl | exact ⟨_, rfl⟩

/-- The hypotheses of each clause of CounterIncrements can be met together. -/
theorem witness_CounterIncrements :
  (∃ (s : State) (id : Nat) (inst : Nat) (n : Nat),
    ((s.counter id inst).ovf = false) ∧ ((s.counter id inst).value.toNat + n < 2 ^ 48)) ∧
  (∃ (s : State) (id : Nat) (inst : Nat) (n : Nat),
    ((s.counter id inst).ovf = false) ∧ (2 ^ 48 ≤ (s.counter id inst).value.toNat + n)) ∧
  (∃ (s : State) (id : Nat) (inst : Nat),
    ((s.counter id inst).ovf = true)) ∧
  (∃ (id : Nat) (inst : Nat) (id' : Nat) (inst' : Nat),
    (ctrKey id' inst' ≠ ctrKey id inst)) := by
  refine
      ⟨⟨up, 0x0501, 3, 5, ?_, ?_⟩,
      ⟨({ up with ctr := [(ctrKey 0x0501 3, { value := 2 ^ 48 - 2 })] }), 0x0501, 3, 2, ?_, ?_⟩,
      ⟨({ up with ctr := [(ctrKey 0x0501 3, { value := 2 ^ 48 - 1, ovf := true })] }), 0x0501, 3, ?_⟩,
      ⟨0x0501, 3, 0x0501, 4, ?_⟩⟩ <;>
    first | decide +kernel | exact ⟨by decide +kernel, by decide +kernel, by decide +kernel⟩ | rfl | exact ⟨_, rfl⟩

/-- The hypotheses of each clause of SelftestRows can be met together. -/
theorem witness_SelftestRows :
  (∃ (s : State) (c : Hdr) (unit : BitVec 4) (inst : BitVec 12),
    (s.accepts 0x0507 c) ∧ (unitCount (BitVec.toNat unit) ≤ BitVec.toNat inst)) ∧
  (∃ (s : State) (c : Hdr) (inst : BitVec 12),
    (s.accepts 0x0507 c) ∧ (BitVec.toNat inst < 104) ∧ ((s.stnMap (inst.toNat / 26)).failed.getLsbD (inst.toNat % 26) = false) ∧ (unitKey 1 inst.toNat ∉ s.test.running) ∧ (s.testReady 1 inst.toNat = true)) ∧
  (∃ (s : State) (c : Hdr) (inst : BitVec 12),
    (s.accepts 0x0507 c) ∧ (BitVec.toNat inst < 104) ∧ ((s.stnMap (inst.toNat / 26)).failed.getLsbD (inst.toNat % 26) = false) ∧ (unitKey 1 inst.toNat ∉ s.test.running) ∧ ((s.stn inst.toNat).withdraw = false) ∧ ((s.stn inst.toNat).wdDone = false)) ∧
  (∃ (s : State) (inst : BitVec 12),
    (s.up = true) ∧ (unitKey 4 (BitVec.toNat inst) ∈ s.test.waiting) ∧ ((∀ k ∈ s.test.running, k / 4096 ≠ 4))) ∧
  (∃ (s : State) (unit : BitVec 4) (inst : BitVec 12),
    (s.up = true) ∧ (unitKey (BitVec.toNat unit) (BitVec.toNat inst) ∉ s.test.waiting)) ∧
  (∃ (s : State) (unit : BitVec 4) (inst : BitVec 12),
    (s.up = true) ∧ (unitKey (BitVec.toNat unit) (BitVec.toNat inst) ∉ s.test.running)) ∧
  (∃ (s : State) (inst : BitVec 12) (o : TestOutcome),
    (s.up = true) ∧ (unitKey 4 (BitVec.toNat inst) ∈ s.test.running) ∧ (o.pass = false) ∧ (s.audits = [])) ∧
  (∃ (s : State) (inst : BitVec 12) (o : TestOutcome),
    (s.up = true) ∧ (unitKey 1 (BitVec.toNat inst) ∈ s.test.running) ∧ (o.pass = true) ∧ (unitKey 1 inst.toNat ∉ s.test.second) ∧ (inst.toNat ∈ s.test.byTest) ∧ ((s.stn inst.toNat).wdDone = true) ∧ (s.audits = [])) ∧
  (∃ (s : State) (inst : BitVec 12) (o : TestOutcome),
    (s.up = true) ∧ (unitKey 1 (BitVec.toNat inst) ∈ s.test.running) ∧ (o.pass = false) ∧ (unitKey 1 inst.toNat ∉ s.test.second) ∧ (o.part = 2) ∧ ((s.stn inst.toNat).wdDone = true) ∧ ((s.rink.cols.read {} inst.toNat).pad o.qtr.toNat = 64) ∧ (o.col.toNat < 64)) ∧
  (∃ (s : State) (inst : BitVec 12) (o : TestOutcome),
    (s.up = true) ∧ (unitKey 1 (BitVec.toNat inst) ∈ s.test.running) ∧ (o.pass = false) ∧ (unitKey 1 inst.toNat ∉ s.test.second) ∧ ((s.stn inst.toNat).wdDone = false) ∧ (s.audits = [])) ∧
  (∃ (s : State) (inst : BitVec 12) (o : TestOutcome),
    (s.up = true) ∧ (unitKey 1 (BitVec.toNat inst) ∈ s.test.running) ∧ (o.pass = false) ∧ (unitKey 1 inst.toNat ∈ s.test.second) ∧ (s.audits = [])) ∧
  (∃ (s : State) (c : Hdr) (unit : BitVec 4) (inst : BitVec 12),
    (s.accepts 0x0508 c) ∧ (unit = 2 ∨ unit = 3 ∨ unit = 4) ∧ (BitVec.toNat inst < unitCount (BitVec.toNat unit))) ∧
  (∃ (s : State) (c : Hdr) (unit : BitVec 4) (inst : BitVec 12),
    (s.accepts 0x0508 c) ∧ (unitCount (BitVec.toNat unit) ≤ BitVec.toNat inst)) := by
  refine
      ⟨⟨up, (hd 1), 1, 104, ?_, ?_⟩,
      ⟨withdrawn3, (hd 1), 3, ?_, ?_, ?_, ?_, ?_⟩,
      ⟨({ up with rink.stn := [(3, { bib1 := 9 })] }), (hd 1), 3, ?_, ?_, ?_, ?_, ?_, ?_⟩,
      ⟨({ up with test.waiting := [unitKey 4 2], test.running := [unitKey 1 5] }), 2, ?_, ?_, ?_⟩,
      ⟨up, 4, 2, ?_, ?_⟩,
      ⟨up, 4, 2, ?_, ?_⟩,
      ⟨({ up with test.running := [unitKey 4 2], lift.strm := [] }), 2, (tested false 3), ?_, ?_, ?_, ?_⟩,
      ⟨({ withdrawn3 with test.running := [unitKey 1 3], test.byTest := [3] }), 3, (tested true 0), ?_, ?_, ?_, ?_, ?_, ?_, ?_⟩,
      ⟨({ withdrawn3 with test.running := [unitKey 1 3], test.byTest := [3] }), 3, (tested false 2), ?_, ?_, ?_, ?_, ?_, ?_, ?_, ?_⟩,
      ⟨({ up with rink.stn := [(3, { withdraw := true })], test.running := [unitKey 1 3], lift.strm := [] }), 3, (tested false 0), ?_, ?_, ?_, ?_, ?_, ?_⟩,
      ⟨({ withdrawn3 with test.running := [unitKey 1 3], test.second := [unitKey 1 3] }), 3, (tested false 2), ?_, ?_, ?_, ?_, ?_⟩,
      ⟨up, (hd 1), 3, 11, ?_, ?_, ?_⟩,
      ⟨up, (hd 1), 3, 12, ?_, ?_⟩⟩ <;>
    first | decide +kernel | exact ⟨by decide +kernel, by decide +kernel, by decide +kernel⟩ | rfl | exact ⟨_, rfl⟩

/-- The hypotheses of each clause of BootRows can be met together. -/
theorem witness_BootRows :
  (∃ (s : State),
    (s.pwr.pwrGood = true) ∧ (s.pwr.resetN = true) ∧ (s.boot.rows = []) ∧ ((s.boot.inForce.1).try_ = false)) ∧
  (∃ (s : State),
    (s.pwr.pwrGood = true) ∧ (s.pwr.resetN = true) ∧ (s.boot.rows = []) ∧ ((s.boot.inForce.1).try_ = true) ∧ (0 < (s.boot.inForce.1).tries.toNat)) ∧
  (∃ (s : State),
    (s.boot.rows ≠ [])) ∧
  (∃ (s : State) (i : Image),
    (s.up = true) ∧ (s.boot.rows = [.b1, .b2]) ∧ (s.image s.boot.stat.slot 1 = some i) ∧ (imageOk s.boot.svn 1 i = true)) ∧
  (∃ (s : State),
    (s.up = true) ∧ (s.boot.rows = [.b1, .b2]) ∧ (s.slotImage false 1 = false) ∧ (s.slotImage true 1 = false)) ∧
  (∃ (s : State),
    (s.up = true) ∧ (s.boot.rows = [.b1, .b2, .b3])) ∧
  (∃ (s : State),
    (s.up = true) ∧ (s.boot.rows = [.b1, .b2, .b3, .b4])) ∧
  (∃ (s : State) (i : Image),
    (s.up = true) ∧ (s.boot.rows = [.b1, .b2, .b3, .b4, .b5]) ∧ (s.image s.boot.stat.slot 2 = some i) ∧ (imageOk s.boot.svn 2 i = true) ∧ (s.slotImage s.boot.stat.slot 3 = true)) ∧
  (∃ (s : State),
    (s.up = true) ∧ (s.boot.rows = [.b1, .b2, .b3, .b4, .b5, .b6])) ∧
  (∃ (s : State),
    (s.up = true) ∧ (s.reached .b7 = true) ∧ (s.reached .b8 = false)) ∧
  (∃ (s : State),
    (s.up = true) ∧ (s.reached .b7 = true) ∧ (s.reached .b9 = false) ∧ (s.lodge.started = true)) ∧
  (∃ (s : State),
    (s.up = true) ∧ (s.reached .b7 = true) ∧ (s.reached .b10 = false) ∧ ((∀ i, i < 6 → (s.byp i).state = .loop ∧ s.bothTrained i = true))) ∧
  (∃ (s : State) (i : Nat),
    (s.up = true) ∧ (i < 6) ∧ ((s.byp i).state ≠ .loop)) ∧
  (∃ (s : State),
    (s.up = true) ∧ (s.boot.ready = false) ∧ (s.reached .b8 = true) ∧ (s.reached .b9 = true) ∧ (s.reached .b10 = true) ∧ (s.audits = []) ∧ (s.rink.failed = false)) ∧
  (∃ (s : State),
    (s.up = true) ∧ (s.boot.ready = false) ∧ (s.reached .b8 = false)) ∧
  (∃ (s : State),
    (s.up = true) ∧ (s.boot.stat.trial = true) ∧ (s.boot.ready = false) ∧ (s.boot.rows ≠ []) ∧ (s.boot.stat.stage ≠ 7)) ∧
  (∃ (s : State),
    (s.up = true) ∧ (s.boot.stat.trial = false)) := by
  refine
      ⟨⟨({ up with boot.rows := [], pwr.resetN := true, pwr.reset := true, test.nextScope := some 3 }), ?_, ?_, ?_, ?_⟩,
      ⟨({ up with boot.rows := [], pwr.resetN := true, boot.rec0 := some { active := true, try_ := true, tries := 3 } }), ?_, ?_, ?_, ?_, ?_⟩,
      ⟨up, ?_⟩,
      ⟨(booting [.b1, .b2]), (image0 1), ?_, ?_, ?_, ?_⟩,
      ⟨({ up with boot.rows := [.b1, .b2], boot.ready := false }), ?_, ?_, ?_, ?_⟩,
      ⟨(booting [.b1, .b2, .b3]), ?_, ?_⟩,
      ⟨({ (booting [.b1, .b2, .b3, .b4]) with mem.bytes := [(byteKey 2 5, 1), (byteKey 3 5, 4)], mem.stks := [(2, { marked := true, mdie := 5 })] }), ?_, ?_⟩,
      ⟨(booting [.b1, .b2, .b3, .b4, .b5]), (image0 2), ?_, ?_, ?_, ?_, ?_⟩,
      ⟨({ (booting [.b1, .b2, .b3, .b4, .b5, .b6]) with log.held := [{ ts := 1, epoch := 0, index := 0, ev := event0 }, { ts := 2, epoch := 0, index := 0, ev := event0 }], log.next := 0, log.ring := [] }), ?_, ?_⟩,
      ⟨(booting [.b1, .b7]), ?_, ?_, ?_⟩,
      ⟨({ (booting [.b1, .b7]) with lodge.started := true }), ?_, ?_, ?_, ?_⟩,
      ⟨({ (booting [.b1, .b7]) with sl.byps := (List.range 6).map (fun i => (i, { state := .loop })), sl.ports := (List.range 12).map (fun i => (i, { trained := true, state := 1 })) }), ?_, ?_, ?_, ?_⟩,
      ⟨(booting [.b1, .b7]), 2, ?_, ?_, ?_⟩,
      ⟨({ (booting [.b1, .b7, .b8, .b10, .b9]) with lift.strm := [], boot.stat := { stage := 4, trial := true, slot := true } }), ?_, ?_, ?_, ?_, ?_, ?_, ?_⟩,
      ⟨(booting [.b1, .b7]), ?_, ?_, ?_⟩,
      ⟨({ (booting [.b1, .b7]) with boot.stat := { stage := 4, trial := true, slot := true } }), ?_, ?_, ?_, ?_, ?_⟩,
      ⟨up, ?_, ?_⟩⟩ <;>
    first | decide +kernel | exact ⟨by decide +kernel, by decide +kernel, by decide +kernel⟩ | rfl | exact ⟨_, rfl⟩

/-- The hypotheses of each clause of FirmwareRows can be met together. -/
theorem witness_FirmwareRows :
  (∃ (s : State) (c : Hdr) (i : Image),
    (s.accepts 0x0601 c) ∧ (s.boot.stat.stage ≠ 7) ∧ (1 ≤ i.kind.toNat) ∧ (i.kind.toNat ≤ 3)) ∧
  (∃ (s : State) (c : Hdr) (i : Image),
    (s.accepts 0x0601 c) ∧ (i.kind = 0 ∨ 3 < i.kind.toNat)) ∧
  (∃ (s : State) (c : Hdr),
    (s.accepts 0x0602 c) ∧ (s.updating = false) ∧ ((∀ e ∈ s.cmd.waiting, e.1 ≠ .update)) ∧ (s.boot.cur.valid s.inactive = true) ∧ (s.inRecovery = false)) ∧
  (∃ (s : State) (c : Hdr),
    (s.accepts 0x0602 c) ∧ (s.updating = false) ∧ ((∀ e ∈ s.cmd.waiting, e.1 ≠ .update)) ∧ (s.boot.cur.valid s.inactive = true) ∧ (s.inRecovery = true)) ∧
  (∃ (s : State) (c : Hdr),
    (s.accepts 0x0602 c) ∧ (s.updating = true)) ∧
  (∃ (s : State),
    (s.up = true) ∧ (s.boot.stat.update = 1) ∧ (s.slotImage s.inactive 2 = true) ∧ (s.slotImage s.inactive 3 = true)) ∧
  (∃ (s : State),
    (s.up = true) ∧ (s.boot.stat.update = 1) ∧ (s.slotImage s.inactive 2 = false)) ∧
  (∃ (s : State),
    (s.up = true) ∧ (s.boot.stat.update ≠ 1)) ∧
  (∃ (s : State),
    (s.up = true) ∧ (s.boot.stat.update = 2)) ∧
  (∃ (s : State) (i : Image),
    (s.up = true) ∧ (s.boot.stat.update = 3) ∧ (s.image s.inactive 2 = some i)) ∧
  (∃ (s : State),
    (s.up = true) ∧ (s.boot.stat.update = 4)) ∧
  (∃ (s : State) (c : Hdr) (b : Bool),
    (s.accepts 0x0603 c) ∧ (b = s.boot.cur.active)) ∧
  (∃ (s : State) (c : Hdr) (b : Bool),
    (s.accepts 0x0603 c) ∧ (b ≠ s.boot.cur.active)) ∧
  (∃ (s : State) (c : Hdr) (n : BitVec 8),
    (s.accepts 0x0604 c) ∧ (BitVec.toNat n ≤ 64) ∧ (s.bothAtLeast n = true)) ∧
  (∃ (s : State) (c : Hdr) (n : BitVec 8),
    (s.accepts 0x0604 c) ∧ (BitVec.toNat n ≤ 64) ∧ (s.bothAtLeast n = false)) ∧
  (∃ (s : State) (c : Hdr) (n : BitVec 8),
    (s.accepts 0x0604 c) ∧ (64 < BitVec.toNat n)) := by
  refine
      ⟨⟨up, (hd 1), (image0 2), ?_, ?_, ?_, ?_⟩,
      ⟨up, (hd 1), (image0 0), ?_, ?_⟩,
      ⟨up, (hd 1), ?_, ?_, ?_, ?_, ?_⟩,
      ⟨({ up with sec.stats := [(4, { state := 3 })] }), (hd 1), ?_, ?_, ?_, ?_, ?_⟩,
      ⟨({ (updating 4) with boot.ready := true }), (hd 1), ?_, ?_⟩,
      ⟨(updating 1), ?_, ?_, ?_, ?_⟩,
      ⟨({ (updating 1) with boot.images := [], cmd.paused := true }), ?_, ?_, ?_⟩,
      ⟨up, ?_, ?_⟩,
      ⟨(updating 2), ?_, ?_⟩,
      ⟨(updating 3), (image0 2), ?_, ?_, ?_⟩,
      ⟨(updating 4), ?_, ?_⟩,
      ⟨({ up with boot.cur := { try_ := true, tries := 2 } }), (hd 1), false, ?_, ?_⟩,
      ⟨up, (hd 1), true, ?_, ?_⟩,
      ⟨({ (booting [.b7]) with boot.ready := true }), (hd 1), 5, ?_, ?_, ?_⟩,
      ⟨({ (booting [.b7]) with boot.ready := true }), (hd 1), 6, ?_, ?_, ?_⟩,
      ⟨up, (hd 1), 65, ?_, ?_⟩⟩ <;>
    first | decide +kernel | exact ⟨by decide +kernel, by decide +kernel, by decide +kernel⟩ | rfl | exact ⟨_, rfl⟩

/-- The hypotheses of each clause of LiveUpdateReversal can be met together. -/
theorem witness_LiveUpdateReversal :
  (∃ (s : State) (c : Hdr),
    (s.up = true) ∧ (s.boot.stat.update = 3) ∧ (s.cmd.waiting = [(.update, c)])) ∧
  (∃ (s : State) (c : Hdr),
    (s.up = true) ∧ (s.boot.stat.update = 3) ∧ (s.cmd.waiting = [(.update, c)])) ∧
  (∃ (s : State) (c : Hdr),
    (s.up = true) ∧ (s.boot.stat.update = 4) ∧ (s.cmd.waiting = [(.update, c)])) ∧
  (∃ (s : State),
    (s.up = true) ∧ (s.boot.stat.update ≠ 3) ∧ (s.boot.stat.update ≠ 4)) := by
  refine
      ⟨⟨(updating 3), ({ hd 1 with opcode := 0x0602 }), ?_, ?_, ?_⟩,
      ⟨(updating 3), ({ hd 1 with opcode := 0x0602 }), ?_, ?_, ?_⟩,
      ⟨(updating 4), ({ hd 1 with opcode := 0x0602 }), ?_, ?_, ?_⟩,
      ⟨up, ?_, ?_, ?_⟩⟩ <;>
    first | decide +kernel | exact ⟨by decide +kernel, by decide +kernel, by decide +kernel⟩ | rfl | exact ⟨_, rfl⟩

/-- The hypotheses of each clause of JtagAndResetRows can be met together. -/
theorem witness_JtagAndResetRows :
  (∃ (s : State),
    (s.vauxUp = true)) ∧
  (∃ (s : State),
    (s.vauxUp = true)) ∧
  (∃ (s : State),
    (s.vauxUp = true)) ∧
  (∃ (s : State),
    (s.vauxUp = true) ∧ (s.pwr.reset = true)) ∧
  (∃ (s : State),
    (s.vauxUp = true) ∧ (s.pwr.reset = false)) ∧
  (∃ (s : State),
    (s.vauxUp = true)) ∧
  (∃ (s : State) (scope : BitVec 8),
    (s.vauxUp = true) ∧ (BitVec.toNat scope < 4)) ∧
  (∃ (s : State) (magicOk : Bool) (tver : BitVec 8) (serial : BitVec 64) (challenge : BitVec 128) (scope : BitVec 8) (rsvZero : Bool) (sigOk : Bool),
    (s.vauxUp = true) ∧ ((magicOk = false ∨ tver ≠ 1 ∨ serial ≠ Config.serial ∨ challenge ≠ s.test.challenge ∨ 4 ≤ BitVec.toNat scope ∨ rsvZero = false ∨ sigOk = false))) ∧
  (∃ (s : State),
    (s.vauxUp = false)) ∧
  (∃ (s : State) (c : Hdr),
    (s.accepts 0x0509 c) ∧ (s.updating = true)) ∧
  (∃ (s : State) (c : Hdr),
    (s.accepts 0x0509 c) ∧ (s.updating = false) ∧ (s.anyRunning = true) ∧ (c.role ≠ 2)) ∧
  (∃ (s : State) (c : Hdr) (force : Bool),
    (s.accepts 0x0509 c) ∧ (s.updating = false) ∧ ((s.anyRunning = false ∨ force = true ∨ c.role = 2))) := by
  refine
      ⟨⟨up, ?_⟩,
      ⟨up, ?_⟩,
      ⟨up, ?_⟩,
      ⟨State.reset, ?_, ?_⟩,
      ⟨up, ?_, ?_⟩,
      ⟨up, ?_⟩,
      ⟨({ up with test.challenge := 8 }), 3, ?_, ?_⟩,
      ⟨({ up with test.challenge := 8 }), false, 1, Config.serial, 8, 4, true, true, ?_, ?_⟩,
      ⟨({ up with pwr.stage := .dark }), ?_⟩,
      ⟨(updating 4), (hd 1), ?_, ?_⟩,
      ⟨(bib3 .running), (hd 1), ?_, ?_, ?_, ?_⟩,
      ⟨(bib3 .admitted), (hd 1), false, ?_, ?_, ?_⟩⟩ <;>
    first | decide +kernel | exact ⟨by decide +kernel, by decide +kernel, by decide +kernel⟩ | rfl | exact ⟨_, rfl⟩ | exact Or.inl rfl

/-- The hypotheses of each clause of TransferRows can be met together. -/
theorem witness_TransferRows :
  (∃ (s : State) (c : Hdr) (va : BitVec 48) (data : List Byte) (st : Status),
    (s.accepts 0x0401 c) ∧ (s.noHostKey c = false) ∧ (s.transferFault c.bib (BitVec.toNat va) data.length true = some st)) ∧
  (∃ (s : State) (c : Hdr) (va : BitVec 48) (k : Nat),
    (s.accepts 0x0401 c) ∧ (s.noHostKey c = false) ∧ (s.transferFault c.bib (BitVec.toNat va) 1 true = none) ∧ (s.byteAt c.bib va.toNat = some k)) ∧
  (∃ (s : State) (c : Hdr),
    (s.accepts 0x0401 c) ∧ (s.noHostKey c = true)) ∧
  (∃ (s : State) (c : Hdr) (id : Nat) (o : LObj),
    (s.accepts 0x0401 c) ∧ (s.noHostKey c = false) ∧ (s.object id = some o) ∧ (o.bib = c.bib) ∧ (o.first = none)) ∧
  (∃ (s : State) (c : Hdr) (va : BitVec 48) (len : Nat),
    (s.accepts 0x0402 c) ∧ (c.path ≠ .host) ∧ (s.transferFault c.bib (BitVec.toNat va) len false = none)) ∧
  (∃ (s : State) (c : Hdr) (va : BitVec 48) (len : Nat) (st : Status),
    (s.accepts 0x0402 c) ∧ (s.noHostKey c = false) ∧ (s.transferFault c.bib (BitVec.toNat va) len false = some st)) ∧
  (∃ (s : State) (c : Hdr) (id : Nat) (len : Nat) (o : LObj),
    (s.accepts 0x0402 c) ∧ (c.path ≠ .host) ∧ (s.object id = some o) ∧ (o.bib = c.bib) ∧ (o.lost = false) ∧ (len ≤ o.bytes.length)) ∧
  (∃ (s : State) (c : Hdr) (id : Nat) (o : LObj),
    (s.accepts 0x0402 c) ∧ (s.noHostKey c = false) ∧ (s.object id = some o) ∧ (o.bib = c.bib) ∧ (o.lost = true)) ∧
  (∃ (s : State) (b : BitVec 12) (sl : Seal),
    (s.up = true) ∧ (s.sealCheck b sl = .accept)) ∧
  (∃ (s : State) (b : BitVec 12) (sl : Seal),
    (s.up = true) ∧ (s.sealCheck b sl = .authFail) ∧ ((s.bib b).state = .running)) := by
  refine
      ⟨⟨(fileState []), (hd 0 3), 0x200000, ([1]), .bounds, ?_, ?_, ?_⟩,
      ⟨page0, (hd 0 3), 1, (byteKey 2 (4 * 2 ^ 21) + 1), ?_, ?_, ?_, ?_⟩,
      ⟨page0, ({ hd 0 3 with path := .host }), ?_, ?_⟩,
      ⟨({ page0 with lodge.objs := [(5, obj0)] }), (hd 0 3), 5, obj0, ?_, ?_, ?_, ?_, ?_⟩,
      ⟨page0, (hd 0 3), 1, 2, ?_, ?_, ?_⟩,
      ⟨page0, (hd 0 3), 0x1FFFFF, 2, .bounds, ?_, ?_, ?_⟩,
      ⟨({ page0 with lodge.objs := [(5, obj0)] }), (hd 0 3), 5, 2, obj0, ?_, ?_, ?_, ?_, ?_, ?_⟩,
      ⟨({ page0 with lodge.objs := [(5, { obj0 with lost := true })] }), (hd 0 3), 5, ({ obj0 with lost := true }), ?_, ?_, ?_, ?_, ?_⟩,
      ⟨({ (bib3 .running) with bibs.keys := [(3, { host := some 5 })], bibs.replay := [(3, { h := 4, seen := [3] })] }), 3, seal0, ?_, ?_⟩,
      ⟨({ (bib3 .running) with bibs.keys := [(3, { host := some 5 })] }), 3, ({ seal0 with tagOk := false }), ?_, ?_, ?_⟩⟩ <;>
    first | decide +kernel | exact ⟨by decide +kernel, by decide +kernel, by decide +kernel⟩ | rfl | exact ⟨_, rfl⟩

/-- The hypotheses of each clause of StepRunsTheFrontOfTheQueue can be met together. -/
theorem witness_StepRunsTheFrontOfTheQueue :
  (∃ (s : State) (i : Instr) (rest : List Instr),
    (s.pending = i :: rest)) ∧
  (∃ (s : State),
    (s.pending = [])) := by
  refine
      ⟨⟨({ up with pending := [.zilunzorRunning, .tickToken] }), .zilunzorRunning, ([.tickToken]), ?_⟩,
      ⟨up, ?_⟩⟩ <;>
    first | decide +kernel | exact ⟨by decide +kernel, by decide +kernel, by decide +kernel⟩ | rfl | exact ⟨_, rfl⟩

end Sys2Proof.Tests
end

/-! SUPPORT. UNLOAD (R183): the rules of the operations it is made of, one fact for each thing that a course gives back as it
leaves its slot, and the proof of O15. -/

namespace Sys2Proof

/-- After several numbers are taken out, a table lists none of them and reads as before elsewhere. -/
theorem Table.lookup_foldl_remove {α : Type} (ks : List Nat) (t : Table α) (n : Nat) :
    (ks.foldl Table.remove t).lookup n = if n ∈ ks then none else t.lookup n := by
  induction ks generalizing t with
  | nil => simp
  | cons k ks ih =>
    rw [List.foldl_cons, ih]
    by_cases h : k = n
    · subst h; simp
    · simp [Table.lookup_remove_ne t h, Ne.symm h]

namespace Machine

/-! ## The start and the reply of a command -/

/-- A command's packet leaves the intake: only the command unit's own record changes. -/
theorem started_frame (s : State) (op : Nat) (c : Hdr) : s.started op c = { s with cmd := (s.started op c).cmd } := by
  obtain ⟨i, e, h⟩ := leaveIntake_eq s { c with opcode := BitVec.ofNat 16 op }
  rw [State.started, h]

/-- A reply changes only the command unit's own record. -/
theorem reply_frame (s : State) (c : Hdr) (st : Status) : s.reply c st = { s with cmd := (s.reply c st).cmd } := by
  obtain ⟨o, n, k, h⟩ := replyAs_eq s c st true 0 .none
  rw [State.reply, h]

/-- A command to a bib's own resident course has its effect on that course. -/
theorem onCourse_of_own {s : State} {c : Hdr} {k : Course} (hk : s.course c.slot.toNat = some k) (hb : k.bib = c.bib)
    (f : Course → State) : s.onCourse c f = f k := by
  simp [State.onCourse, hk, hb]

/-! ## A course gives back its gates and locker areas -/

/-- Freeing gates changes only the gate records. -/
theorem each_remove_gates (s : State) (ns : List Nat) :
    s.each ns (fun t n => { t with crs.gates := t.crs.gates.remove n })
      = { s with crs.gates := ns.foldl Table.remove s.crs.gates } := by
  induction ns generalizing s with
  | nil => rfl
  | cons n ns ih => exact ih _

/-- A returned locker area changes no course record. -/
@[simp] theorem returnLocker_crs (s : State) (k : Course) : (s.returnLocker k).crs = s.crs := rfl

/-- The areas of a die after a course has given its own back (R142). -/
theorem returnLocker_reserved (s : State) (k : Course) {d : Nat} (hd : d < 4) :
    (s.returnLocker k).lkr.keepRsv.read 0 d = s.lkr.keepRsv.read 0 d - (k.lockerUnits d).1
      ∧ (s.returnLocker k).lkr.workRsv.read 0 d = s.lkr.workRsv.read 0 d - (k.lockerUnits d).2 := by
  interval_cases d <;> simp [State.returnLocker, State.each, Table.read_write]

/-! ## A course leaves its slot -/

/-- Whether a course of another slot declares record `g` of a bib's scale table. -/
def State.declaredElsewhere (s : State) (c : Nat) (b : BitVec 12) (g : Nat) : Prop :=
  ∃ e ∈ s.crs.courses, e.1 ≠ c ∧ e.2.bib = b ∧ g < chScaleRecs e.2.hdr

theorem dropCourse_courses (s : State) (c : Nat) (k : Course) :
    (s.dropCourse c k).crs.courses = s.crs.courses.remove c := by
  rw [State.dropCourse, each_remove_gates]; rfl

/-- The slot is empty. -/
@[simp] theorem dropCourse_course_self (s : State) (c : Nat) (k : Course) : (s.dropCourse c k).course c = none := by
  rw [State.course, dropCourse_courses, Table.lookup_remove_self]

/-- Every other slot keeps its course. -/
theorem dropCourse_course_ne (s : State) {c i : Nat} (h : i ≠ c) (k : Course) :
    (s.dropCourse c k).course i = s.course i := by
  rw [State.course, dropCourse_courses, Table.lookup_remove_ne _ h.symm, State.course]

/-- The course's gates are free, every other gate is as before. -/
theorem dropCourse_gate (s : State) (c : Nat) (k : Course) (n : Nat) :
    (s.dropCourse c k).gate n = if n ∈ k.gateMap then {} else s.gate n := by
  have hg : (s.dropCourse c k).crs.gates = k.gateMap.foldl Table.remove s.crs.gates := by
    rw [State.dropCourse, each_remove_gates]; rfl
  rw [State.gate, State.gate, Table.read, hg, Table.lookup_foldl_remove]
  split <;> rfl

/-- No locker entry of the slot is left. -/
theorem dropCourse_entries (s : State) (c : Nat) (k : Course) : ∀ e ∈ (s.dropCourse c k).lkr.entries, e.slot.toNat ≠ c := by
  intro e he
  rw [State.dropCourse] at he
  simpa using (List.mem_filter.mp he).2

/-- The course's locker areas are given back. -/
theorem dropCourse_reserved (s : State) (c : Nat) (k : Course) {d : Nat} (hd : d < 4) :
    (s.dropCourse c k).lkr.keepRsv.read 0 d = s.lkr.keepRsv.read 0 d - (k.lockerUnits d).1
      ∧ (s.dropCourse c k).lkr.workRsv.read 0 d = s.lkr.workRsv.read 0 d - (k.lockerUnits d).2 := by
  rw [State.dropCourse, each_remove_gates]
  exact returnLocker_reserved _ k hd

/-- The records of the bib's scale table that stay are those that a course of another slot declares. -/
theorem dropCourse_scale (s : State) (c : Nat) (k : Course) {g : Nat} (hg : g < 16384)
    [Decidable (s.declaredElsewhere c k.bib g)] :
    (s.dropCourse c k).crs.scales.lookup (groupKey k.bib g)
      = if s.declaredElsewhere c k.bib g then s.crs.scales.lookup (groupKey k.bib g) else none := by
  have hbib : groupKey k.bib g / 16384 = k.bib.toNat := by simp only [groupKey]; omega
  have hmod : groupKey k.bib g % 16384 = g := by simp only [groupKey]; omega
  rw [State.dropCourse, each_remove_gates]
  refine (Table.lookup_keep _ _ _).trans ?_
  refine if_congr ?_ rfl rfl
  simp [hbib, hmod, State.declaredElsewhere, and_assoc]

/-- A course that leaves its slot changes only the records of courses, locker, lift and update. -/
theorem dropCourse_frame (s : State) (c : Nat) (k : Course) :
    s.dropCourse c k = { s with
      crs := (s.dropCourse c k).crs
      lkr := (s.dropCourse c k).lkr
      lift := (s.dropCourse c k).lift
      upd := (s.dropCourse c k).upd } := by
  simp only [State.dropCourse, each_remove_gates]; rfl

@[simp] theorem dropCourse_mem (s : State) (c : Nat) (k : Course) : (s.dropCourse c k).mem = s.mem := by
  rw [dropCourse_frame]

@[simp] theorem dropCourse_bibs (s : State) (c : Nat) (k : Course) : (s.dropCourse c k).bibs = s.bibs := by
  rw [dropCourse_frame]

@[simp] theorem dropCourse_rink (s : State) (c : Nat) (k : Course) : (s.dropCourse c k).rink = s.rink := by
  rw [dropCourse_frame]

/-- What a course's leaving does and what the command unit holds are apart. -/
theorem dropCourse_with_cmd (s : State) (m : Cmd) (c : Nat) (k : Course) :
    ({ s with cmd := m } : State).dropCourse c k = { s.dropCourse c k with cmd := m } := by
  simp only [State.dropCourse, each_remove_gates]; rfl

/-! ## UNLOAD -/

/-- A course that runs, or one of whose gates has a blocked wait (R183). -/
def State.unloadBusy (s : State) (c : Nat) (k : Course) : Prop :=
  (s.domain c).isSome = true ∨ ∃ n ∈ k.gateMap, (s.gate n).waits ≠ []

/-- UNLOAD of a bib's own resident course is busy or takes the course from its slot, and replies. -/
theorem exec_unload {s : State} {c : Hdr} {k : Course} (ha : s.accepts 0x0202 c) (hk : s.course c.slot.toNat = some k)
    (hb : k.bib = c.bib) [Decidable (s.unloadBusy c.slot.toNat k)] :
    exec (.unload c) s = .next (
      if s.unloadBusy c.slot.toNat k then (s.started 0x0202 c).reply { c with opcode := 0x0202 } .busy
      else ((s.started 0x0202 c).dropCourse c.slot.toNat k).reply { c with opcode := 0x0202 } .ok) := by
  have hk' : (s.started 0x0202 c).course c.slot.toNat = some k := by rw [started_frame]; exact hk
  change execUnload c s = _
  rw [execUnload, command_of_accepts ha]
  refine congrArg _ ((onCourse_of_own (c := { c with opcode := BitVec.ofNat 16 0x0202 }) hk' hb _).trans ?_)
  refine if_congr ?_ rfl rfl
  rw [← State.started, started_frame]
  simp only [List.any_eq_true, decide_eq_true_eq]
  rfl

/-- Busy: only the reply is new (R183). -/
theorem unload_busy {s : State} {c : Hdr} {k : Course} (ha : s.accepts 0x0202 c) (hk : s.course c.slot.toNat = some k)
    (hb : k.bib = c.bib) (h : s.unloadBusy c.slot.toNat k) :
    Answers (.unload c) s fun t => t.replied 0x0202 c .busy ∧ t = { s with cmd := t.cmd } := by
  classical
  refine ⟨_, exec_unload ha hk hb, ?_⟩
  rw [if_pos h]
  refine ⟨reply_replied _ 0x0202 c .busy, ?_⟩
  rw [reply_frame, started_frame]

/-- Not busy: the course leaves its slot, and the reply is new (R183). -/
theorem unload_drops {s : State} {c : Hdr} {k : Course} (ha : s.accepts 0x0202 c) (hk : s.course c.slot.toNat = some k)
    (hb : k.bib = c.bib) (h : ¬ s.unloadBusy c.slot.toNat k) :
    Answers (.unload c) s fun t => t.replied 0x0202 c .ok ∧ t = { s.dropCourse c.slot.toNat k with cmd := t.cmd } := by
  classical
  refine ⟨_, exec_unload ha hk hb, ?_⟩
  rw [if_neg h]
  refine ⟨reply_replied _ 0x0202 c .ok, ?_⟩
  rw [reply_frame, started_frame, dropCourse_with_cmd]

/-- Settles O15: a course that is not busy leaves by `dropCourse`, whose effect on each part the `dropCourse_` lemmas say. -/
theorem unloadFreesTheCourse : Obligations.UnloadFreesTheCourse := by
  classical
  refine ⟨fun s c k ha hk hb hdom hwaits => ?_, fun s c k ha hk hb h => unload_busy ha hk hb h⟩
  have hfree : ¬ s.unloadBusy c.slot.toNat k := by
    rintro (h | ⟨n, hn, h⟩)
    · simp [hdom] at h
    · exact h (hwaits n hn)
  obtain ⟨t, hexec, hreply, ht⟩ := unload_drops ha hk hb hfree
  obtain ⟨m, rfl⟩ : ∃ m, t = { s.dropCourse c.slot.toNat k with cmd := m } := ⟨_, ht⟩
  refine ⟨_, hexec, dropCourse_course_self .., fun n hn => ?_, fun n hn => ?_, fun e he hs => ?_, fun g hg hnone => ?_,
    fun e he hne hbib g hlt hg => ?_, fun d hd => dropCourse_reserved s _ k hd, fun i hi => dropCourse_course_ne s hi k,
    hreply, dropCourse_mem s c.slot.toNat k, dropCourse_bibs s c.slot.toNat k,
    dropCourse_rink s c.slot.toNat k⟩
  · exact (dropCourse_gate s _ k n).trans (if_pos hn)
  · exact (dropCourse_gate s _ k n).trans (if_neg hn)
  · exact dropCourse_entries s _ k e he (congrArg BitVec.toNat hs)
  · rw [← hb] at hnone ⊢
    refine (dropCourse_scale s _ k hg).trans (if_neg ?_)
    rintro ⟨e, he, hne, hbib, hlt⟩
    exact absurd hlt (Nat.not_lt.mpr (hnone e he hne hbib))
  · rw [← hb] at hbib ⊢
    exact (dropCourse_scale s _ k hg).trans (if_pos ⟨e, he, hne, hbib, hlt⟩)

end Machine
end Sys2Proof

/-! SUPPORT. The reversal of a live update (R357): the rules of the boot control record and of a waiting command's completion,
what the reversal leaves of the boot state, and the proof of O54. -/

namespace Sys2Proof
namespace Machine

/-! ## The boot control record (R352) -/

/-- A slot's VALID bit after it is written. -/
@[simp] theorem setValid_valid_self (r : BootRec) (slot v : Bool) : (r.setValid slot v).valid slot = v := by
  cases slot <;> rfl

/-- ACTIVE stands apart from the VALID bits. -/
@[simp] theorem setValid_active (r : BootRec) (slot v : Bool) : (r.setValid slot v).active = r.active := by
  cases slot <;> rfl

/-- The record in force after a write has the VALID bits written: only BSEQ is its own. -/
@[simp] theorem writeRec_cur_valid (b : Boot) (r : BootRec) (slot : Bool) : (b.writeRec r).cur.valid slot = r.valid slot := by
  unfold Boot.writeRec; split_ifs <;> rfl

/-- The record in force after a write has the ACTIVE slot written. -/
@[simp] theorem writeRec_cur_active (b : Boot) (r : BootRec) : (b.writeRec r).cur.active = r.active := by
  unfold Boot.writeRec; split_ifs <;> rfl

/-- Writing the record leaves the images in the boot flash. -/
@[simp] theorem writeRec_images (b : Boot) (r : BootRec) : (b.writeRec r).images = b.images := by
  unfold Boot.writeRec; split_ifs <;> rfl

/-! ## The completion of a waiting command (R341) -/

/-- The only waiting command completes: its FINAL reply is formed and no command waits. -/
theorem complete_of_waiting_only {s : State} {w : Waiting} {c : Hdr} (h : s.cmd.waiting = [(w, c)]) (st : Status) (r : Result) :
    s.complete w st r = ({ s with cmd.waiting := [] } : State).replyAs c st true 0 r := by
  simp [State.complete, h]

/-- The newest reply to a packet is the one just formed. -/
theorem replyAs_answered (s : State) (c : Hdr) (st : Status) (fin : Bool) (ev : Nat) (r : Result) :
    (s.replyAs c st fin ev r).answered c.opcode.toNat c st fin r :=
  ⟨_, replyAs_newest s c st fin ev r, by simp [State.mkReply], rfl, rfl, rfl, rfl, rfl, rfl⟩

/-! ## The reversal -/

/-- The boot state that a reversal leaves: the inactive slot is not valid, UPDATE reads 5, and ZIL_M is back where U4 had
changed it (R357). -/
def State.reversedBoot (s : State) : Boot :=
  { s.boot.writeRec (s.boot.cur.setValid s.inactive false) with
    stat := { s.boot.stat with update := 5, stage := 5 }
    zilM := if s.boot.stat.update = 4 then s.boot.oldZilM else s.boot.zilM
    zilVer := if s.boot.stat.update = 4 then s.boot.oldZilVer else s.boot.zilVer }

/-- `t` is `s` with its live update reversed: the measurement and version in force are `m` and `v`, and FW_ACTIVATE, which
came in packet `c`, has its reply (R357). -/
def State.ReversedTo (s : State) (c : Hdr) (m : BitVec 512) (v : BitVec 64) (t : State) : Prop :=
  t.boot.stat.update = 5 ∧ t.boot.zilM = m ∧ t.boot.zilVer = v ∧ t.boot.cur.valid s.inactive = false
    ∧ t.boot.cur.active = s.boot.cur.active ∧ t.boot.images = s.boot.images ∧ t.answered c.opcode.toNat c .fault true .none
    ∧ t = { s with boot := t.boot, cmd := t.cmd }

/-- A reversal sets the boot state, lets intake resume and completes FW_ACTIVATE with ST_FAULT. -/
theorem revertUpdate_eq (s : State) : s.revertUpdate
    = ({ s with boot := s.reversedBoot, cmd.paused := false } : State).complete .update .fault .none := by
  simp [State.revertUpdate, State.reversedBoot]

/-- Where FW_ACTIVATE waits, the reversal is its reply after the boot state is set. -/
theorem revertUpdate_of_waiting {s : State} {c : Hdr} (hw : s.cmd.waiting = [(.update, c)]) : s.revertUpdate
    = ({ s with boot := s.reversedBoot, cmd.paused := false, cmd.waiting := [] } : State).replyAs c .fault true 0 .none :=
  (revertUpdate_eq s).trans (complete_of_waiting_only (s := { s with boot := s.reversedBoot, cmd.paused := false }) hw _ _)

/-- A reversal changes only the boot state, which it leaves as `reversedBoot`, and the command unit's own record. -/
theorem revertUpdate_frame {s : State} {c : Hdr} (hw : s.cmd.waiting = [(.update, c)]) :
    s.revertUpdate = { s with boot := s.reversedBoot, cmd := s.revertUpdate.cmd } := by
  rw [revertUpdate_of_waiting hw]
  obtain ⟨o, n, k, h⟩ := replyAs_eq ({ s with boot := s.reversedBoot, cmd.paused := false, cmd.waiting := [] } : State)
    c .fault true 0 .none
  rw [h]

/-- The reversal ends the update with the measurement and version of `reversedBoot`. -/
theorem revertUpdate_reversedTo {s : State} {c : Hdr} (hw : s.cmd.waiting = [(.update, c)]) :
    s.ReversedTo c s.reversedBoot.zilM s.reversedBoot.zilVer s.revertUpdate := by
  have hframe := revertUpdate_frame hw
  have hboot : s.revertUpdate.boot = s.reversedBoot := congrArg State.boot hframe
  have hanswered : s.revertUpdate.answered c.opcode.toNat c .fault true .none := by
    rw [revertUpdate_of_waiting hw]; exact replyAs_answered ..
  unfold State.ReversedTo
  rw [hboot]
  exact ⟨rfl, rfl, rfl, by simp [State.reversedBoot], by simp [State.reversedBoot], by simp [State.reversedBoot], hanswered,
    hframe⟩

/-- Before U4 has set ZIL_M, a row that reverses the update leaves it as it is. -/
theorem reversal_before_handover {i : Instr} {s : State} {c : Hdr} (hexec : exec i s = .next s.revertUpdate)
    (hu : s.boot.stat.update = 3) (hw : s.cmd.waiting = [(.update, c)]) :
    Answers i s (s.ReversedTo c s.boot.zilM s.boot.zilVer) := by
  have h := revertUpdate_reversedTo hw
  rw [State.reversedBoot, if_neg (by simp [hu]), if_neg (by simp [hu])] at h
  exact ⟨_, hexec, h⟩

/-- After U4 has set ZIL_M, a row that reverses the update gives it its former value. -/
theorem reversal_after_handover {i : Instr} {s : State} {c : Hdr} (hexec : exec i s = .next s.revertUpdate)
    (hu : s.boot.stat.update = 4) (hw : s.cmd.waiting = [(.update, c)]) :
    Answers i s (s.ReversedTo c s.boot.oldZilM s.boot.oldZilVer) := by
  have h := revertUpdate_reversedTo hw
  rw [State.reversedBoot, if_pos hu, if_pos hu] at h
  exact ⟨_, hexec, h⟩

/-! ## The rows that reverse -/

/-- A handover record that the new image refuses at U4 reverses the update. -/
theorem exec_handover_refused {s : State} (hup : s.up = true) (hu : s.boot.stat.update = 3) :
    exec (.liveUpdateHandover true) s = .next s.revertUpdate :=
  (event_of_up hup _).trans (by simp [hu])

/-- LIVE_UPDATE_REVERT at U4 or U5 reverses the update. -/
theorem exec_revert {s : State} (hup : s.up = true) (hu : s.boot.stat.update = 3 ∨ s.boot.stat.update = 4) :
    exec .liveUpdateRevert s = .next s.revertUpdate :=
  (event_of_up hup _).trans (congrArg _ (if_pos hu))

/-- LIVE_UPDATE_REVERT at no such point changes nothing (log entry 64). -/
theorem exec_revert_outside {s : State} (hup : s.up = true) (hu : ¬ (s.boot.stat.update = 3 ∨ s.boot.stat.update = 4)) :
    exec .liveUpdateRevert s = .next s :=
  (event_of_up hup _).trans (congrArg _ (if_neg hu))

/-- Settles O54: each row that reverses answers `revertUpdate`; ZIL_M is the former one because U4 alone changes it. -/
theorem liveUpdateReversal : Obligations.LiveUpdateReversal := by
  refine ⟨fun s c hup hu hw => ?refused, fun s c hup hu hw => ?beforeU4, fun s c hup hu hw => ?afterU4,
    fun s hup h3 h4 => ?outside⟩
  case refused => exact reversal_before_handover (exec_handover_refused hup hu) hu hw
  case beforeU4 => exact reversal_before_handover (exec_revert hup (.inl hu)) hu hw
  case afterU4 => exact reversal_after_handover (exec_revert hup (.inr hu)) hu hw
  case outside => exact exec_revert_outside hup (not_or.mpr ⟨h3, h4⟩)

end Machine
end Sys2Proof

/-! SUPPORT. The increment of a counter (R360): what the sum leaves in the counter, the event that goes with saturation, and
the counters it does not reach. -/

namespace Sys2Proof
namespace Machine

/-! ## The sum in one counter -/

/-- A counter with OVF set stays as it is. -/
theorem plus_of_ovf {c : Counter} (h : c.ovf = true) (n : Nat) : c.plus n = c := if_pos h

/-- A sum of 48 bits is counted, with OVF still clear. -/
theorem plus_of_fits {c : Counter} {n : Nat} (h : c.ovf = false) (hn : c.value.toNat + n < 2 ^ 48) :
    c.plus n = { value := BitVec.ofNat 48 (c.value.toNat + n), ovf := false } := by
  rw [Counter.plus, if_neg (by simp [h]), if_pos hn, h]

/-- A sum past 2^48 − 1 leaves the counter there with OVF set. -/
theorem plus_of_exceeds {c : Counter} {n : Nat} (h : c.ovf = false) (hn : 2 ^ 48 ≤ c.value.toNat + n) :
    c.plus n = { value := BitVec.ofNat 48 (2 ^ 48 - 1), ovf := true } := by
  rw [Counter.plus, if_neg (by simp [h]), if_neg (Nat.not_lt.mpr hn)]

/-! ## The event log and the other counters -/

/-- EV_COUNTER_SAT sets out exactly where the increment is the one that sets OVF. -/
theorem count_log (s : State) (id inst n : Nat) : (s.count id inst n).log =
    if ((s.counter id inst).plus n).ovf && !(s.counter id inst).ovf then
      { s.log with flight := s.log.flight ++ [satEvent id inst] } else s.log := by
  unfold State.count
  dsimp only
  split_ifs <;> rfl

/-- An increment that leaves OVF as it was raises no event. -/
theorem count_log_of_ovf_eq {s : State} {id inst n : Nat} (h : ((s.counter id inst).plus n).ovf = (s.counter id inst).ovf) :
    (s.count id inst n).log = s.log := by
  rw [count_log, h, Bool.and_not_self]; rfl

/-- An increment that sets OVF raises EV_COUNTER_SAT. -/
theorem count_flight_of_saturates {s : State} {id inst n : Nat} (h : (s.counter id inst).ovf = false)
    (h' : ((s.counter id inst).plus n).ovf = true) :
    (s.count id inst n).log.flight = s.log.flight ++ [satEvent id inst] := by
  rw [count_log, h, h']; rfl

/-- A counter of another number is not reached. -/
theorem count_counter_ne (s : State) {id inst id' inst' : Nat} (h : ctrKey id' inst' ≠ ctrKey id inst) (n : Nat) :
    (s.count id inst n).counter id' inst' = s.counter id' inst' := by
  have hread := Table.read_write_ne {} s.ctr h.symm ((s.counter id inst).plus n)
  unfold State.count
  dsimp only
  split_ifs <;> exact hread

/-- Settles O50: the three outcomes of the sum, each with its effect on the log, and the frame on the other counters. -/
theorem counterIncrements : Obligations.CounterIncrements := by
  refine ⟨fun s id inst n hovf hsum => ?fits, fun s id inst n hovf hsum => ?exceeds, fun s id inst n hovf => ?stands,
    fun s id inst n id' inst' hne => count_counter_ne s hne n⟩
  case fits =>
    have hplus := plus_of_fits hovf hsum
    have hlog : (s.count id inst n).log = s.log := count_log_of_ovf_eq (by rw [hplus, hovf])
    rw [count_counter, hplus]
    exact ⟨rfl, (BitVec.toNat_ofNat _ _).trans (Nat.mod_eq_of_lt hsum), hlog⟩
  case exceeds =>
    have hplus := plus_of_exceeds hovf hsum
    have hflight := count_flight_of_saturates hovf (congrArg Counter.ovf hplus)
    rw [count_counter, hplus]
    exact ⟨rfl, rfl, satEvent id inst, hflight, rfl⟩
  case stands =>
    have hplus := plus_of_ovf hovf n
    exact ⟨(count_counter s id inst n).trans hplus, count_log_of_ovf_eq (congrArg Counter.ovf hplus)⟩

end Machine
end Sys2Proof

/-! SUPPORT. Every row keeps memory in its canonical form, leaves the queue and never lowers the security version minimum (R316): what an
outcome keeps, the operations that answer an option or a pair, then the rows of each chapter. -/

namespace Sys2Proof
namespace Machine

/-! ## What an outcome keeps -/

/-- An outcome is a next state that keeps what `Keeps` says of the state it started in. -/
def Out.Kept (s : State) (o : Out) : Prop := ∃ t, o = .next t ∧ Keeps s t

theorem next_keeps {s t : State} (h : Keeps s t) : Out.Kept s (.next t) := ⟨t, rfl, h⟩

theorem event_keeps {s : State} {f : State → State} (h : Keeps s (f s)) : Out.Kept s (s.event f) := by
  unfold State.event
  split_ifs
  exacts [next_keeps h, next_keeps (Keeps.refl s)]

theorem Keeps.of_kept_eq {r s t : State} (h : t.kept = s.kept) (hs : Keeps r s) : Keeps r t := by
  rw [keeps_eq, h]; exact hs

theorem Keeps.ite {r s t : State} {c : Prop} [Decidable c] (hs : c → Keeps r s) (ht : ¬c → Keeps r t) : Keeps r (if c then s else t) := by
  split_ifs with h
  exacts [hs h, ht h]

theorem Keeps.getD {r s : State} {o : Option State} (ho : ∀ t ∈ o, Keeps r t) (hs : Keeps r s) : Keeps r (o.getD s) := by
  cases o with
  | none => exact hs
  | some t => exact ho t rfl

theorem leaveIntake_keeps {r : State} (s : State) (c : Hdr) (h : Keeps r s) : Keeps r (s.leaveIntake c) := by
  obtain ⟨i, e, he⟩ := leaveIntake_eq s c
  rw [he]; exact h

/-- A command keeps what its effect keeps: a refusal, a count of a wrong role and a packet that no unit takes store nothing. -/
theorem command_keeps {s : State} {op : Nat} {c : Hdr} {k : State → Hdr → State} (h : ∀ t d, Keeps s t → Keeps s (k t d)) :
    Out.Kept s (s.command op c k) := by
  have hl : Keeps s (s.leaveIntake { c with opcode := BitVec.ofNat 16 op }) := leaveIntake_keeps s _ (Keeps.refl s)
  unfold State.command
  dsimp only
  split_ifs
  · exact next_keeps (Keeps.refl s)
  · exact next_keeps (.of_kept_eq (by simp) hl)
  · split
    · exact next_keeps (.of_kept_eq (by simp) hl)
    · exact next_keeps (h _ _ hl)

/-! ## Operations that answer an option or a pair -/

theorem onCourse_keeps {r s : State} {c : Hdr} {f : Course → State} (hs : Keeps r s) (h : ∀ k, Keeps r (f k)) : Keeps r (s.onCourse c f) := by
  unfold State.onCourse
  split
  · simpa using hs
  · exact Keeps.ite (fun _ => h _) fun _ => by simpa using hs

theorem onObject_keeps {r s : State} {c : Hdr} {id : Nat} {f : LObj → State} (hs : Keeps r s) (h : ∀ k, Keeps r (f k)) :
    Keeps r (s.onObject c id f) := by
  unfold State.onObject
  split
  · simpa using hs
  · exact Keeps.ite (fun _ => h _) fun _ => by simpa using hs

@[simp] theorem takeSeal_kept (s : State) (b : BitVec 12) (k : Seal) : (s.takeSeal b k).1.kept = s.kept := by
  unfold State.takeSeal
  split <;> simp

@[simp] theorem joins_kept (s : State) (c n : Nat) : (s.joins c n).kept = s.kept := by
  induction n generalizing s with
  | zero => rfl
  | succ n ih =>
    unfold State.joins
    split
    · split_ifs
      · rfl
      · split
        · rw [ih]; simp
        · rfl
    · rfl

theorem enter_kept {s t : State} {ck : Nat} {u : UseCfg} {tap token : Nat} {code : BitVec 16} {scale : BitVec 8} {void : Bool}
    (h : t ∈ s.enter ck u tap token code scale void) : t.kept = s.kept := by
  simp only [State.enter, Option.mem_def] at h
  split_ifs at h <;> cases h <;> simp

theorem hop_kept {s t : State} {src dst : Nat} {e : Nat × Operand × LapTile} (h : t ∈ s.hop src dst e) : t.kept = s.kept := by
  simp only [State.hop, Option.mem_def] at h
  split at h
  · split_ifs at h
    · cases h; simp
    · obtain ⟨x, hx, rfl⟩ := Option.map_eq_some_iff.mp h
      exact (enter_kept hx : x.kept = s.kept)
  · cases h

@[simp] theorem convert_kept (s : State) (ck : Nat) (u : UseCfg) (token lane : Nat) (v : Val) : (s.convert ck u token lane v).1.kept = s.kept := by
  unfold State.convert
  dsimp only
  split_ifs <;> simp

@[simp] theorem roundSum_kept (s : State) (ck : Nat) (u : UseCfg) (base token lane : Nat) (l : Lane) :
    (s.roundSum ck u base token lane l).1.kept = s.kept := by
  unfold State.roundSum
  dsimp only
  split_ifs <;> simp

theorem access_kept {s t : State} {ck c : Nat} {k : Course} {seg use tensor : Nat} {idx : Int} {fmt : Nat} {read : Bool}
    (h : s.access ck c k seg use tensor idx fmt read = .stop t) : t.kept = s.kept := by
  simp only [State.access] at h
  split at h
  · cases h; simp
  · split at h
    · cases h; simp
    · split at h
      · cases h
      · split at h
        · cases h; simp
        · cases h; simp
        · split_ifs at h; cases h; simp
        · split_ifs at h; cases h; simp

/-- What stops a use is the answer of one of its accesses. -/
theorem firstStop_mem {l : List Access} {a : Access} (h : firstStop l = some a) : a ∈ l := by
  induction l with
  | nil => cases h
  | cons b l ih =>
    cases b with
    | good _ => exact List.mem_cons_of_mem _ (ih h)
    | wait => cases h; exact List.mem_cons_self
    | stop _ => cases h; exact List.mem_cons_self

theorem step_kept {a : LaneAt} {s : State} {x : BitVec 40} {f : PostFn} {e : State × BitVec 40} (h : a.step (s, x) f = some e) :
    e.1.kept = s.kept := by
  cases f <;> simp only [LaneAt.step] at h <;> obtain ⟨y, -, rfl⟩ := Option.map_eq_some_iff.mp h <;> rfl

theorem steps_kept {a : LaneAt} {s : State} {x : BitVec 40} {e : State × BitVec 40} (h : a.steps s x = some e) : e.1.kept = s.kept := by
  unfold LaneAt.steps at h
  generalize a.u.x.post = l at h
  induction l generalizing s x with
  | nil => cases h; rfl
  | cons f l ih =>
    rw [List.foldl_cons, Option.bind_some] at h
    cases hs : a.step (s, x) f with
    | none =>
      have hn : ∀ l : List PostFn, l.foldl (fun (sx : Option (State × BitVec 40)) f => sx.bind fun e => a.step e f) none = none := by
        intro l; induction l with
        | nil => rfl
        | cons f l ih => exact ih
      rw [hs, hn] at h; cases h
    | some y => rw [hs] at h; exact (ih h).trans (step_kept hs)

theorem offer_kept {s t : State} {u : UseCfg} {token lane : Nat} {x : BitVec 40} (h : t ∈ s.offer u token lane x) : t.kept = s.kept := by
  simp only [State.offer, Option.mem_def] at h
  split at h
  · split_ifs at h <;> cases h <;> simp
  · cases h; rfl

theorem writeElem_keeps {r s t : State} {u : UseCfg} {token lane code : Nat} (hs : Keeps r s) (h : t ∈ s.writeElem u token lane code) :
    Keeps r t := by
  simp only [State.writeElem, Option.mem_def] at h
  split at h
  · split_ifs at h <;> cases h
    · exact setByte_keeps _ _ _ (setElem_keeps _ _ _ _ _ _ hs)
    · exact setElem_keeps _ _ _ _ _ _ hs
  · cases h; exact hs

theorem writePlane_keeps {r s t : State} {ck : Nat} {u : UseCfg} {token lane code : Nat} (hs : Keeps r s)
    (h : t ∈ s.writePlane ck u token lane code) : Keeps r t := by
  simp only [State.writePlane, Option.mem_def] at h
  split at h
  · cases h; exact hs
  · split at h
    · cases h; simpa using hs
    · split at h
      · cases h
        exact Keeps.ite (fun _ => setBytes_keeps _ _ _ hs) fun _ => setBytes_keeps _ _ _ hs
      · cases h; simpa using hs
      · cases h

theorem elim_toMirror_keeps {r s : State} {o : Option Nat} {b : BitVec 12} {e : Job × Mirror} {f : Nat → BitVec 48} {data : List Byte}
    (hs : Keeps r s) : Keeps r (o.elim s fun o => s.toMirror b e (f o) data) := by
  cases o <;> exact hs

theorem writeResult_keeps {r s t : State} {ck : Nat} {u : UseCfg} {token lane code : Nat} (hs : Keeps r s)
    (h : t ∈ s.writeResult ck u token lane code) : Keeps r t := by
  simp only [State.writeResult, Option.mem_def] at h
  split at h
  · cases h
    exact elim_toMirror_keeps hs
  · split_ifs at h
    exacts [writeElem_keeps hs h, writePlane_keeps hs h]

theorem deliver_keeps {r s t : State} {ck : Nat} {u : UseCfg} {token lane : Nat} {x : BitVec 40} {toSum : Option (BitVec 32)}
    (hs : Keeps r s) (h : t ∈ s.deliver ck u token lane x toSum) : Keeps r t := by
  cases toSum with
  | some term =>
    simp only [State.deliver, Option.mem_def] at h
    split_ifs at h
    cases h; exact hs
  | none =>
    simp only [State.deliver, Option.mem_def] at h
    split_ifs at h
    · exact .of_kept_eq (offer_kept h) hs
    · exact writeResult_keeps (.of_kept_eq (convert_kept ..) hs) h

theorem steps_deliver_keeps {r s t : State} {a : LaneAt} {ck : Nat} {u : UseCfg} {token lane : Nat} {x : BitVec 40}
    {toSum : Option (BitVec 32)} (hs : Keeps r s)
    (h : t ∈ (a.steps s x).bind fun e => e.1.deliver ck u token lane e.2 toSum) : Keeps r t := by
  obtain ⟨e, he, ht⟩ := Option.bind_eq_some_iff.mp h
  exact deliver_keeps (.of_kept_eq (steps_kept he) hs) ht

theorem takeResult_keeps {r s t : State} {ck : Nat} {u : UseCfg} {token lane : Nat} {o : DrainOut} (hs : Keeps r s)
    (h : t ∈ s.takeResult ck u token lane o) : Keeps r t := by
  simp only [State.takeResult, Option.mem_def] at h
  split_ifs at h
  · cases h; exact hs
  · exact .of_kept_eq (offer_kept h) hs
  · exact writeResult_keeps hs h
  · exact steps_deliver_keeps hs h
  · exact steps_deliver_keeps hs h

theorem addPlane_keeps {r s t : State} {ck : Nat} {u : UseCfg} {token lane : Nat} {x : BitVec 40} (hs : Keeps r s)
    (h : t ∈ s.addPlane ck u token lane x) : Keeps r t := by
  have hu : Keeps r (s.setUse ck { u with added := u.added + 1 }) := by simpa using hs
  simp only [State.addPlane, Option.mem_def] at h
  split_ifs at h
  split at h
  · cases h; exact hu
  · split at h
    · cases h; simpa using hs
    · split at h
      · cases h; exact setBytes_keeps _ _ _ hu
      · cases h; simpa using hs
      · cases h

theorem addSum_keeps {r s t : State} {ck : Nat} {u : UseCfg} {token lane : Nat} {x : BitVec 40} (hs : Keeps r s)
    (h : t ∈ s.addSum ck u token lane x) : Keeps r t := by
  simp only [State.addSum, Option.mem_def] at h
  split_ifs at h
  · cases h; simpa using hs
  · split at h
    · cases h; simpa using hs
    · exact steps_deliver_keeps (by simpa using hs) h
    · exact steps_deliver_keeps (by simpa using hs) h

theorem ingestPatch_keeps {r s : State} (mx home : Nat) (elem scale : Nat → Nat → Nat) (n pr pc : Nat) (hs : Keeps r s) :
    Keeps r (s.ingestPatch mx home elem scale n pr pc).1 :=
  each_keeps (setByte_keeps _ _ _ hs) fun _ _ h => setElem_keeps _ _ _ _ _ _ h

/-- A fold that carries a number beside the state keeps what each step keeps. -/
theorem foldl_fst_keeps {α β : Type} {r : State} {l : List α} {f : State × β → α → State × β} (h : ∀ a x, Keeps r a.1 → Keeps r (f a x).1)
    (a : State × β) (ha : Keeps r a.1) : Keeps r (l.foldl f a).1 := by
  induction l generalizing a with
  | nil => exact ha
  | cons x l ih => exact ih _ (h _ _ ha)

theorem ingest_keeps {r s : State} (mx home : Nat) (elem scale : Nat → Nat → Nat) (hs : Keeps r s) :
    Keeps r (s.ingest mx home elem scale).1 :=
  foldl_fst_keeps (fun _ _ h => ingestPatch_keeps _ _ _ _ _ _ _ h) (s, 0) hs

theorem egress_keeps {r s : State} (b : BitVec 12) (m : MxData) (home r0 c0 : Nat) (hs : Keeps r s) :
    Keeps r (s.egress b m home r0 c0).1 :=
  foldl_fst_keeps (fun _ _ h => setMxByte_keeps _ _ _ _ (setMxBits_keeps _ _ _ _ _ _ h)) (s, 0) hs

end Machine
end Sys2Proof

/-! SUPPORT. Rows whose outcome depends on a carried number, an option or a stop keep what `Keeps` says, each by its own case split. -/

namespace Sys2Proof
namespace Machine

theorem stepEndToken_keeps (slot : BitVec 8) (s : State) : Out.Kept s (execStepEndToken slot s) := by
  refine event_keeps ?_
  dsimp only
  split
  · split
    · split_ifs <;> exact .of_kept_eq (by simp) (Keeps.refl s)
    · exact Keeps.refl s
  · exact Keeps.refl s

theorem svnAdvance_keeps (c : Hdr) (min : BitVec 8) (s : State) : Out.Kept s (execSvnAdvance c min s) := by
  refine command_keeps fun t d ht => ?_
  dsimp only
  split_ifs with h64 hboth hlt
  · exact .of_kept_eq (State_reply_kept ..) ht
  · exact .of_kept_eq (State_reply_kept ..) ⟨ht.1, le_trans ht.2.1 (le_of_lt hlt), ht.2.2⟩
  · exact .of_kept_eq (State_reply_kept ..) ht
  · exact .of_kept_eq (by simp) ht

theorem hopTransfer_keeps (stn next : Fin 104) (q : Fin 4) (s : State) : Out.Kept s (execHopTransfer stn next q s) := by
  refine event_keeps (Keeps.getD (fun t ht => ?_) (Keeps.refl s))
  obtain ⟨e, -, he⟩ := List.exists_of_findSome?_eq_some ht
  exact .of_kept_eq (hop_kept he) (Keeps.refl s)

theorem commandBlockRead_keeps (bib : BitVec 12) (sl : Seal) (h : Hdr) (s : State) : Out.Kept s (execCommandBlockRead bib sl h s) := by
  refine event_keeps (.of_kept_eq ?_ (Keeps.refl s))
  dsimp only
  split_ifs <;> first | rfl | simp | (split <;> simp)

theorem ethDatagramRx_keeps (port : Fin 2) (d : Datagram) (s : State) : Out.Kept s (execEthDatagramRx port d s) := by
  refine event_keeps (.of_kept_eq ?_ (Keeps.refl s))
  cases d <;> dsimp only <;> split_ifs <;> simp

theorem hostBlockRx_keeps (bib : BitVec 12) (sl : Seal) (cmd : Option Hdr) (s : State) : Out.Kept s (execHostBlockRx bib sl cmd s) := by
  refine event_keeps (.of_kept_eq ?_ (Keeps.refl s))
  cases cmd <;> dsimp only <;> split_ifs <;> simp

theorem bootMemoryZeroed_keeps (s : State) : Out.Kept s (execBootMemoryZeroed s) := by
  refine event_keeps (Keeps.ite (fun _ => each_keeps ?_ fun t e ht => ht) fun _ => Keeps.refl s)
  exact ⟨rfl, le_refl _, fun w => Table.canonical_keep 0 _ w⟩

theorem carveClearDone_keeps (stn : Fin 104) (q : Fin 4) (s : State) : Out.Kept s (execCarveClearDone stn q s) := by
  refine event_keeps (Keeps.ite (fun _ => ?_) fun _ => Keeps.refl s)
  exact zeroBytes_keeps (s.loseBank stn q) (bankKey stn q) 0x140000 (.of_kept_eq (State_loseBank_kept ..) (Keeps.refl s))

theorem drainRound_keeps (stn : Fin 104) (q : Fin 4) (lane : BitVec 8) (s : State) : Out.Kept s (execDrainRound stn q lane s) := by
  refine event_keeps ?_
  dsimp only
  split
  · split
    · split_ifs
      · exact Keeps.refl s
      · refine foldl_fst_keeps (fun a x h => ?_) _ (Keeps.refl s)
        exact .of_kept_eq (roundSum_kept ..) h
    · exact Keeps.refl s
  · exact Keeps.refl s

theorem postunitAccept_keeps (stn : Fin 104) (q : Fin 4) (lane : BitVec 8) (s : State) : Out.Kept s (execPostunitAccept stn q lane s) := by
  refine event_keeps ?_
  dsimp only
  split
  · split
    · refine Keeps.ite (fun _ => Keeps.refl s) fun _ => Keeps.getD (fun t ht => takeResult_keeps ?_ ht) (Keeps.refl s)
      exact .of_kept_eq (State_setUse_kept ..) (Keeps.refl s)
    · exact Keeps.refl s
  · exact Keeps.refl s

theorem longSumAdd_keeps (stn : Fin 104) (q : Fin 4) (lane : BitVec 8) (s : State) : Out.Kept s (execLongSumAdd stn q lane s) := by
  refine event_keeps ?_
  dsimp only
  split
  · split
    · refine Keeps.ite (fun _ => Keeps.refl s) fun _ => Keeps.getD (fun t ht => ?_) (Keeps.refl s)
      have hr : Keeps s { s with
          arr.lanes := s.arr.lanes.insert (laneKey (s.carveAt stn q) lane.toNat)
            { (s.arr.lanes.read {} (laneKey (s.carveAt stn q) lane.toNat)) with result := none } } := Keeps.refl s
      split_ifs at ht
      exacts [addPlane_keeps hr ht, addSum_keeps hr ht]
    · exact Keeps.refl s
  · exact Keeps.refl s

theorem put_keeps (c : Hdr) (dst : Place) (data : List Byte) (s : State) : Out.Kept s (execPut c dst data s) := by
  refine command_keeps fun t d ht => Keeps.ite (fun _ => .of_kept_eq (State_reply_kept ..) ht) fun _ => ?_
  cases dst <;> dsimp only
  · split
    · exact .of_kept_eq (State_reply_kept ..) ht
    · exact .of_kept_eq (State_reply_kept ..) (putBytes_keeps _ _ _ _ ht)
  · exact onObject_keeps ht fun o => Keeps.ite (fun _ => .of_kept_eq (by simp) ht) fun _ => .of_kept_eq (by simp) ht

theorem get_keeps (c : Hdr) (src : Place) (len : Nat) (s : State) : Out.Kept s (execGet c src len s) := by
  refine command_keeps fun t d ht => ?_
  repeat' first
    | with_reducible exact ht
    | with_reducible refine onObject_keeps ht fun o => ?_
    | split
    | exact .of_kept_eq (by simp) ht

theorem object_keeps (c : Hdr) (act : ObjAct) (id : Nat) (kind : BitVec 8) (s : State) : Out.Kept s (execObject c act id kind s) := by
  refine command_keeps fun t d ht => ?_
  have rep (u : State) (st : Status) (hu : u.kept = t.kept) : Keeps s (u.reply d st) := .of_kept_eq ((State_reply_kept ..).trans hu) ht
  cases act with
  | create => exact Keeps.ite (fun _ => rep _ _ rfl) fun _ => Keeps.ite (fun _ => rep _ _ rfl) fun _ => rep _ _ rfl
  | commit =>
    exact onObject_keeps ht fun o => Keeps.ite (fun _ => rep _ _ rfl) fun _ => Keeps.ite (fun _ => rep _ _ rfl) fun _ => beginCommit_keeps t id ht
  | delete => exact onObject_keeps ht fun o => Keeps.ite (fun _ => rep _ _ rfl) fun _ => rep _ _ (State_dropUnits_kept ..)

theorem mxConvert_keeps (strm : BitVec 12) (item : BitVec 24) (scales elems : List (BitVec 8)) (s : State) :
    Out.Kept s (execMxConvert strm item scales elems s) := by
  have hs := Keeps.refl s
  refine event_keeps ?_
  dsimp only
  split
  · split
    · refine Keeps.ite (fun _ => hs) fun _ => ?_
      split
      · exact .of_kept_eq (State_violate_kept ..) hs
      · refine Keeps.ite (fun _ => hs) fun _ => Keeps.ite (fun _ => .of_kept_eq (State_notifyLost_kept ..) hs) fun _ => ?_
        refine Keeps.ite (fun _ => .of_kept_eq (State_notify_kept ..) hs) fun _ => ?_
        refine Keeps.ite (fun _ => .of_kept_eq (State_violate_kept ..) hs) fun _ => ?_
        generalize hu : (ite (α := State × Nat) (stMxDir _ = true) _ _) = u
        have hk : Keeps s u.1 := by
          rw [← hu]
          split_ifs
          exacts [egress_keeps _ _ _ _ _ hs, egress_keeps _ _ _ _ _ hs, ingest_keeps _ _ _ _ hs, ingest_keeps _ _ _ _ hs]
        split_ifs <;> exact .of_kept_eq (by simp) hk
    · exact hs
  · exact hs

theorem useStart_keeps (slot : BitVec 8) (seg : BitVec 20) (use : BitVec 24) (off : BitVec 7) (pass : BitVec 20) (x : UseExtra) (s : State) :
    Out.Kept s (execUseStart slot seg use off pass x s) := by
  have hs := Keeps.refl s
  have bad (ck : Nat) (e : Status) : Keeps s (s.violateAt ck slot.toNat e seg.toNat use.toNat (BitVec.ofNat 128 use.toNat)) :=
    .of_kept_eq (State_violateAt_kept ..) hs
  have acc {l : List Access} {t : State} (h : firstStop l = some (.stop t)) (hl : ∀ a ∈ l, ∀ t, a = .stop t → t.kept = s.kept) : Keeps s t :=
    .of_kept_eq (hl _ (firstStop_mem h) t rfl) hs
  refine event_keeps ?_
  dsimp only
  split
  · split
    · refine Keeps.ite (fun _ => hs) fun _ => Keeps.ite (fun _ => bad _ _) fun _ => ?_
      split
      · split
        · refine acc ‹_› ?_
          simp only [List.cons_append, List.mem_cons, List.mem_append, List.mem_map]
          rintro a (rfl | (ha | ha) | ⟨e, -, rfl⟩) t ht
          · exact access_kept ht
          · split_ifs at ha <;> simp at ha; subst ha; exact access_kept ht
          · split_ifs at ha <;> simp at ha; subst ha; exact access_kept ht
          · exact access_kept ht
        · exact hs
        · split
          · exact hs
          · exact bad _ _
          · exact hs
          · refine Keeps.ite (fun _ => bad _ _) fun _ => Keeps.ite (fun _ => bad _ _) fun _ => Keeps.ite (fun _ => bad _ _) fun _ => ?_
            refine Keeps.ite (fun _ => bad _ _) fun _ => Keeps.ite (fun _ => bad _ _) fun _ => Keeps.ite (fun _ => bad _ _) fun _ => ?_
            refine Keeps.ite (fun _ => bad _ _) fun _ => Keeps.ite (fun _ => bad _ _) fun _ => Keeps.ite (fun _ => hs) fun _ => ?_
            refine .of_kept_eq ((State_beginUse_kept ..).trans ?_) hs
            split
            · rw [apply_ite State.kept, State_claimOut_kept, ite_self, State_conflicts_kept]; rfl
            · rw [State_conflicts_kept]; rfl
      · exact bad _ _
    · exact hs
  · exact hs

theorem map_keeps (c : Hdr) (a : MapArgs) (s : State) : Out.Kept s (execMap c a s) := by
  refine command_keeps fun t d ht => ?_
  have rep (u : State) (st : Status) (hu : Keeps s u) : Keeps s (u.reply d st) := .of_kept_eq (State_reply_kept ..) hu
  dsimp only
  refine Keeps.ite (fun _ => rep _ _ ht) fun _ => Keeps.ite (fun _ => rep _ _ ht) fun _ => Keeps.ite (fun _ => rep _ _ ht) fun _ => ?_
  refine Keeps.ite (fun _ => ?map) fun _ => Keeps.ite (fun _ => Keeps.ite (fun _ => rep _ _ ht) fun _ => rep _ _ ?unshare) fun _ => ?unmap
  case map =>
    refine Keeps.ite (fun _ => rep _ _ ht) fun _ => Keeps.ite (fun _ => rep _ _ ht) fun _ => Keeps.ite (fun _ => rep _ _ ht) fun _ => ?_
    refine Keeps.ite (fun _ => rep _ _ ht) fun _ => rep _ _ (each_keeps ?_ fun u k hu => .of_kept_eq (State_addHeaders_kept ..) hu)
    have hmap {c : Prop} [Decidable c] : Keeps s (if c then t.each (List.range a.count) (fun t i => t.mapPage a i) else t) :=
      Keeps.ite (fun _ => each_keeps ht fun u i hu => .of_kept_eq (State_mapPage_kept ..) hu) fun _ => ht
    exact Keeps.ite (fun _ => hmap) fun _ => each_keeps hmap fun u p hu => .of_kept_eq (State_sharePage_kept ..) hu
  case unshare => exact each_keeps ht fun u p hu => .of_kept_eq (State_unshare_kept ..) hu
  case unmap =>
    refine Keeps.ite (fun _ => rep _ _ ht) fun _ => Keeps.ite (fun _ => rep _ _ ht) fun _ => Keeps.ite (fun _ => rep _ _ ht) fun _ => rep _ _ ?_
    exact each_keeps ht fun u p hu => unmapPage_keeps _ _ _ hu

theorem recoveryResume_keeps (job : BitVec 8) (s : State) : Out.Kept s (execRecoveryResume job s) := by
  have hs := Keeps.refl s
  have aud {c : Prop} [Decidable c] : Keeps s (if c then s.auditCheck else s) :=
    Keeps.ite (fun _ => .of_kept_eq (State_auditCheck_kept ..) hs) fun _ => hs
  have wake (u : State) (hu : Keeps s u) : Keeps s u.wakeUpdate := .of_kept_eq (State_wakeUpdate_kept ..) hu
  have sec (u : State) (j : Nat) (x : SecStat) (hu : Keeps s u) : Keeps s (u.setSecStat j x) := .of_kept_eq (State_setSecStat_kept ..) hu
  refine event_keeps ?_
  dsimp only
  split
  · refine Keeps.ite (fun _ => hs) fun _ => Keeps.ite (fun _ => wake _ (sec _ _ _ hs)) fun _ => Keeps.ite (fun _ => aud) fun _ => ?_
    refine Keeps.ite (fun _ => sec _ _ _ hs) fun _ => ?_
    generalize hu : State.setSecStat _ _ _ = u
    have hk : Keeps s u := by
      rw [← hu]
      exact sec _ _ _ (Keeps.ite (fun _ => aud) fun _ => .of_kept_eq (State_auditCheck_kept ..) hs)
    refine Keeps.ite (fun _ => hk) fun _ => ?_
    split <;> split_ifs <;> exact .of_kept_eq (by simp) hk
  · exact hs

theorem pageInRequest_keeps (bib : BitVec 12) (page : BitVec 27) (lun frame : BitVec 29) (s : State) :
    Out.Kept s (execPageInRequest bib page lun frame s) := by
  have hs := Keeps.refl s
  refine event_keeps (Keeps.ite (fun _ => hs) fun _ => ?_)
  dsimp only
  split
  · exact hs
  · rename_i s0 h0
    have h0' : Keeps s s0 := by
      split_ifs at h0
      · cases h0; exact hs
      · obtain ⟨l, -, rfl⟩ := Option.map_eq_some_iff.mp h0
        exact evict_keeps _ _ _ _ hs
    have h1 (src dst n : Nat) : Keeps s (s0.copyBytes src dst n) := copyBytes_keeps _ _ _ _ h0'
    split_ifs <;> simpa using h1 _ _ _

theorem kept_ite {r s t : State} {c : Prop} [Decidable c] (hs : s.kept = r.kept) (ht : t.kept = r.kept) : (if c then s else t).kept = r.kept := by
  split_ifs
  exacts [hs, ht]

theorem cellFire_keeps (stn : Fin 104) (row col : Fin 260) (s : State) : Out.Kept s (execCellFire stn row col s) := by
  have cell (u : State) (p r c : Nat) (x : Cell) (hu : u.kept = s.kept) : (u.setCell p r c x).kept = s.kept := (State_setCell_kept ..).trans hu
  refine event_keeps (.of_kept_eq ?_ (Keeps.refl s))
  dsimp only
  split
  · split
    · refine kept_ite ?_ rfl
      generalize hs2 : @ite State _ (instDecidableEqBool _ true) (State.leaveArray _ _ _ _ _) _ = s2
      have h2 : s2.kept = s.kept := by
        rw [← hs2]
        exact kept_ite ((State_leaveArray_kept ..).trans (cell _ _ _ _ _ rfl)) (cell _ _ _ _ _ (cell _ _ _ _ _ rfl))
      generalize hs3 : @ite State _ (instDecidableEqBool _ true) _ (State.setCell s2 _ _ _ _) = s3
      have h3 : s3.kept = s.kept := by
        rw [← hs3]
        refine kept_ite ?_ (cell _ _ _ _ _ h2)
        split <;> exact h2
      exact kept_ite h3 ((State_count_kept ..).trans h3)
    · rfl
  · rfl

theorem headerOperation_keeps (t : TileId) (slot : BitVec 8) (seg : BitVec 20) (write : Bool) (fmt : BitVec 4) (home : HomeAddr)
    (hcrc : BitVec 32) (s : State) : Out.Kept s (execHeaderOperation t slot seg write fmt home hcrc s) := by
  have hs := Keeps.refl s
  have viol (st : Status) (n : Nat) (d : BitVec 128) : Keeps s (s.violate slot.toNat st n 0 d) := .of_kept_eq (State_violate_kept ..) hs
  have wr (h : TileHdr) : Keeps s (s.writeOr t h slot.toNat seg.toNat) := .of_kept_eq (State_writeOr_kept ..) hs
  refine event_keeps ?_
  split
  · exact viol _ _ _
  · refine Keeps.ite (fun _ => hs) fun _ => Keeps.ite (fun _ => .of_kept_eq (State_loseTile_kept ..) hs) fun _ => ?_
    split
    · exact viol _ _ _
    · exact .of_kept_eq (State_notifyLost_kept ..) hs
    · exact Keeps.ite (fun _ => wr _) fun _ => .of_kept_eq (State_notify_kept ..) hs
    · exact Keeps.ite (fun _ => wr _) fun _ => hs

theorem translationWalkDone_keeps (bib : BitVec 12) (page : BitVec 27) (slot : BitVec 8) (write : Bool) (strm : Option (BitVec 12)) (s : State) :
    Out.Kept s (execTranslationWalkDone bib page slot write strm s) := by
  have hs := Keeps.refl s
  refine event_keeps ?_
  split
  · exact Keeps.ite (fun _ => hs) fun _ => hs
  · exact .of_kept_eq (State_violate_kept ..) hs
  · split
    · split
      · exact .of_kept_eq (State_haltStrm_kept ..) hs
      · exact hs
    · exact hs
  · exact hs

theorem makeRoom_kept (s : State) (k : Course) (c die need : Nat) (l : List LkrEntry) : (s.makeRoom k c die need l).kept = s.kept := by
  induction l generalizing s need with
  | nil => rfl
  | cons e l ih =>
    unfold State.makeRoom
    refine kept_ite rfl ?_
    split
    · rw [ih]; simp
    · exact kept_ite rfl (by simp)

theorem lockerEntryWrite_keeps (slot : BitVec 8) (seg : BitVec 20) (die : Fin 4) (kind fmt : BitVec 4) (reads : BitVec 2)
    (tensor : BitVec 32) (unit : BitVec 24) (mb : BitVec 8) (s : State) :
    Out.Kept s (execLockerEntryWrite slot seg die kind fmt reads tensor unit mb s) := by
  have hs := Keeps.refl s
  have viol (st : Status) (d : BitVec 128) : Keeps s (s.violate slot.toNat st seg.toNat 0 d) := .of_kept_eq (State_violate_kept ..) hs
  refine event_keeps ?_
  dsimp only
  split
  · split
    · refine Keeps.ite (fun _ => hs) fun _ => Keeps.ite (fun _ => viol _ _) fun _ => Keeps.ite (fun _ => viol _ _) fun _ => ?_
      split
      · exact hs
      · exact viol _ _
      · exact Keeps.ite (fun _ => hs) fun _ => .of_kept_eq (makeRoom_kept ..) hs
    · exact hs
  · exact hs

end Machine
end Sys2Proof

/-! SUPPORT. The other rows, chapter by chapter, and the three statements about the whole block. -/

namespace Sys2Proof
namespace Machine

/-! ## Rows that store no byte -/

/-- Rows of tile moves, headers and walks. -/
theorem moveRows_keep (s : State) :
    (∀ id t dst mover, Out.Kept s (execMoveRequest id t dst mover s)) ∧ (∀ id, Out.Kept s (execMoveHeaderSet id s)) ∧
    (∀ id, Out.Kept s (execMoveCommit id s)) ∧ (∀ id, Out.Kept s (execMoveRelease id s)) ∧
    (∀ id atSource, Out.Kept s (execMoveFailure id atSource s)) := by
  and_intros <;> intros <;> dsimp only [execMoveRequest, execMoveHeaderSet, execMoveCommit, execMoveRelease, execMoveFailure] <;>
    refine event_keeps ?_
  all_goals
    repeat' first
      | (simp; done)
      | with_reducible assumption
      | split

/-- Rows of the lift. -/
theorem liftRows_keep (s : State) :
    (∀ slot decl strm, Out.Kept s (execStreamOpen slot decl strm s)) ∧ (∀ strm, Out.Kept s (execStreamClose strm s)) ∧
    (∀ strm dst mover, Out.Kept s (execLiftIssue strm dst mover s)) ∧ (∀ strm item, Out.Kept s (execItemRead strm item s)) ∧
    (∀ strm item, Out.Kept s (execItemLate strm item s)) ∧ (∀ strm item va, Out.Kept s (execStreamHalt strm item va s)) ∧
    (∀ strm, Out.Kept s (execStreamResume strm s)) ∧ (∀ strm other, Out.Kept s (execStreamUnwind strm other s)) ∧
    (∀ strm, Out.Kept s (execLiftStreamCancel strm s)) := by
  and_intros <;> intros <;> dsimp only [execStreamOpen, execStreamClose, execLiftIssue, execItemRead, execItemLate, execStreamHalt, execStreamResume,
    execStreamUnwind, execLiftStreamCancel] <;>
    refine event_keeps ?_
  all_goals
    repeat' first
      | (simp; done)
      | with_reducible assumption
      | split

/-- Rows of gates. -/
theorem gateRows_keep (s : State) :
    (∀ gate epoch, Out.Kept s (execGateSignal gate epoch s)) ∧ (∀ gate epoch slot, Out.Kept s (execGateWait gate epoch slot s)) ∧
    (∀ gate, Out.Kept s (execGateWatchdogTrip gate s)) := by
  and_intros <;> intros <;> dsimp only [execGateSignal, execGateWait, execGateWatchdogTrip] <;>
    refine event_keeps ?_
  all_goals
    repeat' first
      | (simp; done)
      | with_reducible assumption
      | split

/-- Rows of holds. -/
theorem holdRows_keep (s : State) :
    (∀ slot cause, Out.Kept s (execHoldRaise slot cause s)) ∧ (∀ slot, Out.Kept s (execHoldStopped slot s)) ∧
    (∀ slot, Out.Kept s (execHoldDrained slot s)) ∧ (∀ slot cause, Out.Kept s (execHoldClear slot cause s)) ∧
    (∀ slot, Out.Kept s (execHoldLongTimeout slot s)) ∧ (∀ slot on, Out.Kept s (execHoldPauseWrite slot on s)) := by
  and_intros <;> intros <;> dsimp only [execHoldRaise, execHoldStopped, execHoldDrained, execHoldClear, execHoldLongTimeout, execHoldPauseWrite] <;>
    refine event_keeps ?_
  all_goals
    repeat' first
      | (simp; done)
      | with_reducible assumption
      | split

/-- Rows of the carve scheduler. -/
theorem carveRows_keep (s : State) :
    (∀ slot, Out.Kept s (execCarveGrant slot s)) ∧ (∀ slot, Out.Kept s (execCarveWaitTimeout slot s)) ∧
    (∀ slot, Out.Kept s (execRunEnd slot s)) := by
  and_intros <;> intros <;> dsimp only [execCarveGrant, execCarveWaitTimeout, execRunEnd] <;>
    refine event_keeps ?_
  all_goals
    repeat' first
      | (simp; done)
      | with_reducible assumption
      | split

/-- Rows of the sequencer. -/
theorem sequencerRows_keep (s : State) :
    (∀ slot seg work, Out.Kept s (execSegmentStart slot seg work s)) ∧ (∀ slot seg, Out.Kept s (execSegmentFinish slot seg s)) := by
  and_intros <;> intros <;> dsimp only [execSegmentStart, execSegmentFinish] <;>
    refine event_keeps ?_
  all_goals
    repeat' first
      | (simp; done)
      | with_reducible assumption
      | split

/-- Rows of a station's array. -/
theorem arrayRows_keep (s : State) :
    (∀ stn q tap, Out.Kept s (execOperandRelease stn q tap s)) ∧ (∀ stn q tap, Out.Kept s (execSwapMarkerRelease stn q tap s)) ∧
    (∀ stn q, Out.Kept s (execWeightLoadHandshake stn q s)) ∧ (∀ stn q, Out.Kept s (execLoadComplete stn q s)) ∧
    (∀ stn q tp, Out.Kept s (execAnchorForm stn q tp s)) ∧ (∀ die stn q, Out.Kept s (execTileInject die stn q s)) ∧
    (∀ stn q, Out.Kept s (execTileRetire stn q s)) := by
  and_intros <;> intros <;> dsimp only [execOperandRelease, execSwapMarkerRelease, execWeightLoadHandshake, execLoadComplete, execAnchorForm,
    execTileInject, execTileRetire] <;>
    refine event_keeps ?_
  all_goals
    repeat' first
      | (simp; done)
      | with_reducible assumption
      | split
      | with_reducible refine each_keeps ?_ fun _ _ _ => ?_
      | simp

/-- Rows of identity and records. -/
theorem recordRows_keep (s : State) :
    (∀ c low high, Out.Kept s (execHello c low high s)) ∧ (∀ c, Out.Kept s (execIdentity c s)) ∧
    (∀ c nonce tries, Out.Kept s (execQuote c nonce tries s)) ∧ (∀ c first count, Out.Kept s (execEvents c first count s)) ∧
    (∀ c tag, Out.Kept s (execReplies c tag s)) ∧ (∀ c key, Out.Kept s (execOpkey c key s)) := by
  and_intros <;> intros <;> dsimp only [execHello, execIdentity, execQuote, execEvents, execReplies, execOpkey] <;>
    first | refine event_keeps ?_ | refine command_keeps fun _ _ _ => ?_
  all_goals
    repeat' first
      | (simp; done)
      | with_reducible assumption
      | split
      | with_reducible refine each_keeps ?_ fun _ _ _ => ?_
      | simp

/-- Rows of the intake. -/
theorem intakeRows_keep (s : State) :
    (∀ bib, Out.Kept s (execHostPollTimer bib s)) ∧ (∀ h, Out.Kept s (execI3cPacketRx h s)) ∧ (∀ bib, Out.Kept s (execReplyPost bib s)) ∧
    (∀ fn, Out.Kept s (execHostBarWrite fn s)) := by
  and_intros <;> intros <;> dsimp only [execHostPollTimer, execI3cPacketRx, execReplyPost, execHostBarWrite] <;>
    refine event_keeps ?_
  all_goals
    repeat' first
      | (simp; done)
      | with_reducible assumption
      | split

/-- Rows of boot and firmware. -/
theorem bootRows_keep (s : State) :
    Out.Kept s (execBootRomStart s) ∧ Out.Kept s (execBootLoaderVerified s) ∧ Out.Kept s (execBootMemoryTrained s) ∧
    Out.Kept s (execZilunzorRunning s) ∧ (∀ c, Out.Kept s (execFwActivate c s)) ∧ (∀ c slotB, Out.Kept s (execFwSlot c slotB s)) ∧
    Out.Kept s (execLiveUpdateImageRead s) ∧ Out.Kept s (execLiveUpdatePauseDone s) ∧ (∀ refused, Out.Kept s (execLiveUpdateHandover refused s)) ∧
    Out.Kept s (execLiveUpdateHealthy s) ∧ Out.Kept s (execLiveUpdateRevert s) := by
  and_intros <;> intros <;> dsimp only [execBootRomStart, execBootLoaderVerified, execBootMemoryTrained, execZilunzorRunning, execFwActivate,
    execFwSlot, execLiveUpdateImageRead, execLiveUpdatePauseDone, execLiveUpdateHandover, execLiveUpdateHealthy, execLiveUpdateRevert] <;>
    first | refine event_keeps ?_ | refine command_keeps fun _ _ _ => ?_ | refine next_keeps ?_
  all_goals
    repeat' first
      | (simp; done)
      | with_reducible assumption
      | split
      | with_reducible refine each_keeps ?_ fun _ _ _ => ?_
      | simp

/-- Rows of row reductions. -/
theorem reductionRows_keep (s : State) :
    (∀ stn q id term last, Out.Kept s (execRowReductionAdd stn q id term last s)) := by
  intros
  dsimp only [execRowReductionAdd]
  refine event_keeps ?_
  all_goals
    repeat' first
      | (simp; done)
      | with_reducible assumption
      | split

/-- Rows of the Rink and its faults. -/
theorem rinkRows_keep (s : State) :
    (∀ cfg, Out.Kept s (execRinkCfgRequestWrite cfg s)) ∧ (∀ c cfg, Out.Kept s (execRink c cfg s)) ∧ Out.Kept s (execRinkReconfigure s) ∧
    (∀ stn on, Out.Kept s (execStnWithdrawWrite stn on s)) ∧ (∀ c stn on, Out.Kept s (execWithdraw c stn on s)) ∧
    (∀ stn, Out.Kept s (execStationWithdrawn stn s)) ∧ (∀ stn q kind, Out.Kept s (execCarveFaultDetect stn q kind s)) ∧
    (∀ stn q, Out.Kept s (execCarveDrainDone stn q s)) ∧ (∀ stn q pass, Out.Kept s (execQuarterCheckDone stn q pass s)) := by
  and_intros <;> intros <;> dsimp only [execRinkCfgRequestWrite, execRink, execRinkReconfigure, execStnWithdrawWrite, execWithdraw,
    execStationWithdrawn, execCarveFaultDetect, execCarveDrainDone, execQuarterCheckDone] <;>
    first | refine event_keeps ?_ | refine command_keeps fun _ _ _ => ?_
  all_goals
    repeat' first
      | (simp; done)
      | with_reducible assumption
      | split
      | with_reducible refine each_keeps ?_ fun _ _ _ => ?_
      | simp

/-- Rows of near tiers, stacks and lists. -/
theorem tierRows_keep (s : State) :
    (∀ die, Out.Kept s (execNtRefreshSlot die s)) ∧ (∀ die tj, Out.Kept s (execNtBandChange die tj s)) ∧
    (∀ die, Out.Kept s (execNtBurstLead die s)) ∧ (∀ die, Out.Kept s (execNtBurstEnd die s)) ∧ (∀ stack, Out.Kept s (execStackServiceSlot stack s)) ∧
    (∀ stack last, Out.Kept s (execStackTestSlot stack last s)) ∧ (∀ stack line owner, Out.Kept s (execStackLineUe stack line owner s)) ∧
    (∀ stack bib cand, Out.Kept s (execTopkInsert stack bib cand s)) ∧ (∀ stack lines bad, Out.Kept s (execBaseVerify stack lines bad s)) := by
  and_intros <;> intros <;> dsimp only [execNtRefreshSlot, execNtBandChange, execNtBurstLead, execNtBurstEnd, execStackServiceSlot,
    execStackTestSlot, execStackLineUe, execTopkInsert, execBaseVerify] <;>
    refine event_keeps ?_
  all_goals
    repeat' first
      | (simp; done)
      | with_reducible assumption
      | split
      | with_reducible refine each_keeps ?_ fun _ _ _ => ?_
      | simp

/-- Rows of the lodge. -/
theorem lodgeRows_keep (s : State) :
    (∀ place ok, Out.Kept s (execLodgeUnitReadDone place ok s)) ∧
    (∀ bib page lun fromT2 waiting, Out.Kept s (execLodgePageRebuild bib page lun fromT2 waiting s)) ∧
    (∀ bib page ok, Out.Kept s (execLodgePeerFetchDone bib page ok s)) ∧ (∀ ch die blk ok, Out.Kept s (execLodgeEraseDone ch die blk ok s)) ∧
    (∀ ch die low high, Out.Kept s (execLodgeWearLevelTimer ch die low high s)) ∧
    (∀ ch die blk worst ageDays, Out.Kept s (execLodgeRetentionScan ch die blk worst ageDays s)) ∧
    (∀ ch die, Out.Kept s (execLodgeDieDead ch die s)) ∧ (∀ ch, Out.Kept s (execLodgeChannelLost ch s)) ∧
    (∀ id copy ok, Out.Kept s (execCommitRecordProgrammed id copy ok s)) ∧ Out.Kept s (execLodgeStart s) ∧
    (∀ ch, Out.Kept s (execOnfiZqCalibration ch s)) ∧
    (∀ blk wl die failedCh units, Out.Kept s (execLodgeStripeProgrammed blk wl die failedCh units s)) := by
  and_intros <;> intros <;> dsimp only [execLodgeUnitReadDone, execLodgePageRebuild, execLodgePeerFetchDone, execLodgeEraseDone,
    execLodgeWearLevelTimer, execLodgeRetentionScan, execLodgeDieDead, execLodgeChannelLost, execCommitRecordProgrammed, execLodgeStart,
    execOnfiZqCalibration, execLodgeStripeProgrammed] <;>
    refine event_keeps ?_
  all_goals
    repeat' first
      | (simp; done)
      | with_reducible assumption
      | split
      | with_reducible refine each_keeps ?_ fun _ _ _ => ?_
      | simp

/-- Rows of the update pipelines. -/
theorem updateRows_keep (s : State) :
    (∀ pipe slot binding patch, Out.Kept s (execStateStageRead pipe slot binding patch s)) ∧
    (∀ pipe slot binding patch grad, Out.Kept s (execGradientPatchArrival pipe slot binding patch grad s)) ∧
    (∀ pipe group, Out.Kept s (execUpdateProgramEnd pipe group s)) ∧ (∀ slot clip, Out.Kept s (execClipWrite slot clip s)) ∧
    (∀ slot clip, Out.Kept s (execClipArm slot clip s)) := by
  and_intros <;> intros <;> dsimp only [execStateStageRead, execGradientPatchArrival, execUpdateProgramEnd, execClipWrite, execClipArm] <;>
    refine event_keeps ?_
  all_goals
    repeat' first
      | (simp; done)
      | with_reducible assumption
      | split

/-- Rows of securing. -/
theorem securingRows_keep (s : State) :
    (∀ job rank step kind, Out.Kept s (execBuddyCopyComplete job rank step kind s)) ∧ (∀ job rank, Out.Kept s (execMemberLost job rank s)) ∧
    (∀ job step fore, Out.Kept s (execRecoveryPlan job step fore s)) ∧ (∀ c setIntervals nb nl, Out.Kept s (execSecure c setIntervals nb nl s)) ∧
    (∀ c rank module, Out.Kept s (execSwap c rank module s)) ∧ (∀ c fores, Out.Kept s (execRegrow c fores s)) := by
  and_intros <;> intros <;> dsimp only [execBuddyCopyComplete, execMemberLost, execRecoveryPlan, execSecure, execSwap, execRegrow] <;>
    first | refine event_keeps ?_ | refine command_keeps fun _ _ _ => ?_
  all_goals
    repeat' first
      | (simp; done)
      | with_reducible assumption
      | split
      | with_reducible refine each_keeps ?_ fun _ _ _ => ?_
      | simp

/-- Rows of bibs and keys. -/
theorem bibRows_keep (s : State) :
    (∀ c a, Out.Kept s (execAdmitBib c a s)) ∧ (∀ bib, Out.Kept s (execKemPairReady bib s)) ∧ (∀ c a, Out.Kept s (execQuota c a s)) ∧
    (∀ c ct links, Out.Kept s (execKeys c ct links s)) ∧ (∀ c set, Out.Kept s (execSeeds c set s)) ∧ (∀ c, Out.Kept s (execKeyrot c s)) ∧
    (∀ bib, Out.Kept s (execKeyRotateTimer bib s)) ∧ (∀ bib stack, Out.Kept s (execKeySweepItem bib stack s)) ∧
    (∀ bib, Out.Kept s (execKeyRetire bib s)) ∧ (∀ job, Out.Kept s (execLinkKeyRotate job s)) ∧ (∀ c, Out.Kept s (execResume c s)) ∧
    (∀ c nonce, Out.Kept s (execRelease c nonce s)) ∧ (∀ bib, Out.Kept s (execScrubComplete bib s)) := by
  and_intros <;> intros <;> dsimp only [execAdmitBib, execKemPairReady, execQuota, execKeys, execSeeds, execKeyrot, execKeyRotateTimer,
    execKeySweepItem, execKeyRetire, execLinkKeyRotate, execResume, execRelease, execScrubComplete] <;>
    first | refine event_keeps ?_ | refine command_keeps fun _ _ _ => ?_
  all_goals
    repeat' first
      | (simp; done)
      | with_reducible assumption
      | split
      | with_reducible refine each_keeps ?_ fun _ _ _ => ?_
      | simp

/-- Rows of the photo finish and the log. -/
theorem photoFinishRows_keep (s : State) :
    Out.Kept s (execPfStartWrite s) ∧ Out.Kept s (execPfPeriodicTimer s) ∧ (∀ c names, Out.Kept s (execCounters c names s)) ∧
    (∀ unit, Out.Kept s (execPfMarkerArrive unit s)) ∧ Out.Kept s (execPfMarkerReturn s) ∧ Out.Kept s (execPfCopyDone s) ∧
    Out.Kept s (execEventLogEntry s) := by
  and_intros <;> intros <;> dsimp only [execPfStartWrite, execPfPeriodicTimer, execCounters, execPfMarkerArrive, execPfMarkerReturn, execPfCopyDone,
    execEventLogEntry] <;>
    first | refine event_keeps ?_ | refine command_keeps fun _ _ _ => ?_
  all_goals
    repeat' first
      | (simp; done)
      | with_reducible assumption
      | split
      | with_reducible refine each_keeps ?_ fun _ _ _ => ?_
      | simp

/-- Rows of Septyth Link. -/
theorem linkRows_keep (s : State) :
    (∀ rail dim, Out.Kept s (execBypassToLoop rail dim s)) ∧ (∀ rail dim, Out.Kept s (execBypassOpenStart rail dim s)) ∧
    (∀ rail dim, Out.Kept s (execBypassOpeningDone rail dim s)) ∧ (∀ rail dim, Out.Kept s (execBypassJoined rail dim s)) ∧
    (∀ rail dim, Out.Kept s (execBypassTrainTimeout rail dim s)) ∧ (∀ rail dim, Out.Kept s (execBypassDriveLoss rail dim s)) ∧
    (∀ rail dim, Out.Kept s (execBypassClosingDone rail dim s)) ∧ (∀ rail dim, Out.Kept s (execSwitchStuckCheck rail dim s)) ∧
    (∀ rail dim on, Out.Kept s (execBypJoinWrite rail dim on s)) ∧ (∀ c rail dim on, Out.Kept s (execJoin c rail dim on s)) ∧
    (∀ c dx dy dz sysid x y z, Out.Kept s (execSysmap c dx dy dz sysid x y z s)) ∧ (∀ port on, Out.Kept s (execSlPortDrainWrite port on s)) ∧
    (∀ c port on, Out.Kept s (execDrain c port on s)) ∧ (∀ port, Out.Kept s (execSlPatternStart port s)) ∧
    (∀ rail dim, Out.Kept s (execRingDrainComplete rail dim s)) ∧ (∀ port errors, Out.Kept s (execPatternTestEnd port errors s)) ∧
    (∀ port neighbour cap good fibreNs, Out.Kept s (execSlTrainDone port neighbour cap good fibreNs s)) ∧
    (∀ port failed, Out.Kept s (execSlRetrain port failed s)) ∧ (∀ port, Out.Kept s (execSlPortDown port s)) ∧
    (∀ port, Out.Kept s (execSlLinkLoss port s)) := by
  and_intros <;> intros <;> dsimp only [execBypassToLoop, execBypassOpenStart, execBypassOpeningDone, execBypassJoined, execBypassTrainTimeout,
    execBypassDriveLoss, execBypassClosingDone, execSwitchStuckCheck, execBypJoinWrite, execJoin, execSysmap, execSlPortDrainWrite, execDrain,
    execSlPatternStart, execRingDrainComplete, execPatternTestEnd, execSlTrainDone, execSlRetrain, execSlPortDown, execSlLinkLoss] <;>
    first | refine event_keeps ?_ | refine command_keeps fun _ _ _ => ?_
  all_goals
    repeat' first
      | (simp; done)
      | with_reducible assumption
      | split
      | with_reducible refine each_keeps ?_ fun _ _ _ => ?_
      | simp

/-- Rows of frames. -/
theorem frameRows_keep (s : State) :
    (∀ port, Out.Kept s (execSlFrameTx port s)) ∧ (∀ port symbolErrors crcOk f, Out.Kept s (execSlFrameRx port symbolErrors crcOk f s)) ∧
    (∀ port m, Out.Kept s (execSlMessageOpen port m s)) ∧ (∀ port stream, Out.Kept s (execSlAbortRx port stream s)) := by
  and_intros <;> intros <;> dsimp only [execSlFrameTx, execSlFrameRx, execSlMessageOpen, execSlAbortRx] <;>
    refine event_keeps ?_
  all_goals
    repeat' first
      | (simp; done)
      | with_reducible assumption
      | split
      | with_reducible refine each_keeps ?_ fun _ _ _ => ?_
      | simp

/-- Rows of jobs. -/
theorem jobRows_keep (s : State) :
    (∀ c a, Out.Kept s (execJobConfig c a s)) ∧ (∀ c, Out.Kept s (execJobEnd c s)) := by
  and_intros <;> intros <;> dsimp only [execJobConfig, execJobEnd] <;>
    first | refine event_keeps ?_ | refine command_keeps fun _ _ _ => ?_
  all_goals
    repeat' first
      | (simp; done)
      | with_reducible assumption
      | split
      | with_reducible refine each_keeps ?_ fun _ _ _ => ?_
      | simp

/-- Rows of LOAD. -/
theorem loadRows_keep (s : State) :
    (∀ c va len digestOk, Out.Kept s (execLoad c va len digestOk s)) := by
  intros
  dsimp only [execLoad]
  refine command_keeps fun _ _ _ => ?_
  all_goals
    repeat' first
      | (simp; done)
      | with_reducible assumption
      | split
      | with_reducible refine each_keeps ?_ fun _ _ _ => ?_
      | simp

/-- Rows of power. -/
theorem powerRows_keep (s : State) :
    (∀ b vin, Out.Kept s (execFeedPresent b vin s)) ∧ (∀ lowUs, Out.Kept s (execPwrEnAssert lowUs s)) ∧
    (∀ rail idA idB, Out.Kept s (execRailInRegulation rail idA idB s)) ∧ (∀ sinceGoodUs, Out.Kept s (execResetNNegate sinceGoodUs s)) ∧
    Out.Kept s (execPerstAssert s) := by
  and_intros <;> intros <;> dsimp only [execFeedPresent, execPwrEnAssert, execRailInRegulation, execResetNNegate, execPerstAssert] <;>
    first | refine event_keeps ?_ | refine command_keeps fun _ _ _ => ?_ | refine next_keeps ?_
  all_goals
    repeat' first
      | (simp; done)
      | with_reducible assumption
      | split

/-- Rows of VCORE and the time base. -/
theorem vcoreRows_keep (s : State) :
    (∀ level, Out.Kept s (execChassisAlert level s)) ∧ (∀ target, Out.Kept s (execVcoreTargetWrite target s)) ∧
    (∀ c target, Out.Kept s (execVcore c target s)) ∧ Out.Kept s (execVcoreSlewStep s) ∧ (∀ r, Out.Kept s (execBeatMonitorWindow r s)) ∧
    Out.Kept s (execHoldDutyPieceEnd s) ∧ Out.Kept s (execTimestampWrap s) ∧ Out.Kept s (execHeartbeatToggle s) ∧ Out.Kept s (execHeartbeatLoss s) ∧
    (∀ core wholeRow, Out.Kept s (execServiceCoreHang core wholeRow s)) := by
  and_intros <;> intros <;> dsimp only [execChassisAlert, execVcoreTargetWrite, execVcore, execVcoreSlewStep, execBeatMonitorWindow,
    execHoldDutyPieceEnd, execTimestampWrap, execHeartbeatToggle, execHeartbeatLoss, execServiceCoreHang] <;>
    first | refine event_keeps ?_ | refine command_keeps fun _ _ _ => ?_ | refine next_keeps ?_
  all_goals
    repeat' first
      | (simp; done)
      | with_reducible assumption
      | split
      | with_reducible refine each_keeps ?_ fun _ _ _ => ?_
      | simp

/-- Rows of the register block. -/
theorem registerRows_keep (s : State) :
    (∀ off val, Out.Kept s (execRegisterWrite off val s)) := by
  intros
  dsimp only [execRegisterWrite]
  refine event_keeps ?_
  simp

/-- Rows of tests and JTAG. -/
theorem testRows_keep (s : State) :
    (∀ c unit inst, Out.Kept s (execSelftest c unit inst s)) ∧ (∀ unit inst, Out.Kept s (execSelftestStart unit inst s)) ∧
    (∀ unit inst o, Out.Kept s (execSelftestDone unit inst o s)) ∧ (∀ c unit inst, Out.Kept s (execCalibrate c unit inst s)) ∧
    (∀ failed lost, Out.Kept s (execStartupSelftestDone failed lost s)) ∧ Out.Kept s (execLodgeReady s) ∧ Out.Kept s (execLoopbackTrained s) ∧
    Out.Kept s (execModuleReady s) ∧ Out.Kept s (execJtagIdcode s) ∧ Out.Kept s (execJtagBypass s) ∧
    (∀ pins, Out.Kept s (execJtagSamplePreload pins s)) ∧ (∀ pins, Out.Kept s (execJtagExtest pins s)) ∧ Out.Kept s (execJtagChallenge s) ∧
    (∀ magicOk tver serial challenge scope rsvZero sigOk, Out.Kept s (execJtagToken magicOk tver serial challenge scope rsvZero sigOk s)) := by
  and_intros <;> intros <;> dsimp only [execSelftest, execSelftestStart, execSelftestDone, execCalibrate, execStartupSelftestDone, execLodgeReady,
    execLoopbackTrained, execModuleReady, execJtagIdcode, execJtagBypass, execJtagSamplePreload, execJtagExtest, execJtagChallenge, execJtagToken]
    <;>
    first | refine event_keeps ?_ | refine command_keeps fun _ _ _ => ?_ | refine next_keeps ?_
  all_goals
    repeat' first
      | (simp; done)
      | with_reducible assumption
      | split
      | with_reducible refine each_keeps ?_ fun _ _ _ => ?_
      | simp

/-- Rows of register reads. -/
theorem rcReadRows_keep (s : State) :
    (∀ off, Out.Kept s (execRcFieldRead off s)) := by
  intros
  dsimp only [execRcFieldRead]
  refine event_keeps ?_
  all_goals
    repeat' first
      | (simp; done)
      | with_reducible assumption
      | split

/-- Rows of ticks. -/
theorem tickRows_keep (s : State) :
    Out.Kept s (execTickToken s) ∧ (∀ u, Out.Kept s (execTickArrival u s)) := by
  and_intros <;> intros <;> dsimp only [execTickToken, execTickArrival] <;>
    first | refine event_keeps ?_ | refine command_keeps fun _ _ _ => ?_ | refine next_keeps ?_
  all_goals
    repeat' first
      | (simp; done)
      | with_reducible assumption
      | split
      | with_reducible refine each_keeps ?_ fun _ _ _ => ?_
      | simp

/-- Rows of the verdict. -/
theorem verdictRows_keep (s : State) :
    (∀ port jtag gate epoch value, Out.Kept s (execSlControlRx port jtag gate epoch value s)) ∧
    (∀ slot plus overflow, Out.Kept s (execVerdictRoundRx slot plus overflow s)) ∧ (∀ slot, Out.Kept s (execLocalVerdictForm slot s)) ∧
    (∀ slot, Out.Kept s (execStepSkip slot s)) ∧ (∀ slot, Out.Kept s (execScaleGateBoundary slot s)) := by
  and_intros <;> intros <;> dsimp only [execSlControlRx, execVerdictRoundRx, execLocalVerdictForm, execStepSkip, execScaleGateBoundary] <;>
    refine event_keeps ?_
  all_goals
    repeat' first
      | (simp; done)
      | with_reducible assumption
      | split

/-- Rows of scale records. -/
theorem scaleRows_keep (s : State) :
    (∀ slot group hBase srate sweep policy fmt, Out.Kept s (execScaleRecordWrite slot group hBase srate sweep policy fmt s)) := by
  intros
  dsimp only [execScaleRecordWrite]
  refine event_keeps ?_
  all_goals
    repeat' first
      | (simp; done)
      | with_reducible assumption
      | split

/-! ## Rows that store bytes, or end a stage of power, boot or update -/

theorem reply_keeps {r s : State} (c : Hdr) (st : Status) (h : Keeps r s) : Keeps r (s.reply c st) := .of_kept_eq (State_reply_kept ..) h

theorem violate_keeps {r s : State} (c : Nat) (st : Status) (seg use : Nat) (d : BitVec 128) (h : Keeps r s) : Keeps r (s.violate c st seg use d) :=
  .of_kept_eq (by simp) h

theorem moveDataDone_keeps (id : Nat) (s : State) : Out.Kept s (execMoveDataDone id s) := by
  refine event_keeps ?_
  dsimp only
  split
  · split
    · exact Keeps.ite (fun _ => copyBytes_keeps s _ _ _ (Keeps.refl s)) fun _ => Keeps.refl s
    · exact Keeps.refl s
  · exact Keeps.refl s

theorem pageMove_keeps (bib : BitVec 12) (page : BitVec 27) (tier : BitVec 3) (frame : BitVec 29) (s : State) :
    Out.Kept s (execPageMove bib page tier frame s) := by
  refine event_keeps (Keeps.ite (fun _ => ?_) fun _ => Keeps.ite (fun _ => ?_) fun _ => Keeps.refl s)
  · exact .of_kept_eq (by simp) (Keeps.refl s)
  · refine .of_kept_eq (State_setBib_kept ..) (.of_kept_eq (State_rehome_kept ..) (.of_kept_eq (State_pageItem_kept ..) (.of_kept_eq (State_pageItem_kept ..) ?_)))
    exact copyBytes_keeps _ _ _ _ (.of_kept_eq (by simp) (Keeps.refl s))

theorem limit_keeps (c : Hdr) (lim : BitVec 16) (s : State) : Out.Kept s (execLimit c lim s) :=
  command_keeps fun _ _ hk => onCourse_keeps hk fun _ => reply_keeps _ _ hk

theorem run_keeps (c : Hdr) (steps : BitVec 48) (inputSeq : BitVec 64) (s : State) : Out.Kept s (execRun c steps inputSeq s) := by
  refine command_keeps fun t d hk => onCourse_keeps hk fun k => Keeps.ite (fun _ => reply_keeps _ _ hk) fun _ => Keeps.ite (fun _ => hk) fun _ => ?_
  exact .of_kept_eq (by simp) hk

theorem cancel_keeps (c : Hdr) (s : State) : Out.Kept s (execCancel c s) := by
  refine command_keeps fun t d hk => onCourse_keeps hk fun k => ?_
  split
  · exact reply_keeps _ _ (.of_kept_eq (by simp) hk)
  · exact reply_keeps _ _ hk

theorem unload_keeps (c : Hdr) (s : State) : Out.Kept s (execUnload c s) :=
  command_keeps fun _ _ hk => onCourse_keeps hk fun _ => Keeps.ite (fun _ => reply_keeps _ _ hk) fun _ => reply_keeps _ _ (.of_kept_eq (by simp) hk)

theorem freeze_keeps (c : Hdr) (table : List Bool) (s : State) : Out.Kept s (execFreeze c table s) :=
  command_keeps fun _ _ hk => onCourse_keeps hk fun _ => Keeps.ite (fun _ => reply_keeps _ _ hk) fun _ => reply_keeps _ _ hk

theorem consts_keeps (c : Hdr) (prog : BitVec 4) (ks : List (BitVec 40)) (s : State) : Out.Kept s (execConsts c prog ks s) :=
  command_keeps fun _ _ hk => onCourse_keeps hk fun _ => Keeps.ite (fun _ => reply_keeps _ _ hk) fun _ => reply_keeps _ _ hk

theorem bootImagesVerified_keeps (s : State) : Out.Kept s (execBootImagesVerified s) := by
  have hs := Keeps.refl s
  refine event_keeps (Keeps.ite (fun _ => Keeps.ite (fun _ => refuseImage_keeps s 2 hs) fun _ => Keeps.ite (fun _ => refuseImage_keeps s 3 hs) fun _ => ?_)
    fun _ => hs)
  split <;> exact hs

theorem fwStage_keeps (c : Hdr) (images : List Image) (s : State) : Out.Kept s (execFwStage c images s) := by
  refine command_keeps fun t d hk => Keeps.ite (fun _ => reply_keeps _ _ (svnWaiting_keeps _ ?_)) fun _ => reply_keeps _ _ hk
  dsimp only
  generalize (if t.boot.stat.stage = 7 then t.boot.stat.refSlot else t.inactive) = sl
  have hput := each_keeps (l := images) (f := fun (u : State) (i : Image) => { u with boot.images := u.boot.images.insert (imgKey sl i.kind.toNat) i })
    hk fun _ _ h => h
  exact .of_kept_eq (by simp) hput

theorem useFinish_keeps (slot : BitVec 8) (off : BitVec 7) (s : State) : Out.Kept s (execUseFinish slot off s) := by
  have hs := Keeps.refl s
  refine event_keeps ?_
  dsimp only
  split
  · split
    · split
      · refine Keeps.ite (fun _ => hs) fun _ => ?_
        exact .of_kept_eq (State_issueSignal_kept ..) (commitOut_keeps _ _ (.of_kept_eq (by simp) hs))
      · exact hs
    · exact hs
  · exact hs

theorem stackVerifyScrub_keeps (stack : Fin 8) (line : Nat) (corrected : Option (BitVec 4)) (s : State) :
    Out.Kept s (execStackVerifyScrub stack line corrected s) := by
  refine event_keeps ?_
  cases corrected with
  | none => exact Keeps.refl s
  | some die => exact correctLine_keeps _ _ _ _ (Keeps.refl s)

theorem stackDieMark_keeps (stack : Fin 8) (die : BitVec 4) (line : Nat) (s : State) : Out.Kept s (execStackDieMark stack die line s) :=
  event_keeps (correctLine_keeps s _ _ _ (Keeps.refl s))

theorem baseW40Add_keeps (t : TileId) (slot : BitVec 8) (src : AddSrc) (s : State) : Out.Kept s (execBaseW40Add t slot src s) := by
  have hs := Keeps.refl s
  have htake := takeAddend_keeps s t src hs
  refine event_keeps ?_
  dsimp only
  split
  · split
    · exact htake
    · exact Keeps.ite (fun _ => hs) fun _ => addTile_keeps _ _ _ _ _ _ _ _ _ htake
    · exact violate_keeps _ _ _ _ _ htake
  · exact hs

theorem baseGatherScatter_keeps (dir : GatherDir) (bib : BitVec 12) (lines : List (BitVec 48 × BitVec 48)) (s : State) :
    Out.Kept s (execBaseGatherScatter dir bib lines s) := by
  refine event_keeps (Keeps.ite (fun _ => Keeps.refl s) fun _ => each_keeps (Keeps.refl s) fun u e hu => ?_)
  split
  · exact Keeps.ite (fun _ => lineOp_keeps _ _ _ _ hu) fun _ => hu
  · exact violate_keeps _ _ _ _ _ hu
  · exact violate_keeps _ _ _ _ _ hu
  · exact hu

theorem baseZeroFill_keeps (tile : Option TileId) (home : HomeAddr) (bytes : Nat) (s : State) :
    Out.Kept s (execBaseZeroFill tile home bytes s) := by
  have hs := Keeps.refl s
  refine event_keeps ?_
  cases tile with
  | none => exact Keeps.ite (fun _ => .of_kept_eq (by simp) (zeroBytes_keeps s (homeKey home) bytes hs)) fun _ => hs
  | some t =>
    dsimp only
    split
    next h _ =>
      refine Keeps.ite (fun _ => hs) fun _ => Keeps.ite (fun _ => hs) fun _ => ?_
      exact .of_kept_eq (by simp) (zeroBytes_keeps s (homeKey h.home) (tileBytesOf h.fmt.toNat) hs)
    next => exact hs

theorem slotBCommit_keeps (pipe : Fin 12) (onward : List (Fin 12)) (s : State) : Out.Kept s (execSlotBCommit pipe onward s) := by
  refine event_keeps ?_
  dsimp only
  repeat' first
    | (simp; done)
    | with_reducible assumption
    | split
    | with_reducible apply vaWrite_keeps
    | with_reducible apply writePatch_keeps
    | with_reducible refine each_keeps ?_ fun _ _ _ => ?_
    | simp

theorem forerunnerEntryStep_keeps (job : BitVec 8) (row : Fin 11) (s : State) : Out.Kept s (execForerunnerEntryStep job row s) := by
  have hs := Keeps.refl s
  refine event_keeps ?_
  dsimp only
  split
  · refine Keeps.ite (fun _ => hs) fun _ => ?_
    split
    · exact .of_kept_eq (by simp) hs
    · exact restoreJob_keeps _ _ _ (.of_kept_eq (by simp) hs)
    · split
      · exact reemit_keeps _ _ _ (.of_kept_eq (by simp) hs)
      · exact .of_kept_eq (by simp) hs
    · exact .of_kept_eq (by simp) hs
  · exact hs

theorem spreadPath_keeps (job : BitVec 8) (dim : Option (Fin 3)) (planes : BitVec 16) (m : BitVec 12) (s : State) :
    Out.Kept s (execSpreadPath job dim planes m s) := by
  refine event_keeps ?_
  dsimp only
  repeat' first
    | (simp; done)
    | with_reducible assumption
    | split
    | with_reducible apply restore_keeps
    | with_reducible apply reemit_keeps
    | simp

theorem scrubPagesDone_keeps (bib : BitVec 12) (badFrames : List (BitVec 50)) (s : State) : Out.Kept s (execScrubPagesDone bib badFrames s) := by
  have hs := Keeps.refl s
  refine event_keeps ?_
  dsimp only
  split
  · refine Keeps.ite (fun _ => hs) fun _ => each_keeps ?_ fun u f hu => .of_kept_eq (by simp) hu
    exact wipe_keeps _ _ (.of_kept_eq (by simp) hs)
  · exact hs

theorem slMessageCommit_keeps (port : Fin 12) (stream : BitVec 12) (tag : BitVec 128) (tagOk : Bool) (s : State) :
    Out.Kept s (execSlMessageCommit port stream tag tagOk s) := by
  have hs := Keeps.refl s
  refine event_keeps ?_
  dsimp only
  split
  · exact hs
  split
  · exact .of_kept_eq (by simp) hs
  · refine Keeps.ite (fun _ => ?_) fun _ => ?_
    · split
      · split
        · exact .of_kept_eq (by simp) hs
        · exact hs
      · exact hs
    · split
      · exact Keeps.ite (fun _ => hs) fun _ => applyMsg_keeps _ _ _ (.of_kept_eq (by simp) hs)
      · exact .of_kept_eq (by simp) hs
  · exact .of_kept_eq (by simp) hs

theorem collectiveChunkRx_keeps (port : Fin 12) (slot : BitVec 8) (binding : BitVec 12) (patch : BitVec 40) (ch : Chunk) (onward : List (Fin 12)) (s : State) :
    Out.Kept s (execCollectiveChunkRx port slot binding patch ch onward s) := by
  refine event_keeps ?_
  dsimp only
  repeat' first
    | (simp; done)
    | with_reducible assumption
    | split
    | with_reducible apply writePatch_keeps
    | simp

theorem lockerEntryRead_keeps (slot : BitVec 8) (die : Fin 4) (tensor : BitVec 32) (unit : BitVec 24) (mb : BitVec 8) (readable : Bool) (s : State) :
    Out.Kept s (execLockerEntryRead slot die tensor unit mb readable s) := by
  have hs := Keeps.refl s
  refine event_keeps ?_
  dsimp only
  split
  · exact violate_keeps _ _ _ _ _ hs
  · refine Keeps.ite (fun _ => violate_keeps _ _ _ _ _ hs) fun _ => Keeps.ite (fun _ => hs) fun _ => Keeps.ite (fun _ => .of_kept_eq (by simp) hs) fun _ => ?_
    have hout (l : List LkrEntry) (e : LkrEntry) : Keeps s (({ s with lkr.entries := l } : State).handOut e) := handOut_keeps _ _ hs
    exact Keeps.ite (fun _ => hout _ _) fun _ => .of_kept_eq (State_count_kept ..) (hout _ _)

theorem feedLost_keeps (b : Bool) (vin : BitVec 16) (s : State) : Out.Kept s (execFeedLost b vin s) := by
  have hset (f : Feed) : Keeps s (s.setFeed b f) := .of_kept_eq (by simp) (Keeps.refl s)
  exact next_keeps (Keeps.ite (fun _ => Keeps.ite (fun _ => hset _) fun _ => unfed_keeps _ (hset _)) fun _ => Keeps.refl s)

theorem bothFeedsLost_keeps (s : State) : Out.Kept s (execBothFeedsLost s) := next_keeps (unfed_keeps _ (Keeps.refl s))

theorem pwrEnNegate_keeps (s : State) : Out.Kept s (execPwrEnNegate s) := by
  have hs := Keeps.refl s
  refine next_keeps ?_
  split
  · exact Keeps.ite (fun _ => lose_keeps _ _ hs) fun _ => allOff_keeps _ hs
  · exact allOff_keeps _ hs
  · exact hs

theorem resetNAssert_keeps (s : State) : Out.Kept s (execResetNAssert s) := next_keeps (moduleReset_keeps _ (Keeps.refl s))

theorem thermalTrip_keeps (rinkTj hubTj stackTj nearTj tOut : BitVec 8) (s : State) :
    Out.Kept s (execThermalTrip rinkTj hubTj stackTj nearTj tOut s) :=
  next_keeps (Keeps.ite (fun _ => lose_keeps s .tripped (Keeps.refl s)) fun _ => Keeps.refl s)

theorem railStartTimeout_keeps (rail : Rail) (s : State) : Out.Kept s (execRailStartTimeout rail s) := by
  refine next_keeps ?_
  split
  · exact Keeps.ite (fun _ => allOff_keeps s (Keeps.refl s)) fun _ => Keeps.refl s
  · exact Keeps.refl s

theorem railRegulationLoss_keeps (rail : Rail) (s : State) : Out.Kept s (execRailRegulationLoss rail s) := by
  refine next_keeps ?_
  split
  · exact Keeps.ite (fun _ => allOff_keeps s (Keeps.refl s)) fun _ => lose_keeps s .holdup (Keeps.refl s)
  · exact Keeps.refl s

theorem holdupExpiry_keeps (s : State) : Out.Kept s (execHoldupExpiry s) := by
  refine next_keeps ?_
  split
  · exact allOff_keeps s (Keeps.refl s)
  · exact Keeps.ite (fun _ => Keeps.refl s) fun _ => allOff_keeps s (Keeps.refl s)
  · exact Keeps.refl s

theorem tripLatchClear_keeps (s : State) : Out.Kept s (execTripLatchClear s) :=
  next_keeps (Keeps.ite (fun _ => allOff_keeps s (Keeps.refl s)) fun _ => Keeps.refl s)

theorem reset_keeps (c : Hdr) (force : Bool) (s : State) : Out.Kept s (execReset c force s) :=
  command_keeps fun t _ hk => Keeps.ite (fun _ => reply_keeps _ _ hk) fun _ => Keeps.ite (fun _ => reply_keeps _ _ hk) fun _ =>
    moduleReset_keeps t.shutdown (shutdown_keeps t hk)

theorem trialBootTimeout_keeps (s : State) : Out.Kept s (execTrialBootTimeout s) :=
  event_keeps (Keeps.ite (fun _ => moduleReset_keeps s (Keeps.refl s)) fun _ => Keeps.refl s)

theorem logFlushTimer_keeps (s : State) : Out.Kept s (execLogFlushTimer s) :=
  event_keeps (Keeps.ite (fun _ => flushLog_keeps s (Keeps.refl s)) fun _ => Keeps.refl s)

theorem stepCommit_keeps (slot : BitVec 8) (s : State) : Out.Kept s (execStepCommit slot s) := by
  have hs := Keeps.refl s
  refine event_keeps ?_
  dsimp only
  split
  · refine Keeps.ite (fun _ => hs) fun _ => ?_
    split
    · refine .of_kept_eq (State_startOrder_kept ..) (.of_kept_eq (State_flipKey_kept ..) (secureAt_keeps _ _ _ _ _ ?_))
      exact .of_kept_eq (by simp) hs
    · exact .of_kept_eq (by simp) hs
  · exact hs

/-! ## Every row -/

theorem exec_keeps (i : Instr) (s : State) : Out.Kept s (exec i s) := by
  cases i
  all_goals simp only [exec, moveRows_keep s, liftRows_keep s, gateRows_keep s, holdRows_keep s, carveRows_keep s, sequencerRows_keep s,
    arrayRows_keep s, recordRows_keep s, intakeRows_keep s, bootRows_keep s, reductionRows_keep s, rinkRows_keep s, tierRows_keep s, lodgeRows_keep
    s, updateRows_keep s, securingRows_keep s, bibRows_keep s, photoFinishRows_keep s, linkRows_keep s, frameRows_keep s, jobRows_keep s,
    loadRows_keep s, powerRows_keep s, vcoreRows_keep s, registerRows_keep s, testRows_keep s, rcReadRows_keep s, tickRows_keep s, verdictRows_keep
    s, scaleRows_keep s, moveDataDone_keeps, pageMove_keeps, limit_keeps, run_keeps, cancel_keeps, bootImagesVerified_keeps, fwStage_keeps,
    useFinish_keeps, stackVerifyScrub_keeps, baseW40Add_keeps, baseGatherScatter_keeps, baseZeroFill_keeps, slotBCommit_keeps,
    forerunnerEntryStep_keeps, spreadPath_keeps, scrubPagesDone_keeps, slMessageCommit_keeps, collectiveChunkRx_keeps, unload_keeps, freeze_keeps,
    consts_keeps, lockerEntryRead_keeps, feedLost_keeps, bothFeedsLost_keeps, pwrEnNegate_keeps, resetNAssert_keeps, thermalTrip_keeps, reset_keeps,
    stepCommit_keeps, railStartTimeout_keeps, railRegulationLoss_keeps, holdupExpiry_keeps, tripLatchClear_keeps, logFlushTimer_keeps,
    stackDieMark_keeps, trialBootTimeout_keeps, translationWalkDone_keeps, headerOperation_keeps, lockerEntryWrite_keeps, stepEndToken_keeps,
    svnAdvance_keeps, hopTransfer_keeps, commandBlockRead_keeps, ethDatagramRx_keeps, hostBlockRx_keeps, bootMemoryZeroed_keeps,
    carveClearDone_keeps, drainRound_keeps, postunitAccept_keeps, longSumAdd_keeps, put_keeps, get_keeps, object_keeps, mxConvert_keeps,
    useStart_keeps, map_keeps, recoveryResume_keeps, pageInRequest_keeps, cellFire_keeps]

/-- Settles O60: what every row keeps holds of the queue and the minimum. -/
theorem commandsAnswerAndNeverLowerTheMinimum : Obligations.CommandsAnswerAndNeverLowerTheMinimum := by
  intro i s
  obtain ⟨t, ht, hpending, hsvn, -⟩ := exec_keeps i s
  exact ⟨t, ht, hpending, hsvn⟩

/-- Settles O57: by the definition of a step. -/
theorem stepRunsTheFrontOfTheQueue : Obligations.StepRunsTheFrontOfTheQueue := by
  refine ⟨fun s i rest h => ?_, fun s h => ?_⟩ <;> rw [step, h]

/-- Settles O59: an idle step changes nothing, and a row keeps canonical memory canonical. -/
theorem everyStepKeepsMemoryCanonical : Obligations.EveryStepKeepsMemoryCanonical := by
  intro s t hwf hstep
  cases hp : s.pending with
  | nil =>
    rw [stepRunsTheFrontOfTheQueue.2 s hp] at hstep
    cases hstep
    exact hwf
  | cons i rest =>
    obtain ⟨u, hu, -, -, hmem⟩ := exec_keeps i { s with pending := rest }
    rw [stepRunsTheFrontOfTheQueue.1 s i rest hp, hu] at hstep
    cases hstep
    exact hmem hwf

end Machine
end Sys2Proof

/-! SUPPORT. Feeds, the power-on sequence and the loss of rails (chapter 18): each row by the stage of the sequence it acts in. -/

namespace Sys2Proof
namespace Machine

theorem fed_setFeed_of_other {s : State} {b : Bool} (h : (s.feed (!b)).present = true) (f : Feed) : (s.setFeed b f).fed = true := by
  cases b <;> simp_all [State.setFeed, State.feed, State.fed]

theorem unfed_of_good {s : State} (h : s.pwr.stage = .good) : s.unfed = s.lose .holdup := by
  simp only [State.unfed, h]

/-- Settles O1, row by row. -/
theorem feedAndPowerSequenceRows : Obligations.FeedAndPowerSequenceRows := by
  refine ⟨fun s b vin h => ?present, fun s b vin h ho => ?lost, fun s h => ?both, fun s low h1 h2 h3 h4 => ?start,
    fun s low h => ?early, fun s ca ra cb rb h => ?vaux, fun s a b h => ?vphy, fun s a b h => ?vdram, fun s a b h => ?vcore,
    fun s us h1 h2 => ?release, fun s us h => ?soon, fun s r h => ?late, fun s r h hr => ?loss, fun s h hr => ?running,
    fun s h hr => ?inReset, fun s h => ?expiry, fun s a b c d e h hot => ?trip, fun s h he => ?clear, fun s => ?reset, fun s => rfl⟩
  case present => simp [exec, execFeedPresent, h]
  case lost => simp [exec, execFeedLost, h, fed_setFeed_of_other ho]
  case both =>
    refine ⟨_, rfl, ?_⟩
    rw [unfed_of_good (by exact h)]
    exact ⟨rfl, rfl, rfl, rfl, rfl, rfl, rfl, rfl, rfl, rfl⟩
  case start => simp [exec, execPwrEnAssert, h1, h2, h3, h4]
  case early => simp [exec, execPwrEnAssert, Nat.not_le.mpr h]
  case vaux =>
    simp only [Answers, exec, execRailInRegulation, h]
    exact ⟨_, rfl, rfl, rfl, rfl, rfl, rfl, rfl, by simp [Feed.identify], rfl⟩
  case vphy => simp [exec, execRailInRegulation, h]
  case vdram => simp [exec, execRailInRegulation, h]
  case vcore => simp [exec, execRailInRegulation, h]
  case release => simp [exec, execResetNNegate, h1, h2]
  case soon => simp [exec, execResetNNegate, Nat.not_le.mpr h]
  case late => exact ⟨s.allOff, by simp [exec, execRailStartTimeout, h], rfl, rfl, rfl, rfl⟩
  case loss => exact ⟨s.lose .holdup, by simp [exec, execRailRegulationLoss, h, hr], rfl, rfl, rfl, rfl⟩
  case running => exact ⟨({ s with pwr.pwrEn := false }).lose .holdup, by simp [exec, execPwrEnNegate, h, hr], rfl, rfl, rfl⟩
  case inReset => exact ⟨({ s with pwr.pwrEn := false }).allOff, by simp [exec, execPwrEnNegate, h, hr], rfl, rfl, rfl⟩
  case expiry => exact ⟨s.allOff, by simp [exec, execHoldupExpiry, h], rfl, rfl⟩
  case trip =>
    simp only [Answers, exec, execThermalTrip, h, hot]
    exact ⟨_, rfl, rfl, rfl, rfl⟩
  case clear => exact ⟨s.allOff, by simp [exec, execTripLatchClear, h, he], rfl, rfl⟩
  case reset => exact ⟨_, rfl, rfl, rfl, rfl, rfl, rfl, rfl, rfl, rfl, rfl, rfl, rfl, rfl⟩

end Machine
end Sys2Proof

/-! SUPPORT. How a row answers: an event with its effect, an accepted command with its effect on the state its packet has left, and a reply
as the newest on its path with nothing else changed. -/

namespace Sys2Proof

/-- The packet of a command, with its opcode. -/
abbrev Hdr.of (c : Hdr) (op : Nat) : Hdr := { c with opcode := BitVec.ofNat 16 op }

namespace Machine

/-- The state that a packet has left the intake of. -/
abbrev State.taken (s : State) (i : List Hdr) (e : Table Nat) : State := { s with cmd := { s.cmd with intake := i, ethUsed := e } }

theorem event_answers {s : State} (hup : s.up = true) {f : State → State} {P : State → Prop} (h : P (f s)) :
    ∃ t, s.event f = .next t ∧ P t :=
  ⟨_, event_of_up hup f, h⟩

theorem command_answers {s : State} {op : Nat} {c : Hdr} (ha : s.accepts op c) {k : State → Hdr → State} {P : State → Prop}
    (h : ∀ i e, P (k (s.taken i e) (c.of op))) : ∃ t, s.command op c k = .next t ∧ P t := by
  obtain ⟨i, e, hl⟩ := leaveIntake_eq s (c.of op)
  refine ⟨_, command_of_accepts ha k, ?_⟩
  rw [hl]
  exact h i e

/-- A reply is the newest on its path, and only what waits, has been sent and is kept on the paths changes. -/
theorem replyAs_answered_eq (s : State) (op : Nat) (c : Hdr) (st : Status) (fin : Bool) (ev : Nat) (r : Result) :
    ∃ o n k, s.replyAs (c.of op) st fin ev r = { s with cmd := { s.cmd with outbox := o, sent := n, kept := k } } ∧
      ({ s with cmd := { s.cmd with outbox := o, sent := n, kept := k } } : State).answered op c st fin r := by
  obtain ⟨o, n, k, h⟩ := replyAs_eq s (c.of op) st fin ev r
  refine ⟨o, n, k, h, ?_⟩
  rw [← h]
  exact ⟨_, replyAs_newest s (c.of op) st fin ev r, rfl, rfl, rfl, rfl, rfl, rfl, rfl⟩

/-- The state after replies have been formed: only what waits, has been sent and is kept on the paths differs. -/
abbrev State.replying (s : State) (o n : List Reply) (k : Table (List Reply)) : State :=
  { s with cmd := { s.cmd with outbox := o, sent := n, kept := k } }

/-- A command whose effect ends in its FINAL reply. -/
theorem command_replies {s : State} {op : Nat} {c : Hdr} (ha : s.accepts op c) {k : State → Hdr → State} {P : State → Prop}
    {u : List Hdr → Table Nat → State} {st : Status} (hk : ∀ i e, k (s.taken i e) (c.of op) = (u i e).reply (c.of op) st)
    (h : ∀ i e o n x, ((u i e).replying o n x).replied op c st → P ((u i e).replying o n x)) : ∃ t, s.command op c k = .next t ∧ P t := by
  refine command_answers ha fun i e => ?_
  obtain ⟨o, n, x, he, hr⟩ := replyAs_answered_eq (u i e) op c st true 0 .none
  rw [hk, State.reply, he]
  exact h i e o n x hr

/-- A command whose effect ends in ST_OK with a result. -/
theorem command_results {s : State} {op : Nat} {c : Hdr} (ha : s.accepts op c) {k : State → Hdr → State} {P : State → Prop}
    {u : List Hdr → Table Nat → State} {r : Result} (hk : ∀ i e, k (s.taken i e) (c.of op) = (u i e).replyWith (c.of op) r)
    (h : ∀ i e o n x, ((u i e).replying o n x).answered op c .ok true r → P ((u i e).replying o n x)) : ∃ t, s.command op c k = .next t ∧ P t := by
  refine command_answers ha fun i e => ?_
  obtain ⟨o, n, x, he, hr⟩ := replyAs_answered_eq (u i e) op c .ok true 0 r
  rw [hk, State.replyWith, he]
  exact h i e o n x hr

/-- A command that waits gets ST_DEFERRED (R341). -/
theorem command_defers {s : State} {op : Nat} {c : Hdr} (ha : s.accepts op c) {k : State → Hdr → State} {P : State → Prop}
    {u : List Hdr → Table Nat → State} {w : Waiting} (hk : ∀ i e, k (s.taken i e) (c.of op) = (u i e).defer (c.of op) w)
    (h : ∀ i e o n x, ((u i e).replying o n x).answered op c .deferred false .none →
      P { (u i e).replying o n x with cmd.waiting := (u i e).cmd.waiting ++ [(w, c.of op)] }) : ∃ t, s.command op c k = .next t ∧ P t := by
  refine command_answers ha fun i e => ?_
  obtain ⟨o, n, x, he, hr⟩ := replyAs_answered_eq (u i e) op c .deferred false 0 .none
  rw [hk, State.defer, he]
  exact h i e o n x hr

end Machine
end Sys2Proof

/-! SUPPORT. VCORE (Tables 2.3, 2.4, R34, R35): the set point in force never exceeds TARGET, and what a window of the beat monitors leaves. -/

namespace Sys2Proof
namespace Machine

/-! ## The set point in force -/

theorem atMost_le (v : Nat) (lim : Option (BitVec 8)) : atMost v lim ≤ v := by
  cases lim <;> simp [atMost]

theorem least_le_target (v : Vcore) : v.least ≤ v.target.toNat :=
  (atMost_le _ _).trans ((atMost_le _ _).trans ((atMost_le _ _).trans (min_le_left _ _)))

theorem settle_actual (v : Vcore) : v.settle.actual.toNat = v.least := by
  have h := (least_le_target v).trans_lt v.target.isLt
  simp [Vcore.settle, Nat.mod_eq_of_lt h]

theorem settle_actual_le (v : Vcore) : v.settle.actual.toNat ≤ v.target.toNat := by
  rw [settle_actual]; exact least_le_target v

theorem writeTarget_target (v : Vcore) (x : BitVec 8) : (v.writeTarget x).target.toNat = min x.toNat 0x30 := by
  simp only [Vcore.writeTarget, Vcore.settle]
  split_ifs with h
  · simp; omega
  · simp at h ⊢; omega

theorem writeTarget_actual_le (v : Vcore) (x : BitVec 8) : (v.writeTarget x).actual.toNat ≤ (v.writeTarget x).target.toNat :=
  settle_actual_le _

theorem writeTarget_mons (v : Vcore) (x : BitVec 8) : (v.writeTarget x).mons = v.mons := rfl

theorem writeTarget_rail (v : Vcore) (x : BitVec 8) : (v.writeTarget x).rail = v.rail := rfl

/-! ## Windows -/

theorem driveAlert_eq (s : State) : ∃ b, s.driveAlert = { s with pwr.thermAlertN := b } := by
  unfold State.driveAlert
  dsimp only
  split_ifs
  exacts [⟨_, rfl⟩, ⟨_, rfl⟩, ⟨s.pwr.thermAlertN, rfl⟩]

theorem monsAfter_read_lt {k j : Nat} (h : j < k) (rs : List (BitVec 16)) (ts : List (BitVec 8)) (m : Table BeatMon) :
    (monsAfter k rs ts m).read {} j = m.read {} j := by
  induction rs generalizing k ts m with
  | nil => rfl
  | cons r rs ih =>
    cases ts with
    | nil => rfl
    | cons t ts => exact (ih (Nat.lt_succ_of_lt h) _ _).trans (Table.read_write_ne _ _ h.ne' _)

theorem monsAfter_read {k i : Nat} {rs : List (BitVec 16)} {ts : List (BitVec 8)} (hr : i < rs.length) (ht : i < ts.length) (m : Table BeatMon) :
    (monsAfter k rs ts m).read {} (k + i) = (m.read {} (k + i)).window (rs.getD i 0) (ts.getD i 0) := by
  induction rs generalizing k i ts m with
  | nil => cases hr
  | cons r rs ih =>
    cases ts with
    | nil => cases ht
    | cons t ts =>
      cases i with
      | zero => exact (monsAfter_read_lt (Nat.lt_succ_self k) _ _ _).trans (Table.read_write_self _ _ _ _)
      | succ i =>
        have hne : k ≠ k + 1 + i := by omega
        have h := ih (k := k + 1) (Nat.lt_of_succ_lt_succ hr) (Nat.lt_of_succ_lt_succ ht) (m.write {} k ((m.read {} k).window r t))
        rw [Table.read_write_ne _ _ hne] at h
        rw [show k + (i + 1) = k + 1 + i by omega]
        exact h

theorem toNat_ite_lt_eq_max {w : Nat} (a b : BitVec w) : (if a.toNat < b.toNat then b else a).toNat = max a.toNat b.toNat := by
  split_ifs <;> omega

theorem toNat_ite_lt_eq_min {w : Nat} (a b : BitVec w) : (if b.toNat < a.toNat then b else a).toNat = min a.toNat b.toNat := by
  split_ifs <;> omega

theorem raiseHold_eq (s : State) (c n : Nat) : ∃ h x l, s.raiseHold c n = { s with crs.holds := h, ctr := x, log := l } := by
  unfold State.raiseHold
  dsimp only
  split_ifs
  · obtain ⟨x, l, h⟩ := count_eq (s.setHold c { s.hold c with cause := (s.hold c).cause ||| causeBit n }) 0x0807 c 1
    exact ⟨_, x, l, h⟩
  · exact ⟨_, s.ctr, s.log, rfl⟩

theorem each_raiseHold_eq (s : State) (l : List Nat) (n : Nat) :
    ∃ h x g, s.each l (fun w c => w.raiseHold c n) = { s with crs.holds := h, ctr := x, log := g } := by
  induction l generalizing s with
  | nil => exact ⟨s.crs.holds, s.ctr, s.log, rfl⟩
  | cons c l ih =>
    obtain ⟨h, x, g, he⟩ := raiseHold_eq s c n
    obtain ⟨h', x', g', he'⟩ := ih (s.raiseHold c n)
    exact ⟨h', x', g', he'.trans (by rw [he])⟩

theorem loop_mons (v : Vcore) (tj : Nat) : (v.loop tj).mons = v.mons := by
  unfold Vcore.loop
  split_ifs <;> rfl

theorem feedCurrent_mons (v : Vcore) (pin a b : Nat) : (v.feedCurrent pin a b).mons = v.mons := by
  unfold Vcore.feedCurrent
  split_ifs <;> rfl

theorem chassis_mons (v : Vcore) (a : Bool) : (v.chassis a).mons = v.mons := by
  unfold Vcore.chassis
  split_ifs <;> rfl

theorem ceilingStep_mons (v : Vcore) (l : List (BitVec 16)) (c : BitVec 8) : (v.ceilingStep l c).mons = v.mons := by
  unfold Vcore.ceilingStep
  split_ifs <;> rfl

theorem window_mons (v : Vcore) (r : Readings) (a : Bool) : (v.window r a).mons = v.mons :=
  (ceilingStep_mons _ _ _).trans ((chassis_mons _ _).trans ((feedCurrent_mons _ _ _ _).trans (loop_mons _ _)))

/-- What BEAT_MONITOR_WINDOW leaves: the readings stand in VCORE's and the power registers, and under hold duty holds, counters and the
log move besides. -/
theorem beatMonitorWindow_eq (s : State) (r : Readings) (hup : s.up = true) :
    ∃ b h x l p, let v := { (s.readings r).vc.window r s.pwr.chassisAlertN with piece := p }
      exec (.beatMonitorWindow r) s = .next { s.readings r with vc := v, pwr.thermAlertN := b, crs.holds := h, ctr := x, log := l }
        ∧ (v.duty = 0 → h = s.crs.holds ∧ x = s.ctr ∧ l = s.log) ∧ (v.duty ≠ 0 → p = some (10 * v.duty)) := by
  obtain ⟨b, hb⟩ := driveAlert_eq (s.readings r)
  have hexec : execBeatMonitorWindow r s = _ := event_of_up hup _
  simp only [hb] at hexec
  split_ifs at hexec with hd
  · exact ⟨b, s.crs.holds, s.ctr, s.log, _, hexec, fun _ => ⟨rfl, rfl, rfl⟩, fun h => absurd hd h⟩
  · obtain ⟨h, x, l, he⟩ := each_raiseHold_eq _ _ 4
    rw [he] at hexec
    exact ⟨b, h, x, l, _, hexec, fun h => absurd h hd, fun _ => rfl⟩

/-- Settles O2: `settle` bounds ACTUAL by TARGET, and a window only fills registers of VCORE and power. -/
theorem vcoreAndWindowRows : Obligations.VcoreAndWindowRows := by
  simp only [Obligations.VcoreAndWindowRows, Answers, exec]
  refine ⟨fun s x hup => ?write, fun s c x ha => ?command, fun s hup h => ?up, fun s hup h => ?down, fun s level => ?alert,
    fun s r hup hr ht => ?window⟩
  case write =>
    refine event_answers hup ?_
    exact ⟨writeTarget_target _ _, writeTarget_actual_le _ _, rfl, rfl, rfl⟩
  case command =>
    refine command_replies ha (fun _ _ => rfl) fun i e o n k hrep => ?_
    exact ⟨writeTarget_target _ _, writeTarget_actual_le _ _, hrep, rfl⟩
  case up =>
    refine event_answers hup ?_
    refine ⟨?_, rfl⟩
    have hlt := s.vc.settle.actual.isLt
    have hrail : s.vc.settle.rail.toNat < s.vc.settle.actual.toNat := h
    dsimp only
    rw [if_pos hrail, BitVec.toNat_add_of_lt (by simpa using by omega)]
    rfl
  case down =>
    refine event_answers hup ?_
    refine ⟨?_, rfl⟩
    have hrail : s.vc.settle.actual.toNat < s.vc.settle.rail.toNat := h
    dsimp only
    rw [if_neg hrail.not_gt, if_pos hrail]
    exact BitVec.toNat_sub_of_le (BitVec.le_def.mpr (by simpa using by omega))
  case alert =>
    obtain ⟨b, hb⟩ := driveAlert_eq { s with pwr.chassisAlertN := level, vc := s.vc.settle }
    exact ⟨_, rfl, by rw [hb]; exact ⟨rfl, rfl, rfl⟩⟩
  case window =>
    obtain ⟨b, h, x, l, p, hexec, hzero, hduty⟩ := beatMonitorWindow_eq s r hup
    have hmons : ∀ p, ({ (s.readings r).vc.window r s.pwr.chassisAlertN with piece := p } : Vcore).mons = monsAfter 0 r.rate r.tj s.vc.mons :=
      fun p => window_mons _ _ _
    refine ⟨_, hexec, fun k hk => ?_, rfl, toNat_ite_lt_eq_max _ _, rfl, toNat_ite_lt_eq_max _ _, fun hd => ?_, hduty⟩
    · have hk' := monsAfter_read (k := 0) (i := k) (by omega : k < r.rate.length) (by omega : k < r.tj.length) s.vc.mons
      rw [Nat.zero_add] at hk'
      rw [hmons, hk']
      exact ⟨rfl, rfl, toNat_ite_lt_eq_min _ _⟩
    · obtain ⟨rfl, rfl, rfl⟩ := hzero hd
      rfl

end Machine
end Sys2Proof

/-! SUPPORT. Registers by their offset: which row of Table 0.4's access codes an offset meets (O4, O5). -/

namespace Sys2Proof
namespace Machine

theorem regIndex_at {base stride n k : Nat} (hs : 0 < stride) (hk : k < n) : regIndex base stride n (base + stride * k) = some k := by
  have hdiv : stride * k / stride = k := Nat.mul_div_cancel_left k hs
  simp [regIndex, hdiv, hk]

theorem regIndex_below {base stride n off : Nat} (h : off < base) : regIndex base stride n off = none := by
  rw [regIndex, if_neg]; omega

theorem regIndex_above {base stride n off : Nat} (hs : 0 < stride) (h : base + n * stride ≤ off) : regIndex base stride n off = none := by
  have hle : n ≤ (off - base) / stride := (Nat.le_div_iff_mul_le hs).mpr (by omega)
  rw [regIndex, if_neg]; omega

theorem toNat_offset {base stride k : Nat} (h : base + stride * k < 2 ^ 32) : (BitVec.ofNat 32 (base + stride * k)).toNat = base + stride * k := by
  simp; omega

/-! ## Causes of a hold -/

theorem getLsbD_causeBit_self {n : Nat} (hn : n < 8) : (causeBit n).getLsbD n = true := by
  rw [causeBit, BitVec.getLsbD_ofNat, Nat.testBit_two_pow_self]; simpa using hn

theorem raiseHold_holds (s : State) (c n : Nat) :
    (s.raiseHold c n).crs.holds = (s.setHold c { s.hold c with cause := (s.hold c).cause ||| causeBit n }).crs.holds := by
  unfold State.raiseHold
  dsimp only
  split_ifs
  · obtain ⟨x, l, h⟩ := count_eq (s.setHold c { s.hold c with cause := (s.hold c).cause ||| causeBit n }) 0x0807 c 1
    rw [h]
  · rfl

theorem raiseHold_hold_self (s : State) (c n : Nat) :
    (s.raiseHold c n).hold c = { s.hold c with cause := (s.hold c).cause ||| causeBit n } := by
  rw [State.hold, raiseHold_holds]
  exact Table.read_write_self _ _ _ _

/-- The record that HOLD_STAT holds once cause `n` has cleared. -/
def Hold.clear (h : Hold) (n : Nat) : Hold :=
  if h.cause &&& ~~~ causeBit n = 0 then { h with cause := 0, current := 0, stopped := false, drained := false, marked := false }
  else { h with cause := h.cause &&& ~~~ causeBit n }

theorem Hold.clear_cause (h : Hold) (n : Nat) : (h.clear n).cause = h.cause &&& ~~~ causeBit n := by
  unfold Hold.clear
  split_ifs with h0
  · exact h0.symm
  · rfl

theorem Hold.clear_limit (h : Hold) (n : Nat) : (h.clear n).limit = h.limit := by unfold Hold.clear; split_ifs <;> rfl

theorem Hold.clear_pause (h : Hold) (n : Nat) : (h.clear n).pause = h.pause := by unfold Hold.clear; split_ifs <;> rfl

theorem Hold.clear_getLsbD_self (h : Hold) {n : Nat} (hn : n < 8) : (h.clear n).cause.getLsbD n = false := by
  rw [h.clear_cause, BitVec.getLsbD_and, BitVec.getLsbD_not, getLsbD_causeBit_self hn]; simp

theorem clearHold_eq (s : State) (c n : Nat) : s.clearHold c n = s.setHold c ((s.hold c).clear n) := by
  unfold State.clearHold Hold.clear
  dsimp only
  split_ifs <;> rfl

theorem hold_setHold_self (s : State) (c : Nat) (h : Hold) : (s.setHold c h).hold c = h := Table.read_write_self _ _ _ _

/-- A write of PAUSE moves the hold of its slot, and the counter of holds with the cause it raises; LIMIT stands. -/
theorem writePause_eq (s : State) (c : Nat) (on : Bool) : ∃ h x l, s.writePause c on = { s with crs.holds := h, ctr := x, log := l } ∧
    ((s.writePause c on).hold c).limit = (s.hold c).limit ∧ ((s.writePause c on).hold c).pause = on := by
  unfold State.writePause
  dsimp only
  split
  · split_ifs
    · obtain ⟨h, x, l, he⟩ := raiseHold_eq (s.setHold c { s.hold c with pause := on }) c 3
      exact ⟨h, x, l, he, by rw [raiseHold_hold_self, hold_setHold_self], by rw [raiseHold_hold_self, hold_setHold_self]⟩
    · exact ⟨_, s.ctr, s.log, rfl, by rw [hold_setHold_self], by rw [hold_setHold_self]⟩
    · rw [clearHold_eq, hold_setHold_self, hold_setHold_self]
      exact ⟨_, s.ctr, s.log, rfl, Hold.clear_limit _ _, Hold.clear_pause _ _⟩
    · exact ⟨_, s.ctr, s.log, rfl, by rw [hold_setHold_self], by rw [hold_setHold_self]⟩
  · exact ⟨_, s.ctr, s.log, rfl, by rw [hold_setHold_self], by rw [hold_setHold_self]⟩

/-! ## REGISTER_WRITE -/

theorem stn_setStn_self (s : State) (p : Nat) (r : Stn) : (s.setStn p r).stn p = r := Table.read_write_self _ _ _ _

theorem writeRegister_stnCtl (s : State) (v : BitVec 128) {p : Nat} (hp : p < 104) : s.writeRegister (0x200 + 0x20 * p) v = s.writeStnCtl p v := by
  rw [State.writeRegister, if_neg (by omega), if_neg (by omega), if_neg (by omega), regIndex_at (by omega) hp]

theorem writeRegister_holdStat (s : State) (v : BitVec 128) {c : Nat} (hc : c < 256) : s.writeRegister (0x2000 + 8 * c) v = s.writeHoldStat c v := by
  rw [State.writeRegister, if_neg (by omega), if_neg (by omega), if_neg (by omega), regIndex_above (by omega) (by omega)
    , regIndex_at (by omega) hc]

theorem writeRegister_stkEcc (s : State) (v : BitVec 128) {i : Nat} (hi : i < 8) : s.writeRegister (0x3040 + 8 * i) v = s.writeStkEcc i v := by
  rw [State.writeRegister, if_neg (by omega), if_neg (by omega), if_neg (by omega), regIndex_above (by omega) (by omega)
    , regIndex_above (by omega) (by omega), regIndex_at (by omega) hi]

theorem writeRegister_feed (s : State) (v : BitVec 128) {f : Nat} (hf : f < 2) : s.writeRegister (0x7300 + 8 * f) v = s.writeFeedReg f v := by
  rw [State.writeRegister, if_neg (by omega), if_neg (by omega), if_neg (by omega), regIndex_above (by omega) (by omega)
    , regIndex_above (by omega) (by omega), regIndex_above (by omega) (by omega), regIndex_above (by omega) (by omega)
    , regIndex_above (by omega) (by omega), regIndex_above (by omega) (by omega), regIndex_at (by omega) hf]

theorem writeRegister_beyond (s : State) (v : BitVec 128) {off : Nat} (h : 0x20000 ≤ off) : s.writeRegister off v = s := by
  rw [State.writeRegister, if_neg (by omega), if_neg (by omega), if_neg (by omega), regIndex_above (by omega) (by omega)
    , regIndex_above (by omega) (by omega), regIndex_above (by omega) (by omega), regIndex_above (by omega) (by omega)
    , regIndex_above (by omega) (by omega), regIndex_above (by omega) (by omega), regIndex_above (by omega) (by omega)
    , regIndex_above (by omega) (by omega)]

/-- An event that leaves the state as it is changes nothing, whether the module is up or not. -/
theorem event_idle (s : State) {f : State → State} (h : f s = s) : s.event f = .next s := by
  cases hup : s.up
  · exact event_of_down hup f
  · rw [event_of_up hup, h]

/-- Settles O4: each offset meets one row of registers, whose write goes by its access codes. -/
theorem registerWriteFollowsAccessCodes : Obligations.RegisterWriteFollowsAccessCodes := by
  simp only [Obligations.RegisterWriteFollowsAccessCodes, Answers, exec]
  refine ⟨fun s v hup => event_of_up hup _, fun s v p hup hp => ?stnCtl, fun s v c hup hc => ?holdStat, fun s v i hup hi => ?stkEcc,
    fun s v b hup => ?feed, fun s v off hoff => event_idle s (writeRegister_beyond s v hoff)⟩
  case stnCtl =>
    refine event_answers hup ?_
    rw [toNat_offset (by omega), writeRegister_stnCtl s v hp, State.writeStnCtl, State.writeWithdraw, stn_setStn_self, stn_setStn_self]
    refine ⟨rfl, rfl, rfl, rfl, rfl, fun q hq => ?_, rfl⟩
    exact (Table.read_write_ne _ _ hq.symm _).trans (Table.read_write_ne _ _ hq.symm _)
  case holdStat =>
    refine event_answers hup ?_
    rw [toNat_offset (by omega), writeRegister_holdStat s v hc, State.writeHoldStat]
    obtain ⟨h, x, l, he, hlim, hpause⟩ :=
      writePause_eq (s.setHold c { s.hold c with limit := if v.extractLsb' 32 16 = 0 then 1 else v.extractLsb' 32 16 }) c (v.getLsbD 63)
    refine ⟨hlim.trans (by rw [hold_setHold_self]), hpause, ?_⟩
    rw [he]
    exact ⟨rfl, rfl⟩
  case stkEcc =>
    refine event_answers hup ?_
    rw [toNat_offset (by omega), writeRegister_stkEcc s v hi, State.writeStkEcc]
    have hself : (s.setStack i { s.stack i with second := w1c (s.stack i).second (v.getLsbD 50) }).stack i
      = { s.stack i with second := w1c (s.stack i).second (v.getLsbD 50) } := Table.read_write_self _ _ _ _
    rw [hself]
    exact ⟨rfl, rfl, rfl, rfl⟩
  case feed =>
    have hoff : (if b = true then 0x7308 else 0x7300 : BitVec 32).toNat = 0x7300 + 8 * b.toNat := by cases b <;> rfl
    have hfeed : decide (b.toNat = 1) = b := by cases b <;> rfl
    refine event_answers hup ?_
    rw [hoff, writeRegister_feed s v b.toNat_lt, State.writeFeedReg, hfeed]
    rfl

end Machine
end Sys2Proof

/-! SUPPORT. Reads of the service register block and Zilunzor's writes of single fields (O5). -/

namespace Sys2Proof
namespace Machine

theorem readRegister_beatMon (s : State) {k : Nat} (hk : k < 4) : s.readRegister (0x10 + 8 * k) = some (BeatMon.word (s.vc.mons.read {} k)) := by
  rw [State.readRegister, if_neg (by omega), if_neg (by omega), if_neg (by omega), if_neg (by omega), if_neg (by omega), if_neg (by omega)
    , if_neg (by omega), if_neg (by omega)]
  dsimp only
  simp only [List.findSome?_cons]
  rw [regIndex_at (by omega) hk]
  rfl

theorem readRegister_stn (s : State) {p : Nat} (hp : p < 104) : s.readRegister (0x200 + 0x20 * p) = some (Stn.word (s.stn p)) := by
  rw [State.readRegister, if_neg (by omega), if_neg (by omega), if_neg (by omega), if_neg (by omega), if_neg (by omega), if_neg (by omega)
    , if_neg (by omega), if_neg (by omega)]
  dsimp only
  simp only [List.findSome?_cons]
  rw [regIndex_above (by omega) (by omega), regIndex_above (by omega) (by omega), regIndex_at (by omega) hp]
  rfl

theorem readRegister_near (s : State) {d : Nat} (hd : d < 4) : s.readRegister (0x3000 + 8 * d) = some (NearTier.word (s.near d)) := by
  rw [State.readRegister, if_neg (by omega), if_neg (by omega), if_neg (by omega), if_neg (by omega), if_neg (by omega), if_neg (by omega)
    , if_neg (by omega), if_neg (by omega)]
  dsimp only
  simp only [List.findSome?_cons]
  rw [regIndex_above (by omega) (by omega), regIndex_above (by omega) (by omega), regIndex_above (by omega) (by omega)
    , regIndex_above (by omega) (by omega), regIndex_above (by omega) (by omega), regIndex_above (by omega) (by omega)
    , regIndex_above (by omega) (by omega), regIndex_at (by omega) hd]
  rfl

theorem readRegister_beyond (s : State) {off : Nat} (h : 0x20000 ≤ off) : s.readRegister off = none := by
  rw [State.readRegister, if_neg (by omega), if_neg (by omega), if_neg (by omega), if_neg (by omega), if_neg (by omega), if_neg (by omega)
    , if_neg (by omega), if_neg (by omega)]
  dsimp only
  simp (disch := omega) only [List.findSome?_cons, List.findSome?_nil, regIndex_above, Option.map_none]

theorem readRegister_rinkCfg (s : State) : s.readRegister 0x100 = some (RinkCfg.word s.rink.cfg) := rfl

theorem readRegister_modPwr (s : State) : s.readRegister 0x7310 = some (ModPwr.word s.pwr.modPwr) := rfl

theorem afterRead_beatMon (s : State) {k : Nat} (hk : k < 4) :
    s.afterRead (0x10 + 8 * k) = { s with vc.mons := s.vc.mons.write {} k { s.vc.mons.read {} k with rateMin := 0xFFFF } } := by
  rw [State.afterRead, regIndex_at (by omega) hk]

theorem afterRead_near (s : State) {d : Nat} (hd : d < 4) : s.afterRead (0x3000 + 8 * d) = s.setNear d { s.near d with tjMax := 0 } := by
  rw [State.afterRead, regIndex_above (by omega) (by omega), regIndex_at (by omega) hd]

theorem afterRead_modPwr (s : State) : s.afterRead 0x7310 = { s with pwr.modPwr.pinMax := 0 } := by
  rw [State.afterRead, regIndex_above (by omega) (by omega), regIndex_above (by omega) (by omega), regIndex_above (by omega) (by omega)]
  rfl

theorem afterRead_below (s : State) {off : Nat} (h0 : 0x30 ≤ off) (h : off < 0x3000) : s.afterRead off = s := by
  rw [State.afterRead, regIndex_above (by omega) (by omega), regIndex_below (by omega), regIndex_below (by omega)]
  exact if_neg (by omega)

/-- RC_FIELD_READ at an offset with a register. -/
theorem rcFieldRead_of_readRegister {s : State} (hup : s.up = true) {off : BitVec 32} {n : Nat} (hoff : off.toNat = n) {w : BitVec 128}
    (h : s.readRegister n = some w) : execRcFieldRead off s = .next { s.afterRead n with cmd.readBack := w } := by
  subst hoff
  refine (event_of_up hup _).trans ?_
  rw [h]

/-- A write of a scale record takes the rw fields, keeps the scale and raises h to its base at least. -/
theorem take_eq (x : ScaleRec) (v : ScaleWrite) : (x.take v).hBase = v.hBase ∧ (x.take v).srate = v.srate ∧ (x.take v).sweep = v.sweep
    ∧ (x.take v).policy = v.policy ∧ (x.take v).fmt = v.fmt ∧ (x.take v).scale = x.scale
    ∧ (x.take v).h.toNat = max x.h.toNat v.hBase.toNat := by
  simp only [ScaleRec.take]
  split_ifs with hlt
  · exact ⟨rfl, rfl, rfl, rfl, rfl, rfl, (max_eq_right hlt.le).symm⟩
  · exact ⟨rfl, rfl, rfl, rfl, rfl, rfl, (max_eq_left (not_lt.mp hlt)).symm⟩

/-- Settles O5: the word of a register stands at its offset, and each field's write goes to its register. -/
theorem rcFieldReadAndFieldWriteRows : Obligations.RcFieldReadAndFieldWriteRows := by
  simp only [Obligations.RcFieldReadAndFieldWriteRows, Answers, exec]
  refine ⟨fun s k hup hk => ?beatMon, fun s d hup hd => ?near, fun s hup => ?modPwr, fun s hup => ?rinkCfg, fun s p hup hp => ?stn,
    fun s off hoff => ?beyond, fun s cfg hup h0 h5 => ?request, fun s cfg hup h => ?reject, fun s p on hup => event_of_up hup _,
    fun s c d hup hd hrun => ?pause, fun s c hup hd => ?unpause, fun s hup hb hs => ?start, fun s c k x hup hk => ?clip,
    fun s c g h sr w po f x hup hx hdom hsr hw hpo hf hf5 hcl => ?scale, fun s c g h sr w x hup hx hsr hw => ?format⟩
  case beatMon =>
    refine ⟨_, rcFieldRead_of_readRegister hup (toNat_offset (by omega)) (readRegister_beatMon s hk), ?_⟩
    rw [afterRead_beatMon s hk]
    have hself (x : BeatMon) : (s.vc.mons.write {} k x).read {} k = x := Table.read_write_self _ _ _ _
    dsimp only
    rw [hself]
    exact ⟨rfl, rfl, rfl, fun j hj => Table.read_write_ne _ _ hj.symm _, rfl⟩
  case near =>
    refine ⟨_, rcFieldRead_of_readRegister hup (toNat_offset (by omega)) (readRegister_near s hd), ?_⟩
    rw [afterRead_near s hd]
    have hself (x : NearTier) (w : BitVec 128) : ({ s.setNear d x with cmd.readBack := w } : State).near d = x := Table.read_write_self _ _ _ _
    rw [hself]
    exact ⟨rfl, rfl, rfl, rfl⟩
  case modPwr =>
    rw [rcFieldRead_of_readRegister hup (n := 0x7310) rfl (readRegister_modPwr s), afterRead_modPwr]
  case rinkCfg =>
    rw [rcFieldRead_of_readRegister hup (n := 0x100) rfl (readRegister_rinkCfg s), afterRead_below s (by omega) (by omega)]
  case stn =>
    rw [rcFieldRead_of_readRegister hup (toNat_offset (by omega)) (readRegister_stn s hp), afterRead_below s (by omega) (by omega)]
  case beyond =>
    refine event_idle s ?_
    rw [readRegister_beyond s hoff]
  case request =>
    refine (event_of_up hup _).trans ?_
    rw [State.writeRequest, if_neg (by rintro (h | h); exacts [h0 h, absurd h (by omega)])]
    rfl
  case reject =>
    refine (event_of_up hup _).trans ?_
    rw [State.writeRequest, if_pos h]
  case pause =>
    refine event_answers hup ?_
    have hdom : (s.setHold c.toNat { s.hold c.toNat with pause := true }).domain c.toNat = some d := hd
    rw [State.writePause]
    simp only [hdom, hrun, if_true]
    obtain ⟨h, x, l, he⟩ := raiseHold_eq (s.setHold c.toNat { s.hold c.toNat with pause := true }) c.toNat 3
    rw [raiseHold_hold_self, hold_setHold_self, he]
    refine ⟨rfl, ?_, hd, rfl⟩
    rw [BitVec.getLsbD_or, getLsbD_causeBit_self (by omega), Bool.or_true]
  case unpause =>
    refine event_answers hup ?_
    have hdom : (s.setHold c.toNat { s.hold c.toNat with pause := false }).domain c.toNat = none := hd
    rw [State.writePause]
    simp only [hdom]
    exact ⟨congrArg Hold.pause (hold_setHold_self _ _ _), rfl⟩
  case start =>
    refine event_answers hup ?_
    rw [State.pfRequest, hb, hs]
    exact ⟨rfl, rfl, rfl, rfl, rfl, rfl⟩
  case clip =>
    refine event_answers hup ?_
    rw [State.writeClip, hk, Option.isSome_some, if_pos rfl]
    have hself (u : UpdSlot) : (s.setUpdSlot c.toNat u).updSlot c.toNat = u := Table.read_write_self _ _ _ _
    rw [hself]
    exact ⟨rfl, rfl, rfl, rfl, rfl⟩
  case scale =>
    have hcodes : ¬((s.scaleRec c.toNat g.toNat).isNone || 12 < sr.toNat || w = 3 || 1 < po.toNat || f = 0 || 5 < f.toNat) = true := by
      simp [hx, hsr, hpo, hf5]
      exact ⟨hw, hf⟩
    refine event_answers hup ?_
    rw [if_neg hcodes, if_neg hcl]
    have hx' : ({ s with cmd.writeStatus := .ok } : State).scaleRec c.toNat g.toNat = some x := hx
    dsimp only
    rw [if_neg (by rw [hdom]; exact Bool.false_ne_true), hx']
    exact ⟨⟨_, Table.lookup_insert_self _ _ _, take_eq _ _⟩, rfl, rfl⟩
  case format =>
    have hcodes : ¬((s.scaleRec c.toNat g.toNat).isNone || 12 < sr.toNat || w = 3 || 1 < (1 : BitVec 2).toNat || (2 : BitVec 4) = 0
        || 5 < (2 : BitVec 4).toNat) = true := by
      simp [hx, hsr]
      exact hw
    refine (event_of_up hup _).trans ?_
    rw [if_neg hcodes, if_pos ⟨rfl, rfl⟩]

end Machine
end Sys2Proof

/-! SUPPORT. The time base, what a tick token moves, and the end of a thermal piece (O3). -/

namespace Sys2Proof
namespace Machine

/-- A relation that each operation of a fold keeps, and that composes, holds from the fold's start to its end. -/
theorem each_rel {α : Type} {R : State → State → Prop} (hrefl : ∀ s, R s s) (htrans : ∀ {a b c}, R a b → R b c → R a c)
    {f : State → α → State} (h : ∀ s a, R s (f s a)) (l : List α) (s : State) : R s (s.each l f) := by
  induction l generalizing s with
  | nil => exact hrefl s
  | cons a l ih => exact htrans (h s a) (ih (f s a))

/-! ## The timestamp -/

theorem wrap_epoch (k : Clock) : k.wrap.epoch = k.epoch + 1 := by
  have h := k.ts.isLt
  exact if_pos (by omega)

theorem wrap_ts_lt (k : Clock) : k.wrap.ts.toNat < 10 := by
  have h := k.ts.isLt
  have hn : k.wrap.ts.toNat = (k.ts.toNat + 10 * ((2 ^ 64 - k.ts.toNat + 9) / 10)) % 2 ^ 64 := BitVec.toNat_ofNat _ _
  omega

theorem tick_ts (k : Clock) : k.tick.ts = k.ts + BitVec.ofNat 64 (1000 - k.ahead) := by
  apply BitVec.eq_of_toNat_eq
  simp [Clock.tick, Clock.after]

/-! ## What a tick token moves -/

/-- From `s` to `t` only time under holds, the streams' dues, counters and the log move. -/
def OnlyTimes (s t : State) : Prop := ∃ h m x l, t = { s with crs.holds := h, lift.strm := m, ctr := x, log := l }

theorem OnlyTimes.refl (s : State) : OnlyTimes s s := ⟨s.crs.holds, s.lift.strm, s.ctr, s.log, rfl⟩

theorem OnlyTimes.trans {a b c : State} (hab : OnlyTimes a b) (hbc : OnlyTimes b c) : OnlyTimes a c := by
  obtain ⟨_, _, _, _, rfl⟩ := hab
  obtain ⟨h, m, x, l, rfl⟩ := hbc
  exact ⟨h, m, x, l, rfl⟩

theorem OnlyTimes.count (s : State) (id inst n : Nat) : OnlyTimes s (s.count id inst n) := by
  obtain ⟨x, l, h⟩ := count_eq s id inst n
  exact ⟨s.crs.holds, s.lift.strm, x, l, h⟩

theorem OnlyTimes.each {α : Type} {f : State → α → State} (h : ∀ s a, OnlyTimes s (f s a)) (l : List α) (s : State) : OnlyTimes s (s.each l f) :=
  each_rel OnlyTimes.refl OnlyTimes.trans h l s

theorem tickVcore_onlyTimes (s : State) : OnlyTimes s s.tickVcore := by
  have hif (u : State) (b : Prop) [Decidable b] (id : Nat) : OnlyTimes u (if b then u.count id 0 1 else u) := by
    split_ifs
    exacts [.count .., .refl u]
  exact ((hif _ _ _).trans (hif _ _ _)).trans (hif _ _ _)

theorem tickHold_onlyTimes (s : State) (c : Nat) : OnlyTimes s (s.tickHold c) := by
  unfold State.tickHold
  dsimp only
  split_ifs
  · exact .refl s
  · exact .trans ⟨_, s.lift.strm, s.ctr, s.log, rfl⟩ (.each (fun t n => .count ..) _ _)
  · exact .trans ⟨_, s.lift.strm, s.ctr, s.log, rfl⟩ (.each (fun t n => .count ..) _ _)

theorem tickLate_onlyTimes (s : State) (c : Nat) : OnlyTimes s (s.tickLate c) := by
  unfold State.tickLate
  split_ifs
  exacts [.count .., .refl s]

theorem tickStrm_onlyTimes (s : State) (n : Nat) : OnlyTimes s (s.tickStrm n) := by
  unfold State.tickStrm
  split
  next x _ =>
    have hset (y : Strm) : OnlyTimes s (s.setStrm n y) := ⟨s.crs.holds, _, s.ctr, s.log, rfl⟩
    dsimp only
    split_ifs
    exacts [(hset _).trans (.count ..), .count .., (hset _).trans (.count ..), .count .., hset _, .refl s]
  · exact .refl s

theorem tickFolds_onlyTimes (s : State) (holds strms : List Nat) :
    OnlyTimes s (((s.tickVcore.each holds State.tickHold).each holds State.tickLate).each strms State.tickStrm) :=
  (((tickVcore_onlyTimes s).trans (.each tickHold_onlyTimes holds _)).trans (.each tickLate_onlyTimes holds _)).trans
    (.each tickStrm_onlyTimes strms _)

/-- What TICK_TOKEN leaves of a module in service: the clock and the units' durations have moved, and counts of time beside. -/
theorem tickToken_of_up {s : State} (hv : s.vauxUp = true) (hup : s.up = true) :
    ∃ h m x l, execTickToken s
      = .next ({ s with clk := s.clk.tick, crs.holds := h, lift.strm := m, ctr := x, log := l } : State).tickUnits := by
  have hup' : ({ s with clk := s.clk.tick } : State).up = true := hup
  obtain ⟨h, m, x, l, he⟩ := tickFolds_onlyTimes { s with clk := s.clk.tick } (s.crs.holds.map (·.1)) (s.lift.strm.map (·.1))
  refine ⟨h, m, x, l, ?_⟩
  simp only [execTickToken, hv, if_true, hup']
  rw [he]

/-- The near tiers' part of a tick token, over the first `n` of them. -/
def tickNear (n : Nat) (m : Table NearTier) : Table NearTier :=
  (List.range n).foldl (fun t k => t.write {} k { t.read {} k with since := (t.read {} k).since + 1 }) m

theorem tickNear_since (n : Nat) (m : Table NearTier) (d : Nat) :
    ((tickNear n m).read {} d).since = if d < n then (m.read {} d).since + 1 else (m.read {} d).since := by
  induction n with
  | zero => rfl
  | succ n ih =>
    rw [tickNear, List.range_succ, List.foldl_append, ← tickNear]
    simp only [List.foldl_cons, List.foldl_nil]
    by_cases hd : n = d
    · subst hd
      rw [Table.read_write_self, if_pos (Nat.lt_succ_self n)]
      simpa using ih
    · rw [Table.read_write_ne _ _ hd, ih]
      simp only [show d < n + 1 ↔ d < n by omega]

theorem tickUnits_since (s : State) {d : Nat} (hd : d < 4) : (s.tickUnits.near d).since = (s.near d).since + 1 := by
  have hnear : s.tickUnits.near d = (tickNear 4 s.mem.near).read {} d := by simp only [State.near, State.tickUnits, tickNear]
  rw [hnear, tickNear_since, if_pos hd]
  rfl

theorem tickUnits_eq (s : State) : s.tickUnits.clk = s.clk ∧ s.tickUnits.mem.bytes = s.mem.bytes ∧ s.tickUnits.mem.hdrs = s.mem.hdrs
    ∧ s.tickUnits.sl.quiet = s.sl.quiet + 1 ∧ s.tickUnits.vc.piece = s.vc.piece.map (· - 1) := by
  simp only [State.tickUnits, and_self]

theorem clearHold_onlyHolds (s : State) (c n : Nat) : ∃ h, s.clearHold c n = { s with crs.holds := h } :=
  ⟨_, clearHold_eq s c n⟩

theorem each_clearHold_eq (s : State) (l : List Nat) (n : Nat) : ∃ h, s.each l (fun w c => w.clearHold c n) = { s with crs.holds := h } := by
  refine each_rel (R := fun s t => ∃ h, t = { s with crs.holds := h }) (fun s => ⟨s.crs.holds, rfl⟩) ?_ (fun s c => clearHold_onlyHolds s c n) l s
  rintro a b c ⟨h, rfl⟩ ⟨h', rfl⟩
  exact ⟨h', rfl⟩

theorem clearHold_getLsbD_of (s : State) (c k : Nat) {n : Nat} (hn : n < 8) (h : ((s.hold k).cause).getLsbD n = false) :
    (((s.clearHold c n).hold k).cause).getLsbD n = false := by
  rw [clearHold_eq, setHold_hold]
  split_ifs
  · exact Hold.clear_getLsbD_self _ hn
  · exact h

theorem each_clearHold_getLsbD (s : State) (l : List Nat) (c : Nat) {n : Nat} (hn : n < 8)
    (h : c ∈ l ∨ ((s.hold c).cause).getLsbD n = false) : (((s.each l (fun w c => w.clearHold c n)).hold c).cause).getLsbD n = false := by
  induction l generalizing s with
  | nil => exact h.resolve_left (List.not_mem_nil)
  | cons a l ih =>
    refine ih (s.clearHold a n) ?_
    rcases h with h | h
    · rcases List.mem_cons.mp h with rfl | h
      · right
        rw [clearHold_eq, hold_setHold_self]
        exact Hold.clear_getLsbD_self _ hn
      · exact .inl h
    · exact .inr (clearHold_getLsbD_of s a c hn h)

/-- Settles O3: the clock's arithmetic, and a tick token that only moves durations and counts time. -/
theorem timeBaseAndHeartbeatRows : Obligations.TimeBaseAndHeartbeatRows := by
  simp only [Obligations.TimeBaseAndHeartbeatRows, Answers, exec]
  refine ⟨fun s hv hts => ?wrap, fun s hts => ?noWrap, fun s hup hz hrow => ?toggle, fun s hup hq => ?loss, fun s hq => ?noLoss,
    fun s core hup => ?row, fun s core hup => ?core, fun s hup hp => ?piece, fun s hp => ?noPiece, fun s hv => ?tick,
    fun s hup ha hb hs => ?sideband, fun s b r hup hrecs => ?poller⟩
  case wrap =>
    refine ⟨{ s with clk := s.clk.wrap }, ?_, wrap_epoch _, wrap_ts_lt _, rfl⟩
    simp only [execTimestampWrap, hv, decide_eq_true hts]
    rfl
  case noWrap =>
    simp only [execTimestampWrap, decide_eq_false (not_le.mpr hts), Bool.and_false]
    rfl
  case toggle =>
    refine (event_of_up hup _).trans ?_
    rw [hz, hrow]; rfl
  case loss => exact (event_of_up hup _).trans (by rw [if_pos hq])
  case noLoss => exact event_idle s (if_neg (by omega))
  case row => exact (event_of_up hup _).trans (by rw [if_pos rfl])
  case core =>
    refine event_answers hup ?_
    exact ⟨Table.lookup_insert_self _ _ _, rfl⟩
  case piece =>
    refine event_answers hup ?_
    rw [if_pos hp]
    refine ⟨fun c hc => each_clearHold_getLsbD _ _ c (by omega) (.inl hc), ?_⟩
    obtain ⟨h, he⟩ := each_clearHold_eq { s with vc.piece := none } (State.runningSlots { s with vc.piece := none }) 4
    rw [he]
    exact ⟨rfl, rfl⟩
  case noPiece => exact event_idle s (if_neg hp)
  case tick =>
    cases hup : s.up
    · refine ⟨{ s with clk := s.clk.tick }, ?_, tick_ts _, rfl, rfl, nofun, fun _ => rfl⟩
      have hup' : ({ s with clk := s.clk.tick } : State).up = false := hup
      simp only [execTickToken, hv, if_true, hup']
      rfl
    · obtain ⟨h, m, x, l, hexec⟩ := tickToken_of_up hv hup
      obtain ⟨hclk, hbytes, hhdrs, hquiet, hpiece⟩ :=
        tickUnits_eq { s with clk := s.clk.tick, crs.holds := h, lift.strm := m, ctr := x, log := l }
      exact ⟨_, hexec, by rw [hclk, tick_ts], hbytes, hhdrs, fun _ => ⟨hquiet, hpiece, fun d hd => tickUnits_since _ hd⟩, nofun⟩
  case sideband =>
    refine event_answers hup ?_
    dsimp only
    rw [State.tickSideband, ha, hb, hs]
    exact ⟨rfl, rfl, rfl, rfl⟩
  case poller =>
    have hb : BitVec.ofNat 12 b.toNat = b := by simp
    have hpoll : execTickArrival .poller s
        = .next { s with cmd.rings := s.cmd.rings.write {} b.toNat (s.ring b).tick, cmd.polled := false } := by
      refine (event_of_up hup _).trans ?_
      dsimp only
      rw [hrecs, List.map_cons, List.map_nil, hb]
      rfl
    refine ⟨_, hpoll, Table.read_write_self _ _ _ _, fun x hx => Table.read_write_ne _ _ ?_ _, rfl, rfl⟩
    exact fun h => hx (BitVec.eq_of_toNat_eq h.symm)

end Machine
end Sys2Proof

/-! SUPPORT. The commands that read records of the module (O6, O7). -/

namespace Sys2Proof
namespace Machine

/-- Settles O6: version 1 is agreed on exactly when it lies in the sender's range. -/
theorem helloAgreesOnVersionOne : Obligations.HelloAgreesOnVersionOne := by
  simp only [Obligations.HelloAgreesOnVersionOne, Answers, exec]
  refine ⟨fun s c low high ha hl hh => ?agrees, fun s c low high ha h => ?refuses, fun s c ha => ?identity⟩
  case agrees =>
    refine command_results ha (u := s.taken) (r := .identity 1 s.identity) (fun _ _ => if_pos ⟨hl, hh⟩) fun i e o n x hr => ?_
    exact ⟨hr, rfl⟩
  case refuses =>
    have hno : ¬(low.toNat ≤ 1 ∧ 1 ≤ high.toNat) := by
      rintro ⟨hl, hh⟩
      rcases h with h | rfl
      · omega
      · exact absurd hh (by decide)
    refine command_replies ha (u := s.taken) (fun _ _ => if_neg hno) fun i e o n x hr => ?_
    exact ⟨hr, rfl⟩
  case identity =>
    refine command_results ha (u := s.taken) (r := .identity 1 s.identity) (fun _ _ => rfl) fun i e o n x hr => ?_
    exact ⟨hr, rfl⟩

/-- A quote makes no new pair for bib 0x000 and for a bib whose K_E is formed. -/
theorem freshKem_of_formed {s : State} {b : BitVec 12} (h : b = 0 ∨ (s.keysOf b).ke ≠ none) : s.freshKem b = s := by
  rw [State.freshKem, if_neg]
  rintro ⟨hb, -, -, hk⟩
  exact h.elim hb fun hne => hne hk

theorem quoteBody_taken (s : State) (i : List Hdr) (e : Table Nat) (b : BitVec 12) (nonce : BitVec 256) :
    (s.taken i e).quoteBody b nonce = s.quoteBody b nonce := by
  simp only [State.quoteBody, State.ekHash, State.courseHash, State.keysOf, State.bib]

theorem mem_map_snd_filter (l : Table LogEntry) (p : LogEntry → Bool) (e : LogEntry) :
    e ∈ (l.filter (fun x => p x.2)).map (·.2) ↔ (∃ k, (k, e) ∈ l) ∧ p e = true := by
  simp [List.mem_map, List.mem_filter]

theorem any_eq_true {α : Type} {p : Nat → α → Bool} {t : Table α} : t.any p = true ↔ ∃ k a, (k, a) ∈ t ∧ p k a = true := by
  induction t with
  | nil => simp [Table.any]
  | cons e t ih =>
    obtain ⟨j, a⟩ := e
    simp only [Table.any, Bool.or_eq_true, ih, List.mem_cons, Prod.mk.injEq]
    constructor
    · rintro (h | ⟨k, b, hm, h⟩)
      exacts [⟨j, a, .inl ⟨rfl, rfl⟩, h⟩, ⟨k, b, .inr hm, h⟩]
    · rintro ⟨k, b, ⟨rfl, rfl⟩ | hm, h⟩
      exacts [.inl h, .inr ⟨k, b, hm, h⟩]

/-- Settles O7: each command's answer is the record that it names. -/
theorem recordCommandsAnswer : Obligations.RecordCommandsAnswer := by
  simp only [Obligations.RecordCommandsAnswer, Answers, exec]
  have hkey (c : Hdr) : keptKey (c.of 0x0006) = keptKey c := rfl
  refine ⟨fun s c nonce n ha hn hk => ?quote, fun s c nonce n ha hn => ?busy, fun s c first n ha => ?events, fun s c tag ha hno => ?noReply,
    fun s c tag r ha hr => ?reply, fun s c key ha hall => ?opkey, fun s c key k r ha hr hst => ?opkeyBusy, fun s c names ha hn hb hs => ?counters⟩
  case quote =>
    refine command_results ha (u := s.taken) 
      (r := .quote (s.quoteBody c.bib nonce) (Config.aliasSign s.boot.bootM s.boot.svn s.test.unlocked.isSome (s.quoteBody c.bib nonce).toNat)
        (Config.aliasCert s.boot.bootM s.boot.svn s.test.unlocked.isSome) (s.keysOf c.bib).ek) (fun i e => ?_) fun i e o n x hr => ?_
    · have hfresh : (s.taken i e).freshKem c.bib = s.taken i e := freshKem_of_formed hk
      rw [if_neg (by omega)]
      dsimp only [Hdr.of]
      rw [hfresh, quoteBody_taken]
      rfl
    · exact ⟨⟨_, _, hr⟩, rfl⟩
  case busy =>
    refine command_replies ha (u := s.taken) (fun _ _ => if_pos hn) fun i e o n x hr => ?_
    exact ⟨hr, rfl⟩
  case events =>
    refine command_results ha 
      (r := .entries ((s.log.ring.filter (fun e => decide (first.toNat ≤ e.2.index.toNat ∧ e.2.index.toNat < first.toNat + n))).map (·.2)))
      (fun i e => rfl) fun i e o sent x hr => ?_
    refine ⟨⟨_, hr, fun v => ?_⟩, rfl⟩
    rw [← decide_eq_true_iff (p := first.toNat ≤ v.index.toNat ∧ v.index.toNat < first.toNat + n)]
    exact mem_map_snd_filter s.log.ring (fun v => decide (first.toNat ≤ v.index.toNat ∧ v.index.toNat < first.toNat + n)) v
  case noReply =>
    refine command_replies ha (u := s.taken) (st := .bounds) (fun i e => ?_) fun i e o n x hr => ?_
    · have hnone : (s.cmd.kept.read [] (keptKey c)).reverse.find? (fun r => r.tag = tag) = none := by
        rw [List.find?_eq_none]
        intro r hr
        simpa using hno r (List.mem_reverse.mp hr)
      dsimp only
      rw [hkey c, hnone]
    · exact ⟨hr, rfl⟩
  case reply =>
    refine command_results ha (u := s.taken) (r := keptResult r) (fun i e => ?_) fun i e o n x hr' => ?_
    · dsimp only
      rw [hkey c, hr]
    · exact ⟨hr', rfl⟩
  case opkey =>
    refine command_replies ha (u := fun i e => { s.taken i e with cmd.opkey := some key }) (fun i e => if_neg ?_) fun i e o n x hr => ?_
    · intro hany
      obtain ⟨k, r, hr, hst⟩ := any_eq_true.mp hany
      have hstates := of_decide_eq_true hst
      rcases hall k r hr with h | h <;> rw [h] at hstates <;> simp at hstates
    · exact ⟨rfl, hr, rfl⟩
  case opkeyBusy =>
    refine command_replies ha (u := s.taken) (fun i e => if_pos ?_) fun i e o n x hrep => ?_
    · exact any_eq_true.mpr ⟨k, r, hr, decide_eq_true hst⟩
    · exact ⟨rfl, hrep, rfl⟩
  case counters =>
    refine command_answers ha fun i e => ?_
    have hall : names.all (fun n => isCounter n.toNat) = true := List.all_eq_true.mpr hn
    have hreq : (s.taken i e).pfRequest = (s.taken i e).pfBegin := by
      rw [State.pfRequest, if_neg (by rw [show (s.taken i e).pf.busy = false from hb]; decide)]
      exact if_neg (by rw [show (s.taken i e).pfTooSoon = false from hs]; decide)
    dsimp only
    rw [if_pos hall, hreq, if_pos (show (s.taken i e).pfBegin.pf.busy = true from rfl)]
    exact ⟨rfl, rfl, ⟨_, List.mem_append_right _ (List.mem_singleton_self _), rfl⟩, rfl⟩
end Machine
end Sys2Proof

/-! SUPPORT. What a suspension and a course violation leave (R293, R180): the bib's record, its locker entries, its domains, the notices to
its RUNs, and for a violation the poison marks and the event. -/

namespace Sys2Proof
namespace Machine

/-- From `s` to `t` only what a suspension and a course violation write differs. -/
def OnlySuspends (s t : State) : Prop :=
  ∃ r e d m h l, t = { s with bibs.recs := r, lkr.entries := e, crs.domains := d, cmd := m, mem.hdrs := h, log := l }

theorem OnlySuspends.refl (s : State) : OnlySuspends s s := ⟨s.bibs.recs, s.lkr.entries, s.crs.domains, s.cmd, s.mem.hdrs, s.log, rfl⟩

theorem OnlySuspends.trans {a b c : State} (hab : OnlySuspends a b) (hbc : OnlySuspends b c) : OnlySuspends a c := by
  obtain ⟨_, _, _, _, _, _, rfl⟩ := hab
  obtain ⟨r, e, d, m, h, l, rfl⟩ := hbc
  exact ⟨r, e, d, m, h, l, rfl⟩

/-- From `s` to `t` only domains and what the paths hold differs. -/
def OnlyNotices (s t : State) : Prop := ∃ d m, t = { s with crs.domains := d, cmd := m }

theorem OnlyNotices.each {f : State → Nat → State} (h : ∀ s c, OnlyNotices s (f s c)) (l : List Nat) (s : State) : OnlyNotices s (s.each l f) := by
  refine each_rel (fun s => ⟨s.crs.domains, s.cmd, rfl⟩) ?_ h l s
  rintro _ _ _ ⟨_, _, rfl⟩ ⟨d, m, rfl⟩
  exact ⟨d, m, rfl⟩

/-- A suspension of a running bib: its record says so, and why. -/
theorem suspend_of_running {s : State} {b : BitVec 12} (h : (s.bib b).state = .running) (why : Status) (ev : Nat) :
    ∃ e d m, s.suspend b why ev
      = { s.setBib b { s.bib b with state := .suspended, why := why } with lkr.entries := e, crs.domains := d, cmd := m } := by
  have hnotices : OnlyNotices ((s.setBib b { s.bib b with state := .suspended, why := why }).freeLocker b) (s.suspend b why ev) := by
    rw [State.suspend, if_pos h]
    refine OnlyNotices.each (fun t c => ?_) _ _
    split
    next d _ =>
      obtain ⟨o, n, k, he⟩ := replyAs_eq (t.setDomain c { d with suspended := true }) d.runHdr why false ev .none
      exact ⟨_, _, he⟩
    next => exact ⟨t.crs.domains, t.cmd, rfl⟩
  obtain ⟨d, m, he⟩ := hnotices
  exact ⟨s.lkr.entries.filter (fun e => e.bib ≠ b), d, m, he⟩

theorem suspend_onlySuspends (s : State) (b : BitVec 12) (why : Status) (ev : Nat) : OnlySuspends s (s.suspend b why ev) := by
  by_cases h : (s.bib b).state = .running
  · obtain ⟨e, d, m, he⟩ := suspend_of_running h why ev
    exact ⟨_, e, d, m, s.mem.hdrs, s.log, he⟩
  · rw [State.suspend, if_neg h]
    exact .refl s

/-- A bib is suspended, for this reason. -/
def State.isSuspended (s : State) (b : BitVec 12) (why : Status) : Prop := (s.bib b).state = .suspended ∧ (s.bib b).why = why

theorem suspend_isSuspended {s : State} {b : BitVec 12} (h : (s.bib b).state = .running) (why : Status) (ev : Nat) :
    (s.suspend b why ev).isSuspended b why := by
  obtain ⟨e, d, m, he⟩ := suspend_of_running h why ev
  have hbib : (s.suspend b why ev).bib b = { s.bib b with state := .suspended, why := why } := by
    rw [he]
    exact (setBib_bib s b b _).trans (if_pos rfl)
  rw [State.isSuspended, hbib]
  exact ⟨rfl, rfl⟩

theorem violateAs_onlySuspends (s : State) (c : Nat) (why st : Status) (seg use : Nat) (detail : BitVec 128) :
    OnlySuspends s (s.violateAs c why st seg use detail) := by
  unfold State.violateAs
  split
  · exact OnlySuspends.trans ⟨s.bibs.recs, s.lkr.entries, s.crs.domains, s.cmd, _, _, rfl⟩ (suspend_onlySuspends _ _ _ _)
  · exact .refl s

theorem violateAs_isSuspended {s : State} {c : Nat} {k : Course} (hk : s.course c = some k) (hr : (s.bib k.bib).state = .running)
    (why st : Status) (seg use : Nat) (detail : BitVec 128) : (s.violateAs c why st seg use detail).isSuspended k.bib why := by
  unfold State.violateAs
  rw [hk]
  dsimp only
  exact suspend_isSuspended (s := (s.poison c).raise _) hr _ _

end Machine
end Sys2Proof

/-! SUPPORT. Gates and holds (O19, O20). -/

namespace Sys2Proof
namespace Machine

/-! ## Gates -/

theorem gate_setGate_self (s : State) (n : Nat) (g : Gate) : (s.setGate n g).gate n = g := Table.read_write_self _ _ _ _

theorem gate_setGate_ne (s : State) {n m : Nat} (h : m ≠ n) (g : Gate) : (s.setGate n g).gate m = s.gate m := Table.read_write_ne _ _ h.symm _

theorem OnlySuspends.gate {s t : State} (h : OnlySuspends s t) (n : Nat) : t.gate n = s.gate n := by
  obtain ⟨_, _, _, _, _, _, rfl⟩ := h
  rfl

theorem OnlySuspends.bytes {s t : State} (h : OnlySuspends s t) : t.mem.bytes = s.mem.bytes := by
  obtain ⟨_, _, _, _, _, _, rfl⟩ := h
  rfl

/-- A completed boundary is marked in the domain of its course. -/
theorem markBoundary_eq (s : State) (n : Nat) : ∃ d, s.markBoundary n = { s with crs.domains := d } := by
  unfold State.markBoundary
  split
  · split
    · split_ifs
      · exact ⟨_, rfl⟩
      · exact ⟨s.crs.domains, rfl⟩
    · exact ⟨s.crs.domains, rfl⟩
  · exact ⟨s.crs.domains, rfl⟩

/-- One completion of gate `n`, if COUNT stands at TARGET (R179). -/
def State.settleOnce (t : State) (n : Nat) : State :=
  let g := t.gate n
  if g.state = 1 ∧ g.count = g.target then
    (if !g.scope then (t.setGate n g.complete).markBoundary n
     else if t.isVerdict n then t
     else
       let u := if (t.exch n g.epoch).formed then t else t.localComplete n
       if (u.exch n g.epoch).ready then (((u.setExch n g.epoch {}).setGate n g.complete).markBoundary n) else u)
  else t

theorem settleGate_eq (s : State) (n : Nat) : s.settleGate n = (s.settleOnce n).settleOnce n := rfl

theorem settleOnce_of_ne {s : State} {n : Nat} (h : (s.gate n).count ≠ (s.gate n).target) : s.settleOnce n = s :=
  if_neg fun hc => h hc.2

theorem settleGate_of_ne {s : State} {n : Nat} (h : (s.gate n).count ≠ (s.gate n).target) : s.settleGate n = s := by
  rw [settleGate_eq, settleOnce_of_ne h, settleOnce_of_ne h]

theorem settleOnce_of_eq {s : State} {n : Nat} (h1 : (s.gate n).state = 1) (hsc : (s.gate n).scope = false)
    (h : (s.gate n).count = (s.gate n).target) : s.settleOnce n = (s.setGate n (s.gate n).complete).markBoundary n :=
  (if_pos ⟨h1, h⟩).trans (if_pos (by rw [hsc]; rfl))

/-- A module-scope gate at TARGET completes once when NEXT is 0. -/
theorem settleGate_of_eq {s : State} {n : Nat} (h1 : (s.gate n).state = 1) (hsc : (s.gate n).scope = false)
    (h : (s.gate n).count = (s.gate n).target) (hnext : (s.gate n).next = 0) (ht : (s.gate n).target ≠ 0) :
    ∃ d, s.settleGate n = { s.setGate n (s.gate n).complete with crs.domains := d } := by
  obtain ⟨d, hd⟩ := markBoundary_eq (s.setGate n (s.gate n).complete) n
  have hgate : ({ s.setGate n (s.gate n).complete with crs.domains := d } : State).gate n = (s.gate n).complete := gate_setGate_self _ _ _
  refine ⟨d, ?_⟩
  rw [settleGate_eq, settleOnce_of_eq h1 hsc h, hd, settleOnce_of_ne]
  rw [hgate]
  intro hcount
  refine ht (Eq.symm (Eq.trans ?_ hcount))
  rw [Gate.complete, hnext]
  rfl

theorem signalGate_count {s : State} {n : Nat} (h1 : (s.gate n).state = 1) (hc : (s.gate n).count ≠ (s.gate n).target) :
    s.signalGate n (s.gate n).epoch
      = (s.setGate n { s.gate n with count := (s.gate n).count + 1, counted := (s.gate n).counted + 1 }).settleGate n := by
  unfold State.signalGate
  dsimp only
  rw [if_neg (not_not.mpr h1), if_pos ⟨rfl, hc⟩]

theorem add_one_ne_self (e : BitVec 8) : e + 1 ≠ e := by bv_omega

theorem signalGate_next {s : State} {n : Nat} (h1 : (s.gate n).state = 1) (hn : (s.gate n).next.toNat < (s.gate n).target.toNat)
    (hm : (s.gate n).next.toNat < 511) :
    s.signalGate n ((s.gate n).epoch + 1) = s.setGate n { s.gate n with next := (s.gate n).next + 1, counted := (s.gate n).counted + 1 } := by
  unfold State.signalGate
  dsimp only
  rw [if_neg (not_not.mpr h1), if_neg (fun h => add_one_ne_self _ h.1), if_pos ⟨rfl, hn, hm⟩]

theorem signalGate_overCommit {s : State} {n : Nat} {e : BitVec 8} (h1 : (s.gate n).state = 1) (h0 : e ≠ (s.gate n).epoch)
    (he : e ≠ (s.gate n).epoch + 1) : s.signalGate n e = s.overCommit n e := by
  unfold State.signalGate
  dsimp only
  rw [if_neg (not_not.mpr h1), if_neg (fun h => h0 h.1), if_neg (fun h => he h.1)]

/-- The current epoch and the next have not passed. -/
theorem passed_eq_false {g : Gate} {e : BitVec 8} (h : e = g.epoch ∨ e = g.epoch + 1) : g.passed e = false := by
  rcases h with rfl | rfl <;> simp only [Gate.passed, decide_eq_false_iff_not] <;> bv_omega

theorem gateWait_watch {s : State} {n : Nat} (h : max (s.gate n).ticks (s.gate n).ticksNext < 1000 * (s.gate n).wd.toNat) :
    ¬((s.gate n).state = 1 ∧ (s.gate n).waits ≠ [] ∧ 1000 * (s.gate n).wd.toNat ≤ max (s.gate n).ticks (s.gate n).ticksNext) :=
  fun hc => absurd h (by omega)

/-- Settles O19: the counting of a gate, its completion at TARGET, and the over-commit and the watchdog as course violations. -/
theorem gateRows : Obligations.GateRows := by
  simp only [Obligations.GateRows, Answers, exec]
  refine ⟨fun s gate e hup h1 he hne hc => ?count, fun s gate e hup h1 hsc he hc heq hnext ht => ?completes, fun s gate e hup h1 he hn hm => ?next,
    fun s gate e c l k hup h1 h0 he hslot hk hr => ?overCommit, fun s gate e slot hup h1 he => ?waits, fun s gate e slot hup h1 hp => ?passed,
    fun s gate c l k hup h1 hw hwd hslot hk hr => ?trip, fun s gate hup h1 hwd => event_idle s (if_neg (gateWait_watch hwd))⟩
  case count =>
    have hgate (g : Gate) : (({ s with crs.signals := s.crs.signals.erase (gate.toNat, (s.gate gate.toNat).epoch) } : State).setGate gate.toNat g).gate gate.toNat = g :=
      gate_setGate_self _ _ _
    have hsig := signalGate_count (s := { s with crs.signals := s.crs.signals.erase (gate.toNat, (s.gate gate.toNat).epoch) }) h1 hc
    rw [settleGate_of_ne (by rw [hgate]; exact hne)] at hsig
    subst he
    exact ⟨_, (event_of_up hup _).trans (congrArg _ hsig), hgate _, fun m hm => gate_setGate_ne _ hm _, rfl⟩
  case completes =>
    have hgate (g : Gate) : (({ s with crs.signals := s.crs.signals.erase (gate.toNat, (s.gate gate.toNat).epoch) } : State).setGate gate.toNat g).gate gate.toNat = g :=
      gate_setGate_self _ _ _
    have hsig := signalGate_count (s := { s with crs.signals := s.crs.signals.erase (gate.toNat, (s.gate gate.toNat).epoch) }) h1 hc
    obtain ⟨d, hd⟩ := settleGate_of_eq (s := ({ s with crs.signals := s.crs.signals.erase (gate.toNat, (s.gate gate.toNat).epoch) } : State).setGate gate.toNat
        { s.gate gate.toNat with count := (s.gate gate.toNat).count + 1, counted := (s.gate gate.toNat).counted + 1 }) (n := gate.toNat)
      (by rw [hgate]; exact h1) (by rw [hgate]; exact hsc) (by rw [hgate]; exact heq) (by rw [hgate]; exact hnext) (by rw [hgate]; exact ht)
    have hfinal (g : Gate) : ({ (({ s with crs.signals := s.crs.signals.erase (gate.toNat, (s.gate gate.toNat).epoch) } : State).setGate gate.toNat
        { s.gate gate.toNat with count := (s.gate gate.toNat).count + 1, counted := (s.gate gate.toNat).counted + 1 }).setGate gate.toNat g with crs.domains := d } : State).gate gate.toNat = g :=
      gate_setGate_self _ _ _
    subst he
    refine ⟨_, (event_of_up hup _).trans (congrArg _ (hsig.trans hd)), ?_⟩
    rw [hfinal, hgate]
    refine ⟨rfl, ?_, fun w hw => ?_, rfl⟩
    · rw [Gate.complete, hnext]; rfl
    · simpa using (List.mem_filter.mp hw).2
  case next =>
    subst he
    have hsig := signalGate_next (s := { s with crs.signals := s.crs.signals.erase (gate.toNat, (s.gate gate.toNat).epoch + 1) }) h1 hn hm
    exact ⟨_, (event_of_up hup _).trans (congrArg _ hsig), gate_setGate_self _ _ _, rfl⟩
  case overCommit =>
    have hsig := signalGate_overCommit (s := { s with crs.signals := s.crs.signals.erase (gate.toNat, e) }) h1 h0 he
    have hover : State.overCommit { s with crs.signals := s.crs.signals.erase (gate.toNat, e) } gate.toNat e
        = State.violateAs { s with crs.signals := s.crs.signals.erase (gate.toNat, e) } c .quota .quota 0 0 (gateDetail gate.toNat e (s.gate gate.toNat).epoch) := by
      unfold State.overCommit
      rw [show State.gateSlot { s with crs.signals := s.crs.signals.erase (gate.toNat, e) } gate.toNat = some (c, l) from hslot]
      rfl
    refine ⟨_, (event_of_up hup _).trans (congrArg _ (hsig.trans hover)), ?_⟩
    obtain ⟨hst, hwhy⟩ := violateAs_isSuspended (s := { s with crs.signals := s.crs.signals.erase (gate.toNat, e) }) hk hr .quota .quota 0 0
      (gateDetail gate.toNat e (s.gate gate.toNat).epoch)
    exact ⟨hst, hwhy, (violateAs_onlySuspends _ _ _ _ _ _ _).gate gate.toNat⟩
  case waits =>
    refine event_answers hup ?_
    dsimp only
    rw [if_neg (not_not.mpr h1), passed_eq_false he, if_neg Bool.false_ne_true, if_pos he, gate_setGate_self]
    refine ⟨?_, rfl, rfl⟩
    dsimp only
    split_ifs with hmem
    · exact List.contains_iff_mem.mp hmem
    · exact List.mem_append_right _ (List.mem_singleton_self _)
  case passed =>
    refine event_idle s ?_
    dsimp only
    rw [if_neg (not_not.mpr h1), if_pos hp]
  case trip =>
    refine event_answers hup ?_
    dsimp only
    rw [if_pos ⟨h1, hw, hwd⟩, hslot]
    dsimp only
    have hviol := fun d => violateAs_onlySuspends (s.setGate gate.toNat { s.gate gate.toNat with state := 2 }) c .fault .fault 0 0 d
    have hsus := fun d => violateAs_isSuspended (s := s.setGate gate.toNat { s.gate gate.toNat with state := 2 }) hk hr .fault .fault 0 0 d
    exact ⟨congrArg Gate.state (((hviol _).gate gate.toNat).trans (gate_setGate_self _ _ _)), (hsus _).1, (hsus _).2, (hviol _).bytes⟩

end Machine
end Sys2Proof

/-! SUPPORT. Holds (O20). -/

namespace Sys2Proof
namespace Machine

theorem getLsbD_causeBit_ne {n i : Nat} (h : i ≠ n) : (causeBit n).getLsbD i = false := by
  rw [causeBit, BitVec.getLsbD_ofNat, Nat.testBit_two_pow_of_ne h.symm]
  simp

theorem raiseHold_of_first {s : State} {c : Nat} (h : (s.hold c).cause = 0) (n : Nat) :
    (s.raiseHold c n).counter 0x0807 c = (s.counter 0x0807 c).plus 1 := by
  unfold State.raiseHold
  dsimp only
  rw [if_pos h, count_counter]
  rfl

/-- Settles O20: causes are bits of one mask, and a hold ends with the last of them. -/
theorem holdRows : Obligations.HoldRows := by
  simp only [Obligations.HoldRows, Answers, exec]
  refine ⟨fun s slot cause d hup hd hrun => ?raise, fun s slot hup hc => ?stopped, fun s slot d hup hd hst hsum => ?drained,
    fun s slot cause hup hbit h3 h0 => ?clear, fun s slot hup hp => ?paused, fun s slot e hup he hl => ?late, fun s slot hup hc hm hlim => ?long,
    fun s slot hup h => ?notLong⟩
  case raise =>
    refine event_answers hup ?_
    rw [hd]
    dsimp only
    rw [if_pos hrun, raiseHold_hold_self]
    refine ⟨?_, fun i _ hi => ?_, fun h => raiseHold_of_first h _, ?_⟩
    · rw [BitVec.getLsbD_or, getLsbD_causeBit_self (by omega), Bool.or_true]
    · rw [BitVec.getLsbD_or, getLsbD_causeBit_ne hi, Bool.or_false]
    · obtain ⟨h, x, l, he⟩ := raiseHold_eq s slot.toNat cause.val
      rw [he]
  case stopped => exact (event_of_up hup _).trans (congrArg _ (if_pos hc))
  case drained =>
    refine (event_of_up hup _).trans ?_
    dsimp only
    rw [hd]
    dsimp only
    rw [if_pos ⟨hst, by rw [hsum]; rfl⟩]
  case clear =>
    have hstands : ((cause = 3 && (s.hold slot.toNat).pause) || (cause = 0 && (s.strmsOf slot.toNat).any (fun e => e.2.late ≠ []))) = false := by
      have hnone : cause = 0 → (s.strmsOf slot.toNat).any (fun e => e.2.late ≠ []) = false := fun hz =>
        List.any_eq_false.mpr fun e he => by simp [h0 hz e he]
      by_cases h : cause = 3
      · subst h; simp [h3 rfl]
      · by_cases hz : cause = 0
        · simp only [hnone hz, h]; simp
        · simp [h, hz]
    refine event_answers hup ?_
    dsimp only
    rw [if_pos ⟨hbit, by rw [hstands]; rfl⟩, clearHold_eq, hold_setHold_self, Hold.clear_limit]
    refine ⟨Hold.clear_getLsbD_self _ (by omega), fun i hi hne => ?_, rfl, rfl⟩
    rw [Hold.clear_cause, BitVec.getLsbD_and, BitVec.getLsbD_not, getLsbD_causeBit_ne hne]
    simp [hi]
  case paused =>
    refine event_idle s ?_
    simp only [hp]
    exact if_neg (by simp)
  case late =>
    have hany : (s.strmsOf slot.toNat).any (fun e => e.2.late ≠ []) = true := List.any_eq_true.mpr ⟨e, he, by simpa using hl⟩
    refine event_idle s ?_
    simp only [hany]
    exact if_neg (by simp)
  case long =>
    refine event_answers hup ?_
    dsimp only
    rw [if_pos ⟨hc, by rw [hm]; rfl, hlim⟩]
    exact ⟨hold_setHold_self _ _ _, ⟨_, rfl, rfl, rfl⟩, rfl⟩
  case notLong =>
    refine event_idle s (if_neg ?_)
    rintro ⟨-, hm, hlim⟩
    rcases h with h | h
    · rw [h] at hm; cases hm
    · omega

end Machine
end Sys2Proof

/-! SUPPORT. The Rink's configuration and withdrawal of stations (O26); the near tiers' bands and bursts (O27). -/

namespace Sys2Proof
namespace Machine

/-- Completing what waits changes only what the paths hold. -/
theorem complete_eq (s : State) (w : Waiting) (st : Status) (r : Result) : ∃ m, s.complete w st r = { s with cmd := m } := by
  have hfold (l : List (Waiting × Hdr)) (u : State) : ∃ m, u.each l (fun t e => t.replyAs e.2 st true 0 r) = { u with cmd := m } := by
    refine each_rel (R := fun s t => ∃ m, t = { s with cmd := m }) (fun s => ⟨s.cmd, rfl⟩) ?_ (fun t e => ?_) l u
    · rintro _ _ _ ⟨_, rfl⟩ ⟨m, rfl⟩
      exact ⟨m, rfl⟩
    · obtain ⟨o, n, k, h⟩ := replyAs_eq t e.2 st true 0 r
      exact ⟨_, h⟩
  exact hfold _ _

theorem countStages_eq (s : State) (c : Nat) : ∃ k x l, s.countStages c = { s with crs.courses := k, ctr := x, log := l } := by
  unfold State.countStages
  split
  · dsimp only
    split_ifs
    · exact ⟨_, s.ctr, s.log, rfl⟩
    · obtain ⟨x, l, h⟩ := count_eq (s.setCourse c _) 0x080A c _
      exact ⟨_, x, l, h⟩
  · exact ⟨s.crs.courses, s.ctr, s.log, rfl⟩

theorem each_countStages_eq (l : List Nat) (s : State) : ∃ k x g, s.each l State.countStages = { s with crs.courses := k, ctr := x, log := g } := by
  refine each_rel (R := fun s t => ∃ k x g, t = { s with crs.courses := k, ctr := x, log := g }) (fun s => ⟨s.crs.courses, s.ctr, s.log, rfl⟩) ?_
    countStages_eq l s
  rintro _ _ _ ⟨_, _, _, rfl⟩ ⟨k, x, g, rfl⟩
  exact ⟨k, x, g, rfl⟩

/-- Settles O26: a configuration waits for the domains it touches, a withdrawal for what still uses the station. -/
theorem rinkAndWithdrawRows : Obligations.RinkAndWithdrawRows := by
  simp only [Obligations.RinkAndWithdrawRows, Answers, exec]
  have hnotBad {s : State} {p : Nat} (hp : p < 104) (hact : s.active p = true) : ¬(decide (104 ≤ p) || !s.active p) = true := by
    rw [hact, decide_eq_false (by omega)]; decide
  refine ⟨fun s c cfg ha h0 h5 hne => ?waits, fun s c cfg ha heq h0 h5 => ?active, fun s c cfg ha hbad => ?bounds, fun s hup hb hall => ?reconfigure,
    fun s e hup he hrun ht hl => ?busy, fun s c stn ha hs hact hwd => ?withdraw, fun s c stn ha hs hact => ?back, fun s c stn on ha hbad => ?noStation,
    fun s stn hup hw hwd hdom hq hh => ?withdrawn, fun s stn hup hh => ?homes⟩
  case waits =>
    refine command_defers ha (u := fun i e => (s.taken i e).requestRink cfg) (w := .rink) (fun i e => ?_) fun i e o n x hans => ?_
    · exact (if_neg (by rintro (h | h); exacts [h0 h, absurd h (by omega)])).trans (if_neg hne)
    · refine ⟨?_, hans, rfl⟩
      rw [← decide_eq_true hne]
      rfl
  case active =>
    have hok : ¬(cfg = 0 ∨ 5 < cfg.toNat) := by rintro (h | h); exacts [h0 h, absurd h (by omega)]
    refine command_replies ha (st := .ok)
      (u := fun i e => (((s.taken i e).requestRink cfg).complete .rink (Config.openStatus s.freeCtr) .none).used)
      (fun i e => (if_neg hok).trans (if_pos heq)) fun i e o n x hrep => ?_
    obtain ⟨m, he⟩ := complete_eq ((s.taken i e).requestRink cfg) .rink (Config.openStatus s.freeCtr) .none
    rw [he] at hrep ⊢
    refine ⟨?_, hrep, rfl⟩
    rw [← decide_eq_false (not_not.mpr heq)]
    rfl
  case bounds =>
    refine command_replies ha (u := s.taken) (fun i e => if_pos hbad) fun i e o n x hrep => ?_
    exact ⟨hrep, rfl⟩
  case reconfigure =>
    have hcond : (s.rink.cfg.busy && (s.crs.domains.filter (fun e => e.2.running && s.touchesChange e.2)).all
        (fun e => s.fits s.rink.cfg.request.toNat e.2 && e.2.live = [])) = true := by
      rw [hb, Bool.true_and, List.all_eq_true]
      intro e he
      obtain ⟨hmem, hcon⟩ := List.mem_filter.mp he
      obtain ⟨hrun, ht⟩ := Bool.and_eq_true_iff.mp hcon
      obtain ⟨hfit, hlive⟩ := hall e hmem hrun ht
      rw [hfit, hlive]
      rfl
    refine event_answers hup ?_
    dsimp only
    rw [if_pos hcond]
    obtain ⟨k, x, l, he⟩ := each_countStages_eq ((s.crs.domains.filter (fun e => e.2.running && s.touchesChange e.2)).map (·.1))
      { s with rink.cfg := { s.rink.cfg with active := s.rink.cfg.request, busy := false } }
    rw [he]
    obtain ⟨m, hm⟩ := complete_eq { s with rink.cfg := _, crs.courses := k, ctr := x, log := l } .rink .ok .none
    rw [hm]
    exact ⟨rfl, rfl, rfl⟩
  case busy =>
    refine event_idle s ?_
    dsimp only
    refine if_neg fun h => hl ?_
    have hlive := List.all_eq_true.mp (Bool.and_eq_true_iff.mp h).2 e (List.mem_filter.mpr ⟨he, by rw [hrun, ht]; rfl⟩)
    exact of_decide_eq_true (Bool.and_eq_true_iff.mp hlive).2
  case withdraw =>
    refine command_defers ha (u := fun i e => (s.taken i e).writeWithdraw stn.toNat true) (w := .withdraw stn.toNat) (fun i e => ?_)
      fun i e o n x hans => ?_
    · exact (if_neg (hnotBad hs hact)).trans ((if_pos rfl).trans (if_neg (by rw [show ((s.taken i e).stn stn.toNat).wdDone = false from hwd]; decide)))
    · exact ⟨(stn_setStn_self _ _ _).trans (by rw [Bool.and_true]; rfl), hans, rfl⟩
  case back =>
    refine command_replies ha (st := .ok)
      (u := fun i e => (((s.taken i e).writeWithdraw stn.toNat false).complete (.withdraw stn.toNat) (Config.openStatus s.freeCtr) .none).used)
      (fun i e => ?_) fun i e o n x hrep => ?_
    · exact (if_neg (hnotBad hs hact)).trans (if_neg Bool.false_ne_true)
    · obtain ⟨m, he⟩ := complete_eq ((s.taken i e).writeWithdraw stn.toNat false) (.withdraw stn.toNat) (Config.openStatus s.freeCtr) .none
      rw [he] at hrep ⊢
      exact ⟨(stn_setStn_self _ _ _).trans (by rw [Bool.and_false]; rfl), hrep, rfl⟩
  case noStation =>
    refine command_replies ha (u := s.taken) (fun i e => if_pos ?_) fun i e o n x hrep => ?_
    · rw [Bool.or_eq_true_iff]
      exact hbad.imp (fun h => decide_eq_true h) fun h => (congrArg not h).trans rfl
    · exact ⟨hrep, rfl⟩
  case withdrawn =>
    refine event_answers hup ?_
    dsimp only
    have hdom' : s.crs.domains.any (fun _ d => d.running && d.run.contains stn.val) = false := by
      rw [Bool.eq_false_iff]
      intro hany
      obtain ⟨k, d, hm, hd⟩ := any_eq_true.mp hany
      obtain ⟨hrun, hmem⟩ := Bool.and_eq_true_iff.mp hd
      exact hdom (k, d) hm hrun (List.contains_iff_mem.mp hmem)
    have hquarters : (List.range 4).all (fun q => !s.quarterBusy stn.val q) = true :=
      List.all_eq_true.mpr fun q hmem => by rw [hq q (List.mem_range.mp hmem)]; rfl
    rw [if_pos (by rw [hw, hwd, hdom', hquarters, hh]; rfl)]
    obtain ⟨m, hm⟩ := complete_eq (s.setStn stn.val { s.stn stn.val with wdDone := true }) (.withdraw stn.val) .ok .none
    rw [hm]
    exact ⟨stn_setStn_self _ _ _, rfl⟩
  case homes =>
    refine event_idle s (if_neg ?_)
    rw [hh]
    simp

end Machine
end Sys2Proof

/-! SUPPORT. The near tiers' bands and bursts (O27). -/

namespace Sys2Proof
namespace Machine

theorem near_setNear_self (s : State) (d : Nat) (n : NearTier) : (s.setNear d n).near d = n := Table.read_write_self _ _ _ _

theorem near_setNear_ne (s : State) {d e : Nat} (h : e ≠ d) (n : NearTier) : (s.setNear d n).near e = s.near e := Table.read_write_ne _ _ h.symm _

/-! ## Bands (Table 9.8) -/

theorem bandAfter_hot {tj : Nat} (h : 105 ≤ tj) (b : Nat) (hb : b ≤ 3) : bandAfter b tj = 3 := by
  simp only [bandAfter, bandUp]; split_ifs <;> omega

theorem bandAfter_enter {tj : Nat} (h1 : 95 < tj) (h2 : tj < 98) : bandAfter 0 tj = 1 := by
  simp only [bandAfter, bandUp]; split_ifs <;> omega

theorem bandAfter_stays {tj : Nat} (h1 : 93 < tj) (h2 : tj ≤ 95) : bandAfter 1 tj = 1 := by
  simp only [bandAfter, bandUp]; split_ifs <;> omega

theorem bandAfter_cool {tj : Nat} (h : tj ≤ 93) (b : Nat) : bandAfter b tj = 0 := by
  simp only [bandAfter, bandUp]; split_ifs <;> omega

/-! ## Causes raised over several domains -/

theorem raiseHold_hold_ne (s : State) {c a : Nat} (h : c ≠ a) (n : Nat) : (s.raiseHold a n).hold c = s.hold c := by
  rw [State.hold, raiseHold_holds]
  exact Table.read_write_ne _ _ h.symm _

theorem each_raiseHold_hold_of_notMem (l : List Nat) (n : Nat) {c : Nat} (h : c ∉ l) (s : State) :
    (s.each l (fun t c => t.raiseHold c n)).hold c = s.hold c := by
  induction l generalizing s with
  | nil => rfl
  | cons a l ih =>
    obtain ⟨hne, hl⟩ := List.ne_and_not_mem_of_not_mem_cons h
    exact (ih hl (s.raiseHold a n)).trans (raiseHold_hold_ne s hne n)

theorem raiseHold_getLsbD_of (s : State) (a c : Nat) {n : Nat} (hn : n < 8) (h : c = a ∨ ((s.hold c).cause).getLsbD n = true) :
    (((s.raiseHold a n).hold c).cause).getLsbD n = true := by
  by_cases hc : c = a
  · subst hc
    rw [raiseHold_hold_self, BitVec.getLsbD_or, getLsbD_causeBit_self hn, Bool.or_true]
  · rw [raiseHold_hold_ne s hc]
    exact h.resolve_left hc

theorem each_raiseHold_getLsbD (l : List Nat) (c : Nat) {n : Nat} (hn : n < 8) (s : State)
    (h : c ∈ l ∨ ((s.hold c).cause).getLsbD n = true) : (((s.each l (fun t c => t.raiseHold c n)).hold c).cause).getLsbD n = true := by
  induction l generalizing s with
  | nil => exact h.resolve_left List.not_mem_nil
  | cons a l ih =>
    refine ih (s.raiseHold a n) ?_
    rcases h with h | h
    · rcases List.mem_cons.mp h with rfl | h
      · exact .inr (raiseHold_getLsbD_of s c c hn (.inl rfl))
      · exact .inl h
    · exact .inr (raiseHold_getLsbD_of s a c hn (.inr h))

/-- Settles O27: the bands of Table 9.8, and a burst as cause 1 of the domains on its die. -/
theorem nearTierRows : Obligations.NearTierRows := by
  simp only [Obligations.NearTierRows, Answers, exec]
  refine ⟨fun s d hup => event_of_up hup _, fun s d tj hup => ?band, fun s d hup hb hbu hdue => ?lead, fun s d hup hd hs => ?notDue,
    fun s d hup hb => ?ends⟩
  case band =>
    refine event_answers hup ?_
    dsimp only
    rw [near_setNear_self]
    refine ⟨rfl, toNat_ite_lt_eq_max _ _, fun h => ?_, fun h1 h2 hz => ?_, fun h1 h2 h => ?_, fun h => ?_, rfl, rfl⟩
    · dsimp only
      rw [bandAfter_hot h _ (by omega)]
      rfl
    · dsimp only
      rw [hz, show (0 : BitVec 2).toNat = 0 from rfl, bandAfter_enter h1 h2]
      exact ⟨rfl, Bool.or_true _⟩
    · dsimp only
      rw [h, show (1 : BitVec 2).toNat = 1 from rfl, bandAfter_stays h1 h2]
      rfl
    · dsimp only
      rw [bandAfter_cool h]
      rfl
  case lead =>
    have hleads : (s.near d.val).leads = true := by
      simp only [NearTier.leads, decide_eq_true hb, hbu, Bool.not_false, Bool.true_and, Bool.or_eq_true, decide_eq_true_iff]
      exact hdue
    refine event_answers hup ?_
    dsimp only
    rw [if_pos hleads]
    obtain ⟨h, x, l, he⟩ := each_raiseHold_eq (s.setNear d.val { s.near d.val with burst := true, due := false, since := 0 }) (s.slotsOnDie d.val) 1
    have hnear : (State.each (s.setNear d.val { s.near d.val with burst := true, due := false, since := 0 }) (s.slotsOnDie d.val)
        (fun t c => t.raiseHold c 1)).near d.val = { s.near d.val with burst := true, due := false, since := 0 } := by
      rw [he]
      exact near_setNear_self _ _ _
    rw [hnear]
    refine ⟨rfl, rfl, rfl, fun c hc => each_raiseHold_getLsbD _ c (by omega) _ (.inl hc), fun c hc => each_raiseHold_hold_of_notMem _ 1 hc _, ?_⟩
    rw [he]
    rfl
  case notDue =>
    refine event_idle s (if_neg ?_)
    simp only [NearTier.leads, hd, Bool.false_or, decide_eq_false (not_le.mpr hs), Bool.and_false]
    decide
  case ends =>
    refine event_answers hup ?_
    dsimp only
    rw [if_pos hb]
    obtain ⟨x, l, hcount⟩ := count_eq (s.setNear d.val { s.near d.val with burst := false }) 0x0201 d.val 1
    have hcounter := count_counter (s.setNear d.val { s.near d.val with burst := false }) 0x0201 d.val 1
    have hnear (e : Nat) : (State.count (s.setNear d.val { s.near d.val with burst := false }) 0x0201 d.val 1).near e
        = if e = d.val then { s.near d.val with burst := false } else s.near e := by
      rw [hcount]
      split_ifs with h
      · subst h; exact near_setNear_self _ _ _
      · exact near_setNear_ne _ h _
    have hhold (c : Nat) : (State.count (s.setNear d.val { s.near d.val with burst := false }) 0x0201 d.val 1).hold c = s.hold c := by
      rw [hcount]; rfl
    have hdie (e : Nat) : (State.count (s.setNear d.val { s.near d.val with burst := false }) 0x0201 d.val 1).slotsOnDie e = s.slotsOnDie e := by
      rw [hcount]; rfl
    generalize State.count (s.setNear d.val { s.near d.val with burst := false }) 0x0201 d.val 1 = t at *
    obtain ⟨h, he⟩ := each_clearHold_eq t ((s.slotsOnDie d.val).filter (fun c =>
      !(((List.range 4).filter (fun d => (t.near d).burst)).flatMap t.slotsOnDie).contains c && (t.hold c).cause.getLsbD 1)) 1
    refine ⟨?_, ?_, fun c hc hother => each_clearHold_getLsbD t _ c (by omega) ?_, ?_⟩
    · rw [he]
      exact congrArg NearTier.burst ((hnear d.val).trans (if_pos rfl))
    · rw [he]
      exact hcounter
    · cases hbit : ((t.hold c).cause).getLsbD 1
      · exact .inr rfl
      · refine .inl (List.mem_filter.mpr ⟨hc, ?_⟩)
        have hstill : c ∉ ((List.range 4).filter (fun d => (t.near d).burst)).flatMap t.slotsOnDie := by
          rw [List.mem_flatMap]
          rintro ⟨e, hmem, hce⟩
          obtain ⟨hlt, hbe⟩ := List.mem_filter.mp hmem
          rw [hdie] at hce
          rw [hnear] at hbe
          split_ifs at hbe with hne
          exact hother e (List.mem_range.mp hlt) hne hbe hce
        rw [hbit, Bool.and_true, Bool.not_eq_true', ← Bool.not_eq_true, List.contains_iff_mem]
        exact hstill
    · rw [he, hcount]
      rfl

end Machine
end Sys2Proof

/-! SUPPORT. Ports of the Septyth Link: what the loss of a link leaves alone (R284), and the bypass switches (O43). -/

namespace Sys2Proof
namespace Machine

@[simp] theorem port_setPort_self (s : State) (n : Nat) (p : SlPort) : (s.setPort n p).port n = p := Table.read_write_self _ _ _ _

theorem port_setPort_ne (s : State) {n m : Nat} (h : m ≠ n) (p : SlPort) : (s.setPort n p).port m = s.port m := Table.read_write_ne _ _ h.symm _

@[simp] theorem byp_setByp_self (s : State) (i : Nat) (b : Byp) : (s.setByp i b).byp i = b := Table.read_write_self _ _ _ _

/-! ## What a link's loss leaves alone -/

/-- The fields of a port that traffic and its aborts leave alone. -/
def SlPort.sameLink (p q : SlPort) : Prop := q.trained = p.trained ∧ q.state = p.state ∧ q.drain = p.drain ∧ q.fail = p.fail

/-- From `s` to `t` only traffic and what hangs on it has changed: the switches, the system map, stored bytes and every port's link are as before. -/
structure LinkKept (s t : State) : Prop where
  byps : t.sl.byps = s.sl.byps
  sysmap : t.sl.sysmap = s.sl.sysmap
  mem : t.mem = s.mem
  ports : ∀ n, (s.port n).sameLink (t.port n)

theorem LinkKept.refl (s : State) : LinkKept s s := ⟨rfl, rfl, rfl, fun _ => ⟨rfl, rfl, rfl, rfl⟩⟩

theorem LinkKept.trans {a b c : State} (hab : LinkKept a b) (hbc : LinkKept b c) : LinkKept a c where
  byps := hbc.byps.trans hab.byps
  sysmap := hbc.sysmap.trans hab.sysmap
  mem := hbc.mem.trans hab.mem
  ports n := by
    obtain ⟨h1, h2, h3, h4⟩ := hab.ports n
    obtain ⟨g1, g2, g3, g4⟩ := hbc.ports n
    exact ⟨g1.trans h1, g2.trans h2, g3.trans h3, g4.trans h4⟩

theorem LinkKept.each {α : Type} {f : State → α → State} (h : ∀ s a, LinkKept s (f s a)) (l : List α) (s : State) : LinkKept s (s.each l f) :=
  each_rel LinkKept.refl LinkKept.trans h l s

theorem LinkKept.setPort (s : State) (n : Nat) {p : SlPort} (h : (s.port n).sameLink p) : LinkKept s (s.setPort n p) where
  byps := rfl
  sysmap := rfl
  mem := rfl
  ports m := by
    by_cases hm : m = n
    · subst hm; rw [port_setPort_self]; exact h
    · rw [port_setPort_ne s hm]; exact ⟨rfl, rfl, rfl, rfl⟩

theorem LinkKept.sendMsg (s : State) (n : Nat) (m : Msg) : LinkKept s (s.sendMsg n m) := .setPort s n ⟨rfl, rfl, rfl, rfl⟩

theorem LinkKept.sendAbort (s : State) (m : MsgOpen) (rail : Nat) : LinkKept s (s.sendAbort m rail) := by
  unfold State.sendAbort
  split
  · exact .sendMsg ..
  · exact .refl s

theorem LinkKept.count (s : State) (id inst n : Nat) : LinkKept s (s.count id inst n) := by
  obtain ⟨x, l, h⟩ := count_eq s id inst n
  rw [h]
  exact ⟨rfl, rfl, rfl, fun _ => ⟨rfl, rfl, rfl, rfl⟩⟩

theorem LinkKept.suspend (s : State) (b : BitVec 12) (why : Status) (ev : Nat) : LinkKept s (s.suspend b why ev) := by
  by_cases h : (s.bib b).state = .running
  · obtain ⟨e, d, m, he⟩ := suspend_of_running h why ev
    rw [he]
    exact ⟨rfl, rfl, rfl, fun _ => ⟨rfl, rfl, rfl, rfl⟩⟩
  · rw [State.suspend, if_neg h]
    exact .refl s

theorem LinkKept.dropRx (s : State) (port key : Nat) : LinkKept s (s.dropRx port key) := by
  unfold State.dropRx
  split
  next x _ =>
    have hrx : LinkKept s { s with sl.rx := s.sl.rx.remove key } := ⟨rfl, rfl, rfl, fun _ => ⟨rfl, rfl, rfl, rfl⟩⟩
    dsimp only
    split_ifs
    · exact hrx.trans (.count ..)
    · exact (hrx.trans (.count ..)).trans (.suspend ..)
  · exact .refl s

theorem LinkKept.endIn (s : State) (port stream : Nat) : LinkKept s (s.endIn port stream) :=
  .trans (b := { s with sl.fwd := s.sl.fwd.remove (port * 4096 + stream) }) ⟨rfl, rfl, rfl, fun _ => ⟨rfl, rfl, rfl, rfl⟩⟩
    (.setPort _ port ⟨rfl, rfl, rfl, rfl⟩)

theorem LinkKept.freeBuf (s : State) (b : Option (Nat × Nat)) : LinkKept s (s.freeBuf b) := by
  unfold State.freeBuf
  split
  · exact .setPort s _ ⟨rfl, rfl, rfl, rfl⟩
  · exact .refl s

theorem LinkKept.dropTx (s : State) (port : Nat) (f : SlotRef → Bool) : LinkKept s (s.dropTx port f) := by
  have hq : LinkKept s (s.setPort port { s.port port with txq := (s.port port).txq.filter (fun x => !f x.slot) }) := .setPort s port ⟨rfl, rfl, rfl, rfl⟩
  exact hq.trans (.each (fun t (x : TxSlot) => .freeBuf t x.buf) _ _)

theorem LinkKept.setOuts (s : State) (n : Nat) (o : Table Nat) : LinkKept s (s.setPort n { s.port n with outs := o }) :=
  .setPort s n ⟨rfl, rfl, rfl, rfl⟩

theorem LinkKept.abortIn (s : State) (port : Nat) (e : Nat × MsgOpen) : LinkKept s (s.abortIn port e) := by
  unfold State.abortIn
  dsimp only
  refine .trans ?_ (.endIn ..)
  split
  next o _ =>
    exact ((LinkKept.dropTx s (o / 4096) _).trans (.setOuts _ _ _)).trans (.sendAbort ..)
  · exact .dropRx ..

theorem LinkKept.abortIns (s : State) (port : Nat) : LinkKept s (s.abortIns port) := .each (fun t e => .abortIn t port e) _ s

theorem LinkKept.abortOuts (s : State) (port : Nat) : LinkKept s (s.abortOuts port) := by
  refine .trans ((LinkKept.dropTx s port fun _ => true).trans (.each (fun t e => ?_) (s.port port).outs _)) (.setPort _ port ⟨rfl, rfl, rfl, rfl⟩)
  split_ifs
  · exact .refl t
  · split
    · exact .trans (b := { t with sl.fwd := t.sl.fwd.remove (e.2 - 1) }) ⟨rfl, rfl, rfl, fun _ => ⟨rfl, rfl, rfl, rfl⟩⟩ (.sendAbort ..)
    · exact .refl t

/-- A port that loses its link: what is left of it, and what is left alone elsewhere. -/
theorem losePort_eq (s : State) (port : Nat) (st : BitVec 3) (fail : BitVec 4) :
    ∃ t q, s.losePort port st fail = t.setPort port { state := st, drain := (s.port port).drain, fail := fail, phyNew := q } ∧ LinkKept s t := by
  have hkept : LinkKept s ((s.abortIns port).abortOuts port) := (LinkKept.abortIns s port).trans (.abortOuts ..)
  refine ⟨(s.abortIns port).abortOuts port, (((s.abortIns port).abortOuts port).port port).phyNew, ?_, hkept⟩
  rw [State.losePort, (hkept.ports port).2.2.1]

end Machine
end Sys2Proof

/-! SUPPORT. The bypass switches: a switch's moves and its closing (O43, R273, R274). -/

namespace Sys2Proof
namespace Machine

/-! ## Ports that lose their link -/

/-- The port has no link and stands in this state. -/
def SlPort.down (p : SlPort) (st : BitVec 3) : Prop := p.trained = false ∧ p.state = st

theorem losePort_down_self (s : State) (n : Nat) (st : BitVec 3) (fail : BitVec 4) : ((s.losePort n st fail).port n).down st := by
  obtain ⟨t, q, he, -⟩ := losePort_eq s n st fail
  rw [he, port_setPort_self]
  exact ⟨rfl, rfl⟩

theorem losePort_down_of {s : State} {m : Nat} {st : BitVec 3} (h : (s.port m).down st) (n : Nat) (fail : BitVec 4) :
    ((s.losePort n st fail).port m).down st := by
  by_cases hm : m = n
  · subst hm; exact losePort_down_self ..
  · obtain ⟨t, q, he, hkept⟩ := losePort_eq s n st fail
    obtain ⟨h1, h2, -, -⟩ := hkept.ports m
    rw [he, port_setPort_ne _ hm]
    exact ⟨h1.trans h.1, h2.trans h.2⟩

theorem losePort_byps (s : State) (n : Nat) (st : BitVec 3) (fail : BitVec 4) : (s.losePort n st fail).sl.byps = s.sl.byps := by
  obtain ⟨t, q, he, hkept⟩ := losePort_eq s n st fail
  rw [he]
  exact hkept.byps

theorem losePort_mem (s : State) (n : Nat) (st : BitVec 3) (fail : BitVec 4) : (s.losePort n st fail).mem = s.mem := by
  obtain ⟨t, q, he, hkept⟩ := losePort_eq s n st fail
  rw [he]
  exact hkept.mem

/-- Several ports lose their links: they are down, switches and stored bytes are as before. -/
theorem each_losePort (st : BitVec 3) (f : State → Nat → BitVec 4) (l : List Nat) (s : State) :
    (∀ p, p ∈ l ∨ (s.port p).down st → ((s.each l (fun t p => t.losePort p st (f t p))).port p).down st)
      ∧ (s.each l (fun t p => t.losePort p st (f t p))).sl.byps = s.sl.byps ∧ (s.each l (fun t p => t.losePort p st (f t p))).mem = s.mem := by
  induction l generalizing s with
  | nil => exact ⟨fun p h => h.resolve_left List.not_mem_nil, rfl, rfl⟩
  | cons a l ih =>
    obtain ⟨hdown, hbyps, hmem⟩ := ih (s.losePort a st (f s a))
    refine ⟨fun p h => hdown p ?_, hbyps.trans (losePort_byps ..), hmem.trans (losePort_mem ..)⟩
    rcases h with h | h
    · rcases List.mem_cons.mp h with rfl | h
      · exact .inr (losePort_down_self ..)
      · exact .inl h
    · exact .inr (losePort_down_of h ..)

/-! ## Moves of a switch -/

/-- The record of a switch that has moved: peers stand in JOINED alone. -/
def Byp.moved (b : Byp) : Byp := if b.state = .joined then b else { b with peerP := 0, peerM := 0 }

theorem Byp.moved_eq (b : Byp) : b.moved.state = b.state ∧ b.moved.join = b.join ∧ b.moved.reason = b.reason ∧ b.moved.open_ = b.open_
    ∧ b.moved.hold = b.hold := by
  unfold Byp.moved
  split_ifs <;> exact ⟨rfl, rfl, rfl, rfl, rfl⟩

theorem moveSwitch_eq (s : State) (i : Nat) (b : Byp) : ∃ e, s.moveSwitch i b = (s.setByp i b.moved).raise e ∧
    e.arg = .bypass s.moduleNum (i / 3 = 1) (BitVec.ofNat 2 (i % 3)) (swCode (s.byp i).state) (swCode b.state) b.moved.reason := ⟨_, rfl, rfl⟩

theorem moveSwitch_byp (s : State) (i : Nat) (b : Byp) : (s.moveSwitch i b).byp i = b.moved := byp_setByp_self s i _

/-- Lines of a record that a move of a switch writes and the loss of its ports then leaves. -/
theorem each_losePort_moveSwitch (st : BitVec 3) (f : State → Nat → BitVec 4) (s : State) (i : Nat) (b : Byp) :
    ((s.moveSwitch i b).each (portsOf i) (fun t p => t.losePort p st (f t p))).byp i = b.moved
      ∧ (∀ p ∈ portsOf i, (((s.moveSwitch i b).each (portsOf i) (fun t p => t.losePort p st (f t p))).port p).down st)
      ∧ ((s.moveSwitch i b).each (portsOf i) (fun t p => t.losePort p st (f t p))).mem = s.mem := by
  obtain ⟨hdown, hbyps, hmem⟩ := each_losePort st f (portsOf i) (s.moveSwitch i b)
  refine ⟨?_, fun p hp => hdown p (.inl hp), hmem⟩
  rw [State.byp, hbyps]
  exact moveSwitch_byp s i b

/-- The record of a switch that closes from OPENING, TRAIN or JOINED. -/
abbrev Byp.closing (b : Byp) (why : BitVec 4) : Byp := { b with state := .closing, reason := why, join := false, hold := false }

theorem closeSwitch_of_open {s : State} {i : Nat} (h : (s.byp i).state = .opening ∨ (s.byp i).state = .train ∨ (s.byp i).state = .joined)
    (why : BitVec 4) : (s.closeSwitch i why).byp i = ((s.byp i).closing why).moved
      ∧ (∀ p ∈ portsOf i, ((s.closeSwitch i why).port p).down 0) ∧ (s.closeSwitch i why).mem = s.mem := by
  have hclose : s.closeSwitch i why
      = (s.moveSwitch i ((s.byp i).closing why)).each (portsOf i) (fun u p => u.losePort p 0 (u.port p).fail) := by
    unfold State.closeSwitch
    rcases h with h | h | h <;> simp only [h]
  rw [hclose]
  exact each_losePort_moveSwitch 0 _ s i _

theorem closeSwitch_of_loop {s : State} {i : Nat} (h : (s.byp i).state = .loop) (why : BitVec 4) :
    (s.closeSwitch i why).byp i = ({ s.byp i with state := .bypass, reason := why } : Byp).moved ∧ (s.closeSwitch i why).mem = s.mem := by
  have hclose : s.closeSwitch i why = (s.moveSwitch i { s.byp i with state := .bypass, reason := why }).each (portsOf i)
      (fun u p => u.losePort p 0 (u.port p).fail) := by
    unfold State.closeSwitch
    simp only [h]
  rw [hclose]
  obtain ⟨hbyp, -, hmem⟩ := each_losePort_moveSwitch 0 (fun u p => (u.port p).fail) s i { s.byp i with state := .bypass, reason := why }
  exact ⟨hbyp, hmem⟩

/-- The state of each listed port is written. -/
theorem each_setState (st : BitVec 3) (s : State) {l : List Nat} (hl : l.Nodup) :
    ∃ x, s.each l (fun t p => t.setPort p { t.port p with state := st }) = { s with sl.ports := x }
      ∧ ∀ p, (s.each l (fun t p => t.setPort p { t.port p with state := st })).port p
        = if p ∈ l then { s.port p with state := st } else s.port p := by
  induction l generalizing s with
  | nil => exact ⟨s.sl.ports, rfl, fun p => rfl⟩
  | cons a l ih =>
    obtain ⟨ha, hl⟩ := List.nodup_cons.mp hl
    obtain ⟨x, he, hport⟩ := ih (s.setPort a { s.port a with state := st }) hl
    refine ⟨x, he, fun p => (hport p).trans ?_⟩
    by_cases hp : p = a
    · subst hp
      rw [if_neg ha, port_setPort_self, if_pos List.mem_cons_self]
    · rw [port_setPort_ne s hp]
      simp only [List.mem_cons, hp, false_or]

theorem portsOf_nodup (i : Nat) : (portsOf i).Nodup := by
  simp [portsOf, portOf]

/-- A write of JOIN touches its switch alone. -/
theorem writeJoin_true (s : State) (i : Nat) : s.writeJoin i true = s.setByp i { s.byp i with join := true } := rfl

theorem writeJoin_false_of_joined {s : State} {i : Nat} (h : (s.byp i).state = .joined) :
    (s.writeJoin i false).byp i = ((s.byp i).closing 1).moved ∧ (s.writeJoin i false).mem = s.mem := by
  have hset : (s.setByp i { s.byp i with join := false }).byp i = { s.byp i with join := false } := byp_setByp_self ..
  have hwrite : s.writeJoin i false = (s.setByp i { s.byp i with join := false }).closeSwitch i 1 := by
    unfold State.writeJoin
    simp only [h]
    rfl
  obtain ⟨hbyp, -, hmem⟩ := closeSwitch_of_open (s := s.setByp i { s.byp i with join := false }) (i := i)
    (by rw [hset]; exact .inr (.inr h)) 1
  rw [hwrite]
  exact ⟨hbyp.trans (by rw [hset]), hmem⟩

end Machine
end Sys2Proof

/-! SUPPORT. The rows of Table 13.5's switches (O43). -/

namespace Sys2Proof
namespace Machine

/-- A switch moves and both its ports take a state. -/
theorem moveSwitch_each_setState (st : BitVec 3) (s : State) (i : Nat) (b : Byp) :
    ∃ x e, (s.moveSwitch i b).each (portsOf i) (fun t p => t.setPort p { t.port p with state := st })
        = { (s.setByp i b.moved).raise e with sl.ports := x } ∧
      e.arg = .bypass s.moduleNum (i / 3 = 1) (BitVec.ofNat 2 (i % 3)) (swCode (s.byp i).state) (swCode b.state) b.moved.reason ∧
      (∀ p ∈ portsOf i, ({ (s.setByp i b.moved).raise e with sl.ports := x } : State).port p = { s.port p with state := st }) ∧
      ({ (s.setByp i b.moved).raise e with sl.ports := x } : State).byp i = b.moved := by
  obtain ⟨e, hmove, harg⟩ := moveSwitch_eq s i b
  obtain ⟨x, he, hport⟩ := each_setState st (s.moveSwitch i b) (portsOf_nodup i)
  refine ⟨x, e, by rw [he, hmove], harg, fun p hp => ?_, byp_setByp_self s i b.moved⟩
  rw [← hmove, ← he]
  exact (hport p).trans (if_pos hp)

theorem moveSwitch_drained_byp (s : State) (i : Nat) (b : Byp) (d : List Nat) : ({ s.moveSwitch i b with sl.drained := d } : State).byp i = b.moved :=
  moveSwitch_byp s i b

/-- Settles O43: each row moves the switch from its one state, and a closing switch takes its ports down. -/
theorem bypassRows : Obligations.BypassRows := by
  simp only [Obligations.BypassRows, Answers, exec]
  refine ⟨fun s rail dim hup hst hz hh hsz hf => ?toLoop, fun s rail dim hup hst hsz => ?sizeOne, fun s rail dim hup hst hj hb hh hm ho => ?openStart,
    fun s rail dim hup hst => ?opened, fun s rail dim hup hst => event_idle s (if_neg hst), fun s rail dim hup hst hb => ?joined,
    fun s rail dim hup hst hb hf => ?timeout, fun s rail dim hup hh hst => ?lossOpen, fun s rail dim hup hh hst => ?lossLoop,
    fun s rail dim hup hst => ?closed, fun s rail dim hup hh => ?stuck, fun s rail dim hup => ?join, fun s rail dim hup hst => ?leave⟩
  case toLoop =>
    refine event_answers hup ?_
    dsimp only
    rw [if_pos (by rw [hst, hz, hh, hsz, hf]; rfl)]
    obtain ⟨x, e, he, harg, hports, hbyp⟩ := moveSwitch_each_setState 1 s (bypKey rail.val dim.val) { s.byp (bypKey rail.val dim.val) with state := .loop }
    rw [he]
    rw [hst] at harg
    rw [hbyp]
    exact ⟨(Byp.moved_eq _).1, hports, ⟨e, rfl, _, harg⟩, rfl⟩
  case sizeOne =>
    refine event_idle s (if_neg ?_)
    rw [hst, hsz]
    simp
  case openStart =>
    refine event_answers hup ?_
    dsimp only
    rw [if_pos (by rw [hst, hj, hb, hh, hm, ho]; rfl)]
    obtain ⟨hbyp, hdown, hmem⟩ := each_losePort_moveSwitch 2 (fun _ _ => 0) s (bypKey rail.val dim.val)
      { s.byp (bypKey rail.val dim.val) with state := .opening, hold := true }
    rw [hbyp]
    exact ⟨(Byp.moved_eq _).1, (Byp.moved_eq _).2.2.2.2, hdown, congrArg Mem.bytes hmem⟩
  case opened =>
    refine event_answers hup ?_
    dsimp only
    rw [if_pos hst]
    obtain ⟨x, e, he, harg, hports, hbyp⟩ := moveSwitch_each_setState 2 s (bypKey rail.val dim.val)
      { s.byp (bypKey rail.val dim.val) with state := .train, open_ := true }
    rw [he, hbyp]
    exact ⟨(Byp.moved_eq _).1, (Byp.moved_eq _).2.2.2.1, hports, rfl⟩
  case joined =>
    refine event_answers hup ?_
    dsimp only
    rw [if_pos (by rw [hst, hb]; rfl)]
    rw [moveSwitch_drained_byp]
    refine ⟨rfl, rfl, rfl, fun hmem => ?_, rfl⟩
    simpa using (List.mem_filter.mp hmem).2
  case timeout =>
    refine event_answers hup ?_
    dsimp only
    rw [if_pos (by rw [hst, hb]; rfl), hf, if_neg Bool.false_ne_true]
    obtain ⟨hbyp, -, hmem⟩ := closeSwitch_of_open (.inr (.inl hst)) (s.failOf (bypKey rail.val dim.val) 2)
    obtain ⟨h1, h2, h3, -, h5⟩ := Byp.moved_eq ((s.byp (bypKey rail.val dim.val)).closing (s.failOf (bypKey rail.val dim.val) 2))
    rw [hbyp]
    exact ⟨h1, h3, h2, h5, congrArg Mem.bytes hmem⟩
  case lossOpen =>
    refine event_answers hup ?_
    dsimp only
    rw [if_pos (by rw [hh]; rfl)]
    obtain ⟨hbyp, hdown, hmem⟩ := closeSwitch_of_open hst 6
    obtain ⟨h1, h2, h3, -, h5⟩ := Byp.moved_eq ((s.byp (bypKey rail.val dim.val)).closing 6)
    rw [hbyp]
    exact ⟨h1, h3, h2, h5, hdown, congrArg Mem.bytes hmem⟩
  case lossLoop =>
    refine event_answers hup ?_
    dsimp only
    rw [if_pos (by rw [hh]; rfl)]
    obtain ⟨hbyp, hmem⟩ := closeSwitch_of_loop hst 6
    obtain ⟨h1, -, h3, -⟩ := Byp.moved_eq { s.byp (bypKey rail.val dim.val) with state := .bypass, reason := 6 }
    rw [hbyp]
    exact ⟨h1, h3, congrArg Mem.bytes hmem⟩
  case closed =>
    refine event_answers hup ?_
    dsimp only
    rw [if_pos hst, moveSwitch_byp]
    exact ⟨rfl, rfl, rfl, rfl⟩
  case stuck =>
    refine event_answers hup ?_
    dsimp only
    rw [if_pos (by rw [hh]; rfl)]
    exact ⟨byp_setByp_self s _ _, ⟨_, rfl, rfl⟩, rfl⟩
  case join =>
    refine event_answers hup ?_
    rw [writeJoin_true, byp_setByp_self]
    exact ⟨rfl, rfl⟩
  case leave =>
    refine event_answers hup ?_
    obtain ⟨hbyp, hmem⟩ := writeJoin_false_of_joined hst
    obtain ⟨h1, h2, h3, -⟩ := Byp.moved_eq ((s.byp (bypKey rail.val dim.val)).closing 1)
    rw [hbyp]
    exact ⟨h1, h3, h2, congrArg Mem.bytes hmem⟩

end Machine
end Sys2Proof

/-! SUPPORT. Frames sent and received (O38, O39): what a slot's way through a port leaves alone. -/

namespace Sys2Proof
namespace Machine

/-! ## Slots and receive buffers -/

/-- From `s` to `t` only slots move: ports keep everything but their buffers, credits and queued slots, and messages take what has come. -/
structure SlotKept (s t : State) : Prop where
  frame : ∃ x r, t = { s with sl.ports := x, sl.rx := r }
  ports : ∀ n, ∃ v o g q, t.port n = { s.port n with rxVc := v, owed := o, given := g, txq := q }

theorem SlotKept.refl (s : State) : SlotKept s s := ⟨⟨s.sl.ports, s.sl.rx, rfl⟩, fun _ => ⟨_, _, _, _, rfl⟩⟩

theorem SlotKept.trans {a b c : State} (hab : SlotKept a b) (hbc : SlotKept b c) : SlotKept a c where
  frame := by
    obtain ⟨_, _, rfl⟩ := hab.frame
    obtain ⟨x, r, rfl⟩ := hbc.frame
    exact ⟨x, r, rfl⟩
  ports n := by
    obtain ⟨_, _, _, _, h⟩ := hab.ports n
    obtain ⟨v, o, g, q, h'⟩ := hbc.ports n
    exact ⟨v, o, g, q, h'.trans (by rw [h])⟩

theorem SlotKept.setPort (s : State) (n : Nat) (v : List Nat) (o : List (BitVec 3 × BitVec 13)) (g : Nat) (q : List TxSlot) :
    SlotKept s (s.setPort n { s.port n with rxVc := v, owed := o, given := g, txq := q }) where
  frame := ⟨_, s.sl.rx, rfl⟩
  ports m := by
    by_cases hm : m = n
    · subst hm; exact ⟨v, o, g, q, port_setPort_self ..⟩
    · exact ⟨_, _, _, _, port_setPort_ne s hm _⟩

theorem SlotKept.freeBuf (s : State) (b : Option (Nat × Nat)) : SlotKept s (s.freeBuf b) := by
  unfold State.freeBuf
  split
  · exact .setPort s _ _ _ _ _
  · exact .refl s

theorem SlotKept.setRx (s : State) (r : Table RxMsg) : SlotKept s { s with sl.rx := r } := ⟨⟨s.sl.ports, r, rfl⟩, fun _ => ⟨_, _, _, _, rfl⟩⟩

theorem SlotKept.takeSlot (s : State) (n : Nat) (x : SlotRef) : SlotKept s (s.takeSlot n x) := by
  unfold State.takeSlot
  dsimp only
  split_ifs
  · exact .refl s
  · refine .trans (.setPort s n ((s.port n).rxVc.modify x.vc.toNat (· + 1)) (s.port n).owed ((s.port n).given - 1) (s.port n).txq) ?_
    split
    · exact .trans (.setRx _ _) (.freeBuf ..)
    · exact .setPort _ _ _ _ _ _
    · exact .freeBuf ..

/-! ## Frames sent -/

theorem startMsg_of_none {s : State} (h : s.sl.outgoing = []) (n : Nat) : s.startMsg n = s := by
  unfold State.startMsg
  rw [h]
  rfl

/-- At most six slots go with a frame (R266). -/
theorem nextSlots_length_le (p : SlPort) : p.nextSlots.length ≤ 6 := by
  unfold SlPort.nextSlots
  refine List.foldlRecOn (motive := fun (a : List TxSlot × List Nat × List (BitVec 3)) => a.1.length ≤ 6) p.txq _ (Nat.zero_le 6) fun a ha x _ => ?_
  dsimp only
  split_ifs with h
  · rw [List.length_append, List.length_singleton]
    exact h.1
  · exact ha

theorem freeBuf_ports (s : State) (b : Option (Nat × Nat)) : ∃ x, s.freeBuf b = { s with sl.ports := x } := by
  unfold State.freeBuf
  split
  exacts [⟨_, rfl⟩, ⟨s.sl.ports, rfl⟩]

theorem each_freeBuf (l : List TxSlot) (s : State) : (∃ x, s.each l (fun u x => u.freeBuf x.buf) = { s with sl.ports := x })
    ∧ SlotKept s (s.each l (fun u x => u.freeBuf x.buf)) := by
  refine each_rel (R := fun s t => (∃ x, t = { s with sl.ports := x }) ∧ SlotKept s t) (fun s => ⟨⟨s.sl.ports, rfl⟩, .refl s⟩) ?_
    (fun t x => ⟨freeBuf_ports t x.buf, .freeBuf t x.buf⟩) l s
  rintro a b c ⟨⟨_, h⟩, hab⟩ ⟨⟨x, h'⟩, hbc⟩
  subst h h'
  exact ⟨⟨x, rfl⟩, hab.trans hbc⟩

theorem eq_of_count {s t : State} {id inst n : Nat} (h : s.count id inst n = t) :
    (∃ x l, t = { s with ctr := x, log := l }) ∧ t.counter id inst = (s.counter id inst).plus n := by
  subst h
  exact ⟨count_eq s id inst n, count_counter s id inst n⟩

theorem eq_of_countUnless {s t : State} {b : Prop} [Decidable b] {id inst n : Nat} (h : (if b then s else s.count id inst n) = t) :
    ∃ x l, t = { s with ctr := x, log := l } := by
  subst h
  split_ifs
  exacts [⟨s.ctr, s.log, rfl⟩, count_eq s id inst n]

theorem eq_of_raiseIf {s t : State} {b : Prop} [Decidable b] {e : Event} (h : (if b then s.raise e else s) = t) : ∃ l, t = { s with log := l } := by
  subst h
  split_ifs
  exacts [⟨_, rfl⟩, ⟨s.log, rfl⟩]

/-- Settles O38: what a trained port sends is decided by its pattern, its resend list and what waits, in this order. -/
theorem frameSendingRows : Obligations.FrameSendingRows := by
  simp only [Obligations.FrameSendingRows, Answers, exec]
  refine ⟨fun s port hup ht => ?untrained, fun s port hup ht hst hp => ?pattern, fun s port f rest hup ht hst hp hr => ?resent,
    fun s port hup ht hst hp hr ho hns hnm => ?idle, fun s port hup ht hst hp hr ho hn hlen => ?data⟩
  case untrained =>
    refine event_idle s (if_pos ?_)
    rw [ht]; rfl
  case pattern =>
    refine event_answers hup ?_
    dsimp only
    rw [if_neg (by rw [ht, decide_eq_false hst]; decide), if_pos hp]
    exact ⟨⟨_, port_setPort_self .., rfl, rfl, rfl⟩, rfl⟩
  case resent =>
    refine event_answers hup ?_
    dsimp only
    rw [if_neg (by rw [ht, decide_eq_false hst]; decide), if_neg (by rw [hp]; decide), hr]
    dsimp only
    generalize hraise : @ite State _ (instDecidableEqBool _ true) (State.raise s _) s = u
    obtain ⟨g, rfl⟩ := eq_of_raiseIf hraise
    generalize hcount : State.count _ _ _ _ = t
    obtain ⟨⟨x, l, rfl⟩, hcounter⟩ := eq_of_count hcount
    have hport (q : SlPort) : ({ State.setPort { s with log := g } port.val q with ctr := x, log := l } : State).port port.val = q :=
      port_setPort_self s _ q
    rw [hport]
    exact ⟨⟨_, rfl, rfl, rfl, rfl, rfl, rfl⟩, rfl, rfl, rfl, hcounter, rfl⟩
  case idle =>
    refine event_answers hup ?_
    dsimp only
    rw [if_neg (by rw [ht, decide_eq_false hst]; decide), if_neg (by rw [hp]; decide), hr]
    dsimp only
    rw [startMsg_of_none ho, hns, hnm, if_pos (by rfl)]
    rw [port_setPort_self]
    exact ⟨⟨_, rfl, rfl, rfl, rfl, rfl⟩, rfl, rfl, rfl⟩
  case data =>
    have hsome : ¬((((s.port port.val).nextSlots = [] && (s.port port.val).nextMsg = .none) || decide (256 ≤ (s.port port.val).retry.length)) = true) := by
      rw [decide_eq_false (by omega : ¬256 ≤ (s.port port.val).retry.length), Bool.or_false, Bool.and_eq_true_iff, decide_eq_true_iff,
        decide_eq_true_iff]
      rintro ⟨h1, h2⟩
      exact hn.elim (fun h => h h1) fun h => h h2
    refine event_answers hup ?_
    dsimp only
    rw [if_neg (by rw [ht, decide_eq_false hst]; decide), if_neg (by rw [hp]; decide), hr]
    dsimp only
    rw [startMsg_of_none ho, if_neg hsome]
    generalize hset : State.setPort s port.val _ = u
    generalize heach : State.each u _ _ = v
    generalize hslots : (if (s.port port.val).nextSlots = [] then v else State.count v _ _ _) = w
    generalize hfwd : (if ((s.port port.val).nextSlots.filter (fun x => x.buf.isSome)).length = 0 then w else State.count w _ _ _) = t
    obtain ⟨x1, l1, rfl⟩ := eq_of_countUnless hslots
    obtain ⟨x2, l2, rfl⟩ := eq_of_countUnless hfwd
    obtain ⟨⟨ps, hv⟩, hkept⟩ := each_freeBuf _ u
    rw [heach] at hv hkept
    obtain ⟨rv, ow, gi, tq, hport⟩ := hkept.ports port.val
    have hport' : ({ v with ctr := x2, log := l2 } : State).port port.val = _ := hport
    rw [hport', ← hset, port_setPort_self]
    refine ⟨⟨_, rfl, rfl, rfl, rfl, rfl, ?_, rfl, rfl, rfl⟩, rfl, ?_⟩
    · rw [List.length_map]
      exact nextSlots_length_le _
    · subst hv hset
      rfl

end Machine
end Sys2Proof

/-! SUPPORT. Frames received (O39). -/

namespace Sys2Proof
namespace Machine

theorem each_takeSlot (n : Nat) (l : List SlotRef) (s : State) : SlotKept s (s.each l (fun t x => t.takeSlot n x)) :=
  each_rel SlotKept.refl SlotKept.trans (fun t x => SlotKept.takeSlot t n x) l s

theorem takeSlot_without_credit {s : State} {n : Nat} {x : SlotRef}
    (h : (s.port n).given = 0 ∨ hasCredit (s.port n).taken x.vc.toNat = false) : s.takeSlot n x = s := by
  unfold State.takeSlot
  refine if_pos ?_
  rcases h with h | h <;> rw [h] <;> simp

/-- A slot within its credit is added to what has come of its message. -/
theorem takeSlot_data {s : State} {n : Nat} {x : SlotRef} {r : RxMsg} (hg : (s.port n).given ≠ 0)
    (hc : hasCredit (s.port n).taken x.vc.toNat = true) (hr : s.sl.rx.lookup (n * 4096 + x.stream.toNat) = some r) :
    (s.takeSlot n x).sl.rx.lookup (n * 4096 + x.stream.toNat) = some { r with data := r.data ++ x.data }
      ∧ ((s.takeSlot n x).port n).given = (s.port n).given - 1 := by
  have htake : s.takeSlot n x = ({ s.setPort n { s.port n with rxVc := (s.port n).rxVc.modify x.vc.toNat (· + 1), given := (s.port n).given - 1 } with
      sl.rx := s.sl.rx.insert (n * 4096 + x.stream.toNat) { r with data := r.data ++ x.data } } : State).freeBuf (some (n, x.vc.toNat)) := by
    unfold State.takeSlot
    dsimp only
    rw [if_neg (by rw [decide_eq_false hg, hc]; decide)]
    have hr' (p : SlPort) : (s.setPort n p).sl.rx.lookup (n * 4096 + x.stream.toNat) = some r := hr
    rw [hr']
    rfl
  rw [htake]
  refine ⟨Table.lookup_insert_self _ _ _, ?_⟩
  unfold State.freeBuf
  dsimp only
  rw [port_setPort_self]
  exact congrArg SlPort.given (port_setPort_self s n _)

/-- What a trained port does with a frame, its codewords counted: `bad` of them uncorrectable. -/
def State.received (s : State) (n bad : Nat) (crcOk : Bool) (f : Frame) : State :=
  let p := s.port n
  if bad ≠ 0 || !crcOk then s.setPort n { p with nakWait := true, nakDue := true }
  else if f.ftype = 5 then (s.setPort n { p with run := 0, resend := p.retry }).count 0x0506 n 1
  else if f.ftype ≠ 1 ∧ f.ftype ≠ 2 then s
  else if f.ftype = 1 ∧ f.seq = p.rxSeq + 1 then
    let s3 := s.setPort n { p.acked f with rxSeq := f.seq, nakWait := false }
    let s4 := if f.slots = [] then s3 else s3.count 0x0501 n (256 * f.slots.length)
    s4.each (f.slots.filter (fun x => decide (x.vc.toNat < 5))) (fun t x => t.takeSlot n x)
  else if p.nakWait then s
  else
    let lost := (f.ftype = 2 && f.seq ≠ p.rxSeq) || (f.ftype = 1 && decide ((f.seq - p.rxSeq).toNat < 2048 ∧ f.seq ≠ p.rxSeq))
    s.setPort n { p.acked f with nakWait := lost, nakDue := p.nakDue || lost }

/-- Codewords with more symbol errors than R267's code corrects. -/
def uncorrectable (errs : List Nat) : Nat := (errs.filter (fun e => decide (15 < e))).length

theorem uncorrectable_eq_zero {errs : List Nat} (h : ∀ e ∈ errs, e ≤ 15) : uncorrectable errs = 0 := by
  rw [uncorrectable, List.length_eq_zero_iff, List.filter_eq_nil_iff]
  intro e he
  simpa using h e he

theorem uncorrectable_ne_zero {errs : List Nat} (h : ∃ e ∈ errs, 15 < e) : uncorrectable errs ≠ 0 := by
  rw [uncorrectable, Ne, List.length_eq_zero_iff, List.filter_eq_nil_iff]
  intro hall
  obtain ⟨e, he, hlt⟩ := h
  exact hall e he (decide_eq_true hlt)

/-- A trained port counts a frame's codewords, then receives it. -/
theorem slFrameRx_of_trained {s : State} {port : Fin 12} (hup : s.up = true) (ht : (s.port port.val).trained = true) (errs : List Nat)
    (ok : Bool) (f : Frame) : ∃ x l, execSlFrameRx port errs ok f s
      = .next (({ s with ctr := x, log := l } : State).received port.val (uncorrectable errs) ok f) := by
  generalize hcorr : (if (errs.filter (fun e => decide (1 ≤ e ∧ e ≤ 15))).length = 0 then s
    else s.count 0x0503 port.val (errs.filter (fun e => decide (1 ≤ e ∧ e ≤ 15))).length) = u
  obtain ⟨x, l, hu⟩ := eq_of_countUnless hcorr
  generalize hbad : (if uncorrectable errs = 0 then u else u.count 0x0504 port.val (uncorrectable errs)) = v
  obtain ⟨x', l', hv⟩ := eq_of_countUnless hbad
  refine ⟨x', l', (event_of_up hup _).trans ?_⟩
  have hfinal : ({ s with ctr := x', log := l' } : State) = v := by rw [hv, hu]
  rw [hfinal, ← hbad, ← hcorr]
  exact congrArg _ (if_neg (by rw [ht]; decide))

/-- A frame without symbol errors is received as it stands. -/
theorem slFrameRx_of_clean {s : State} {port : Fin 12} (hup : s.up = true) (ht : (s.port port.val).trained = true) (ok : Bool) (f : Frame) :
    execSlFrameRx port [] ok f s = .next (s.received port.val 0 ok f) :=
  (event_of_up hup _).trans (congrArg _ (if_neg (by rw [ht]; decide)))

theorem received_bad {s : State} {n bad : Nat} {ok : Bool} (h : bad ≠ 0 ∨ ok = false) (f : Frame) :
    s.received n bad ok f = s.setPort n { s.port n with nakWait := true, nakDue := true } := by
  refine if_pos ?_
  rcases h with h | h
  · rw [decide_eq_true h, Bool.true_or]
  · rw [h, Bool.not_false, Bool.or_true]

/-- A data frame in order: acknowledgement, then its slots. -/
theorem received_inOrder {s : State} {n : Nat} {f : Frame} (hf : f.ftype = 1) (hseq : f.seq = (s.port n).rxSeq + 1) : ∃ x l,
    s.received n 0 true f = State.each { s.setPort n { (s.port n).acked f with rxSeq := f.seq, nakWait := false } with ctr := x, log := l }
      (f.slots.filter (fun x => decide (x.vc.toNat < 5))) (fun t x => t.takeSlot n x) := by
  generalize hcount : (if f.slots = [] then s.setPort n { (s.port n).acked f with rxSeq := f.seq, nakWait := false }
    else (s.setPort n { (s.port n).acked f with rxSeq := f.seq, nakWait := false }).count 0x0501 n (256 * f.slots.length)) = u
  obtain ⟨x, l, hu⟩ := eq_of_countUnless hcount
  refine ⟨x, l, ?_⟩
  rw [← hu, ← hcount]
  unfold State.received
  dsimp only
  rw [if_neg (by decide), if_neg (by rw [hf]; decide), if_neg (by rw [hf]; decide), if_pos ⟨hf, hseq⟩]

theorem received_inOrder_port {s : State} {n : Nat} {f : Frame} (hf : f.ftype = 1) (hseq : f.seq = (s.port n).rxSeq + 1) :
    (∃ ps rx x l, s.received n 0 true f = { s with sl.ports := ps, sl.rx := rx, ctr := x, log := l }) ∧
      ∃ v o g q, (s.received n 0 true f).port n
        = { (s.port n).acked f with rxSeq := f.seq, nakWait := false, rxVc := v, owed := o, given := g, txq := q } := by
  obtain ⟨x, l, hr⟩ := received_inOrder hf hseq
  have hself (q : SlPort) : ({ s.setPort n q with ctr := x, log := l } : State).port n = q := port_setPort_self _ _ _
  have hkept := each_takeSlot n (f.slots.filter (fun x => decide (x.vc.toNat < 5)))
    { s.setPort n { (s.port n).acked f with rxSeq := f.seq, nakWait := false } with ctr := x, log := l }
  rw [← hr] at hkept
  obtain ⟨ps, rx, hframe⟩ := hkept.frame
  obtain ⟨v, o, g, q, hport⟩ := hkept.ports n
  rw [hself] at hport
  exact ⟨⟨ps, rx, x, l, hframe⟩, v, o, g, q, hport⟩

/-- What follows a discarded frame is discarded till the resent frame comes (R267). -/
theorem received_waits {s : State} {n : Nat} {f : Frame} (hf : f.ftype = 1 ∨ f.ftype = 2) (hw : (s.port n).nakWait = true)
    (hno : ¬(f.ftype = 1 ∧ f.seq = (s.port n).rxSeq + 1)) : s.received n 0 true f = s := by
  unfold State.received
  dsimp only
  rw [if_neg (by decide), if_neg (by rintro h; rw [h] at hf; exact absurd hf (by decide)), if_neg (fun h => hf.elim h.1 h.2), if_neg hno]
  exact if_pos hw

/-- Settles O39: a frame is discarded, repeated or in order, and only a frame in order moves slots. -/
theorem frameReceptionRows : Obligations.FrameReceptionRows := by
  simp only [Obligations.FrameReceptionRows, Answers, exec]
  refine ⟨fun s port errs ok f hup ht => ?untrained, fun s port errs ok f hup ht hbad => ?bad, fun s port errs f hup ht herr hf hseq => ?inOrder,
    fun s port f x r hup ht hf hseq hsl hvc hg hc hr => ?slot, fun s port f x hup ht hf hseq hsl hno => ?noCredit,
    fun s port errs f hup ht herr hf hw hno => ?waits, fun s port f hup ht hf => ?retrain⟩
  case untrained => exact event_idle s (if_pos (by rw [ht]; rfl))
  case bad =>
    obtain ⟨x, l, he⟩ := slFrameRx_of_trained hup ht errs ok f
    rw [received_bad (hbad.imp_left uncorrectable_ne_zero)] at he
    exact ⟨_, he, port_setPort_self .., rfl⟩
  case inOrder =>
    obtain ⟨x, l, he⟩ := slFrameRx_of_trained hup ht errs true f
    obtain ⟨⟨ps, rx, x', l', hframe⟩, v, o, g, q, hport⟩ := received_inOrder_port (s := { s with ctr := x, log := l }) hf hseq
    rw [uncorrectable_eq_zero herr] at he
    refine ⟨_, he, ?_⟩
    rw [hport]
    exact ⟨rfl, rfl, rfl, rfl, rfl, by rw [hframe]⟩
  case slot =>
    obtain ⟨y, l, hrec⟩ := received_inOrder (s := s) hf hseq
    have hfilter : f.slots.filter (fun x => decide (x.vc.toNat < 5)) = [x] := by rw [hsl]; simp [hvc]
    rw [hfilter] at hrec
    refine ⟨_, (slFrameRx_of_clean hup ht true f).trans (congrArg _ hrec), ?_⟩
    have hself (q : SlPort) : ({ s.setPort port.val q with ctr := y, log := l } : State).port port.val = q := port_setPort_self _ _ _
    have htake := takeSlot_data (s := { s.setPort port.val { (s.port port.val).acked f with rxSeq := f.seq, nakWait := false } with
      ctr := y, log := l }) (n := port.val) (x := x) (r := r) (by rw [hself]; exact hg) (by rw [hself]; exact hc) hr
    rw [hself] at htake
    exact htake
  case noCredit =>
    obtain ⟨y, l, hrec⟩ := received_inOrder (s := s) hf hseq
    have hself (q : SlPort) : ({ s.setPort port.val q with ctr := y, log := l } : State).port port.val = q := port_setPort_self _ _ _
    have hnone : State.each { s.setPort port.val { (s.port port.val).acked f with rxSeq := f.seq, nakWait := false } with ctr := y, log := l }
        (f.slots.filter (fun x => decide (x.vc.toNat < 5))) (fun t x => t.takeSlot port.val x)
        = { s.setPort port.val { (s.port port.val).acked f with rxSeq := f.seq, nakWait := false } with ctr := y, log := l } := by
      rw [hsl, List.filter_cons]
      split_ifs
      · exact takeSlot_without_credit (by rw [hself]; exact hno)
      · rfl
    refine ⟨_, (slFrameRx_of_clean hup ht true f).trans (congrArg _ (hrec.trans hnone)), rfl, ?_, rfl⟩
    rw [hself]
    rfl
  case waits =>
    obtain ⟨x, l, he⟩ := slFrameRx_of_trained hup ht errs true f
    rw [uncorrectable_eq_zero herr, received_waits (s := { s with ctr := x, log := l }) hf hw hno] at he
    exact ⟨_, he, rfl⟩
  case retrain =>
    have hrec : s.received port.val 0 true f
        = (s.setPort port.val { s.port port.val with run := 0, resend := (s.port port.val).retry }).count 0x0506 port.val 1 := by
      unfold State.received
      dsimp only
      rw [if_neg (by decide), if_pos hf]
    obtain ⟨⟨x, l, he⟩, hcounter⟩ := eq_of_count (rfl : (s.setPort port.val
      { s.port port.val with run := 0, resend := (s.port port.val).retry }).count 0x0506 port.val 1 = _)
    refine ⟨_, (slFrameRx_of_clean hup ht true f).trans (congrArg _ hrec), ?_, hcounter, ?_⟩
    · rw [he]
      exact port_setPort_self s _ _
    · rw [he]
      rfl

end Machine
end Sys2Proof

/-! SUPPORT. Training of ports (O40). -/

namespace Sys2Proof
namespace Machine

/-- What a training that is done leaves for the CALIBRATE that waits. -/
theorem eq_of_completeIf {s t : State} {b : Prop} [Decidable b] {w : Waiting} {st : Status} {r : Result}
    (h : (if b then s.complete w st r else s) = t) : ∃ m, t = { s with cmd := m } := by
  subst h
  split_ifs
  exacts [complete_eq .., ⟨s.cmd, rfl⟩]

theorem eq_of_lanesRepair {s t : State} {n : Nat} {l : BitVec 8} (h : s.lanesRepair n l = t) : ∃ g, t = { s with log := g } ∧
    (l ≠ 0xFF → ∃ e ∈ g.flight, e.arg = .repair 4 (BitVec.ofNat 12 n) (l.setWidth 64)) := by
  subst h
  unfold State.lanesRepair
  split_ifs with h
  · exact ⟨s.log, rfl, fun hne => absurd h hne⟩
  · exact ⟨_, rfl, fun _ => ⟨_, List.mem_append_right _ (List.mem_singleton_self _), rfl⟩⟩

theorem eq_of_learnAway {s t : State} {n : Nat} {peer : BitVec 11} (h : s.learnAway n peer = t) : ∃ a, t = { s with sl.away := a } := by
  subst h
  unfold State.learnAway
  split
  exacts [⟨_, rfl⟩, ⟨s.sl.away, rfl⟩]

/-- A training with the neighbour that the system map places there (R271): the port is up, on its good lanes. -/
theorem slTrainDone_neighbour {s : State} {port : Fin 12} {cap : Capability} {good l : BitVec 8} {ns : BitVec 12} (hup : s.up = true)
    (hst : (s.byp (switchOf port.val)).state = .train ∨ (s.byp (switchOf port.val)).state = .joined) (hf : s.rink.failed = false)
    (htf : s.trainFault port.val cap good = none) (hl : lanesFor good = some l) :
    ∃ t, execSlTrainDone port true cap good ns s = .next t ∧
      (t.port port.val).trained = true ∧ (t.port port.val).lanes = l ∧ (t.port port.val).peer = cap.module ∧ (t.port port.val).fail = 0
        ∧ (t.port port.val).fibreNs = ns ∧ (t.port port.val).ver = 1 ∧ t.sl.byps = s.sl.byps ∧ t.sl.sysmap = s.sl.sysmap
        ∧ ((t.port port.val).state = if s.sl.drained.contains (switchOf port.val) then 4 else 3) := by
  have hstates : ¬(((s.byp (switchOf port.val)).state ≠ .train && (s.byp (switchOf port.val)).state ≠ .joined) || s.rink.failed) = true := by
    rw [hf, Bool.or_false]
    rcases hst with h | h <;> rw [h] <;> decide
  refine event_answers hup ?_
  dsimp only
  rw [if_neg (by decide), if_neg hstates, htf, hl]
  dsimp only
  generalize hset : State.setPort _ _ _ = v
  generalize haway : State.learnAway _ _ _ = a
  obtain ⟨aw, rfl⟩ := eq_of_learnAway haway
  generalize hrep : State.lanesRepair _ _ _ = u
  obtain ⟨g, rfl, -⟩ := eq_of_lanesRepair hrep
  generalize hfin : @ite State _ (instDecidableEqBool _ true) (State.complete _ _ _ _) _ = t
  obtain ⟨m, rfl⟩ := eq_of_completeIf hfin
  have hframe : ({ v with sl.away := aw, log := g, cmd := m } : State).port port.val = v.port port.val := rfl
  rw [hframe]
  by_cases hsame : ((s.port port.val).trained && decide ((s.port port.val).peer = cap.module)) = true
  · obtain ⟨htr, hpeer⟩ := Bool.and_eq_true_iff.mp hsame
    rw [if_pos hsame, if_pos hsame] at hset
    have hport : v.port port.val = _ := (congrArg (State.port · port.val) hset.symm).trans (port_setPort_self s port.val _)
    have hsl : v.sl.byps = s.sl.byps ∧ v.sl.sysmap = s.sl.sysmap := by rw [← hset]; exact ⟨rfl, rfl⟩
    rw [hport]
    exact ⟨htr, rfl, of_decide_eq_true hpeer, rfl, rfl, rfl, hsl.1, hsl.2, rfl⟩
  · have hkept : LinkKept s ((s.abortIns port.val).abortOuts port.val) := (LinkKept.abortIns s port.val).trans (.abortOuts ..)
    rw [if_neg hsame, if_neg hsame] at hset
    generalize (s.abortIns port.val).abortOuts port.val = z at hset hkept
    have hport : v.port port.val = _ := (congrArg (State.port · port.val) hset.symm).trans (port_setPort_self z port.val _)
    have hsl : v.sl.byps = z.sl.byps ∧ v.sl.sysmap = z.sl.sysmap := by rw [← hset]; exact ⟨rfl, rfl⟩
    rw [hport]
    exact ⟨rfl, rfl, rfl, rfl, rfl, rfl, hsl.1.trans hkept.byps, hsl.2.trans hkept.sysmap, rfl⟩

/-- Settles O40: the record that a training leaves at its port, by its outcome. -/
theorem trainingRows : Obligations.TrainingRows := by
  simp only [Obligations.TrainingRows, Answers, exec]
  refine ⟨fun s port cap good ns l hup hst hf hl => ?loop, fun s port cap good ns l hup hst hf htf hl => ?neighbour,
    fun s port cap good ns w hup hst hf htf => ?fault, fun s port failed hup ht hrun hr => ?retrain, fun s port hup hr => ?down,
    fun s port hup hr => event_idle s (if_neg (by omega))⟩
  case loop =>
    refine event_answers hup ?_
    dsimp only
    rw [if_pos (by rfl), if_neg (by rw [hst, hf]; decide), hl]
    dsimp only
    generalize hrep : State.lanesRepair _ _ _ = u
    obtain ⟨g, rfl, hflight⟩ := eq_of_lanesRepair hrep
    generalize hfin : @ite State _ (instDecidableEqBool _ true) (State.complete _ _ _ _) _ = t
    obtain ⟨m, rfl⟩ := eq_of_completeIf hfin
    have hport (q : SlPort) : ({ s.setPort port.val q with log := g, cmd := m } : State).port port.val = q := port_setPort_self s _ q
    rw [hport]
    exact ⟨rfl, rfl, rfl, rfl, rfl, rfl, rfl, hflight, rfl⟩
  case neighbour => exact slTrainDone_neighbour hup hst hf htf hl
  case fault =>
    have hstates : ¬(((s.byp (switchOf port.val)).state ≠ .train && (s.byp (switchOf port.val)).state ≠ .joined) || s.rink.failed) = true := by
      rw [hf, Bool.or_false]
      rcases hst with h | h <;> rw [h] <;> decide
    refine event_answers hup ?_
    dsimp only
    rw [if_neg (by decide), if_neg hstates, htf]
    dsimp only
    obtain ⟨t, q, he, hkept⟩ := losePort_eq s port.val 5 w
    rw [Option.getD_some, he, port_setPort_self]
    exact ⟨rfl, rfl, rfl, rfl, rfl, rfl, rfl, hkept.byps, congrArg Mem.bytes hkept.mem⟩
  case retrain =>
    have hcond : ((s.port port.val).trained && (decide (8 ≤ (s.port port.val).run.toNat) || decide (1 ≤ (s.port port.val).retrains))
        && decide ((s.port port.val).retrains < 2)) = true := by
      rw [ht, decide_eq_true hr]
      simpa using hrun
    refine event_answers hup ?_
    dsimp only
    rw [if_pos hcond]
    generalize hset : State.count _ _ _ _ = t
    obtain ⟨⟨x, l, rfl⟩, hcounter⟩ := eq_of_count hset
    have hport (q : SlPort) : ({ s.setPort port.val q with ctr := x, log := l } : State).port port.val = q := port_setPort_self s _ q
    rw [hport]
    cases failed with
    | false => exact ⟨rfl, rfl, fun _ => rfl, rfl, hcounter, rfl⟩
    | true => exact ⟨rfl, rfl, nofun, rfl, hcounter, rfl⟩
  case down =>
    refine event_answers hup ?_
    rw [if_pos hr]
    obtain ⟨t, q, he, hkept⟩ := losePort_eq s port.val 0 10
    rw [he, port_setPort_self]
    exact ⟨rfl, rfl, rfl, rfl, hkept.byps, congrArg Mem.bytes hkept.mem⟩

end Machine
end Sys2Proof

/-! SUPPORT. Messages of the Septyth Link (O41): opening, commit, abort and the loss of a link. -/

namespace Sys2Proof
namespace Machine

/-! ## Stores and the link's state -/

/-- A fold commutes with a change of the state that each of its steps commutes with. -/
theorem each_comm {α : Type} {f : State → α → State} {g : State → State} (h : ∀ t a, f (g t) a = g (f t a)) (l : List α) (s : State) :
    (g s).each l f = g (s.each l f) := by
  induction l generalizing s with
  | nil => rfl
  | cons a l ih => exact (congrArg (State.each · l f) (h s a)).trans (ih (f s a))

/-- The state with another state of the link. -/
def State.withSl (s : State) (x : Link) : State := { s with sl := x }

theorem pageItem_withSl (s : State) (x : Link) (b : BitVec 12) (e : Pte) (up : Bool) : (s.withSl x).pageItem b e up = (s.pageItem b e up).withSl x := by
  unfold State.pageItem
  split_ifs <;> rfl

theorem touchPage_withSl (s : State) (x : Link) (b : BitVec 12) (p : Nat) : (s.withSl x).touchPage b p = (s.touchPage b p).withSl x := by
  have htouch (u : State) : u.touchPage b p = if (u.pte b p).prot && (u.pte b p).epoch ≠ (u.bib b).curEpoch then
      ((({ u with lodge.backed := u.lodge.backed.remove (pageKey b p) } : State).pageItem b (u.pte b p) false).pageItem b
        { u.pte b p with epoch := (u.bib b).curEpoch } true).setPte b p { u.pte b p with epoch := (u.bib b).curEpoch }
      else { u with lodge.backed := u.lodge.backed.remove (pageKey b p) } := rfl
  have hpte : (s.withSl x).pte b p = s.pte b p := rfl
  have hbib : (s.withSl x).bib b = s.bib b := rfl
  have hlodge : ({ s.withSl x with lodge.backed := (s.withSl x).lodge.backed.remove (pageKey b p) } : State)
      = ({ s with lodge.backed := s.lodge.backed.remove (pageKey b p) } : State).withSl x := rfl
  rw [htouch, htouch, hlodge, hpte, hbib, pageItem_withSl, pageItem_withSl]
  split_ifs <;> rfl

/-- A store by virtual address does not see the link's state, and leaves it. -/
theorem vaWrite_withSl (s : State) (x : Link) (b : BitVec 12) (va : Nat) (bs : List Byte) :
    (s.withSl x).vaWrite b va bs = (s.vaWrite b va bs).withSl x := by
  unfold State.vaWrite
  refine Eq.trans (congrArg (State.each · _ _) (each_comm (g := fun t => t.withSl x) (fun t e => ?_) _ s))
    (each_comm (g := fun t => t.withSl x) (fun t p => touchPage_withSl t x b p) _ _)
  split <;> rfl

theorem touchPage_eq (s : State) (b : BitVec 12) (p : Nat) : ∃ m g, s.touchPage b p = { s with mem := m, lodge := g } := by
  simp only [State.touchPage, State.pageItem, State.itemIn, State.itemOut, State.setPte]
  split_ifs <;> exact ⟨_, _, rfl⟩

theorem vaWrite_eq (s : State) (b : BitVec 12) (va : Nat) (bs : List Byte) : ∃ m g, s.vaWrite b va bs = { s with mem := m, lodge := g } := by
  have hrefl (s : State) : ∃ m g, s = { s with mem := m, lodge := g } := ⟨s.mem, s.lodge, rfl⟩
  have htrans {a b c : State} : (∃ m g, b = { a with mem := m, lodge := g }) → (∃ m g, c = { b with mem := m, lodge := g }) →
      ∃ m g, c = { a with mem := m, lodge := g } := by
    rintro ⟨_, _, rfl⟩ ⟨m, g, rfl⟩
    exact ⟨m, g, rfl⟩
  unfold State.vaWrite
  refine htrans (each_rel (R := fun s t => ∃ m g, t = { s with mem := m, lodge := g }) hrefl htrans (fun t e => ?_) bs.zipIdx s)
    (each_rel (R := fun s t => ∃ m g, t = { s with mem := m, lodge := g }) hrefl htrans (fun t p => touchPage_eq t b p) _ _)
  split
  exacts [⟨_, t.lodge, rfl⟩, hrefl t]

/-! ## The end of a message's stream -/

theorem endIn_eq (s : State) (n st : Nat) : s.endIn n st
    = { s with sl.fwd := s.sl.fwd.remove (n * 4096 + st), sl.ports := s.sl.ports.write {} n { s.port n with ins := (s.port n).ins.remove st } } := rfl

/-- A message discarded here: what waits of it is dropped, SL_MSG_LOST counts, and its bib is suspended (R284). -/
theorem dropRx_of_last {s : State} {n key : Nat} {x : RxMsg} (hx : s.sl.rx.lookup key = some x) (hr : x.relay = false)
    (hb : (s.bib x.hdr.dbib).state = .running) : (s.dropRx n key).counter 0x0509 n = (s.counter 0x0509 n).plus 1
      ∧ (s.dropRx n key).isSuspended x.hdr.dbib .fault ∧ (s.dropRx n key).sl = { s.sl with rx := s.sl.rx.remove key } ∧ (s.dropRx n key).mem = s.mem := by
  have hdrop : s.dropRx n key = (({ s with sl.rx := s.sl.rx.remove key } : State).count 0x0509 n 1).suspend x.hdr.dbib .fault 0 := by
    unfold State.dropRx
    rw [hx]
    exact if_neg (by rw [hr]; decide)
  obtain ⟨⟨y, l, he⟩, hcounter⟩ := eq_of_count (rfl : ({ s with sl.rx := s.sl.rx.remove key } : State).count 0x0509 n 1 = _)
  have hrun : ((({ s with sl.rx := s.sl.rx.remove key } : State).count 0x0509 n 1).bib x.hdr.dbib).state = .running := by
    rw [he]; exact hb
  obtain ⟨e, d, m, hs⟩ := suspend_of_running hrun .fault 0
  have hsus := suspend_isSuspended hrun .fault 0
  rw [← hdrop] at hs hsus
  refine ⟨?_, hsus, ?_, ?_⟩
  · rw [hs]; exact hcounter
  · rw [hs, he]; rfl
  · rw [hs, he]; rfl

/-- The loss of an idle output leaves its counters and bibs alone. -/
theorem abortOuts_of_idle {s : State} {n : Nat} (ho : (s.port n).outs = []) (hq : (s.port n).txq = []) :
    ∃ x, s.abortOuts n = { s with sl.ports := x } := by
  unfold State.abortOuts State.dropTx
  dsimp only
  rw [ho, hq]
  exact ⟨_, rfl⟩

theorem port_of_ports {s t : State} {n : Nat} {p : SlPort} (h : t.sl.ports = s.sl.ports.write {} n p) : t.port n = p := by
  rw [State.port, h]
  exact Table.read_write_self ..

/-- What a packet that opens a message passes (R280). -/
theorem opens {s : State} {n : Nat} {m : MsgOpen} (ht : (s.port n).trained = true) (hin : (s.port n).ins.has m.stream.toNat = false) (hb : m.bytes ≠ 0)
    (hlen : m.bytes.toNat ≤ 262144) (hrsv : m.rsv = 0) (hmap : s.sl.sysmap.isSome = true) :
    ¬(!(s.port n).trained || (s.port n).ins.has m.stream.toNat || m.bytes = 0 || decide (262144 < m.bytes.toNat) || m.rsv ≠ 0
      || s.sl.sysmap.isNone) = true := by
  have hnone : s.sl.sysmap.isNone = false := by rw [Option.isNone_eq_false_iff]; exact hmap
  rw [ht, hin, decide_eq_false hb, decide_eq_false (not_lt.mpr hlen), hrsv, hnone]
  decide

theorem xlate_withSl (s : State) (x : Link) (b : BitVec 12) (va : Nat) (write strm : Bool) :
    (s.withSl x).xlate b va write strm = s.xlate b va write strm := by
  have hpte (p : Nat) : (s.withSl x).pte b p = s.pte b p := rfl
  unfold State.xlate
  rw [hpte]

theorem vaFault_withSl (s : State) (x : Link) (b : BitVec 12) (va n : Nat) (write : Bool) :
    (s.withSl x).vaFault b va n write = s.vaFault b va n write := by
  have hpte (p : Nat) : (s.withSl x).pte b p = s.pte b p := rfl
  have hkeys : (s.withSl x).keysOf b = s.keysOf b := rfl
  simp only [State.vaFault, xlate_withSl, hpte, hkeys]

/-- A message of KIND 0 to plain memory stores its bytes there, whatever the link holds. -/
theorem applyMsg_plain {s : State} {x : Link} {m : MsgOpen} {data : List Byte} (hkind : m.kind = 0) (hten : s.tensorAt m.dbib m.va.toNat = none)
    (hva : s.vaFault m.dbib m.va.toNat data.length true = none) : (s.withSl x).applyMsg m data = (s.vaWrite m.dbib m.va.toNat data).withSl x := by
  have hten' : (s.withSl x).tensorAt m.dbib m.va.toNat = none := hten
  have hva' : (s.withSl x).vaFault m.dbib m.va.toNat data.length true = none := by rw [vaFault_withSl]; exact hva
  have hzero : m.kind.toNat = 0 := by rw [hkind]; rfl
  unfold State.applyMsg
  rw [hzero]
  unfold State.applyWrite
  dsimp only
  rw [hten']
  dsimp only
  rw [hva']
  exact vaWrite_withSl ..

theorem abortIn_of_here {s : State} {n : Nat} {e : Nat × MsgOpen} (h : s.sl.fwd.lookup (n * 4096 + e.1) = none) :
    s.abortIn n e = (s.dropRx n (n * 4096 + e.1)).endIn n e.1 := by
  unfold State.abortIn
  dsimp only
  rw [h]

/-- The end of an input's stream leaves what waits for the outputs. -/
theorem endIn_msgq {s : State} {n : Nat} {m : Msg} (h : m ∈ (s.port n).msgq) (p st : Nat) : m ∈ ((s.endIn p st).port n).msgq := by
  unfold State.endIn
  dsimp only
  by_cases hn : n = p
  · subst hn
    rw [port_setPort_self]
    exact h
  · rw [port_setPort_ne _ hn]
    exact h

/-- Settles O41: what each row of a message does with its stream, its bytes and its bib. -/
theorem messageRows : Obligations.MessageRows := by
  simp only [Obligations.MessageRows, Answers, exec]
  refine ⟨fun s port m hup ht hin hb hlen hrsv hmap hdst => ?own, fun s port m h so hup ht hin hb hlen hrsv hmap hdst hrel hroute hfree => ?forward,
    fun s port m hup hdst hrel hroute => ?noRoute, fun s port st tag m x k hup hin hfwd hx hr hk hw hkind hten hva => ?commit,
    fun s port st tag m x hup hin hfwd hx hr hrun => ?badTag, fun s port st tag ok m o hup hin hfwd => ?forwardClose,
    fun s port st m x hup hin hfwd hx hr hrun => ?abort, fun s port st hup hin => ?noStream,
    fun s port st m x hup ht hins houts htxq hby hfwd hx hr hrun => ?loss⟩
  case own =>
    refine event_answers hup ?_
    dsimp only
    rw [if_neg (opens ht hin hb hlen hrsv hmap), if_pos hdst]
    refine ⟨Table.lookup_insert_self .., ?_, rfl⟩
    exact (congrArg (fun p : SlPort => p.ins.lookup m.stream.toNat) (port_setPort_self s port.val
      { s.port port.val with ins := (s.port port.val).ins.insert m.stream.toNat m })).trans (Table.lookup_insert_self ..)
  case forward =>
    refine event_answers hup ?_
    dsimp only
    rw [if_neg (opens ht hin hb hlen hrsv hmap), if_neg hdst, hrel, if_neg Bool.false_ne_true, hroute]
    dsimp only
    rw [hfree]
    refine ⟨Table.lookup_insert_self .., ?_, rfl, rfl⟩
    rw [port_setPort_self]
    exact List.mem_append_right _ (List.mem_singleton_self _)
  case noRoute =>
    refine event_idle s ?_
    dsimp only
    split
    · rfl
    · rw [hrel, if_neg Bool.false_ne_true, hroute]
  case commit =>
    refine event_answers hup ?_
    dsimp only
    rw [hin]
    dsimp only
    rw [hfwd, hx]
    dsimp only
    rw [if_neg (by rw [hr]; decide), hk]
    dsimp only
    rw [if_neg (by rw [hw]; decide)]
    have happly : State.applyMsg (State.endIn { s with sl.rx := s.sl.rx.remove (port.val * 4096 + st.toNat) } port.val st.toNat) m
        (openText k m (x.data.take m.bytes.toNat)) = _ := applyMsg_plain (s := s)
      (x := (State.endIn { s with sl.rx := s.sl.rx.remove (port.val * 4096 + st.toNat) } port.val st.toNat).sl) hkind hten hva
    rw [happly]
    obtain ⟨mm, g, he⟩ := vaWrite_eq s m.dbib m.va.toNat (openText k m (x.data.take m.bytes.toNat))
    refine ⟨rfl, rfl, ?_, ?_⟩
    · rw [he]; rfl
    · rw [he]; rfl
  case badTag =>
    refine event_answers hup ?_
    dsimp only
    rw [hin]
    dsimp only
    rw [hfwd, hx]
    dsimp only
    rw [if_neg (by rw [hr]; decide)]
    obtain ⟨⟨y, l, he⟩, hcounter⟩ := eq_of_count
      (rfl : (State.endIn { s with sl.rx := s.sl.rx.remove (port.val * 4096 + st.toNat) } port.val st.toNat).count 0x0508 port.val 1 = _)
    have hrun' : (((State.endIn { s with sl.rx := s.sl.rx.remove (port.val * 4096 + st.toNat) } port.val st.toNat).count 0x0508 port.val 1).bib
        m.dbib).state = .running := by rw [he]; exact hrun
    obtain ⟨ee, d, mm, hs⟩ := suspend_of_running hrun' .auth 0
    obtain ⟨hst, hwhy⟩ := suspend_isSuspended hrun' .auth 0
    refine ⟨?_, hst, hwhy, ?_, ?_⟩
    · rw [hs]; exact hcounter
    · rw [hs, he]; rfl
    · rw [hs, he]; rfl
  case forwardClose =>
    refine event_answers hup ?_
    dsimp only
    rw [hin]
    dsimp only
    rw [hfwd]
    dsimp only
    refine ⟨?_, rfl⟩
    have hsent : Msg.close (BitVec.ofNat 12 (o % 4096)) tag ∈ ((s.sendMsg (o / 4096) (.close (BitVec.ofNat 12 (o % 4096)) tag)).port (o / 4096)).msgq := by
      rw [State.sendMsg, port_setPort_self]
      exact List.mem_append_right _ (List.mem_singleton_self _)
    exact endIn_msgq hsent ..
  case abort =>
    refine event_answers hup ?_
    rw [hin]
    dsimp only
    obtain ⟨hcounter, ⟨hst, hwhy⟩, hsl, hmem⟩ := dropRx_of_last (n := port.val) hx hr hrun
    rw [abortIn_of_here hfwd]
    generalize s.dropRx port.val (port.val * 4096 + st.toNat) = t at hcounter hst hwhy hsl hmem ⊢
    exact ⟨hcounter, hst, hwhy, congrArg Link.rx hsl, hmem⟩
  case noStream =>
    refine event_idle s ?_
    rw [hin]
  case loss =>
    refine event_answers hup ?_
    dsimp only
    rw [if_pos ht, if_neg hby]
    obtain ⟨hcounter, ⟨hst, hwhy⟩, hsl, hmem⟩ := dropRx_of_last (n := port.val) hx hr hrun
    have hins' : s.abortIns port.val = (s.dropRx port.val (port.val * 4096 + st)).endIn port.val st := by
      unfold State.abortIns
      rw [hins]
      exact abortIn_of_here (e := (st, m)) hfwd
    generalize s.dropRx port.val (port.val * 4096 + st) = t at hcounter hst hwhy hsl hmem hins'
    have hport : (t.endIn port.val st).port port.val = { s.port port.val with ins := (s.port port.val).ins.remove st } := by
      have htp : t.port port.val = s.port port.val := by
        rw [State.port, hsl]
        rfl
      rw [State.endIn, htp]
      exact port_setPort_self ..
    obtain ⟨ps, hout⟩ := abortOuts_of_idle (s := t.endIn port.val st) (n := port.val) (by rw [hport]; exact houts) (by rw [hport]; exact htxq)
    rw [State.losePort, hins', hout]
    dsimp only
    rw [port_setPort_self]
    exact ⟨rfl, rfl, hcounter, hst, hwhy, hmem⟩

end Machine
end Sys2Proof

/-! SUPPORT. Rings (O44): JOIN, the system map, drains and pattern tests. -/

namespace Sys2Proof
namespace Machine

/-! ## Folds that leave the state, and counts of several instances -/

theorem each_eq_self {α : Type} {f : State → α → State} {s : State} {l : List α} (h : ∀ a ∈ l, f s a = s) : s.each l f = s := by
  induction l with
  | nil => rfl
  | cons a l ih =>
    have ha : f s a = s := h a List.mem_cons_self
    exact (congrArg (State.each · l f) ha).trans (ih fun b hb => h b (List.mem_cons_of_mem a hb))

theorem plus_zero (c : Counter) : c.plus 0 = c := by
  obtain ⟨o, v⟩ := c
  have hv := v.isLt
  cases o with
  | true => rfl
  | false =>
    unfold Counter.plus
    rw [if_neg Bool.false_ne_true, if_pos (by omega : v.toNat + 0 < 2 ^ 48)]
    simp

/-- Counts of a list of increments, each in the instance of its place. -/
theorem each_count_counter (id base : Nat) (l : List Nat) (k : Nat) (s : State) (i : Nat) :
    (s.each ((l.zipIdx k).filter (fun e => e.1 ≠ 0)) (fun u e => u.count id (base + e.2) e.1)).counter id (base + i)
      = if k ≤ i then (s.counter id (base + i)).plus (l.getD (i - k) 0) else s.counter id (base + i) := by
  induction l generalizing k s with
  | nil => simp [State.each, plus_zero]
  | cons n l ih =>
    have hcount (u : State) : (u.count id (base + k) n).counter id (base + i) = if i = k then (u.counter id (base + i)).plus n else u.counter id (base + i) := by
      split_ifs with h
      · subst h; exact count_counter ..
      · exact count_counter_ne _ (by simp only [ctrKey]; omega) _
    have hstep : (s.each (((n :: l).zipIdx k).filter (fun e => e.1 ≠ 0)) (fun u e => u.count id (base + e.2) e.1)).counter id (base + i)
        = if k + 1 ≤ i then ((if i = k then (s.counter id (base + i)).plus n else s.counter id (base + i))).plus (l.getD (i - (k + 1)) 0)
          else if i = k then (s.counter id (base + i)).plus n else s.counter id (base + i) := by
      rw [List.zipIdx_cons, List.filter_cons]
      by_cases hn : n = 0
      · subst hn
        rw [if_neg (by simp), ih, plus_zero]
        simp
      · rw [if_pos (by simpa using hn)]
        refine (ih (k + 1) (s.count id (base + k) n)).trans ?_
        rw [hcount]
    rw [hstep]
    rcases lt_trichotomy i k with h | h | h
    · rw [if_neg (by omega), if_neg (by omega), if_neg (by omega)]
    · subst h
      rw [if_neg (by omega), if_pos rfl, if_pos le_rfl, Nat.sub_self]
      rfl
    · rw [if_pos (by omega), if_neg (by omega), if_pos (by omega), show i - k = (i - (k + 1)) + 1 by omega]
      rfl

theorem each_count_eq {α : Type} (id n : α → Nat) (cid : Nat) (l : List α) (s : State) :
    ∃ x g, s.each l (fun u e => u.count cid (id e) (n e)) = { s with ctr := x, log := g } := by
  refine each_rel (R := fun s t => ∃ x g, t = { s with ctr := x, log := g }) (fun s => ⟨s.ctr, s.log, rfl⟩) ?_ (fun t e => count_eq ..) l s
  rintro _ _ _ ⟨_, _, rfl⟩ ⟨x, g, rfl⟩
  exact ⟨x, g, rfl⟩

/-! ## Drained rings -/

/-- The ports of a ring that carries no job stand drained. -/
def State.drainPort (s : State) (p : Nat) : State := if (s.port p).state = 3 then s.setPort p { s.port p with state := 4 } else s

theorem drainPort_eq (s : State) (p : Nat) : ∃ x, s.drainPort p = { s with sl.ports := x } := by
  unfold State.drainPort
  split_ifs
  exacts [⟨_, rfl⟩, ⟨s.sl.ports, rfl⟩]

theorem drainPort_port (s : State) (p m : Nat) :
    (s.drainPort p).port m = if m = p ∧ (s.port p).state = 3 then { s.port m with state := 4 } else s.port m := by
  unfold State.drainPort
  by_cases h3 : (s.port p).state = 3
  · rw [if_pos h3]
    by_cases hm : m = p
    · subst hm
      rw [if_pos ⟨rfl, h3⟩, port_setPort_self]
    · rw [if_neg (fun h => hm h.1), port_setPort_ne s hm]
  · rw [if_neg h3, if_neg (fun h => h3 h.2)]

theorem startPattern_port (s : State) (p m : Nat) : (s.startPattern p).port m = if m = p then { s.port m with pattern := true } else s.port m := by
  split_ifs with h
  · subst h; exact port_setPort_self ..
  · exact port_setPort_ne s h _

/-- Both ports of a ring that carries no job stand drained. -/
theorem drainPorts_state {s : State} {a b p : Nat} (hp : p = a ∨ p = b) (h3 : (s.port p).state = 3) : (((s.drainPort a).drainPort b).port p).state = 4 := by
  rw [drainPort_port, drainPort_port, drainPort_port]
  by_cases ha : p = a
  · subst ha
    simp [h3]
  · have hb : p = b := hp.resolve_left ha
    subst hb
    simp [ha, h3]

theorem each_startPattern (l : List Nat) (s : State) : (∃ x w, s.each l State.startPattern = { s with sl.ports := x, sl.waitPat := w })
    ∧ (∀ p, p ∈ l ∨ (s.port p).pattern = true → ((s.each l State.startPattern).port p).pattern = true)
    ∧ ∀ p, ((s.each l State.startPattern).port p).state = (s.port p).state := by
  induction l generalizing s with
  | nil => exact ⟨⟨s.sl.ports, s.sl.waitPat, rfl⟩, fun p h => h.resolve_left List.not_mem_nil, fun p => rfl⟩
  | cons a l ih =>
    obtain ⟨⟨x, w, he⟩, hpat, hstate⟩ := ih (s.startPattern a)
    refine ⟨⟨x, w, he⟩, fun p h => hpat p ?_, fun p => (hstate p).trans ?_⟩
    · rw [startPattern_port]
      split_ifs with hpa
      · exact .inr rfl
      · exact h.imp_left fun hm => (List.mem_cons.mp hm).resolve_left hpa
    · rw [startPattern_port]
      split_ifs <;> rfl

theorem closeSwitch_of_bypass {s : State} {i : Nat} (h : (s.byp i).state = .bypass) (why : BitVec 4) : s.closeSwitch i why = s := by
  unfold State.closeSwitch
  simp only [h]

theorem mapped {s : State} (hm : s.sl.sysmap.isSome = true) : ¬s.sl.sysmap.isNone = true := by
  rw [Bool.not_eq_true, Option.isNone_eq_false_iff]
  exact hm

/-- A JOIN that neither waits nor has been written (R275). -/
theorem freshJoin {s : State} {i : Nat} (hw : i ∉ s.sl.waitJoin) (hj : (s.byp i).join = false) :
    ¬(s.sl.waitJoin.contains i || ((s.byp i).join && (s.byp i).state ≠ .joined)) = true := by
  rw [hj, Bool.false_and, Bool.or_false, List.contains_iff_mem]
  exact hw

/-- With every switch in BYPASS a new system map closes none. -/
theorem each_closeSwitch_of_bypass {s : State} (h : ∀ i, i < 6 → (s.byp i).state = .bypass) (f : Nat → Bool) :
    s.each ((List.range 6).filter f) (fun u i => u.closeSwitch i 0) = s :=
  each_eq_self fun i hi => closeSwitch_of_bypass (h i (List.mem_range.mp (List.mem_filter.mp hi).1)) 0

/-- Settles O44: what JOIN, SYSMAP, DRAIN and a pattern test refuse, do at once and wait for. -/
theorem ringRows : Obligations.RingRows := by
  simp only [Obligations.RingRows, Answers, exec]
  refine ⟨fun s c rail on ha => ?dimThree, fun s c rail dim on ha hd hm => ?noMap, fun s c rail dim ha hd hm hw hj hst hdr => ?joinNow,
    fun s c rail dim ha hd hm hw hj hst hdr => ?joinWaits, fun s c rail dim ha hd hm hw hst => ?leave,
    fun s c dx dy dz sysid x y z ha hx0 hx hy0 hy hz0 hz hcx hcy hcz hby => ?sysmap, fun s c dx dy dz sysid x y z ha hbad => ?sysmapBounds,
    fun s c port on ha hp => ?drainBounds, fun s c port ha hp => ?drain, fun s port hup => ?undrain, fun s port hup hp hw hf => ?pattern,
    fun s port hup hp hw hf => ?patternWaits, fun s rail dim hup hc hw => ?drained, fun s rail dim p hup hp hc => ?carries,
    fun s port errs hup hp => ?testEnd, fun s port errs hup hp => ?noTest⟩
  case dimThree =>
    refine command_replies ha (u := s.taken) (st := .version) (fun _ _ => if_pos rfl) fun i e o n x hr => ?_
    exact ⟨hr, rfl⟩
  case noMap =>
    refine command_replies ha (u := s.taken) (st := .busy) (fun i e => (if_neg hd).trans (if_pos ?_)) fun i e o n x hr => ?_
    · exact Option.isNone_iff_eq_none.mpr hm
    · exact ⟨hr, rfl⟩
  case joinNow =>
    refine command_replies ha (u := fun i e => (s.taken i e).writeJoin (bypKey rail.val dim.toNat) true) (st := .ok) (fun i e => ?_) fun i e o n x hr => ?_
    · exact (if_neg hd).trans ((if_neg (mapped (s := s) hm)).trans ((if_neg (by decide)).trans ((if_neg (freshJoin (s := s) hw hj)).trans ((if_neg hst).trans
        (if_pos (List.contains_iff_mem.mpr hdr))))))
    · exact ⟨byp_setByp_self .., hr, rfl⟩
  case joinWaits =>
    refine command_defers ha (u := fun i e => { s.taken i e with sl.waitJoin := s.sl.waitJoin ++ [bypKey rail.val dim.toNat] })
      (w := .join (bypKey rail.val dim.toNat)) (fun i e => ?_) fun i e o n x hr => ?_
    · exact (if_neg hd).trans ((if_neg (mapped (s := s) hm)).trans ((if_neg (by decide)).trans ((if_neg (freshJoin (s := s) hw hj)).trans ((if_neg hst).trans
        (if_neg (fun h => hdr (List.contains_iff_mem.mp h)))))))
    · exact ⟨rfl, hr, rfl⟩
  case leave =>
    refine command_replies ha (u := fun i e => State.writeJoin { s.taken i e with
      sl.waitJoin := s.sl.waitJoin.filter (fun x => x ≠ bypKey rail.val dim.toNat) } (bypKey rail.val dim.toNat) false) (st := .ok) (fun i e => ?_)
      fun i e o n x hr => ?_
    · exact (if_neg hd).trans ((if_neg (mapped (s := s) hm)).trans ((if_pos rfl).trans (congrArg (fun u => (State.writeJoin u _ false).reply (c.of 0x0502) .ok)
        (if_neg (fun h => hw (List.contains_iff_mem.mp h))))))
    · obtain ⟨hbyp, hmem⟩ := writeJoin_false_of_joined (s := { s.taken i e with
        sl.waitJoin := s.sl.waitJoin.filter (fun x => x ≠ bypKey rail.val dim.toNat) }) (i := bypKey rail.val dim.toNat) hst
      obtain ⟨h1, -, h3, -⟩ := Byp.moved_eq ((s.byp (bypKey rail.val dim.toNat)).closing 1)
      exact ⟨(congrArg Byp.state hbyp).trans h1, (congrArg Byp.reason hbyp).trans h3, hr, congrArg Mem.bytes hmem⟩
  case sysmap =>
    have hok : ¬(dx = 0 ∨ 16 < dx.toNat ∨ dy = 0 ∨ 16 < dy.toNat ∨ dz = 0 ∨ 8 < dz.toNat ∨ dx.toNat ≤ x.toNat ∨ dy.toNat ≤ y.toNat
        ∨ dz.toNat ≤ z.toNat) := by
      rintro (h | h | h | h | h | h | h | h | h)
      exacts [hx0 h, absurd h (by omega), hy0 h, absurd h (by omega), hz0 h, absurd h (by omega), absurd h (by omega), absurd h (by omega),
        absurd h (by omega)]
    refine command_replies ha (u := fun i e => { s.taken i e with
      sl.sysmap := some { dx := dx, dy := dy, dz := dz, sysid := sysid, x := x, y := y, z := z }, sl.away := [] }) (st := .ok) (fun i e => ?_)
      fun i e o n x hr => ?_
    · refine (if_neg hok).trans ?_
      dsimp only
      rw [each_closeSwitch_of_bypass]
      exact hby
    · exact ⟨rfl, hr, rfl⟩
  case sysmapBounds =>
    refine command_replies ha (u := s.taken) (st := .bounds) (fun _ _ => if_pos hbad) fun i e o n x hr => ?_
    exact ⟨hr, rfl⟩
  case drainBounds =>
    refine command_replies ha (u := s.taken) (st := .bounds) (fun _ _ => if_pos hp) fun i e o n x hr => ?_
    exact ⟨hr, rfl⟩
  case drain =>
    refine command_replies ha (u := fun i e => (s.taken i e).writeDrain port.toNat true) (st := .ok) (fun _ _ => if_neg (by omega)) fun i e o n x hr => ?_
    exact ⟨port_setPort_self .., hr, rfl⟩
  case undrain =>
    refine event_answers hup ?_
    refine ⟨?_, fun hmem => ?_, rfl⟩
    · refine (port_setPort_self s port.val _).trans ?_
      simp only [Bool.not_false, Bool.true_and, decide_eq_true_eq]
    · simpa using (List.mem_filter.mp hmem).2
  case pattern =>
    refine event_answers hup ?_
    rw [State.writePattern, hp, Bool.false_or, if_neg (by rwa [List.contains_iff_mem]), if_pos hf]
    exact ⟨port_setPort_self .., rfl⟩
  case patternWaits =>
    refine event_answers hup ?_
    rw [State.writePattern, hp, Bool.false_or, if_neg (by rwa [List.contains_iff_mem]), hf, if_neg Bool.false_ne_true]
    exact ⟨rfl, rfl⟩
  case drained =>
    refine event_answers hup ?_
    dsimp only
    rw [if_neg (by rw [List.any_eq_true]; rintro ⟨p, hp, h⟩; rw [hc p hp] at h; cases h)]
    generalize hdr : (if s.sl.drained.contains (bypKey rail.val dim.val) then s.sl.drained else s.sl.drained ++ [bypKey rail.val dim.val]) = dr
    have hin : bypKey rail.val dim.val ∈ dr := by
      rw [← hdr]
      split_ifs with h
      · exact List.contains_iff_mem.mp h
      · exact List.mem_append_right _ (List.mem_singleton_self _)
    generalize bypKey rail.val dim.val = i at *
    have hframe : ∃ x, (State.drainPort { s with sl.drained := dr } (portOf (i / 3) (i % 3) false)).drainPort (portOf (i / 3) (i % 3) true)
        = { s with sl.drained := dr, sl.ports := x } := by
      obtain ⟨x, hx⟩ := drainPort_eq { s with sl.drained := dr } (portOf (i / 3) (i % 3) false)
      obtain ⟨x', hx'⟩ := drainPort_eq (State.drainPort { s with sl.drained := dr } (portOf (i / 3) (i % 3) false)) (portOf (i / 3) (i % 3) true)
      exact ⟨x', hx'.trans (by rw [hx])⟩
    have hfour {p : Nat} (hp : p ∈ portsOf i) (h3 : (s.port p).state = 3) := drainPorts_state (s := { s with sl.drained := dr })
      (a := portOf (i / 3) (i % 3) false) (b := portOf (i / 3) (i % 3) true) (p := p) (by simpa [portsOf] using hp) h3
    have hfold : State.each { s with sl.drained := dr } (portsOf i)
        (fun u p => if (u.port p).state = 3 then u.setPort p { u.port p with state := 4 } else u)
        = (State.drainPort { s with sl.drained := dr } (portOf (i / 3) (i % 3) false)).drainPort (portOf (i / 3) (i % 3) true) := rfl
    rw [hfold]
    generalize State.drainPort (State.drainPort _ _) _ = v at hframe hfour ⊢
    obtain ⟨x, rfl⟩ := hframe
    obtain ⟨hframe, hpat, hstate⟩ := each_startPattern ((portsOf i).filter s.sl.waitPat.contains) { s with sl.drained := dr, sl.ports := x }
    dsimp only
    generalize State.each _ _ _ = t at hframe hpat hstate ⊢
    obtain ⟨y, w, rfl⟩ := hframe
    rw [if_neg (fun h => hw (List.contains_iff_mem.mp h))]
    exact ⟨hin, fun p hp h3 => (hstate p).trans (hfour hp h3),
      fun p hp hwp => hpat p (.inl (List.mem_filter.mpr ⟨hp, List.contains_iff_mem.mpr hwp⟩)), rfl⟩
  case carries =>
    refine event_idle s (if_pos (List.any_eq_true.mpr ⟨p, hp, hc⟩))
  case testEnd =>
    refine event_answers hup ?_
    dsimp only
    rw [if_pos hp]
    obtain ⟨x, l, he⟩ := each_count_eq (fun e : Nat × Nat => 8 * port.val + e.2) (·.1) 0x050A ((errs.take 8).zipIdx.filter (fun e => e.1 ≠ 0))
      (s.setPort port.val { s.port port.val with pattern := false })
    have hcounter := each_count_counter 0x050A (8 * port.val) (errs.take 8) 0 (s.setPort port.val { s.port port.val with pattern := false })
    generalize State.each _ _ _ = t at he hcounter ⊢
    obtain ⟨m, hm⟩ := complete_eq t (.pattern port.val) .ok .none
    rw [hm]
    refine ⟨?_, fun i hi => (hcounter i).trans ?_, ?_⟩
    · rw [he]
      exact port_setPort_self s port.val _
    · have hget : (errs.take 8).getD i 0 = errs.getD i 0 := by
        simp only [List.getD_eq_getElem?_getD, List.getElem?_take, if_pos hi]
      rw [if_pos (Nat.zero_le i), Nat.sub_zero, hget]
      rfl
    · rw [he]
      rfl
  case noTest => exact event_idle s (if_neg (by rw [hp]; decide))

end Machine
end Sys2Proof

/-! SUPPORT. The JTAG port and module reset (O55). -/

namespace Sys2Proof
namespace Machine

/-! ## The test port -/

theorem jtag_of_vaux {s : State} (h : s.vauxUp = true) (ir : JtagIr) (dr : Nat) :
    s.jtag ir dr = { s with test.ir := ir, test.dr := BitVec.ofNat 128 dr } := if_pos h

theorem jtag_of_dark {s : State} (h : s.vauxUp = false) (ir : JtagIr) (dr : Nat) : s.jtag ir dr = s := if_neg (by rw [h]; decide)

theorem ofNat_toNat_setWidth {w : Nat} (v : BitVec w) : BitVec.ofNat 128 v.toNat = v.setWidth 128 := BitVec.ofNat_toNat ..

/-! ## Module reset -/

theorem setBytes_eq (s : State) (k : Nat) (bs : List Byte) : ∃ m, s.setBytes k bs = { s with mem := m } := by
  induction bs generalizing s k with
  | nil => exact ⟨s.mem, rfl⟩
  | cons b bs ih =>
    obtain ⟨m, h⟩ := ih (s.setByte k b) (k + 1)
    exact ⟨m, h⟩

theorem beginCommit_eq (s : State) (id : Nat) : ∃ g m, s.beginCommit id = { s with lodge := g, mem := m } := by
  unfold State.beginCommit
  split
  next o _ =>
    split_ifs
    · exact ⟨s.lodge, s.mem, rfl⟩
    · obtain ⟨m, h⟩ := setBytes_eq (s.setObject id { o with first := some s.nextLun }) (byteKey 3 (s.nextLun * 65536)) o.bytes
      exact ⟨_, m, h⟩
  · exact ⟨s.lodge, s.mem, rfl⟩

theorem flushLog_eq (s : State) : ∃ g m, s.flushLog = { s with lodge := g, mem := m } := by
  unfold State.flushLog
  dsimp only
  split_ifs
  · exact ⟨s.lodge, s.mem, rfl⟩
  · generalize hcommit : State.beginCommit _ _ = t
    obtain ⟨g, m, h⟩ := beginCommit_eq _ _
    rw [hcommit] at h
    exact ⟨_, m, by rw [h]; rfl⟩

/-- The shutdown saves the log: only the lodge's state and stored bytes change. -/
theorem shutdown_eq (s : State) : ∃ g m, s.shutdown = { s with lodge := g, mem := m } := by
  unfold State.shutdown
  dsimp only
  split_ifs with h1 h2
  · obtain ⟨g, m, h⟩ := flushLog_eq s
    rw [h]
    split <;> exact ⟨_, _, rfl⟩
  · split <;> exact ⟨_, _, rfl⟩
  · exact ⟨s.lodge, s.mem, rfl⟩

/-- An accepted packet has a role of its opcode (Table 16.3, check 4). -/
theorem role_of_accepts {s : State} {op : Nat} {c : Hdr} (h : s.accepts op c) : c.role ∈ opRoles op := by
  obtain ⟨-, -, hf⟩ := h
  by_contra hno
  rw [State.firstFailure, show (opRoles op).contains c.role = false by simpa using hno, Bool.not_false, if_pos rfl] at hf
  split_ifs at hf

/-- Settles O55: an instruction fills the data register while VAUX is up; RESET leaves the module as the reset does. -/
theorem jtagAndResetRows : Obligations.JtagAndResetRows := by
  simp only [Obligations.JtagAndResetRows, Answers, exec]
  refine ⟨fun s hv => congrArg _ (jtag_of_vaux hv _ _), fun s hv => congrArg _ (jtag_of_vaux hv _ _), fun s pins hv => ?sample,
    fun s pins hv hr => ?extest, fun s pins hv hr => ?extestRun, fun s hv => ?challenge, fun s scope hv hsc => ?token,
    fun s magicOk tver serial challenge scope rsvZero sigOk hv hbad => ?refused, fun s hv => ?dark, fun s c force ha hu => ?updating,
    fun s c ha hu hrun hrole => ?running, fun s c force ha hu hfree => ?reset⟩
  case sample => rw [execJtagSamplePreload, jtag_of_vaux hv, ofNat_toNat_setWidth]
  case extest =>
    rw [execJtagExtest, hv, hr]
    rw [if_pos (by rfl), jtag_of_vaux hv, ofNat_toNat_setWidth]
  case extestRun =>
    rw [execJtagExtest, hr, Bool.and_false]
    rfl
  case challenge =>
    rw [execJtagChallenge, jtag_of_vaux hv, ofNat_toNat_setWidth, BitVec.setWidth_eq]
  case token =>
    simp only [execJtagToken, hv, jtag_of_vaux hv, decide_eq_true hsc]
    rfl
  case refused =>
    have hcond : (s.vauxUp && magicOk && tver = 1 && serial = Config.serial && challenge = s.test.challenge && rsvZero && sigOk
        && decide (scope.toNat < 4)) = false := by
      rw [Bool.eq_false_iff]
      intro hall
      simp only [Bool.and_eq_true, decide_eq_true_eq] at hall
      obtain ⟨⟨⟨⟨⟨⟨⟨-, h1⟩, h2⟩, h3⟩, h4⟩, h5⟩, h6⟩, h7⟩ := hall
      rcases hbad with h | h | h | h | h | h | h
      exacts [absurd h1 (ne_true_of_eq_false h), h h2, h h3, h h4, absurd h7 (not_lt.mpr h), absurd h5 (ne_true_of_eq_false h),
        absurd h6 (ne_true_of_eq_false h)]
    rw [execJtagToken]
    dsimp only
    rw [hcond, jtag_of_vaux hv]
    rfl
  case dark =>
    exact ⟨congrArg _ (jtag_of_dark hv _ _), congrArg _ (jtag_of_dark hv _ _), congrArg _ (jtag_of_dark hv _ _)⟩
  case updating =>
    refine command_replies ha (u := s.taken) (st := .busy) (fun _ _ => if_pos hu) fun i e o n x hr => ?_
    exact ⟨hr, rfl⟩
  case running =>
    refine command_replies ha (u := s.taken) (st := .busy) (fun _ _ => (if_neg ?_).trans (if_pos ?_)) fun i e o n x hr => ?_
    · exact ne_true_of_eq_false hu
    · have hrole' : decide (c.role ≠ 2) = true := decide_eq_true hrole
      have hrun' : ∀ i e, (s.taken i e).anyRunning = true := fun _ _ => hrun
      simp only [hrun', Bool.not_false, Bool.true_and]
      exact hrole'
    · exact ⟨hr, rfl⟩
  case reset =>
    have hfree' : ∀ i e, ((s.taken i e).anyRunning && !force && decide (c.role ≠ 2)) = false := by
      intro i e
      have hrun : (s.taken i e).anyRunning = s.anyRunning := rfl
      rcases hfree with h | h | h
      · rw [hrun, h]; rfl
      · rw [h, Bool.not_true, Bool.and_false]; rfl
      · rw [h, Bool.and_eq_false_iff]; exact .inr rfl
    have hpath : c.path ≠ .host := by
      intro hh
      have hrole := role_of_accepts ha
      have htakes := ha.2.1
      rw [hh] at htakes
      rw [of_decide_eq_true htakes] at hrole
      exact absurd hrole (by decide)
    refine command_answers ha fun i e => ?_
    dsimp only
    rw [if_neg (ne_true_of_eq_false (show (s.taken i e).updating = false from hu)), if_neg (ne_true_of_eq_false (hfree' i e))]
    obtain ⟨g, m, he⟩ := shutdown_eq (s.taken i e)
    rw [he]
    refine ⟨⟨(s.taken i e).mkReply (c.of 0x0509) .ok true 0 .none, ?_, rfl, rfl, rfl, rfl, rfl, rfl, rfl⟩, rfl, rfl, rfl, rfl, rfl, rfl, rfl,
      rfl, rfl, rfl⟩
    unfold State.newest
    split
    next hh => exact absurd hh hpath
    next => rfl

end Machine
end Sys2Proof

/-! SUPPORT. Firmware staging, the live update and the slots (O53). -/

namespace Sys2Proof
namespace Machine

/-- Completing what waits takes it from the waiting list and forms replies; intake and keys stand. -/
theorem complete_cmd (s : State) (w : Waiting) (st : Status) (r : Result) : ∃ o n k, s.complete w st r
    = { s with cmd := { s.cmd with waiting := s.cmd.waiting.filter (fun e => decide (e.1 ≠ w)), outbox := o, sent := n, kept := k } } := by
  have hfold (l : List (Waiting × Hdr)) (u : State) : ∃ o n k, u.each l (fun t e => t.replyAs e.2 st true 0 r)
      = { u with cmd := { u.cmd with outbox := o, sent := n, kept := k } } := by
    refine each_rel (R := fun s t => ∃ o n k, t = { s with cmd := { s.cmd with outbox := o, sent := n, kept := k } })
      (fun s => ⟨s.cmd.outbox, s.cmd.sent, s.cmd.kept, rfl⟩) ?_ (fun t e => replyAs_eq t e.2 st true 0 r) l u
    rintro _ _ _ ⟨_, _, _, rfl⟩ ⟨o, n, k, rfl⟩
    exact ⟨o, n, k, rfl⟩
  exact hfold _ { s with cmd.waiting := s.cmd.waiting.filter (fun e => decide (e.1 ≠ w)) }

theorem notMem_waiting_filter {l : List (Waiting × Hdr)} {w : Waiting} : ∀ e ∈ l.filter (fun e => decide (e.1 ≠ w)), e.1 ≠ w :=
  fun _ he => of_decide_eq_true (List.mem_filter.mp he).2

theorem writeRec_eq (b : Boot) (r : BootRec) : ∃ r0 r1 n, b.writeRec r = { b with rec0 := r0, rec1 := r1, cur := { r with bseq := n } } := by
  unfold Boot.writeRec
  dsimp only
  split_ifs
  exacts [⟨_, b.rec1, _, rfl⟩, ⟨b.rec0, _, _, rfl⟩]

/-- Waiting SVN_ADVANCEs move the fused minimum alone (R316). -/
theorem svnWaiting_eq (s : State) : ∃ v m, s.svnWaiting = { s with boot.svn := v, cmd := m } := by
  refine each_rel (R := fun s t => ∃ v m, t = { s with boot.svn := v, cmd := m }) (fun s => ⟨s.boot.svn, s.cmd, rfl⟩) ?_ (fun t e => ?_) _ s
  · rintro _ _ _ ⟨_, _, rfl⟩ ⟨v, m, rfl⟩
    exact ⟨v, m, rfl⟩
  · split
    next n _ =>
      split_ifs
      · obtain ⟨m, h⟩ := complete_eq { t with boot.svn := n } (.svn n) .ok .none
        exact ⟨n, m, h⟩
      · obtain ⟨m, h⟩ := complete_eq t (.svn n) .ok .none
        exact ⟨t.boot.svn, m, h⟩
      · exact ⟨t.boot.svn, t.cmd, rfl⟩
    · exact ⟨t.boot.svn, t.cmd, rfl⟩

/-- One image staged in a slot, with the slot's VALID bit written (R352). -/
def State.staged (s : State) (sl : Bool) (i : Image) : State :=
  let t : State := { s with boot.images := s.boot.images.insert (imgKey sl i.kind.toNat) i }
  { t with boot := t.boot.writeRec (t.boot.cur.setValid sl (t.slotOk sl)) }

theorem staged_images (s : State) (sl : Bool) (i : Image) :
    (s.staged sl i).svnWaiting.boot.images = s.boot.images.insert (imgKey sl i.kind.toNat) i := by
  obtain ⟨v, m, he⟩ := svnWaiting_eq (s.staged sl i)
  rw [he]
  exact writeRec_images ..

theorem staged_frame (s : State) (sl : Bool) (i : Image) : ∃ b m, (s.staged sl i).svnWaiting = { s with boot := b, cmd := m } := by
  obtain ⟨v, m, he⟩ := svnWaiting_eq (s.staged sl i)
  exact ⟨_, m, he⟩

theorem imgKey_ne {a : Bool} {k j : Nat} (hk : k ≤ 3) (hj : 1 ≤ j) (hj3 : j ≤ 3) : imgKey (!a) j ≠ imgKey a k := by
  cases a <;> simp [imgKey] <;> omega

/-- No update runs and none waits. -/
theorem noUpdate {s : State} {i : List Hdr} {e : Table Nat} (hu : s.updating = false) (hw : ∀ e ∈ s.cmd.waiting, e.1 ≠ .update) :
    ¬((s.taken i e).updating || (s.taken i e).cmd.waiting.any (fun e => decide (e.1 = .update))) = true := by
  have hany : s.cmd.waiting.any (fun e => decide (e.1 = .update)) = false :=
    List.any_eq_false.mpr fun x hx => by rw [decide_eq_true_iff]; exact hw x hx
  rw [show (s.taken i e).updating = false from hu, show (s.taken i e).cmd.waiting = s.cmd.waiting from rfl, hany]
  decide

/-- A trial has from 1 to 3 tries (R356). -/
theorem one_le_tries (n : Nat) : 1 ≤ (BitVec.ofNat 4 (1 + n % 3)).toNat := by
  rw [BitVec.toNat_ofNat]
  omega

theorem reversedBoot_valid (s : State) : s.reversedBoot.cur.valid s.inactive = false := by
  simp [State.reversedBoot]

/-- Settles O53: the boot record, the images and the live update's phases, row by row. -/
theorem firmwareRows : Obligations.FirmwareRows := by
  simp only [Obligations.FirmwareRows, Answers, exec]
  refine ⟨fun s c i ha hst h1 h3 => ?stage, fun s c i ha hbad => ?kind, fun s c ha hu hw hv hr => ?activate, fun s c ha hu hw hv hr => ?recovers,
    fun s c ha hu => ?busy, fun s hup hu h2 h3 => ?imagesRead, fun s hup hu h2 => ?imageBad, fun s hup hu => event_idle s (if_neg hu),
    fun s hup hu => (event_of_up hup _).trans (congrArg _ (if_pos hu)), fun s i hup hu hi => ?handover, fun s hup hu => ?healthy,
    fun s c b ha hb => ?slotBack, fun s c b ha hb => ?slotTry, fun s c n ha hn hok => ?svn, fun s c n ha hn hno => ?svnWaits,
    fun s c n ha hn => ?svnBounds⟩
  case stage =>
    refine command_replies ha (u := fun j e => ((s.taken j e).staged s.inactive i).svnWaiting) (st := .ok) (fun j e => ?_) fun j e o n x hr => ?_
    · dsimp only
      rw [if_neg hst, if_pos (by simpa using ⟨h1, h3⟩)]
      rfl
    · obtain ⟨b, m, he⟩ := staged_frame (s.taken j e) s.inactive i
      have himages := staged_images (s.taken j e) s.inactive i
      rw [he] at himages hr ⊢
      refine ⟨?_, fun k hk => ?_, hr, rfl⟩
      · exact (congrArg (fun t : Table Image => t.lookup _) himages).trans (Table.lookup_insert_self ..)
      · exact (congrArg (fun t : Table Image => t.lookup _) himages).trans (Table.lookup_insert_ne _ (imgKey_ne hk h1 h3) _)
  case kind =>
    have hbad' : ¬[i].all (fun i => decide (1 ≤ i.kind.toNat ∧ i.kind.toNat ≤ 3)) = true := by
      simp only [List.all_cons, List.all_nil, Bool.and_true, decide_eq_true_eq]
      rintro ⟨h1, h3⟩
      rcases hbad with h | h
      · rw [h] at h1; exact absurd h1 (by decide)
      · omega
    refine command_replies ha (u := s.taken) (st := .version) (fun _ _ => if_neg hbad') fun _ _ o n x hr => ?_
    exact ⟨hr, rfl⟩
  case activate =>
    refine command_answers ha fun i e => ?_
    dsimp only
    rw [if_neg (noUpdate hu hw), if_neg (by rw [show (s.taken i e).inactive = s.inactive from rfl, hv]; decide),
      if_neg (ne_true_of_eq_false (show (s.taken i e).inRecovery = false from hr))]
    exact ⟨rfl, ⟨_, List.mem_append_right _ (List.mem_singleton_self _), rfl, rfl⟩, rfl⟩
  case recovers =>
    refine command_defers ha (u := s.taken) (w := .update) (fun i e => ?_) fun i e o n x hr => ?_
    · exact (if_neg (noUpdate hu hw)).trans ((if_neg (by rw [show (s.taken i e).inactive = s.inactive from rfl, hv]; decide)).trans (if_pos hr))
    · exact ⟨hr, rfl⟩
  case busy =>
    refine command_replies ha (u := s.taken) (st := .busy) (fun i e => if_pos ?_) fun i e o n x hr => ?_
    · rw [show (s.taken i e).updating = true from hu, Bool.true_or]
    · exact ⟨hr, rfl⟩
  case imagesRead =>
    refine (event_of_up hup _).trans ?_
    rw [if_pos hu, if_pos (by rw [h2, h3]; rfl)]
  case imageBad =>
    refine event_answers hup ?_
    rw [if_pos hu, h2, Bool.false_and, if_neg Bool.false_ne_true, if_neg Bool.false_ne_true, revertUpdate_eq]
    obtain ⟨o, n, k, he⟩ := complete_cmd { s with boot := State.reversedBoot { s with boot.stat.refused := 2, boot.stat.refSlot := s.inactive }, cmd.paused := false }
      .update .fault .none
    rw [he]
    refine ⟨rfl, rfl, ?_, ?_, rfl, notMem_waiting_filter, rfl⟩
    · exact if_neg (by rw [hu]; decide)
    · exact reversedBoot_valid { s with boot.stat.refused := 2, boot.stat.refSlot := s.inactive }
  case handover =>
    refine event_answers hup ?_
    rw [if_pos hu, hi]
    exact ⟨rfl, rfl, rfl, rfl, rfl, rfl, rfl⟩
  case healthy =>
    refine event_answers hup ?_
    rw [if_pos hu]
    dsimp only
    generalize hc : State.complete _ _ _ _ = t
    obtain ⟨o, n, k, he⟩ := complete_cmd _ _ _ _
    rw [hc] at he
    subst he
    obtain ⟨r0, r1, n, hrec⟩ := writeRec_eq s.boot { s.boot.cur with active := s.inactive }
    rw [hrec]
    exact ⟨rfl, rfl, rfl, rfl, notMem_waiting_filter, rfl⟩
  case slotBack =>
    obtain ⟨r0, r1, q, hrec⟩ := writeRec_eq s.boot { s.boot.cur with try_ := false, tries := 0 }
    refine command_replies ha (u := fun i e => { s.taken i e with boot := s.boot.writeRec { s.boot.cur with try_ := false, tries := 0 } })
      (st := .ok) (fun _ _ => if_pos hb) fun i e o n x hr => ?_
    rw [hrec] at hr ⊢
    exact ⟨rfl, rfl, rfl, hr, rfl⟩
  case slotTry =>
    obtain ⟨r0, r1, q, hrec⟩ := writeRec_eq s.boot { s.boot.cur with try_ := true, tries := BitVec.ofNat 4 (1 + (s.freeVal 2).toNat % 3) }
    refine command_replies ha (u := fun i e => State.used { s.taken i e with
        boot := s.boot.writeRec { s.boot.cur with try_ := true, tries := BitVec.ofNat 4 (1 + (s.freeVal 2).toNat % 3) } })
      (st := .ok) (fun _ _ => if_neg hb) fun i e o n x hr => ?_
    rw [hrec] at hr ⊢
    exact ⟨rfl, one_le_tries _, rfl, hr, rfl⟩
  case svn =>
    refine command_replies ha (u := fun i e => if s.boot.svn.toNat < n.toNat then { s.taken i e with boot.svn := n } else s.taken i e) (st := .ok)
      (fun _ _ => (if_neg (by omega)).trans (if_pos hok)) fun i e o n' x hr => ?_
    split_ifs at hr ⊢ with hlt
    · exact ⟨(max_eq_right hlt.le).symm, hr, rfl⟩
    · exact ⟨(max_eq_left (not_lt.mp hlt)).symm, hr, rfl⟩
  case svnWaits =>
    refine command_defers ha (u := s.taken) (w := .svn n) (fun i e => (if_neg (by omega)).trans (if_neg (ne_true_of_eq_false hno)))
      fun i e o n' x hr => ?_
    exact ⟨hr, rfl⟩
  case svnBounds =>
    refine command_replies ha (u := s.taken) (st := .bounds) (fun _ _ => if_pos hn) fun i e o n x hr => ?_
    exact ⟨hr, rfl⟩

end Machine
end Sys2Proof

/-! SUPPORT. Transfers between the host's data and virtual addresses or objects (O56). -/

namespace Sys2Proof
namespace Machine

/-! ## What a transfer's checks see of the state -/

theorem xlate_of_mem {s t : State} (hm : t.mem = s.mem) (b : BitVec 12) (va : Nat) (write strm : Bool) : t.xlate b va write strm = s.xlate b va write strm := by
  have hpte : t.pte b (va / 2 ^ 21) = s.pte b (va / 2 ^ 21) := by rw [State.pte, State.pte, hm]
  unfold State.xlate
  rw [hpte]

theorem vaFault_of_mem {s t : State} (hm : t.mem = s.mem) (hb : t.bibs = s.bibs) (b : BitVec 12) (va n : Nat) (write : Bool) :
    t.vaFault b va n write = s.vaFault b va n write := by
  have hpte (p : Nat) : t.pte b p = s.pte b p := by rw [State.pte, State.pte, hm]
  have hkeys : t.keysOf b = s.keysOf b := by rw [State.keysOf, State.keysOf, hb]
  simp only [State.vaFault, xlate_of_mem hm, hpte, hkeys]

theorem tileAt_of_crs {s t : State} (hc : t.crs = s.crs) (b : BitVec 12) (va : Nat) : t.tileAt b va = s.tileAt b va := by
  simp only [State.tileAt, State.tensorAt, hc]

theorem byteAt_of_mem {s t : State} (hm : t.mem = s.mem) (hc : t.crs = s.crs) (b : BitVec 12) (va : Nat) : t.byteAt b va = s.byteAt b va := by
  have hhdr (i : TileId) : t.tileHdr i = s.tileHdr i := by rw [State.tileHdr, State.tileHdr, hm]
  simp only [State.byteAt, tileAt_of_crs hc, State.vaKey, xlate_of_mem hm, hhdr]

theorem transferFault_of_mem {s t : State} (hm : t.mem = s.mem) (hb : t.bibs = s.bibs) (hc : t.crs = s.crs) (b : BitVec 12) (va n : Nat) (write : Bool) :
    t.transferFault b va n write = s.transferFault b va n write := by
  have hhdr (i : TileId) : t.tileHdr i = s.tileHdr i := by rw [State.tileHdr, State.tileHdr, hm]
  simp only [State.transferFault, vaFault_of_mem hm hb, State.tilesAt, tileAt_of_crs hc, hhdr]

theorem getBytes_of_mem {s t : State} (hm : t.mem = s.mem) (hc : t.crs = s.crs) (b : BitVec 12) (va n : Nat) : t.getBytes b va n = s.getBytes b va n := by
  have hbyte : t.byte = s.byte := funext fun k => by rw [State.byte, State.byte, hm]
  simp only [State.getBytes, byteAt_of_mem hm hc, hbyte]

/-! ## The bytes that a PUT stores -/

/-- From `s` to `t` only records of tiles and pages differ; the bytes are the same. -/
def RecordsOnly (s t : State) : Prop := t = { s with mem := t.mem, lodge := t.lodge } ∧ t.mem.bytes = s.mem.bytes

theorem RecordsOnly.refl (s : State) : RecordsOnly s s := ⟨rfl, rfl⟩

theorem RecordsOnly.trans {s t u : State} (h : RecordsOnly s t) (h' : RecordsOnly t u) : RecordsOnly s u :=
  ⟨h'.1.trans (congrArg (fun x : State => { x with mem := u.mem, lodge := u.lodge }) h.1), h'.2.trans h.2⟩

theorem touchPage_recordsOnly (s : State) (b : BitVec 12) (p : Nat) : RecordsOnly s (s.touchPage b p) := by
  simp only [State.touchPage, State.pageItem, State.itemIn, State.itemOut, State.setPte]
  split_ifs <;> exact ⟨rfl, rfl⟩

theorem tileOut_recordsOnly (s : State) (h : TileHdr) : RecordsOnly s (s.tileOut h) := by
  unfold State.tileOut
  split_ifs <;> exact ⟨rfl, rfl⟩

theorem tileIn_recordsOnly (s : State) (h : TileHdr) : RecordsOnly s (s.tileIn h) := by
  unfold State.tileIn
  split_ifs <;> exact ⟨rfl, rfl⟩

theorem setTile_recordsOnly (s : State) (i : TileId) (h : TileHdr) : RecordsOnly s (s.setTile i h) := ⟨rfl, rfl⟩

/-- A PUT of one byte stores it at its place; what else it writes is records of tiles and pages. -/
theorem putBytes_one {s : State} {b : BitVec 12} {va k : Nat} (v : Byte) (hk : s.byteAt b va = some k) :
    RecordsOnly (s.setByte k v) (s.putBytes b va [v]) := by
  have hfirst : (match s.byteAt b (va + 0) with | some k => s.setByte k v | none => s) = s.setByte k v := by
    rw [Nat.add_zero, hk]
  unfold State.putBytes
  refine .trans (.trans ?_ (each_rel (R := RecordsOnly) .refl .trans (fun t i => ?tile) _ _))
    (each_rel (R := RecordsOnly) .refl .trans (fun t p => touchPage_recordsOnly t b p) _ _)
  · exact hfirst ▸ .refl _
  case tile =>
    split
    · exact .trans (.trans (tileOut_recordsOnly ..) (tileIn_recordsOnly ..)) (setTile_recordsOnly ..)
    · exact .refl t

/-! ## Answers -/

/-- Off the host path a GET counts no data block. -/
theorem sendBytes_of_path {s : State} {c : Hdr} (h : c.path ≠ .host) (data : List Byte) : s.sendBytes c data = s.replyWith c (.bytes data) := by
  unfold State.sendBytes
  dsimp only
  rw [if_neg fun hc => h hc.1]

theorem onObject_of_owner {s : State} {c : Hdr} {id : Nat} {o : LObj} (ho : s.object id = some o) (hb : o.bib = c.bib) (f : LObj → State) :
    s.onObject c id f = f o := by
  unfold State.onObject
  rw [ho]
  exact if_pos hb

theorem noHostKey_of_path {s : State} {c : Hdr} (h : c.path ≠ .host) : s.noHostKey c = false := by
  rw [State.noHostKey, decide_eq_false h, Bool.false_and]

/-- Settles O56. -/
theorem transferRows : Obligations.TransferRows := by
  simp only [Obligations.TransferRows, Answers, exec]
  refine ⟨fun s c va data st ha hkey hf => ?putFault, fun s c va b k ha hkey hf hb => ?putByte, fun s c dst data ha hkey => ?putNoKey,
    fun s c id data o ha hkey ho hob hfirst => ?putObject, fun s c va len ha hpath hf => ?get, fun s c va len st ha hkey hf => ?getFault,
    fun s c id len o ha hpath ho hob hlost hlen => ?getObject, fun s c id len o ha hkey ho hob hlost => ?getLost,
    fun s b sl cmd hup hs => ?accepted, fun s b sl hup hs hb => ?refused⟩
  case putFault =>
    refine command_replies ha (u := s.taken) (st := st) (fun i e => ?_) fun i e o n x hr => ⟨hr, rfl⟩
    have hf' : (s.taken i e).transferFault c.bib va.toNat data.length true = some st := (transferFault_of_mem (s := s) (t := s.taken i e) rfl rfl rfl ..).trans hf
    refine (if_neg (ne_true_of_eq_false hkey)).trans ?_
    dsimp only
    rw [hf']
  case putByte =>
    refine command_replies ha (u := fun i e => (s.taken i e).putBytes c.bib va.toNat [b]) (st := .ok) (fun i e => ?_) fun i e o n x hr => ?_
    · have hf' : (s.taken i e).transferFault c.bib va.toNat [b].length true = none := (transferFault_of_mem (s := s) (t := s.taken i e) rfl rfl rfl ..).trans hf
      refine (if_neg (ne_true_of_eq_false hkey)).trans ?_
      dsimp only
      rw [hf']
    · obtain ⟨hput, hbytes⟩ := putBytes_one (s := s.taken i e) b ((byteAt_of_mem (s := s) (t := s.taken i e) rfl rfl ..).trans hb)
      have hbyte (a : Nat) : ((s.taken i e).putBytes c.bib va.toNat [b]).byte a = if k = a then b else s.byte a :=
        (congrArg (fun y => Table.read 0 y a) hbytes).trans (setByte_byte s k a b)
      refine ⟨(hbyte k).trans (if_pos rfl), fun a hne => (hbyte a).trans (if_neg hne.symm), hr, ?_⟩
      generalize (s.taken i e).putBytes c.bib va.toNat [b] = u at hput
      rw [hput]
      rfl
  case putNoKey =>
    exact command_replies ha (u := s.taken) (st := .auth) (fun i e => if_pos hkey) fun i e o n x hr => ⟨hr, rfl⟩
  case putObject =>
    refine command_replies ha (u := fun i e => (s.taken i e).setObject id { o with bytes := o.bytes ++ data }) (st := .ok) (fun i e => ?_)
      fun i e o n x hr => ⟨Table.lookup_insert_self .., hr, rfl⟩
    refine (if_neg (ne_true_of_eq_false hkey)).trans ?_
    dsimp only
    rw [onObject_of_owner (s := s.taken i e) (c := c.of 0x0401) ho hob, if_neg (by rw [hfirst]; decide)]
  case get =>
    refine command_results ha (u := s.taken) (r := .bytes (s.getBytes c.bib va.toNat len)) (fun i e => ?_) fun i e o n x hr => ⟨hr, rfl⟩
    have hf' : (s.taken i e).transferFault c.bib va.toNat len false = none := (transferFault_of_mem (s := s) (t := s.taken i e) rfl rfl rfl ..).trans hf
    refine (if_neg (ne_true_of_eq_false (noHostKey_of_path (c := c.of 0x0402) hpath))).trans ?_
    dsimp only
    rw [hf']
    exact (sendBytes_of_path (c := c.of 0x0402) hpath _).trans (congrArg (fun d => (s.taken i e).replyWith _ (.bytes d)) (getBytes_of_mem (s := s) (t := s.taken i e) rfl rfl ..))
  case getFault =>
    refine command_replies ha (u := s.taken) (st := st) (fun i e => ?_) fun i e o n x hr => ⟨hr, rfl⟩
    have hf' : (s.taken i e).transferFault c.bib va.toNat len false = some st := (transferFault_of_mem (s := s) (t := s.taken i e) rfl rfl rfl ..).trans hf
    refine (if_neg (ne_true_of_eq_false hkey)).trans ?_
    dsimp only
    rw [hf']
  case getObject =>
    refine command_results ha (u := s.taken) (r := .bytes (o.bytes.take len)) (fun i e => ?_) fun i e o n x hr => ⟨hr, rfl⟩
    refine (if_neg (ne_true_of_eq_false (noHostKey_of_path (c := c.of 0x0402) hpath))).trans ?_
    dsimp only
    rw [onObject_of_owner (s := s.taken i e) (c := c.of 0x0402) ho hob, if_neg (ne_true_of_eq_false hlost), if_neg (by omega)]
    exact sendBytes_of_path (c := c.of 0x0402) hpath _
  case getLost =>
    refine command_replies ha (u := s.taken) (st := .dataLost) (fun i e => ?_) fun i e o n x hr => ⟨hr, rfl⟩
    refine (if_neg (ne_true_of_eq_false hkey)).trans ?_
    dsimp only
    rw [onObject_of_owner (s := s.taken i e) (c := c.of 0x0402) ho hob, if_pos hlost]
  case accepted =>
    refine event_answers hup ?_
    have htake : s.takeSeal b sl = ((s.setReplay b ((s.replay b).take sl.seq.toNat)).count 0x0703 b.toNat 1, true) := by rw [State.takeSeal, hs]
    rw [htake]
    dsimp only
    generalize hc : State.count _ _ _ _ = t
    obtain ⟨⟨x, l, rfl⟩, hcounter⟩ := eq_of_count hc
    refine ⟨?_, hcounter, rfl⟩
    exact Table.read_write_self ..
  case refused =>
    refine event_answers hup ?_
    have htake : s.takeSeal b sl = (s.count 0x0701 b.toNat 1, false) := by rw [State.takeSeal, hs]
    rw [htake]
    dsimp only
    rw [if_neg Bool.false_ne_true]
    generalize hc : State.count _ _ _ _ = t
    obtain ⟨⟨x, l, rfl⟩, hcounter⟩ := eq_of_count hc
    obtain ⟨d, f, m, he⟩ := suspend_of_running (s := { s with ctr := x, log := l }) hb .auth 0
    obtain ⟨hstate, hwhy⟩ := suspend_isSuspended (s := { s with ctr := x, log := l }) hb .auth 0
    refine ⟨hstate, hwhy, ?_, ?_⟩
    · exact (congrArg (State.counter · 0x0701 b.toNat) he).trans hcounter
    · exact (congrArg State.mem he).trans rfl

end Machine
end Sys2Proof

/-! SUPPORT. The rows of the boot (O52). -/

namespace Sys2Proof
namespace Machine

/-- From `s` to `t` only the lodge and the log differ; the lodge's map is the same. -/
def OnlyLodge (s t : State) : Prop := t = { s with lodge := t.lodge, log := t.log } ∧ t.lodge.map = s.lodge.map

theorem OnlyLodge.refl (s : State) : OnlyLodge s s := ⟨rfl, rfl⟩

theorem OnlyLodge.trans {s t u : State} (h : OnlyLodge s t) (h' : OnlyLodge t u) : OnlyLodge s u :=
  ⟨h'.1.trans (congrArg (fun x : State => { x with lodge := u.lodge, log := u.log }) h.1), h'.2.trans h.2⟩

theorem makeReadOnly_onlyLodge (s : State) : OnlyLodge s s.makeReadOnly := by
  unfold State.makeReadOnly
  split_ifs <;> exact ⟨rfl, rfl⟩

/-- The lodge's statistics are computed anew; its map stands. -/
theorem lodgeStat_onlyLodge (s : State) : OnlyLodge s s.lodgeStat := by
  unfold State.lodgeStat
  extract_lets pct dies wear left st stat' ch t lodge t1
  have ht : OnlyLodge s t := by
    refine each_rel (R := OnlyLodge) .refl .trans (fun u c => ?_) _ s
    exact ⟨rfl, rfl⟩
  have ht1 : OnlyLodge s t1 := ht.trans ⟨rfl, rfl⟩
  split_ifs
  exacts [ht1.trans (makeReadOnly_onlyLodge t1), ht1]

/-- A list numbered from `k` on holds its `i`th entry at `k + i`. -/
theorem lookup_numbered {α β : Type} (f : Nat → α → β) {a : α} : ∀ {l : List α} {k i : Nat}, l[i]? = some a →
    Table.lookup (((List.range' k l.length).zip l).map (fun e => (e.1, f e.1 e.2))) (k + i) = some (f (k + i) a)
  | [], _, i, h => by simp at h
  | b :: l, k, 0, h => by
    obtain rfl : b = a := by simpa using h
    simp [List.range'_succ, Table.lookup]
  | b :: l, k, i + 1, h => by
    have hnext : k + (i + 1) = k + 1 + i := by omega
    simp only [List.length_cons, List.range'_succ, List.zip_cons_cons, List.map_cons, Table.lookup, hnext]
    rw [if_neg (by omega)]
    exact lookup_numbered f (by simpa using h)

/-- Opening the log numbers the held entries from 0 (R365). -/
theorem openLog_ring {s : State} {i : Nat} {e : LogEntry} (h : s.log.held[i]? = some e) :
    s.openLog.log.ring.lookup i = some { e with index := BitVec.ofNat 48 i } := by
  have hn := lookup_numbered (fun i (e : LogEntry) => { e with index := BitVec.ofNat 48 i }) (k := 0) h
  rw [Nat.zero_add, ← List.range_eq_range'] at hn
  exact hn

theorem each_raise_eq {α : Type} (f : α → Event) (l : List α) (s : State) : ∃ g, s.each l (fun t e => t.raise (f e)) = { s with log := g } := by
  refine each_rel (R := fun s t => ∃ g, t = { s with log := g }) (fun s => ⟨s.log, rfl⟩) ?_ (fun t e => ⟨_, rfl⟩) l s
  rintro _ _ _ ⟨_, rfl⟩ ⟨g, rfl⟩
  exact ⟨g, rfl⟩

theorem slotImage_of_image {s : State} {slot : Bool} {kind : Nat} {i : Image} (h : s.image slot kind = some i) :
    s.slotImage slot kind = imageOk s.boot.svn kind i := by
  rw [State.image] at h
  rw [State.slotImage, h]

/-- The bytes of one range of numbers are kept, every other byte is 0. -/
theorem byte_keep (s : State) (lo hi a : Nat) :
    ({ s with mem.bytes := s.mem.bytes.keep (fun k _ => decide (lo ≤ k ∧ k < hi)) } : State).byte a = if lo ≤ a ∧ a < hi then s.byte a else 0 := by
  simp only [State.byte, Table.read, Table.lookup_keep, decide_eq_true_eq]
  split_ifs <;> rfl

/-- A count that happens or not: no entry of the log changes. -/
theorem eq_of_countUnless_flight {s t : State} {b : Prop} [Decidable b] {id inst n : Nat} (h : (if b then s else s.count id inst n) = t) :
    ∃ x l, t = { s with ctr := x, log.flight := l } := by
  subst h
  unfold State.count
  dsimp only
  split_ifs
  exacts [⟨s.ctr, s.log.flight, rfl⟩, ⟨_, _, rfl⟩, ⟨_, s.log.flight, rfl⟩]

theorem auditCheck_of_balanced {s : State} (h : s.audits = []) : s.auditCheck = s := by
  unfold State.auditCheck
  exact if_pos h

/-- Settles O52. -/
theorem bootRows : Obligations.BootRows := by
  simp only [Obligations.BootRows, Answers, exec]
  refine ⟨fun s hp hr hrows htry => ?slot, fun s hp hr hrows htry hleft => ?trial, fun s hrows => ?romLate,
    fun s i hup hrows hi hok => ?loader, fun s hup hrows h0 h1 => ?noLoader, fun s hup hrows => ?trained, fun s hup hrows => ?zeroed,
    fun s i hup hrows hi hok h3 => ?images, fun s hup hrows => ?zilunzor, fun s hup h7 h8 => ?selftest, fun s hup h7 h9 hst => ?lodge,
    fun s hup h7 h10 hall => ?loopback, fun s i hup hi hne => ?notLoop, fun s hup hready h8 h9 h10 haud hf => ?ready,
    fun s hup hready h8 => ?early, fun s hup htr hready hrows hst => ?timeout, fun s hup htr => ?noTrial⟩
  case slot =>
    refine ⟨_, congrArg Host.Outcome.next (if_pos (by rw [hp, hr, decide_eq_true hrows]; rfl)), ?_⟩
    dsimp only
    rw [htry]
    exact ⟨rfl, rfl, rfl, rfl, rfl, rfl, rfl⟩
  case trial =>
    refine ⟨_, congrArg Host.Outcome.next (if_pos (by rw [hp, hr, decide_eq_true hrows]; rfl)), ?_⟩
    dsimp only
    rw [htry, decide_eq_true hleft]
    exact ⟨rfl, rfl⟩
  case romLate =>
    exact congrArg Host.Outcome.next (if_neg (by simp [hrows]))
  case loader =>
    refine event_answers hup ?_
    have himg : s.slotImage s.boot.stat.slot 1 = true := (slotImage_of_image hi).trans hok
    rw [if_pos hrows]
    dsimp only
    rw [if_pos himg, State.bootLoader, hi]
    obtain ⟨r0, r1, n, hrec⟩ := writeRec_eq s.boot { s.boot.cur with boots := s.boot.cur.boots + 1 }
    rw [hrec, hrows]
    exact ⟨rfl, rfl, rfl, rfl, rfl, rfl, rfl, rfl, rfl⟩
  case noLoader =>
    refine event_answers hup ?_
    have hno (slot : Bool) : s.slotImage slot 1 = false := by
      cases slot
      exacts [h0, h1]
    rw [if_pos hrows]
    dsimp only
    have hno' (slot : Bool) : ¬State.slotImage { s with boot.stat.refused := 1, boot.stat.refSlot := s.boot.stat.slot } slot 1 = true :=
      ne_true_of_eq_false (hno slot)
    rw [if_neg (ne_true_of_eq_false (hno _)), if_neg (hno' _)]
    obtain ⟨r0, r1, n, hrec⟩ := writeRec_eq { s.boot with stat.refused := 1, stat.refSlot := s.boot.stat.slot }
      (BootRec.setValid { s.boot.cur.setValid s.boot.stat.slot false with try_ := false } (!s.boot.stat.slot) false)
    rw [hrec]
    exact ⟨rfl, rfl, rfl, rfl, rfl⟩
  case trained =>
    refine (event_of_up hup _).trans (congrArg _ ((if_pos hrows).trans ?_))
    rw [hrows]
    rfl
  case zeroed =>
    refine event_answers hup ?_
    rw [if_pos hrows]
    dsimp only
    generalize hraise : State.each _ _ _ = t
    obtain ⟨g, he⟩ := each_raise_eq _ _ _
    rw [hraise] at he
    subst he
    refine ⟨by rw [hrows]; rfl, rfl, fun a ha => ?_, fun a hlo hhi => ?_, rfl⟩
    · exact (byte_keep s (byteKey 3 0) (byteKey 4 0) a).trans (if_neg (by omega))
    · exact (byte_keep s (byteKey 3 0) (byteKey 4 0) a).trans (if_pos ⟨hlo, hhi⟩)
  case images =>
    refine event_answers hup ?_
    have himg : s.slotImage s.boot.stat.slot 2 = true := (slotImage_of_image hi).trans hok
    rw [if_pos hrows]
    dsimp only
    rw [himg, h3, hi, hrows]
    exact ⟨rfl, rfl, rfl, rfl, rfl⟩
  case zilunzor =>
    refine event_answers hup ?_
    rw [if_pos hrows]
    dsimp only
    generalize hc : @ite State (s.log.held.length = 0) _ _ _ = t
    obtain ⟨x, g, rfl⟩ := eq_of_countUnless_flight hc
    exact ⟨by rw [hrows]; rfl, rfl, rfl, rfl, rfl, fun i e hi => openLog_ring hi, rfl⟩
  case selftest =>
    refine event_answers hup ?_
    rw [h7, h8, if_neg (by decide)]
    dsimp only
    generalize hc : State.count _ _ _ _ = t
    obtain ⟨⟨x, l, rfl⟩, hcounter⟩ := eq_of_count hc
    exact ⟨rfl, rfl, hcounter, rfl⟩
  case lodge =>
    refine event_answers hup ?_
    rw [h7, h9, hst, if_neg (by decide)]
    dsimp only
    generalize hl : State.lodgeStat _ = t
    obtain ⟨he, hmap⟩ := lodgeStat_onlyLodge _
    rw [hl] at he hmap
    refine ⟨?_, hmap, ?_⟩
    · rw [he]; rfl
    · rw [he]; rfl
  case loopback =>
    have hloops : (List.range 6).all (fun i => (s.byp i).state = .loop && s.bothTrained i) = true := by
      rw [List.all_eq_true]
      intro i hi
      obtain ⟨hs, ht⟩ := hall i (List.mem_range.mp hi)
      rw [hs, ht]
      rfl
    refine (event_of_up hup _).trans (congrArg _ ((if_neg (by rw [h7, h10]; decide)).trans (if_pos hloops)))
  case notLoop =>
    refine event_idle s ?_
    by_cases hrow : (!s.reached .b7 || s.reached .b10) = true
    · exact if_pos hrow
    · refine (if_neg hrow).trans (if_neg fun hall => ?_)
      have hloop := List.all_eq_true.mp hall i (List.mem_range.mpr hi)
      rw [decide_eq_false hne] at hloop
      exact absurd hloop (by simp)
  case ready =>
    refine event_answers hup ?_
    rw [hready, h8, h9, h10, if_neg (by decide), auditCheck_of_balanced haud]
    dsimp only
    rw [hf, if_neg Bool.false_ne_true]
    obtain ⟨r0, r1, n, hrec⟩ := writeRec_eq s.boot { s.boot.cur with active := s.boot.stat.slot, try_ := false }
    rw [hrec]
    split_ifs <;> exact ⟨rfl, rfl, rfl, rfl, rfl⟩
  case early =>
    exact (event_of_up hup _).trans (congrArg _ (if_pos (by rw [h8]; simp)))
  case timeout =>
    refine event_answers hup ?_
    rw [if_pos (by rw [htr, hready, decide_eq_true hrows, decide_eq_true hst]; rfl)]
    exact ⟨rfl, rfl, rfl, rfl, rfl, rfl, rfl, rfl, rfl⟩
  case noTrial =>
    exact event_idle s (if_neg (by simp [htr]))

end Machine
end Sys2Proof

/-! SUPPORT. The photo finish and the event log (O49). -/

namespace Sys2Proof

/-! ## Tables that are copied into a table -/

theorem Table.holds_of_mem_keep {α : Type} {p : Nat → α → Bool} {e : Nat × α} : ∀ {t : Table α}, e ∈ t.keep p → p e.1 e.2 = true
  | [], h => by simp [Table.keep] at h
  | (j, b) :: t, h => by
    rw [Table.keep] at h
    split_ifs at h with hp
    · rcases List.mem_cons.mp h with rfl | h
      exacts [hp, Table.holds_of_mem_keep h]
    · exact Table.holds_of_mem_keep h

theorem Table.lookup_eq_none {α : Type} {k : Nat} : ∀ {t : Table α}, (∀ e ∈ t, e.1 ≠ k) → t.lookup k = none
  | [], _ => rfl
  | (j, b) :: t, h => by
    rw [Table.lookup, if_neg (h _ (List.mem_cons_self ..))]
    exact Table.lookup_eq_none fun e he => h e (List.mem_cons_of_mem _ he)

/-- Copying entries into a table leaves the numbers that they do not name. -/
theorem Table.lookup_copy_ne {α : Type} {k : Nat} : ∀ {l : List (Nat × α)} (t : Table α), (∀ e ∈ l, e.1 ≠ k) →
    (l.foldl (fun t e => t.insert e.1 e.2) t).lookup k = t.lookup k
  | [], _, _ => rfl
  | e :: l, t, h => by
    rw [List.foldl_cons, Table.lookup_copy_ne _ fun x hx => h x (List.mem_cons_of_mem _ hx)]
    exact Table.lookup_insert_ne t (h e (List.mem_cons_self ..)) _

theorem Table.lt_of_mem_risingFrom {α : Type} {lo : Nat} {e : Nat × α} : ∀ {t : Table α}, t.risingFrom lo = true → e ∈ t → lo < e.1
  | (j, b) :: t, h, he => by
    rw [Table.risingFrom, Bool.and_eq_true, decide_eq_true_eq] at h
    rcases List.mem_cons.mp he with rfl | he
    exacts [h.1, h.1.trans (Table.lt_of_mem_risingFrom h.2 he)]

/-- Copying a rising table into a table copies each of its contents. -/
theorem Table.lookup_copy {α : Type} {k : Nat} {a : α} : ∀ {l : Table α} (t : Table α), l.rising = true → l.lookup k = some a →
    (l.foldl (fun t e => t.insert e.1 e.2) t).lookup k = some a
  | (j, b) :: l, t, hr, h => by
    rw [Table.rising] at hr
    rw [Table.lookup] at h
    rw [List.foldl_cons]
    split_ifs at h with hj
    · obtain rfl : b = a := by simpa using h
      rw [Table.lookup_copy_ne _ fun e he => hj ▸ (Table.lt_of_mem_risingFrom hr he).ne', hj]
      exact Table.lookup_insert_self ..
    · exact Table.lookup_copy _ (Table.rising_of_risingFrom hr) h

/-- A new entry that a fold passes over leaves the fold's result. -/
theorem Table.foldl_insert_of_passed {α β : Type} {f : β → Nat × α → β} {k : Nat} {a : α} (hf : ∀ m, f m (k, a) = m) :
    ∀ {t : Table α} {m : β}, t.lookup k = none → (t.insert k a).foldl f m = t.foldl f m
  | [], m, _ => hf m
  | (j, b) :: t, m, h => by
    rw [Table.lookup] at h
    split_ifs at h with hj
    rw [Table.insert, if_neg (fun hk : k = j => hj hk.symm)]
    split_ifs
    · rw [List.foldl_cons, hf]
    · rw [List.foldl_cons, List.foldl_cons, Table.foldl_insert_of_passed hf h]

theorem foldl_max_succ {α : Type} {t : Table α} : ∀ {m : Nat}, m ≤ t.foldl (fun m e => max m (e.1 + 1)) m ∧
    ∀ e ∈ t, e.1 < t.foldl (fun m e => max m (e.1 + 1)) m := by
  induction t with
  | nil => exact ⟨le_refl _, fun e he => absurd he (List.not_mem_nil)⟩
  | cons x t ih =>
    intro m
    obtain ⟨hle, hlt⟩ := ih (m := max m (x.1 + 1))
    rw [List.foldl_cons]
    refine ⟨(le_max_left _ _).trans hle, fun e he => ?_⟩
    rcases List.mem_cons.mp he with rfl | he
    exacts [(Nat.lt_of_succ_le (le_max_right _ _)).trans_le hle, hlt e he]

namespace Machine

/-! ## What the log and the replies leave -/

/-- A count adds at most an event in flight. -/
theorem count_flight (s : State) (id inst n : Nat) : ∃ x l, s.count id inst n = { s with ctr := x, log.flight := s.log.flight ++ l } := by
  unfold State.count
  dsimp only
  split_ifs
  · exact ⟨_, _, rfl⟩
  · exact ⟨_, [], by rw [List.append_nil]⟩

theorem each_replyWith_eq {α : Type} (c : α → Hdr) (r : State → α → Result) (l : List α) (s : State) :
    ∃ m, s.each l (fun u a => u.replyWith (c a) (r u a)) = { s with cmd := m } := by
  refine each_rel (R := fun s t => ∃ m, t = { s with cmd := m }) (fun s => ⟨s.cmd, rfl⟩) ?_ (fun t a => ?_) l s
  · rintro _ _ _ ⟨_, rfl⟩ ⟨m, rfl⟩
    exact ⟨m, rfl⟩
  · obtain ⟨o, n, k, h⟩ := replyAs_eq t (c a) .ok true 0 (r t a)
    exact ⟨_, h⟩

/-! ## The flushed log object -/

theorem object_of_fresh (s : State) : s.object (s.lodge.objs.foldl (fun m e => max m (e.1 + 1)) 0) = none :=
  Table.lookup_eq_none fun e he => (foldl_max_succ.2 e he).ne

/-- An object whose storage has not begun takes no unit. -/
theorem nextLun_setObject {s : State} {id : Nat} {o : LObj} (hid : s.object id = none) (ho : o.first = none) : (s.setObject id o).nextLun = s.nextLun := by
  have hobjs (m : Nat) : (s.lodge.objs.insert id o).foldl (fun m e => max m (e.2.first.elim 0 (fun f => f + e.2.units + 1))) m
      = s.lodge.objs.foldl (fun m e => max m (e.2.first.elim 0 (fun f => f + e.2.units + 1))) m := by
    refine Table.foldl_insert_of_passed (fun m => ?_) hid
    rw [ho]
    exact Nat.max_zero m
  simp only [State.nextLun, State.setObject, hobjs]

theorem beginCommit_of_first {s : State} {id : Nat} {o : LObj} (h : s.object id = some o) (hf : o.first = none) :
    ∃ m, s.beginCommit id = { s.setObject id { o with first := some s.nextLun } with mem := m } := by
  rw [State.beginCommit, h]
  dsimp only
  rw [if_neg (by rw [hf]; decide)]
  exact setBytes_eq ..

theorem ctrKey_div {id inst : Nat} (h : inst < 65536) : ctrKey id inst / 65536 = id := by
  unfold ctrKey
  omega

theorem ctrKey_mod {id inst : Nat} (h : inst < 65536) : ctrKey id inst % 65536 = inst := by
  unfold ctrKey
  omega

/-- An entry written at the next INDEX is counted in counter 0x0104 (R365). -/
theorem writeLog_eq (s : State) (e : LogEntry) : (∃ x l, s.writeLog e = { s with
      ctr := x
      log := { s.log with
        flight := s.log.flight ++ l, ring := s.log.ring.insert (s.log.next.toNat % 1048576) { e with index := s.log.next }
        next := s.log.next + 1, returned := s.log.returned.filter (fun k => k ≠ s.log.next.toNat % 1048576) } }) ∧
    (s.writeLog e).counter 0x0104 0 = (s.counter 0x0104 0).plus 1 := by
  unfold State.writeLog
  dsimp only
  generalize hc : State.count _ 0x0104 0 1 = t
  obtain ⟨x, l, he⟩ := count_flight _ _ _ _
  rw [hc] at he
  have hcounter : t.counter 0x0104 0 = (s.counter 0x0104 0).plus 1 := hc ▸ count_counter ..
  split_ifs
  · obtain ⟨x', l', he'⟩ := count_flight t 0x0105 0 1
    refine ⟨⟨x', l ++ l', ?_⟩, (count_counter_ne t (by decide) 1).trans hcounter⟩
    rw [he', he, ← List.append_assoc]
  · exact ⟨⟨x, l, he⟩, hcounter⟩

/-- Settles O49. -/
theorem photoFinishAndLogRows : Obligations.PhotoFinishAndLogRows := by
  simp only [Obligations.PhotoFinishAndLogRows, Answers, exec]
  refine ⟨fun s hup hz hb hsoon => ?begins, fun s hup hb => ?again, fun s u hup hb hback hu => ?latches, fun s u hup hu => ?latched,
    fun s hup hb hback hall haud => ?returns, fun s u hup hu hno => ?early, fun s hup hb hback => ?copied, fun s hup hfl => ?noEvent,
    fun s e rest hup hfl hlog hst => ?held, fun s e rest hup hfl hlog hst => ?written, fun s hup hlog hst hro hes => ?flushes,
    fun s hup hlog => ?closed⟩
  case begins =>
    refine event_answers hup ?_
    rw [if_pos hz, State.pfRequest, hb, hsoon]
    exact ⟨rfl, rfl, rfl, rfl, rfl, rfl, rfl⟩
  case again =>
    refine event_idle s ?_
    rw [State.pfRequest, hb]
    exact ite_self _
  case latches =>
    refine event_answers hup ?_
    rw [if_pos (by simp [hb, hback, hu])]
    refine ⟨rfl, fun hr id inst hi hunit hhas => ?_, fun id inst hi hunit => ?_, rfl⟩
    · obtain ⟨a, ha⟩ := Option.isSome_iff_exists.mp hhas
      have hkept : (s.ctr.keep (fun k _ => decide (ctrUnit (k / 65536) (k % 65536) = u.val))).lookup (ctrKey id inst) = some a := by
        rw [Table.lookup_keep, if_pos (by rw [ctrKey_div hi, ctrKey_mod hi]; exact decide_eq_true hunit), ha]
      dsimp only
      rw [Table.read, Table.lookup_copy _ (Table.rising_keep _ hr) hkept, State.counter, Table.read, ha]
    · refine Table.lookup_copy_ne _ fun e he hk => hunit ?_
      have hunit' := of_decide_eq_true (Table.holds_of_mem_keep he)
      rwa [hk, ctrKey_div hi, ctrKey_mod hi] at hunit'
  case latched =>
    exact event_idle s (if_neg (by simp [hu]))
  case returns =>
    refine event_answers hup ?_
    rw [if_pos (by simp only [hb, hback, Bool.true_and, Bool.not_false]; simpa [List.all_eq_true, pfUnits] using hall)]
    exact auditCheck_of_balanced haud
  case early =>
    refine event_idle s (if_neg fun h => hno ?_)
    rw [Bool.and_eq_true, List.all_eq_true] at h
    simpa using h.2 u (List.mem_range.mpr hu)
  case copied =>
    refine event_answers hup ?_
    rw [if_pos (by rw [hb, hback]; rfl)]
    dsimp only
    generalize hc : State.count _ _ _ _ = t
    obtain ⟨⟨x, l, rfl⟩, hcounter⟩ := eq_of_count hc
    obtain ⟨m, he⟩ := each_replyWith_eq (fun a => a.1) (fun u a => .counters s.pf.taking (u.ctrRecords a.1 a.2)) s.pf.askers _
    rw [he]
    refine ⟨rfl, rfl, rfl, ?_, rfl, rfl, hcounter, rfl⟩
    unfold PhotoFinish.image
    cases s.pf.buf <;> rfl
  case noEvent =>
    exact event_idle s (by rw [hfl])
  case held =>
    refine event_answers hup ?_
    rw [hfl]
    dsimp only
    rw [hlog, if_neg Bool.false_ne_true, if_neg (by exact hst)]
    exact ⟨rfl, rfl, rfl⟩
  case written =>
    refine event_answers hup ?_
    rw [hfl]
    dsimp only
    rw [hlog, if_pos rfl]
    generalize hw : State.writeLog _ _ = t
    obtain ⟨⟨x, l, he⟩, hcounter⟩ := writeLog_eq _ _
    rw [hw] at he hcounter
    subst he
    rw [if_neg (by exact hst)]
    exact ⟨⟨l, rfl⟩, rfl, Table.lookup_insert_self .., hcounter, rfl⟩
  case flushes =>
    refine event_answers hup ?_
    rw [hlog, hst, if_pos (by rfl), State.flushLog]
    dsimp only
    rw [if_neg (by simp [hes, hro])]
    have hfresh := object_of_fresh s
    generalize s.lodge.objs.foldl _ 0 = id at hfresh
    obtain ⟨m, he⟩ := beginCommit_of_first (s := s.setObject id { bib := 0, kind := 5, bytes := (s.entriesFrom s.lodge.flushed.toNat).flatMap LogEntry.image })
      (Table.lookup_insert_self ..) rfl
    rw [he, nextLun_setObject hfresh rfl]
    exact ⟨rfl, ⟨id, _, Table.lookup_insert_self .., hfresh, rfl, rfl, rfl, rfl⟩, rfl⟩
  case closed =>
    exact event_idle s (if_neg (by simp [hlog]))

end Machine
end Sys2Proof

/-! SUPPORT. Self-tests and calibration (O51). -/

namespace Sys2Proof
namespace Machine

/-- A test that ends leaves the running and the repeated tests, and its command is answered; with every balance holding nothing else changes. -/
theorem endTest_eq {s : State} (h : s.audits = []) (unit : BitVec 4) (inst : BitVec 12) (st : TestStat) : ∃ m, s.endTest unit inst st
    = { s with
        test := { s.test with
          stat := st, running := s.test.running.filter (fun k => k ≠ unitKey unit.toNat inst.toNat)
          second := s.test.second.filter (fun k => k ≠ unitKey unit.toNat inst.toNat) }
        cmd := m } := by
  unfold State.endTest
  dsimp only
  generalize hc : State.complete _ _ _ _ = t
  obtain ⟨m, he⟩ := complete_eq _ _ _ _
  rw [hc] at he
  subst he
  exact ⟨m, auditCheck_of_balanced h⟩

theorem notMem_filter_ne {k : Nat} {l : List Nat} : k ∉ l.filter (fun x => x ≠ k) := by
  simp

/-- Both counters of a test that did not pass (R371). -/
theorem count_count_eq (s : State) {id id' inst inst' : Nat} (h : ctrKey id inst ≠ ctrKey id' inst') : ∃ x l,
    (s.count id inst 1).count id' inst' 1 = { s with ctr := x, log := l } ∧
      ((s.count id inst 1).count id' inst' 1).counter id inst = (s.counter id inst).plus 1 ∧
      ((s.count id inst 1).count id' inst' 1).counter id' inst' = (s.counter id' inst').plus 1 := by
  obtain ⟨x, l, he⟩ := count_eq s id inst 1
  obtain ⟨x', l', he'⟩ := count_eq (s.count id inst 1) id' inst' 1
  refine ⟨x', l', by rw [he', he], ?_, ?_⟩
  · rw [count_counter_ne _ h, count_counter]
  · rw [count_counter, count_counter_ne _ h.symm]

theorem ofNat_inst (inst : BitVec 12) : BitVec.ofNat 12 inst.toNat = inst := by simp

/-- A station that a test had withdrawn goes back to use (R371). -/
theorem returnStn_of_byTest {s : State} {p : Nat} (hdone : (s.stn p).wdDone = true) (hby : p ∈ s.test.byTest) :
    (∃ r, s.returnStn p = { s with rink.stn := r, test.byTest := s.test.byTest.filter (fun x => x ≠ p) }) ∧
      (s.returnStn p).stn p = { s.stn p with bib0 := 0, bib1 := 0, bib2 := 0, bib3 := 0, withdraw := false, wdDone := false } := by
  unfold State.returnStn
  dsimp only
  rw [if_pos hdone, if_pos (by simpa using hby)]
  refine ⟨⟨_, rfl⟩, (stn_setStn_self ..).trans ?_⟩
  rw [Bool.and_false]
  exact congrArg (fun r : Stn => { r with withdraw := false, wdDone := false }) (stn_setStn_self s p _)

/-- Settles O51. -/
theorem selftestRows : Obligations.SelftestRows := by
  simp only [Obligations.SelftestRows, Answers, exec]
  have hone : (1 : BitVec 4).toNat = 1 := rfl
  have hhas {s : State} {inst : BitVec 12} (hi : inst.toNat < 104) (hf : (s.stnMap (inst.toNat / 26)).failed.getLsbD (inst.toNat % 26) = false) :
      ¬(unitCount 1 ≤ inst.toNat ∨ 1 = 1 ∧ (s.stnMap (inst.toNat / 26)).failed.getLsbD (inst.toNat % 26) = true) := by
    rintro (h | ⟨-, h⟩)
    · exact absurd h (not_le.mpr hi)
    · rw [hf] at h; exact Bool.false_ne_true h
  have hidle {s : State} {k : Nat} (h : k ∉ s.test.running) : ¬s.test.running.contains k = true := by simpa using h
  refine ⟨fun s c unit inst ha hn => ?noUnit, fun s c inst ha hi hf hrun hready => ?atOnce, fun s c inst ha hi hf hrun hwd hdone => ?withdraws,
    fun s inst hup hw hnone => ?starts, fun s unit inst hup hw => ?notWaiting, fun s unit inst o hup hrun => ?notRunning,
    fun s inst o hup hrun hpass haud => ?failed, fun s inst o hup hrun hpass hsec hby hdone haud => ?passed,
    fun s inst o hup hrun hpass hsec hpart hdone hpad hcol => ?repaired, fun s inst o hup hrun hpass hsec hdone haud => ?gone,
    fun s inst o hup hrun hpass hsec haud => ?again, fun s c unit inst ha hu hi => ?calibrates, fun s c unit inst ha hn => ?noCalibration⟩
  case noUnit =>
    exact command_replies ha (u := s.taken) (st := .bounds) (fun _ _ => if_pos (.inl hn)) fun i e o n x hr => ⟨hr, rfl⟩
  case atOnce =>
    refine command_answers ha fun i e => ?_
    dsimp only
    rw [hone, if_neg (hhas (s := s.taken i e) hi hf), if_neg (hidle hrun), if_neg (by decide), if_pos (by exact hready)]
    exact ⟨rfl, congrArg (fun n : BitVec 12 => ({ unit := 1, inst := n, state := 2 } : TestStat)) (ofNat_inst inst), rfl⟩
  case withdraws =>
    have hnot (i e) : (s.taken i e).testReady 1 inst.toNat = false :=
      (congrArg (· && !s.dieTesting (inst.toNat / 26)) hdone).trans (Bool.false_and _)
    refine command_defers ha (w := .selftest 1 inst) (u := fun i e => { (s.taken i e).writeWithdraw inst.toNat true with test := { s.test with
        waiting := if s.test.waiting.contains (unitKey 1 inst.toNat) then s.test.waiting else s.test.waiting ++ [unitKey 1 inst.toNat]
        byTest := s.test.byTest ++ [inst.toNat], stat := { unit := 1, inst := inst, state := 1 } } }) (fun i e => ?_) fun i e o n x hr => ?_
    · dsimp only
      rw [hone, if_neg (hhas (s := s.taken i e) hi hf), if_neg (hidle hrun), if_neg (by decide), if_neg (by rw [hnot]; decide)]
      have hset : (decide (1 = 1) && !((s.taken i e).stn inst.toNat).withdraw) = true := (congrArg (fun w => decide (1 = 1) && !w) hwd).trans rfl
      rw [hset]
      rfl
    · refine ⟨(stn_setStn_self ..).trans ?_, ?_, List.mem_append_right _ (List.mem_singleton_self _), hr, rfl⟩
      · rw [show (s.taken i e).stn inst.toNat = s.stn inst.toNat from rfl, hdone]; rfl
      · show unitKey 1 inst.toNat ∈ if _ then _ else _
        split_ifs with h
        exacts [by simpa using h, List.mem_append_right _ (List.mem_singleton_self _)]
  case starts =>
    refine event_answers hup ?_
    have hfree : s.testReady 4 inst.toNat = true := by
      rw [State.testReady, Bool.not_eq_true', List.any_eq_false]
      exact fun k hk => by simpa using hnone k hk
    rw [if_pos (by rw [Bool.and_eq_true]; exact ⟨by simpa using hw, hfree⟩)]
    exact ⟨rfl, notMem_filter_ne, congrArg (fun n : BitVec 12 => ({ unit := 4, inst := n, state := 2 } : TestStat)) (ofNat_inst inst), rfl⟩
  case notWaiting =>
    exact event_idle s (if_neg (by simp [hw]))
  case notRunning =>
    exact event_idle s (if_pos (by simp [hrun]))
  case failed =>
    refine event_answers hup ?_
    dsimp only
    rw [if_neg (by simpa using hrun), hpass, if_neg Bool.false_ne_true, if_pos (by decide), if_neg Bool.false_ne_true]
    obtain ⟨x, l, he, h6, h7⟩ := count_count_eq s (id := 0x0106) (id' := 0x0107) (inst := 0) (inst' := 0) (by decide)
    generalize State.count _ 0x0107 0 1 = t at he h6 h7 ⊢
    subst he
    obtain ⟨m, he⟩ := endTest_eq (s := { s with ctr := x, log := l }) haud 4 inst
      { unit := 4, inst := inst, part := o.part, row := o.row, col := o.col, qtr := o.qtr, state := 5 }
    rw [he]
    exact ⟨rfl, notMem_filter_ne, h6, h7, rfl⟩
  case passed =>
    refine event_answers hup ?_
    dsimp only
    rw [if_neg (by simpa using hrun), hpass, if_pos rfl, if_neg (by decide), if_pos rfl, if_neg (by simpa using hsec)]
    generalize hc : State.count _ _ _ _ = t
    obtain ⟨⟨x, l, rfl⟩, -⟩ := eq_of_count hc
    obtain ⟨⟨r, he⟩, hstn⟩ := returnStn_of_byTest (s := { s with ctr := x, log := l }) (p := inst.toNat) hdone hby
    generalize State.returnStn _ _ = t at he hstn ⊢
    subst he
    obtain ⟨m, he⟩ := endTest_eq (s := { s with ctr := x, log := l, rink.stn := r, test.byTest := s.test.byTest.filter (fun x => x ≠ inst.toNat) })
      haud 1 inst { unit := 1, inst := inst, state := 3 }
    rw [he]
    exact ⟨hstn, rfl, notMem_filter_ne, notMem_filter_ne, rfl⟩
  case repaired =>
    refine event_answers hup ?_
    dsimp only
    rw [if_neg (by simpa using hrun), hpass, if_neg Bool.false_ne_true, if_neg (by decide), if_neg Bool.false_ne_true, if_neg (by simpa using hsec)]
    obtain ⟨x, l, he, -, -⟩ := count_count_eq s (id := 0x0106) (id' := 0x0107) (inst := 0) (inst' := 0) (by decide)
    rw [he, if_neg (by exact Bool.eq_false_iff.mp ((congrArg not hdone).trans rfl))]
    unfold State.repair
    dsimp only
    rw [if_neg (by rw [hpart]; rintro ⟨h, -⟩; exact absurd h (by decide)), if_pos ⟨hpart, hpad, hcol⟩]
    exact ⟨Table.read_write_self .., List.mem_append_right _ (List.mem_singleton_self _), rfl, rfl, rfl⟩
  case gone =>
    refine event_answers hup ?_
    dsimp only
    rw [if_neg (by simpa using hrun), hpass, if_neg Bool.false_ne_true, if_neg (by decide), if_neg Bool.false_ne_true, if_neg (by simpa using hsec)]
    obtain ⟨x, l, he, -, -⟩ := count_count_eq s (id := 0x0106) (id' := 0x0107) (inst := 0) (inst' := 0) (by decide)
    rw [he, if_pos (by exact Bool.not_eq_true' _ ▸ hdone)]
    obtain ⟨m, he⟩ := endTest_eq (s := { s with ctr := x, log := l }) haud 1 inst
      { unit := 1, inst := inst, part := o.part, row := o.row, col := o.col, qtr := o.qtr, state := 5 }
    rw [he]
    exact ⟨rfl, rfl, notMem_filter_ne, rfl⟩
  case again =>
    refine event_answers hup ?_
    dsimp only
    rw [if_neg (by simpa using hrun), hpass, if_neg Bool.false_ne_true, if_neg (by decide), if_neg Bool.false_ne_true, if_pos (by simpa using hsec)]
    obtain ⟨x, l, he, -, -⟩ := count_count_eq s (id := 0x0106) (id' := 0x0107) (inst := 0) (inst' := 0) (by decide)
    rw [he]
    obtain ⟨m, he⟩ := endTest_eq (s := State.raise { s with ctr := x, log := l } (stnRepair inst.toNat 0 0)) haud 1 inst
      { unit := 1, inst := inst, part := o.part, row := o.row, col := o.col, qtr := o.qtr, state := 5 }
    rw [he]
    exact ⟨rfl, rfl, notMem_filter_ne, ⟨_, List.mem_append_right _ (List.mem_singleton_self _), rfl, rfl⟩, rfl⟩
  case calibrates =>
    refine command_defers ha (u := s.taken) (w := .calibrate unit inst) (fun i e => if_neg ?_) fun i e o n x hr => ⟨hr, rfl⟩
    rintro (h | h)
    · rcases hu with rfl | rfl | rfl <;> exact absurd h (by decide)
    · omega
  case noCalibration =>
    exact command_replies ha (u := s.taken) (st := .bounds) (fun _ _ => if_pos (.inr hn)) fun i e o n x hr => ⟨hr, rfl⟩

end Machine
end Sys2Proof

/-! SUPPORT. Jobs and the orders to secure, swap and regrow (O47). -/

namespace Sys2Proof
namespace Machine

theorem secStat_setSecStat_self (s : State) (j : Nat) (x : SecStat) : (s.setSecStat j x).secStat j = x := Table.read_write_self ..

/-- An update that waits begins: the link and the keys stand. -/
theorem wakeUpdate_eq (s : State) : ∃ b m f, s.wakeUpdate = { s with boot := b, cmd := m, freeCtr := f } := by
  unfold State.wakeUpdate State.beginUpdate
  split_ifs
  · exact ⟨_, s.cmd, s.freeCtr, rfl⟩
  · exact ⟨s.boot, s.cmd, s.freeCtr, rfl⟩

/-- The first copy of its kind from a member is held. -/
theorem holdCopy_of_first {s : State} {x : SecCopy} (keep : Option (BitVec 64)) (hx : x.done = true)
    (h : ∀ y ∈ s.sec.copies, y.job = x.job → y.rank = x.rank → y.kind ≠ x.kind) : s.holdCopy keep x = { s with sec.copies := s.sec.copies ++ [x] } := by
  have hsame (y) (hy : y ∈ s.sec.copies) : (decide (y.job = x.job) && decide (y.rank = x.rank) && decide (y.kind = x.kind)) = false := by
    simp only [Bool.and_eq_false_iff, decide_eq_false_iff_not]
    have := h y hy
    tauto
  have hold : s.sec.copies.filter (fun y => !(decide (y.job = x.job) && decide (y.rank = x.rank) && decide (y.kind = x.kind) && decide (y.step = x.step)))
      = s.sec.copies := List.filter_eq_self.mpr fun y hy => by rw [hsame y hy]; rfl
  have hnew : (s.sec.copies ++ [x]).filter (fun y => decide (y.job = x.job) && decide (y.rank = x.rank) && decide (y.kind = x.kind) && y.done) = [x] := by
    rw [List.filter_append, List.filter_eq_nil_iff.mpr fun y hy => by rw [hsame y hy, Bool.false_and]; exact Bool.false_ne_true]
    simp [hx]
  unfold State.holdCopy
  dsimp only
  rw [hold, hnew]
  have hall : (s.sec.copies ++ [x]).filter (fun y => !(decide (y.job = x.job) && decide (y.rank = x.rank) && decide (y.kind = x.kind)) || !y.done
      || (([x].mergeSort (fun a b => decide (b.step.toNat ≤ a.step.toNat))).take 2).contains y || keep.any (fun k => decide (y.step.toNat ≤ k.toNat)))
      = s.sec.copies ++ [x] := by
    refine List.filter_eq_self.mpr fun y hy => ?_
    rcases List.mem_append.mp hy with hy | hy
    · rw [hsame y hy]; rfl
    · obtain rfl := List.mem_singleton.mp hy
      simp
  rw [hall]

/-- A job in its state 1 that has no order can take one. -/
theorem notInHand {s : State} {j : Nat} (hst : (s.secStat j).state = 1) (hsw : (s.secStat j).swap = none) (hre : (s.secStat j).regrow = []) :
    ¬((s.secStat j).state ≠ 1 ∨ (s.secStat j).swap.isSome = true ∨ (s.secStat j).regrow ≠ []) := by
  simp [hst, hsw, hre]

/-- The intervals that the configuration fixes are taken, unless feeds are shared (R318). -/
theorem newIntervals_eq (s : State) (i : Nat) (j : Job) : ∃ nb nl f,
    s.newIntervals i j = { s.setSecStat i { s.secStat i with nb := nb, nl := nl } with freeCtr := f } ∧
      ∀ nb' nl', j.args.fixedNb = some nb' → j.args.fixedNl = some nl' → j.args.force = false → (s.secStat i).forced = false → nb = nb' ∧ nl = nl' := by
  refine ⟨_, _, _, rfl, fun nb' nl' hnb hnl hforce hf => ?_⟩
  rw [hnb, hnl, hforce, hf]
  exact ⟨rfl, rfl⟩

theorem reply_answered_eq (s : State) (op : Nat) (c : Hdr) (st : Status) :
    ∃ o n k, s.reply (c.of op) st = s.replying o n k ∧ (s.replying o n k).replied op c st := replyAs_answered_eq s op c st true 0 .none

/-- A configuration that passes every check of JOB_CONFIG before the buddy offset. -/
theorem jobConfig_checks {s : State} {c : Hdr} {a : JobArgs} (hm : a.mirrors.any (fun m => m.act = 3) = false) (hr : jobInRange a = true)
    (hid : a.jobId = c.jobId) (hfree : (s.bib a.bib).state ≠ .free) (hclr : (s.bib a.bib).state ≠ .clearing) (h0 : a.bib ≠ 0)
    (hany : s.sl.jobs.any (fun _ j => j.args.jobId = a.jobId || j.args.jtag = a.jtag || j.args.bib = a.bib) = false)
    (hq : (s.bib a.bib).t2Used + 4 * s.copyPages a.bib ≤ (s.bib a.bib).args.t2Quota.toNat) :
    ¬a.mirrors.any (fun m => m.act = 3) = true ∧ ¬(!jobInRange a || decide (a.jobId ≠ c.jobId)) = true ∧ ¬((s.bib a.bib).state = .free ∨ a.bib = 0) ∧
      ¬((s.bib a.bib).state = .clearing ∨ s.sl.jobs.any (fun _ j => j.args.jobId = a.jobId || j.args.jtag = a.jtag || j.args.bib = a.bib) = true) ∧
      ¬(s.bib a.bib).args.t2Quota.toNat < (s.bib a.bib).t2Used + 4 * s.copyPages a.bib :=
  ⟨ne_true_of_eq_false hm, by simp [hr, hid], not_or.mpr ⟨hfree, h0⟩, not_or.mpr ⟨hclr, ne_true_of_eq_false hany⟩, not_lt.mpr hq⟩

/-- Settles O47. -/
theorem jobAndSecuringRows : Obligations.JobAndSecuringRows := by
  simp only [Obligations.JobAndSecuringRows, Answers, exec]
  refine ⟨fun s c a i o ha hm hr hid hfree hclr h0 hany hq hi ho => ?config, fun s c a i o pairs ha hm hr hid hfree hclr h0 hany hq hi hp hforce ho => ?shared,
    fun s c j jb ha hj => ?ends, fun s c ha hj => ?endNone, fun s c nb nl j jb ha hj hro => ?secure, fun s c nb nl j jb ha hj h1 h2 h3 hforce => ?intervals,
    fun s c rank m j jb ha hj hn hst hsw hre => ?swap, fun s c rank m j jb ha hj hn hst => ?swapBusy,
    fun s c fores j jb ha hj hne hall hst hsw hre => ?regrow, fun s c fores j jb f ha hj hf hno => ?regrowBounds, fun s job rank step kind hup hj => ?noJob,
    fun s job step jb c k hup hj hk => ?buddyAge, fun s job rank step kind jb hup hj hne hall => ?held,
    fun s job step jb c k x b hup hj hk hx hb hstep hkeep => ?unpinned⟩
  case config =>
    refine command_replies ha (st := .ok) (u := fun l e => ((State.setSecStat { s.taken l e with
        sl.jobs := s.sl.jobs.insert i { args := a, rank := BitVec.ofNat 11 (rankOf a) } } i { state := 1, buddy := o }).newIntervals i
        { args := a, rank := BitVec.ofNat 11 (rankOf a) })) (fun l e => ?_) fun l e q n x hr => ?_
    · obtain ⟨h1, h2, h3, h4, h5⟩ := jobConfig_checks hm hr hid hfree hclr h0 hany hq
      dsimp only
      rw [if_neg (by exact h1), if_neg (by exact h2), if_neg (by exact h3), if_neg (by exact h4), if_neg (by exact h5), ho,
        show (s.taken l e).freeJob = some i from hi]
      cases o <;> rfl
    · generalize hn : State.newIntervals _ _ _ = t at hr ⊢
      obtain ⟨nb, nl, f, he, hfix⟩ := newIntervals_eq _ _ _
      rw [hn, secStat_setSecStat_self] at he
      rw [secStat_setSecStat_self] at hfix
      subst he
      have hsec {m : Cmd} {f : Nat} (S : State) : ({ S.setSecStat i { state := 1, buddy := o, nb := nb, nl := nl } with freeCtr := f, cmd := m } : State).secStat i
          = { state := 1, buddy := o, nb := nb, nl := nl } := secStat_setSecStat_self S i _
      refine ⟨Table.lookup_insert_self .., congrArg SecStat.state (hsec _), congrArg SecStat.buddy (hsec _), congrArg SecStat.forced (hsec _),
        fun nb' nl' hnb hnl hforce => ?_, hr, rfl⟩
      obtain ⟨rfl, rfl⟩ := hfix nb' nl' hnb hnl hforce rfl
      exact ⟨congrArg SecStat.nb (hsec _), congrArg SecStat.nl (hsec _)⟩
  case shared =>
    refine command_answers ha fun l e => ?_
    obtain ⟨h1, h2, h3, h4, h5⟩ := jobConfig_checks hm hr hid hfree hclr h0 hany hq
    dsimp only
    rw [if_neg (by exact h1), if_neg (by exact h2), if_neg (by exact h3), if_neg (by exact h4), if_neg (by exact h5), ho,
      show (s.taken l e).freeJob = some i from hi]
    dsimp only
    rw [if_pos ⟨hp, by rw [hforce]; rfl⟩]
    obtain ⟨o', n, x, he, hr⟩ := replyAs_answered_eq (s.taken l e) 0x0301 c .fault true 0 (.sharedPairs pairs)
    rw [he]
    exact ⟨hr, rfl⟩
  case ends =>
    refine command_answers ha fun i e => ?_
    dsimp only
    rw [show (s.taken i e).jobNamed (c.of 0x0302) = some (j, jb) from hj]
    dsimp only
    generalize State.each _ _ _ = t
    generalize hc : State.complete _ _ _ _ = u
    obtain ⟨m, he⟩ := complete_eq _ _ _ _
    rw [hc] at he
    subst he
    generalize hw : State.wakeUpdate _ = v
    obtain ⟨b, m', f, he⟩ := wakeUpdate_eq _
    rw [hw] at he
    subst he
    generalize hr : State.reply _ _ _ = w
    obtain ⟨o, n, x, he, hrep⟩ := reply_answered_eq _ 0x0302 c .ok
    rw [hr] at he
    subst he
    refine ⟨Table.lookup_remove_self .., ?_, ?_, hrep⟩
    · exact (Table.lookup_keep (fun i => decide (i / 2 ≠ j)) _ (2 * j)).trans (if_neg (by simp))
    · exact (Table.lookup_keep (fun i => decide (i / 2 ≠ j)) _ (2 * j + 1)).trans (if_neg (by simp; omega))
  case endNone =>
    refine command_replies ha (u := s.taken) (st := .bounds) (fun i e => ?_) fun i e o n x hr => ⟨hr, rfl⟩
    dsimp only
    rw [show (s.taken i e).jobNamed (c.of 0x0302) = none from hj]
  case secure =>
    refine command_defers ha (u := fun i e => (s.taken i e).setSecStat j { s.secStat j with secureNow := true }) (w := .secure c.jobId)
      (fun i e => ?_) fun i e o n x hr => ⟨secStat_setSecStat_self .., hr, rfl⟩
    dsimp only
    rw [show (s.taken i e).jobNamed (c.of 0x0303) = some (j, jb) from hj]
    dsimp only
    rw [if_neg Bool.false_ne_true, if_neg (show ¬(s.taken i e).lodgeReadOnly = true from ne_true_of_eq_false hro)]
    rfl
  case intervals =>
    refine command_replies ha (u := fun i e => { s.taken i e with sl.jobs := s.sl.jobs.insert j { jb with args.fixedNb := some nb, args.fixedNl := some nl } }.setSecStat j { s.secStat j with nb := nb, nl := nl }) (st := .ok) (fun i e => ?_) fun i e o n x hr => ⟨secStat_setSecStat_self .., hr, rfl⟩
    dsimp only
    rw [show (s.taken i e).jobNamed (c.of 0x0303) = some (j, jb) from hj]
    dsimp only
    rw [if_pos rfl, if_neg (by rintro (h | h | h); exacts [h1 h, absurd h (not_lt.mpr h2), h3 h]), hforce]
    rfl
  case swap =>
    refine command_replies ha (u := fun i e => (s.taken i e).setSecStat j { s.secStat j with swap := some (rank, m) }) (st := .ok) (fun i e => ?_)
      fun i e o n x hr => ⟨secStat_setSecStat_self .., hr, rfl⟩
    dsimp only
    rw [show (s.taken i e).jobNamed (c.of 0x0304) = some (j, jb) from hj]
    dsimp only
    rw [if_neg (by omega), if_neg (notInHand (s := s.taken i e) hst hsw hre)]
    rfl
  case swapBusy =>
    refine command_replies ha (u := s.taken) (st := .busy) (fun i e => ?_) fun i e o n x hr => ⟨hr, rfl⟩
    dsimp only
    rw [show (s.taken i e).jobNamed (c.of 0x0304) = some (j, jb) from hj]
    dsimp only
    rw [if_neg (by omega), if_pos (.inl hst)]
  case regrow =>
    refine command_replies ha (u := fun i e => (s.taken i e).setSecStat j { s.secStat j with regrow := fores }) (st := .ok) (fun i e => ?_)
      fun i e o n x hr => ⟨secStat_setSecStat_self .., hr, rfl⟩
    dsimp only
    rw [show (s.taken i e).jobNamed (c.of 0x0305) = some (j, jb) from hj]
    dsimp only
    rw [if_neg (by simpa [hne] using hall), if_neg (notInHand (s := s.taken i e) hst hsw hre)]
    rfl
  case regrowBounds =>
    refine command_replies ha (u := s.taken) (st := .bounds) (fun i e => ?_) fun i e o n x hr => ⟨hr, rfl⟩
    dsimp only
    rw [show (s.taken i e).jobNamed (c.of 0x0305) = some (j, jb) from hj]
    dsimp only
    rw [if_pos (.inr (by simpa using ⟨f, hf, hno⟩))]
  case noJob =>
    refine event_idle s ?_
    dsimp only
    rw [hj]
  case buddyAge =>
    refine event_answers hup ?_
    dsimp only
    rw [hj]
    dsimp only
    rw [hk, decide_eq_true rfl, if_neg (by decide), if_pos (by decide)]
    exact ⟨secStat_setSecStat_self .., rfl⟩
  case held =>
    refine event_answers hup ?_
    dsimp only
    rw [hj]
    dsimp only
    rw [decide_eq_false hne, if_neg (by simp), if_neg (by simp), if_neg hne, holdCopy_of_first _ rfl hall]
    exact ⟨rfl, rfl⟩
  case unpinned =>
    refine event_answers hup ?_
    dsimp only
    rw [hj]
    dsimp only
    rw [decide_eq_true rfl, if_pos (by decide)]
    rw [show s.sec.copies.find? (fun y => y.job = jb.args.jobId && y.rank = jb.rank && y.step = step && y.kind = (0 : Fin 4).val && !y.done) = some x from hx]
    dsimp only
    obtain ⟨l, hl⟩ : ∃ l, s.holdCopy (s.secStat job.toNat).keep { x with done := true } = { s with sec.copies := l } := ⟨_, rfl⟩
    rw [hl, hb, hk, if_pos rfl]
    dsimp only
    have heven : ((s.updSlot c).step.toNat - b.step.toNat) % 2 = 0 := by rw [hstep, Nat.sub_self]
    rw [hkeep, if_neg (by simp), if_pos (by exact heven), if_neg (by decide), if_neg (by simp)]
    refine ⟨Table.read_write_self .., (secStat_setSecStat_self ..).trans ?_, rfl⟩
    rw [← hkeep]
    rfl

end Machine
end Sys2Proof

/-! SUPPORT. Admission, quotas and seeds of a bib (O10). -/

namespace Sys2Proof

theorem Table.mem_of_lookup {α : Type} {k : Nat} {a : α} : ∀ {t : Table α}, t.lookup k = some a → (k, a) ∈ t
  | (j, b) :: t, h => by
    rw [Table.lookup] at h
    split_ifs at h with hj
    · obtain rfl : b = a := by simpa using h
      exact hj ▸ List.mem_cons_self ..
    · exact List.mem_cons_of_mem _ (Table.mem_of_lookup h)

namespace Machine

/-! ## More room in T2 -/

/-- One course of the bib gets `n` pages more; cause 5 of its domain ends. -/
def State.widenT2 (n : Nat) (s : State) (c : Nat) : State :=
  let u : State := { s with lkr.extraT2 := s.lkr.extraT2.write 0 c (s.lkr.extraT2.read 0 c + n) }
  if (u.hold c).cause.getLsbD 5 then u.clearHold c 5 else u

theorem widenT2_eq (n : Nat) (s : State) (c : Nat) : ∃ h x, s.widenT2 n c = { s with crs.holds := h, lkr.extraT2 := x } := by
  unfold State.widenT2
  dsimp only
  split_ifs
  · rw [clearHold_eq]
    exact ⟨_, _, rfl⟩
  · exact ⟨s.crs.holds, _, rfl⟩

theorem widenT2_getLsbD_self (n : Nat) (s : State) (c : Nat) : ((s.widenT2 n c).hold c).cause.getLsbD 5 = false := by
  unfold State.widenT2
  dsimp only
  split_ifs with h
  · rw [clearHold_eq, hold_setHold_self]
    exact Hold.clear_getLsbD_self _ (by decide)
  · exact Bool.eq_false_iff.mpr h

theorem widenT2_getLsbD_of (n : Nat) {s : State} {k : Nat} (h : (s.hold k).cause.getLsbD 5 = false) (c : Nat) :
    ((s.widenT2 n c).hold k).cause.getLsbD 5 = false := by
  unfold State.widenT2
  dsimp only
  split_ifs
  · exact clearHold_getLsbD_of _ c k (by decide) h
  · exact h

theorem each_widenT2_getLsbD (n c : Nat) : ∀ (l : List Nat) {s : State}, c ∈ l ∨ (s.hold c).cause.getLsbD 5 = false →
    ((s.each l (State.widenT2 n)).hold c).cause.getLsbD 5 = false
  | [], _, h => h.resolve_left List.not_mem_nil
  | a :: l, s, h => by
    refine each_widenT2_getLsbD n c l ?_
    rcases h with h | h
    · rcases List.mem_cons.mp h with rfl | h
      exacts [.inr (widenT2_getLsbD_self n s c), .inl h]
    · exact .inr (widenT2_getLsbD_of n h a)

/-- A raised T2 quota ends cause 5 of every domain of the bib (R139). -/
theorem raiseT2_eq (s : State) (b : BitVec 12) (n : Nat) : (∃ h x, s.raiseT2 b n = { s with crs.holds := h, lkr.extraT2 := x }) ∧
    ∀ i k, s.course i = some k → k.bib = b → ((s.raiseT2 b n).hold i).cause.getLsbD 5 = false := by
  refine ⟨?_, fun i k hk hb => each_widenT2_getLsbD n i _ (.inl ?_)⟩
  · refine each_rel (R := fun s t => ∃ h x, t = { s with crs.holds := h, lkr.extraT2 := x }) (fun s => ⟨s.crs.holds, s.lkr.extraT2, rfl⟩) ?_ (widenT2_eq n) _ s
    rintro _ _ _ ⟨_, _, rfl⟩ ⟨h, x, rfl⟩
    exact ⟨h, x, rfl⟩
  · exact List.mem_map.mpr ⟨(i, k), List.mem_filter.mpr ⟨Table.mem_of_lookup hk, decide_eq_true hb⟩, rfl⟩

/-- The counters of a bib that is admitted start from 0. -/
theorem counter_clearCounters {s : State} {b : BitVec 12} {id : Nat} (h : bibCounter id = true) :
    (s.clearCounters (fun id inst => bibCounter id && decide (inst = b.toNat))).counter id b.toNat = {} := by
  have hb : b.toNat < 65536 := lt_trans b.isLt (by decide)
  unfold State.clearCounters State.counter Table.read
  dsimp only
  rw [Table.lookup_keep (fun k => !(bibCounter (k / 65536) && decide (k % 65536 = b.toNat))), ctrKey_div hb, ctrKey_mod hb, h]
  simp

/-- The state in which a bib has been admitted (R294). -/
def State.newlyAdmitted (s : State) (b : BitVec 12) (a : BibArgs) : State :=
  ((((s.clearCounters (fun id inst => bibCounter id && decide (inst = b.toNat))).setBib b { state := .admitted, args := a }).setKeys b
    { kemDue := true }).setRing b {}).setReplay b {}

theorem newlyAdmitted_eq (s : State) (b : BitVec 12) (a : BibArgs) : s.newlyAdmitted b a = { s with
    ctr := s.ctr.keep (fun k _ => !(bibCounter (k / 65536) && decide (k % 65536 = b.toNat)))
    bibs := { s.bibs with
      recs := s.bibs.recs.write {} b.toNat { state := .admitted, args := a }, keys := s.bibs.keys.write {} b.toNat { kemDue := true }
      replay := s.bibs.replay.write {} b.toNat {} }
    cmd := { s.cmd with rings := s.cmd.rings.write {} b.toNat {} } } := by
  simp only [State.newlyAdmitted, State.clearCounters, State.setBib, State.setKeys, State.setRing, State.setReplay]

theorem quotasFit_taken (s : State) (i : List Hdr) (e : Table Nat) (b : BitVec 12) (a : BibArgs) : (s.taken i e).quotasFit b a = s.quotasFit b a := rfl

/-- Settles O10. -/
theorem admitQuotaAndSeeds : Obligations.AdmitQuotaAndSeeds := by
  simp only [Obligations.AdmitQuotaAndSeeds, Answers, exec]
  refine ⟨fun s c a ha hr hun hfit hvf => ?admits, fun s c a ha hr hun hfit => ?noRoom, fun s b hup hk => ?kem, fun s c a ha hr hfit hle => ?quota,
    fun s c a ha hr hfit hlt => ?raises, fun s c set ha hl hrun => ?seeds, fun s c set ha hl hrun => ?seedsNext⟩
  case admits =>
    refine command_replies ha (st := .ok) (u := fun i e => (s.taken i e).newlyAdmitted c.bib a) (fun i e => ?_) fun i e o n x hr' => ?_
    · dsimp only
      rw [if_neg (by rw [hr]; decide), if_neg (by rw [show (s.taken i e).test.unlocked = none from hun]; decide),
        if_neg (by rw [quotasFit_taken, hfit, show (s.taken i e).vfTaken c.bib a = false from hvf]; decide)]
      rfl
    · rw [newlyAdmitted_eq] at hr' ⊢
      refine ⟨Table.read_write_self ({} : Bib) s.bibs.recs c.bib.toNat { state := .admitted, args := a },
        Table.read_write_self ({} : BibKeys) s.bibs.keys c.bib.toNat { kemDue := true }, fun id hid => counter_clearCounters (s := s) hid,
        fun b hb => ?_, hr', rfl⟩
      exact Table.read_write_ne ({} : Bib) s.bibs.recs (k := c.bib.toNat) (n := b.toNat) (fun h => hb (BitVec.eq_of_toNat_eq h).symm)
        { state := .admitted, args := a }
  case noRoom =>
    refine command_replies ha (u := s.taken) (st := .quota) (fun i e => ?_) fun i e o n x hr' => ⟨hr', rfl⟩
    dsimp only
    rw [if_neg (by rw [hr]; decide), if_neg (by rw [show (s.taken i e).test.unlocked = none from hun]; decide),
      if_pos (by rw [quotasFit_taken, hfit]; rfl)]
  case kem =>
    refine event_answers hup ?_
    rw [if_pos hk]
    exact ⟨⟨_, _, (setKeys_keysOf s b b _).trans (if_pos rfl)⟩, rfl⟩
  case quota =>
    refine command_replies ha (st := .ok) (u := fun i e => (s.taken i e).setBib c.bib { s.bib c.bib with args := { (s.bib c.bib).args with
          sMin := a.sMin, courses := a.courses, carves := a.carves, streams := a.streams, liftShare := a.liftShare, t2Quota := a.t2Quota
          t1Quota0 := a.t1Quota0, t1Quota1 := a.t1Quota1, t1Quota2 := a.t1Quota2, t1Quota3 := a.t1Quota3 } }) (fun i e => ?_) fun i e o n x hr' => ?_
    · dsimp only
      rw [if_neg (by rw [hr]; decide), if_neg (by rw [quotasFit_taken, hfit]; decide), if_neg (by exact not_lt.mpr hle)]
      rfl
    · exact ⟨(setBib_bib _ c.bib c.bib _).trans (if_pos rfl), hr', rfl⟩
  case raises =>
    let u (i : List Hdr) (e : Table Nat) : State := (s.taken i e).setBib c.bib { s.bib c.bib with args := { (s.bib c.bib).args with
          sMin := a.sMin, courses := a.courses, carves := a.carves, streams := a.streams, liftShare := a.liftShare, t2Quota := a.t2Quota
          t1Quota0 := a.t1Quota0, t1Quota1 := a.t1Quota1, t1Quota2 := a.t1Quota2, t1Quota3 := a.t1Quota3 } }
    refine command_replies ha (st := .ok) (u := fun i e => (u i e).raiseT2 c.bib (a.t2Quota.toNat - (s.bib c.bib).args.t2Quota.toNat))
      (fun i e => ?_) fun i e o n x hr' => ?_
    · dsimp only
      rw [if_neg (by rw [hr]; decide), if_neg (by rw [quotasFit_taken, hfit]; decide), if_pos (by exact hlt)]
      rfl
    · obtain ⟨⟨h, y, he⟩, hbits⟩ := raiseT2_eq (u i e) c.bib (a.t2Quota.toNat - (s.bib c.bib).args.t2Quota.toNat)
      generalize State.raiseT2 _ _ _ = t at he hbits hr' ⊢
      subst he
      refine ⟨?_, hr', hbits, rfl⟩
      exact congrArg (fun r : Bib => r.args.t2Quota) (Table.read_write_self ({} : Bib) s.bibs.recs c.bib.toNat _)
  case seeds =>
    refine command_replies ha (st := .ok) (u := fun i e => { s.taken i e with
        bibs.seeds := s.bibs.seeds.insert c.bib.toNat set, bibs.seedsNext := s.bibs.seedsNext.remove c.bib.toNat })
      (fun i e => ?_) fun i e o n x hr => ⟨Table.lookup_insert_self .., hr, rfl⟩
    exact (if_neg (not_not.mpr hl)).trans (if_pos hrun)
  case seedsNext =>
    refine command_replies ha (st := .ok) (u := fun i e => { s.taken i e with bibs.seedsNext := s.bibs.seedsNext.insert c.bib.toNat set })
      (fun i e => ?_) fun i e o n x hr => ⟨Table.lookup_insert_self .., rfl, hr, rfl⟩
    exact (if_neg (not_not.mpr hl)).trans (if_neg hrun)

end Machine
end Sys2Proof

/-! SUPPORT. Runs of courses: what a grant binds, and what the end of a run, a cancelled stream and a cancelled run leave (O16). -/

namespace Sys2Proof

theorem Table.lookup_each {α β : Type} (f : Nat → α → β) (k : Nat) : ∀ t : Table α, (t.each f).lookup k = (t.lookup k).map (f k)
  | [] => rfl
  | (j, a) :: t => by
    rw [Table.each, Table.lookup, Table.lookup, Table.lookup_each f k t]
    split_ifs with h
    · rw [h]; rfl
    · rfl

namespace Machine

theorem Hdr.of_opcode (c : Hdr) : c.of c.opcode.toNat = c := by
  rw [Hdr.of, BitVec.ofNat_toNat, BitVec.setWidth_eq]

/-! ## Streams that end -/

theorem settleStrm_eq (s : State) (n : Nat) (x : Strm) : ∃ l, s.settleStrm n x = { s with lift.strm := l } := by
  unfold State.settleStrm
  split_ifs
  exacts [⟨_, rfl⟩, ⟨_, rfl⟩, ⟨_, rfl⟩]

theorem cancelStrm_eq (s : State) (n : Nat) : ∃ l m, s.cancelStrm n = { s with lift.strm := l, mem.moves := m } := by
  unfold State.cancelStrm
  split
  · dsimp only
    generalize hs : State.settleStrm _ _ _ = t
    obtain ⟨l, he⟩ := settleStrm_eq _ _ _
    rw [hs] at he
    subst he
    exact ⟨l, _, rfl⟩
  · exact ⟨s.lift.strm, s.mem.moves, rfl⟩

theorem lateOver_eq (s : State) (c : Nat) : ∃ h, s.lateOver c = { s with crs.holds := h } := by
  unfold State.lateOver
  split_ifs
  exacts [clearHold_onlyHolds s c 0, ⟨s.crs.holds, rfl⟩]

theorem cancelStreams_eq (s : State) (c : Nat) : ∃ l m h, s.cancelStreams c = { s with lift.strm := l, mem.moves := m, crs.holds := h } := by
  have heach (ns : List Nat) : ∃ l m, s.each ns State.cancelStrm = { s with lift.strm := l, mem.moves := m } := by
    refine each_rel (R := fun s t => ∃ l m, t = { s with lift.strm := l, mem.moves := m }) (fun s => ⟨s.lift.strm, s.mem.moves, rfl⟩) ?_ cancelStrm_eq ns s
    rintro _ _ _ ⟨_, _, rfl⟩ ⟨l, m, rfl⟩
    exact ⟨l, m, rfl⟩
  unfold State.cancelStreams
  obtain ⟨l, m, he⟩ := heach ((s.strmsOf c).map (·.1))
  rw [he]
  obtain ⟨h, he⟩ := lateOver_eq { s with lift.strm := l, mem.moves := m } c
  exact ⟨l, m, h, he⟩

/-! ## The end of a run -/

theorem each_setGate_eq (f : State → Nat → Gate) (l : List Nat) (s : State) : ∃ g, s.each l (fun u n => u.setGate n (f u n)) = { s with crs.gates := g } := by
  refine each_rel (R := fun s t => ∃ g, t = { s with crs.gates := g }) (fun s => ⟨s.crs.gates, rfl⟩) ?_ (fun t n => ⟨_, rfl⟩) l s
  rintro _ _ _ ⟨_, rfl⟩ ⟨g, rfl⟩
  exact ⟨g, rfl⟩

/-- The run that stands in a slot goes: its carves drain, its hold, its waits at the gates, its domain and its requests end. -/
theorem dropRun_of_run {s : State} {c : Nat} {d : Domain} {k : Course} (hd : s.domain c = some d) (hk : s.course c = some k) :
    ∃ dr u j g, s.dropRun c = { s with
      rink.draining := dr, arr.uses := u, arr.inject := j
      crs := { s.crs with
        gates := g
        holds := s.crs.holds.write {} c { s.hold c with cause := 0, current := 0, stopped := false, drained := false, marked := false }
        domains := s.crs.domains.remove c, requests := s.crs.requests.filter (fun r => r.slot.toNat ≠ c) } } := by
  unfold State.dropRun
  rw [hd, hk]
  dsimp only
  generalize he : State.each _ _ _ = t
  obtain ⟨g, ht⟩ := each_setGate_eq (fun u n => { u.gate n with waits := (u.gate n).waits.filter (fun e => e.2.toNat ≠ c) }) k.gateMap _
  rw [he] at ht
  subst ht
  exact ⟨_, _, _, g, rfl⟩

/-- A run ends: its bib is admitted again and its RUN gets the reply (R297). -/
theorem endRun_of_run {s : State} {c : Nat} {d : Domain} {k : Course} (hd : s.domain c = some d) (hk : s.course c = some k) (st : Status) :
    ∃ r, s.endRun c st = ({ s.dropRun c with bibs.recs := r } : State).reply d.runHdr st ∧
      ((s.bib d.bib).state = .running → r = s.bibs.recs.write {} d.bib.toNat { s.bib d.bib with state := .admitted }) ∧
      ∀ b, b ≠ d.bib → r.read {} b.toNat = s.bib b := by
  have hbibs : (s.dropRun c).bibs = s.bibs := by
    obtain ⟨_, _, _, _, he⟩ := dropRun_of_run hd hk
    rw [he]
  have hbib (b) : (s.dropRun c).bib b = s.bib b := by rw [State.bib, hbibs]; rfl
  unfold State.endRun
  rw [hd]
  dsimp only
  rw [hbib]
  split_ifs with h
  · refine ⟨_, rfl, fun _ => by rw [hbibs], fun b hb => ?_⟩
    rw [hbibs]
    exact Table.read_write_ne ({} : Bib) s.bibs.recs (fun he => hb (BitVec.eq_of_toNat_eq he).symm) _
  · exact ⟨(s.dropRun c).bibs.recs, rfl, fun hr => absurd hr h, fun b _ => hbib b⟩

theorem dropRun_mem (s : State) (c : Nat) : (s.dropRun c).mem = s.mem := by
  cases hd : s.domain c with
  | none => rw [State.dropRun, hd]
  | some d =>
    cases hk : s.course c with
    | none => rw [State.dropRun, hd, hk]
    | some k =>
      obtain ⟨_, _, _, _, he⟩ := dropRun_of_run hd hk
      rw [he]

theorem reply_mem (s : State) (c : Hdr) (st : Status) : (s.reply c st).mem = s.mem := by
  rw [reply_frame]

theorem endRun_mem (s : State) (c : Nat) (st : Status) : (s.endRun c st).mem = s.mem := by
  unfold State.endRun
  split
  · dsimp only
    rw [reply_mem, apply_ite State.mem]
    exact (ite_self _).trans (dropRun_mem s c)
  · rfl

theorem cancelRun_bytes (s : State) (c : Nat) : (s.cancelRun c).mem.bytes = s.mem.bytes := by
  unfold State.cancelRun
  split
  next d _ =>
    obtain ⟨l, m, h, he⟩ := cancelStreams_eq s c
    refine (congrArg Mem.bytes (endRun_mem _ c _)).trans ?_
    rw [he]
    rfl
  · rfl

/-- A cancelled run: its locker entries, its domain and its requests go, and no byte changes (R341). -/
theorem cancelRun_of_run {s : State} {c : Nat} {d : Domain} {k : Course} (hd : s.domain c = some d) (hk : s.course c = some k) :
    (s.cancelRun c).domain c = none ∧ (s.cancelRun c).crs.requests = s.crs.requests.filter (fun r => r.slot.toNat ≠ c) ∧
      (s.cancelRun c).lkr.entries = s.lkr.entries.filter (fun e => e.bib ≠ d.bib) := by
  obtain ⟨l, m, h, hs⟩ := cancelStreams_eq s c
  let freed (d' : Domain) : Domain := if d'.bib = d.bib then { d' with live := d'.live.each (fun _ l => { l with work := [] }) } else d'
  have hd' : ((s.cancelStreams c).freeLocker d.bib).domain c = some (freed d) := by
    rw [hs]
    exact (Table.lookup_each (fun _ => freed) c s.crs.domains).trans (congrArg (Option.map freed) hd)
  have hk' : ((s.cancelStreams c).freeLocker d.bib).course c = some k := by rw [hs]; exact hk
  unfold State.cancelRun
  rw [hd]
  dsimp only
  obtain ⟨r, he, -, -⟩ := endRun_of_run hd' hk' (Config.openStatus s.freeCtr)
  obtain ⟨dr, u, j, g, hdrop⟩ := dropRun_of_run hd' hk'
  rw [he, hdrop, State.reply]
  obtain ⟨o, n, x, hr⟩ := replyAs_eq _ _ _ _ _ _
  rw [hr, hs]
  exact ⟨Table.lookup_remove_self _ _, rfl, rfl⟩

/-! ## A grant -/

theorem bibOf_bind (r : Stn) (q i : Nat) (b : BitVec 12) : (r.bind i b).bibOf q = b ∨ (r.bind i b).bibOf q = r.bibOf q := by
  unfold Stn.bind Stn.bibOf
  split <;> split <;> simp

theorem bibOf_bind_self (r : Stn) (q : Nat) (b : BitVec 12) : (r.bind q b).bibOf q = b := by
  unfold Stn.bind Stn.bibOf
  split <;> split <;> simp_all

/-- Quarters that are bound to a bib, or stand bound to it already, are the bib's. -/
theorem bibOf_binds (b : BitVec 12) (q : Nat) : ∀ (l : List Nat) (r : Stn), q ∈ l ∨ r.bibOf q = b → (l.foldl (fun r i => r.bind i b) r).bibOf q = b
  | [], _, h => h.resolve_left List.not_mem_nil
  | i :: l, r, h => by
    refine bibOf_binds b q l (r.bind i b) ?_
    rcases h with h | h
    · rcases List.mem_cons.mp h with rfl | h
      exacts [.inr (bibOf_bind_self r q b), .inl h]
    · exact .inr ((bibOf_bind r q i b).elim id (·.trans h))

/-- A station of a run: its width, and each of its quarters bound to the bib. -/
def Stn.boundTo (r : Stn) (b : BitVec 12) (w q : Nat) : Prop := r.width = widthCode w ∧ ∀ i ∈ groupQuarters q w, r.bibOf i = b

theorem stn_setStn_ne (s : State) {p n : Nat} (h : n ≠ p) (r : Stn) : (s.setStn p r).stn n = s.stn n := Table.read_write_ne _ _ h.symm _

theorem bindRun_stn (b : BitVec 12) (w q p : Nat) : ∀ (run : List Nat) (s : State),
    (p ∈ run ∨ (s.stn p).boundTo b w q → ((s.bindRun b w q run).stn p).boundTo b w q) ∧ (p ∉ run → (s.bindRun b w q run).stn p = s.stn p)
  | [], s => ⟨fun h => h.resolve_left List.not_mem_nil, fun _ => rfl⟩
  | a :: run, s => by
    let bound : State := s.setStn a { (groupQuarters q w).foldl (fun r i => r.bind i b) (s.stn a) with width := widthCode w }
    obtain ⟨hin, hout⟩ := bindRun_stn b w q p run bound
    have hstep : s.bindRun b w q (a :: run) = bound.bindRun b w q run := rfl
    rw [hstep]
    refine ⟨fun h => hin ?_, fun h => ?_⟩
    · by_cases ha : p = a
      · right
        subst ha
        rw [show bound.stn p = _ from stn_setStn_self s p _]
        exact ⟨rfl, fun i hi => bibOf_binds b i _ _ (.inl hi)⟩
      · rcases h with h | h
        · exact .inl ((List.mem_cons.mp h).resolve_left ha)
        · right
          rwa [show bound.stn p = s.stn p from stn_setStn_ne s ha _]
    · obtain ⟨hne, hrun⟩ := not_or.mp (mt List.mem_cons.mpr h)
      rw [hout hrun]
      exact stn_setStn_ne s hne _

theorem bindRun_eq (b : BitVec 12) (w q : Nat) (run : List Nat) (s : State) : ∃ r, s.bindRun b w q run = { s with rink.stn := r } := by
  refine each_rel (R := fun s t => ∃ r, t = { s with rink.stn := r }) (fun s => ⟨s.rink.stn, rfl⟩) ?_ (fun t p => ⟨_, rfl⟩) run s
  rintro _ _ _ ⟨_, rfl⟩ ⟨r, rfl⟩
  exact ⟨r, rfl⟩

theorem resetGates_eq (s : State) (k : Course) : ∃ g v x, s.resetGates k = { s with crs.gates := g, crs.verdicts := v, crs.signals := x } := by
  unfold State.resetGates
  dsimp only
  generalize he : State.each _ _ _ = t
  obtain ⟨g, ht⟩ := each_setGate_eq (fun t n => { t.gate n with
    state := 1, epoch := 0, count := 0, next := 0, waits := [], ticks := 0, ticksNext := 0
    dropped := (t.gate n).dropped + (t.gate n).count.toNat + (t.gate n).next.toNat }) k.gateMap s
  rw [he] at ht
  subst ht
  exact ⟨g, _, _, rfl⟩

theorem grantStages_eq (s : State) (c : Nat) : ∃ k x l, s.grantStages c = { s with crs.courses := k, ctr := x, log := l } := by
  unfold State.grantStages
  split
  · split_ifs
    exacts [⟨s.crs.courses, s.ctr, s.log, rfl⟩, countStages_eq s c]
  · exact ⟨s.crs.courses, s.ctr, s.log, rfl⟩

/-- A reply is the newest on its path. -/
theorem eq_of_replyAs {s t : State} {op : Nat} {c : Hdr} {st : Status} {fin : Bool} {ev : Nat} {r : Result} (h : s.replyAs (c.of op) st fin ev r = t) :
    (∃ o n k, t = s.replying o n k) ∧ t.answered op c st fin r := by
  obtain ⟨o, n, k, he, hr⟩ := replyAs_answered_eq s op c st fin ev r
  rw [← h, he]
  exact ⟨⟨o, n, k, rfl⟩, hr⟩

/-- Only courses, gates and holds, with their counters and events, differ. -/
def OnlyStarts (s t : State) : Prop := t = { s with
  crs := { s.crs with courses := t.crs.courses, gates := t.crs.gates, verdicts := t.crs.verdicts, signals := t.crs.signals, holds := t.crs.holds }
  ctr := t.ctr, log := t.log }

theorem OnlyStarts.refl (s : State) : OnlyStarts s s := rfl

theorem OnlyStarts.trans {s t u : State} (h : OnlyStarts s t) (h' : OnlyStarts t u) : OnlyStarts s u :=
  Eq.trans h' (congrArg (fun x : State => { x with
    crs := { x.crs with courses := u.crs.courses, gates := u.crs.gates, verdicts := u.crs.verdicts, signals := u.crs.signals, holds := u.crs.holds }
    ctr := u.ctr, log := u.log }) h)

theorem setCourse_onlyStarts (s : State) (c : Nat) (k : Course) : OnlyStarts s (s.setCourse c k) := rfl

theorem resetGates_onlyStarts (s : State) (k : Course) : OnlyStarts s (s.resetGates k) := by
  obtain ⟨_, _, _, he⟩ := resetGates_eq s k
  rw [he]; rfl

theorem grantStages_onlyStarts (s : State) (c : Nat) : OnlyStarts s (s.grantStages c) := by
  obtain ⟨_, _, _, he⟩ := grantStages_eq s c
  rw [he]; rfl

theorem raiseHoldIf_onlyStarts (s : State) (b : Bool) (c n : Nat) : OnlyStarts s (if b then s.raiseHold c n else s) := by
  split_ifs
  · obtain ⟨_, _, _, he⟩ := raiseHold_eq s c n
    rw [he]; rfl
  · rfl

/-- The domain that a grant starts. -/
def Domain.granted (d : Domain) (w : Nat) (o : Offer) : Domain :=
  { d with running := true, suspended := false, s := o.run.length, run := o.run, quarter := o.q, w := w
           pc := 0, ord := 0, begun := 0, live := [], loops := [], passes := [], finishes := []
           usePass := [], ends := [], tokens := 0, stepNo := 0, tokenNo := 0, ords := [], boundary := 0 }

/-- What a grant binds before the course starts on it. -/
def State.bound (s : State) (slot : BitVec 8) (b : BitVec 12) (d : Domain) (w : Nat) (o : Offer) : State :=
  let t := ((s.bindRun b w o.q o.run).setBib b { s.bib b with state := .running }).setDomain slot.toNat (d.granted w o)
  { t with crs.requests := t.crs.requests.filter (fun x => x.slot ≠ slot) }

/-- A grant's effect (R160, R295). -/
def State.granted (s : State) (slot : BitVec 8) (b : BitVec 12) (k : Course) (d : Domain) (o : Offer) : State :=
  let t1 := s.bound slot b d (carveWidth (chWidth k.hdr)) o
  let t2 := ((t1.setCourse slot.toNat (t1.patched k o.run.length)).resetGates k).grantStages slot.toNat
  let t3 := if (t2.hold slot.toNat).pause then t2.raiseHold slot.toNat 3 else t2
  let t4 := if t3.vc.piece.isSome then t3.raiseHold slot.toNat 4 else t3
  t4.replyAs d.runHdr .ok false 0 (.grant o.run.length)

theorem granted_eq (s : State) (slot : BitVec 8) (b : BitVec 12) (k : Course) (d : Domain) (o : Offer) :
    ∃ t m, OnlyStarts (s.bound slot b d (carveWidth (chWidth k.hdr)) o) t ∧ s.granted slot b k d o = { t with cmd := m } := by
  unfold State.granted
  extract_lets t1 t2 t3 t4
  obtain ⟨_, _, _, he⟩ := replyAs_eq t4 d.runHdr .ok false 0 (.grant o.run.length)
  refine ⟨t4, _, ?_, he⟩
  exact .trans (.trans (.trans (.trans (setCourse_onlyStarts ..) (resetGates_onlyStarts ..)) (grantStages_onlyStarts ..)) (raiseHoldIf_onlyStarts ..))
    (raiseHoldIf_onlyStarts ..)

theorem granted_rows (s : State) (slot : BitVec 8) (b : BitVec 12) (k : Course) (d : Domain) (o : Offer) :
    let w := carveWidth (chWidth k.hdr)
    (∃ x, (s.granted slot b k d o).domain slot.toNat = some x ∧ x.running = true ∧ x.suspended = false ∧ x.run = o.run ∧ x.s = o.run.length
        ∧ x.quarter = o.q ∧ x.w = w ∧ x.live = [] ∧ x.stepsDone = d.stepsDone)
      ∧ (s.granted slot b k d o).bib b = { s.bib b with state := .running } ∧ (∀ x, x ≠ b → (s.granted slot b k d o).bib x = s.bib x)
      ∧ (∀ p ∈ o.run, ((s.granted slot b k d o).stn p).width = widthCode w ∧ ∀ q ∈ groupQuarters o.q w, ((s.granted slot b k d o).stn p).bibOf q = b)
      ∧ (∀ p, p ∉ o.run → (s.granted slot b k d o).stn p = s.stn p) ∧ (∀ x ∈ (s.granted slot b k d o).crs.requests, x.slot ≠ slot)
      ∧ (s.granted slot b k d o).mem = s.mem := by
  intro w
  obtain ⟨t, m, ht, he⟩ := granted_eq s slot b k d o
  rw [he, show t = _ from ht]
  obtain ⟨r, hbind⟩ := bindRun_eq b w o.q o.run s
  have hstn (p : Nat) : Table.read ({} : Stn) r p = (s.bindRun b w o.q o.run).stn p := by rw [hbind]; rfl
  have hbound : s.bound slot b d w o = { s with
      rink.stn := r, bibs.recs := s.bibs.recs.write {} b.toNat { s.bib b with state := .running }
      crs.domains := s.crs.domains.insert slot.toNat (d.granted w o), crs.requests := s.crs.requests.filter (fun x => x.slot ≠ slot) } := by
    unfold State.bound
    rw [hbind]
    rfl
  rw [show s.bound slot b d (carveWidth (chWidth k.hdr)) o = s.bound slot b d w o from rfl, hbound]
  refine ⟨⟨_, Table.lookup_insert_self .., rfl, rfl, rfl, rfl, rfl, rfl, rfl, rfl⟩, ?_, fun x hx => ?_, fun p hp => ?_, fun p hp => ?_, fun x hx => ?_, rfl⟩
  · exact Table.read_write_self ({} : Bib) s.bibs.recs b.toNat { s.bib b with state := .running }
  · exact Table.read_write_ne ({} : Bib) s.bibs.recs (k := b.toNat) (n := x.toNat) (fun h => hx (BitVec.eq_of_toNat_eq h).symm) { s.bib b with state := .running }
  · have hp' := (bindRun_stn b w o.q p o.run s).1 (.inl hp)
    rw [← hstn] at hp'
    exact hp'
  · exact (hstn p).trans ((bindRun_stn b w o.q p o.run s).2 hp)
  · exact of_decide_eq_true (List.mem_filter.mp hx).2

/-- Settles O16. -/
theorem runRows : Obligations.RunRows := by
  simp only [Obligations.RunRows, Answers, exec]
  refine ⟨fun s c k steps seq ha hk hb hno hg => ?waits, fun s c k e steps seq ha hk hb he heb => ?busy,
    fun s slot r k d o hup hr hk hd hmeet hb hg => ?grants, fun s slot hup => ?timeout, fun s slot k d hup hk hd hrun hl ht h0 hle hb => ?ends,
    fun s c k d ha hk hb hd => ?cancels⟩
  case waits =>
    refine command_answers ha fun i e => ?_
    dsimp only
    rw [onCourse_of_own (s := s.taken i e) (c := c.of 0x0203) hk hb]
    have hidle : ¬s.crs.domains.any (fun _ d => d.bib = c.bib) = true := fun h => by
      obtain ⟨j, d, hmem, hdb⟩ := any_eq_true.mp h
      exact hno _ hmem (of_decide_eq_true hdb)
    rw [if_neg (by exact hidle), if_neg (by exact ne_true_of_eq_false hg)]
    generalize hr : State.replyAs _ _ _ _ _ _ = t
    obtain ⟨⟨o, n, x, rfl⟩, hans⟩ := eq_of_replyAs hr
    exact ⟨⟨_, Table.lookup_insert_self .., rfl, rfl, rfl, rfl, rfl⟩, rfl, hans, rfl⟩
  case busy =>
    refine command_replies ha (u := s.taken) (st := .busy) (fun i e' => ?_) fun i e' o n x hr => ⟨hr, rfl⟩
    rw [onCourse_of_own (s := s.taken i e') (c := c.of 0x0203) hk hb, if_pos (by exact any_eq_true.mpr ⟨e.1, e.2, he, decide_eq_true heb⟩)]
  case grants =>
    have hfirst : ¬((earlier s.crs.requests slot).any s.couldMeet || decide ((s.bib r.bib).state ≠ .admitted)) = true := by
      rw [List.any_eq_false.mpr fun x hx => by rw [hmeet x hx]; exact Bool.false_ne_true, hb]
      decide
    refine ⟨s.granted slot r.bib k d o, (event_of_up hup _).trans (congrArg Host.Outcome.next ?_), granted_rows s slot r.bib k d o⟩
    dsimp only
    rw [hr, hk, hd]
    dsimp only
    rw [if_neg hfirst, hg]
    rfl
  case timeout => exact event_of_up hup _
  case ends =>
    refine event_answers hup ?_
    rw [hd]
    dsimp only
    rw [if_pos ⟨hrun, hl, ht, h0, hle⟩]
    obtain ⟨q, he, hq, hothers⟩ := endRun_of_run hd hk .ok
    obtain ⟨dr, u, j, g, hdrop⟩ := dropRun_of_run hd hk
    rw [he]
    generalize hr : State.reply _ _ _ = t
    rw [← Hdr.of_opcode d.runHdr] at hr
    obtain ⟨⟨o, n, x, rfl⟩, hans⟩ := eq_of_replyAs hr
    rw [hdrop] at hans ⊢
    refine ⟨Table.lookup_remove_self .., ?_, fun b hne => hothers b hne, hans, ?_, rfl⟩
    · rw [hq hb]
      exact Table.read_write_self ({} : Bib) s.bibs.recs d.bib.toNat { s.bib d.bib with state := .admitted }
    · exact congrArg Hold.cause (Table.read_write_self ({} : Hold) s.crs.holds slot.toNat _)
  case cancels =>
    refine command_replies ha (st := .ok) (u := fun i e => (s.taken i e).cancelRun c.slot.toNat) (fun i e => ?_) fun i e o n x hr => ?_
    · rw [onCourse_of_own (s := s.taken i e) (c := c.of 0x0204) hk hb]
      dsimp only
      rw [show (s.taken i e).domain c.slot.toNat = some d from hd]
    · obtain ⟨hdom, hreq, hlkr⟩ := cancelRun_of_run (s := s.taken i e) hd hk
      refine ⟨hdom, hr, fun y hy => ?_, fun y hy => ?_, cancelRun_bytes (s.taken i e) _⟩
      · replace hy : y ∈ ((s.taken i e).cancelRun c.slot.toNat).lkr.entries := hy
        rw [hlkr] at hy
        exact of_decide_eq_true (List.mem_filter.mp hy).2
      · replace hy : y ∈ ((s.taken i e).cancelRun c.slot.toNat).crs.requests := hy
        rw [hreq] at hy
        exact fun h => of_decide_eq_true (List.mem_filter.mp hy).2 (congrArg BitVec.toNat h)

end Machine
end Sys2Proof

/-! SUPPORT. Release of a bib, its scrub and its resumption (O13). -/

namespace Sys2Proof
namespace Machine

/-! ## Scrubbing -/

theorem each_bytes {α : Type} {f : State → α → State} (h : ∀ s a, (f s a).mem.bytes = s.mem.bytes) (l : List α) (s : State) :
    (s.each l f).mem.bytes = s.mem.bytes :=
  each_rel (R := fun s t => t.mem.bytes = s.mem.bytes) (fun _ => rfl) (fun h h' => h'.trans h) h l s

/-- A scrub begins: the bib is CLEARING, its streams and locker entries are gone, and no byte has changed (R311). -/
theorem beginScrub_rows (s : State) (b : BitVec 12) (nonce : BitVec 256) (c : Hdr) :
    ((s.beginScrub b nonce c).bib b).state = .clearing ∧
      (∃ z, (s.beginScrub b nonce c).bibs.scrubs.lookup b.toNat = some z ∧ z.nonce = nonce ∧ z.pages = false ∧ z.hdr = c) ∧
      (∀ n x, (s.beginScrub b nonce c).strm n = some x → x.bib ≠ b) ∧ (∀ e ∈ (s.beginScrub b nonce c).lkr.entries, e.bib ≠ b) ∧
      (s.beginScrub b nonce c).mem.bytes = s.mem.bytes := by
  have hbytes := each_bytes cancelRun_bytes (s.domainsOf b) s
  unfold State.beginScrub
  dsimp only
  generalize State.each s _ _ = t at hbytes ⊢
  refine ⟨?_, ⟨_, Table.lookup_insert_self .., rfl, rfl, rfl⟩, fun n x hx => ?_, fun e he => ?_, hbytes⟩
  · exact congrArg Bib.state (Table.read_write_self ({} : Bib) t.bibs.recs b.toNat { t.bib b with state := .clearing })
  · exact of_decide_eq_true (Table.holds_of_mem_keep (Table.mem_of_lookup hx))
  · exact of_decide_eq_true (List.mem_filter.mp he).2

theorem byte_zeroBytes_of {s : State} {a : Nat} (h : s.byte a = 0) (lo n : Nat) : (s.zeroBytes lo n).byte a = 0 := by
  rw [zeroBytes_byte]
  split_ifs
  exacts [h, rfl]

/-- Only stored bytes and slot counts differ, and what was zero stays zero. -/
def Wiped (s t : State) : Prop := t = { s with mem.bytes := t.mem.bytes, mem.slots := t.mem.slots } ∧ ∀ a, s.byte a = 0 → t.byte a = 0

theorem Wiped.refl (s : State) : Wiped s s := ⟨rfl, fun _ => id⟩

theorem Wiped.trans {s t u : State} (h : Wiped s t) (h' : Wiped t u) : Wiped s u :=
  ⟨Eq.trans h'.1 (congrArg (fun x : State => { x with mem.bytes := u.mem.bytes, mem.slots := u.mem.slots }) h.1), fun a ha => h'.2 a (h.2 a ha)⟩

theorem zeroBytes_wiped (s : State) (lo n : Nat) : Wiped s (s.zeroBytes lo n) := ⟨rfl, fun _ h => byte_zeroBytes_of h lo n⟩

theorem releaseSlot_wiped (s : State) (h : HomeAddr) : Wiped s (s.releaseSlot h) := by
  unfold State.releaseSlot
  dsimp only
  split_ifs
  exacts [⟨rfl, fun _ => id⟩, .refl s]

theorem each_cons {α : Type} (f : State → α → State) (s : State) (a : α) (l : List α) : s.each (a :: l) f = (f s a).each l f := rfl

theorem each_zeroBytes_wiped (lo : Nat → Nat) (n : Nat) (l : List Nat) (s : State) : Wiped s (s.each l (fun t k => t.zeroBytes (lo k) n)) :=
  each_rel .refl .trans (fun t k => zeroBytes_wiped t (lo k) n) l s

/-- The frames of a bib hold zeros once each has been filled. -/
theorem each_zeroBytes_byte (lo : Nat → Nat) {n i k : Nat} (hi : i < n) (l : List Nat) (s : State) (h : k ∈ l) :
    (s.each l (fun t k => t.zeroBytes (lo k) n)).byte (lo k + i) = 0 := by
  induction l generalizing s with
  | nil => exact absurd h List.not_mem_nil
  | cons a l ih =>
    rw [each_cons]
    rcases List.mem_cons.mp h with rfl | h
    · exact (each_zeroBytes_wiped lo n l _).2 _ ((zeroBytes_byte s (lo k) n _).trans (if_neg (by omega)))
    · exact ih _ h

/-! ### What a wipe forgets -/

/-- The bytes after a wipe: every frame of the bib reads 0. -/
theorem wipe_byte {s : State} {b : BitVec 12} {f i : Nat} (hf : s.mem.owners.lookup f = some b) (hi : i < 2 ^ 21) :
    (s.wipe b).byte (byteKey (f / 2 ^ 29) (f % 2 ^ 29 * 2 ^ 21) + i) = 0 := by
  have hmem : f ∈ (s.mem.owners.filter (fun e => e.2 = b)).map (·.1) :=
    List.mem_map.mpr ⟨(f, b), List.mem_filter.mpr ⟨Table.mem_of_lookup hf, decide_eq_true rfl⟩, rfl⟩
  have hzero := each_zeroBytes_byte (fun k => byteKey (k / 2 ^ 29) (k % 2 ^ 29 * 2 ^ 21)) hi _ s hmem
  unfold State.wipe
  extract_lets frames hdrs t t1
  have hrest : Wiped t t1 := by
    refine each_rel (R := Wiped) .refl .trans (fun u h => ?_) hdrs t
    split_ifs
    exacts [.trans (zeroBytes_wiped ..) (releaseSlot_wiped ..), releaseSlot_wiped ..]
  exact hrest.2 _ hzero

/-- A wipe leaves all but the memory's records and the lodge's pages. -/
theorem wipe_eq (s : State) (b : BitVec 12) : ∃ o h p, s.wipe b = { s with mem := (s.wipe b).mem, lodge := (s.wipe b).lodge } ∧
    (s.wipe b).mem.owners = Table.keep (fun _ x => decide (x ≠ b)) o ∧ (s.wipe b).mem.hdrs = Table.keep (fun _ x => decide (x.id.bib ≠ b)) h ∧
    (s.wipe b).mem.ptes = Table.keep (fun k _ => decide (k / 2 ^ 27 ≠ b.toNat)) p := by
  unfold State.wipe
  extract_lets frames hdrs t t1
  have ht : Wiped s t := each_zeroBytes_wiped (fun k => byteKey (k / 2 ^ 29) (k % 2 ^ 29 * 2 ^ 21)) (2 ^ 21) frames s
  have hrest : Wiped t t1 := by
    refine each_rel (R := Wiped) .refl .trans (fun u h => ?_) hdrs t
    split_ifs
    exacts [.trans (zeroBytes_wiped ..) (releaseSlot_wiped ..), releaseSlot_wiped ..]
  obtain ⟨he, -⟩ := ht.trans hrest
  refine ⟨t1.mem.owners, t1.mem.hdrs, t1.mem.ptes, ?_, rfl, rfl, rfl⟩
  generalize t1 = u at he
  rw [he]

theorem pageKey_div {p : Nat} (b : BitVec 12) (hp : p < 2 ^ 27) : pageKey b p / 2 ^ 27 = b.toNat := by
  unfold pageKey
  omega

/-! ## Courses that go -/

/-- Courses, and what is kept for courses, may be gone; no course is new. -/
def Shrinks (s t : State) : Prop := t = { s with crs := t.crs, lkr := t.lkr, lift := t.lift, upd := t.upd } ∧
  ∀ i k, t.course i = some k → s.course i = some k

theorem Shrinks.refl (s : State) : Shrinks s s := ⟨rfl, fun _ _ => id⟩

theorem Shrinks.trans {s t u : State} (h : Shrinks s t) (h' : Shrinks t u) : Shrinks s u :=
  ⟨Eq.trans h'.1 (congrArg (fun x : State => { x with crs := u.crs, lkr := u.lkr, lift := u.lift, upd := u.upd }) h.1),
    fun i k hk => h.2 i k (h'.2 i k hk)⟩

theorem Shrinks.course_none {s t : State} (h : Shrinks s t) {i : Nat} (hi : s.course i = none) : t.course i = none :=
  Option.eq_none_iff_forall_ne_some.mpr fun k hk => by
    have hs := h.2 i k hk
    rw [hi] at hs
    exact absurd hs (by simp)

theorem dropCourse_shrinks (s : State) (c : Nat) (k : Course) : Shrinks s (s.dropCourse c k) := by
  refine ⟨dropCourse_frame s c k, fun i j hj => ?_⟩
  by_cases hi : i = c
  · rw [hi, dropCourse_course_self] at hj
    exact absurd hj (by simp)
  · rwa [dropCourse_course_ne s hi] at hj

theorem each_dropCourse_shrinks (l : List (Nat × Course)) (s : State) : Shrinks s (s.each l (fun t e => t.dropCourse e.1 e.2)) := by
  induction l generalizing s with
  | nil => exact .refl s
  | cons e l ih => exact (dropCourse_shrinks s e.1 e.2).trans (ih _)

theorem each_dropCourse_course (l : List (Nat × Course)) (s : State) {e : Nat × Course} (h : e ∈ l) :
    (s.each l (fun t e => t.dropCourse e.1 e.2)).course e.1 = none := by
  induction l generalizing s with
  | nil => exact absurd h List.not_mem_nil
  | cons a l ih =>
    rw [each_cons]
    rcases List.mem_cons.mp h with rfl | h
    · exact (each_dropCourse_shrinks l _).course_none (dropCourse_course_self s e.1 e.2)
    · exact ih _ h

/-- Once every course of a bib is dropped, none of it is left. -/
theorem course_bib_ne_of_dropped {s : State} {b : BitVec 12} {i : Nat} {k : Course}
    (h : (s.each (s.crs.courses.filter (fun e => e.2.bib = b)) (fun t e => t.dropCourse e.1 e.2)).course i = some k) : k.bib ≠ b := by
  intro hb
  have hs := (each_dropCourse_shrinks _ s).2 i k h
  have hgone := each_dropCourse_course (s.crs.courses.filter (fun e => e.2.bib = b)) s
    (List.mem_filter.mpr ⟨Table.mem_of_lookup hs, decide_eq_true hb⟩)
  rw [hgone] at h
  exact absurd h (by simp)

theorem requeue_mem (s : State) (c : Nat) : (s.requeue c).mem = s.mem := by
  unfold State.requeue
  split
  · exact dropRun_mem s c
  · rfl

/-- A bib that resumes is admitted again; no byte changes. -/
theorem resumeBib_rows (s : State) (b : BitVec 12) :
    ((s.resumeBib b).bib b).state = .admitted ∧ ((s.resumeBib b).bib b).why = .ok ∧ (s.resumeBib b).mem.bytes = s.mem.bytes := by
  have hone (t : State) (c : Nat) : (((t.cancelStreams c).clearUpdate c).requeue c).mem.bytes = t.mem.bytes := by
    obtain ⟨l, m, h, he⟩ := cancelStreams_eq t c
    have hclear : ((t.cancelStreams c).clearUpdate c).mem.bytes = t.mem.bytes := by rw [he]; rfl
    rw [requeue_mem, hclear]
  have hbytes := each_bytes hone (s.domainsOf b) s
  unfold State.resumeBib
  dsimp only
  generalize State.each _ _ _ = t at hbytes ⊢
  rw [show (t.setBib b _).bib b = _ from (setBib_bib t b b _).trans (if_pos rfl)]
  exact ⟨rfl, rfl, hbytes⟩

theorem newest_of_cmd {s t : State} (h : t.cmd = s.cmd) (p : Path) : t.newest p = s.newest p := by
  unfold State.newest
  rw [h]

/-- Settles O13. -/
theorem releaseScrubAndResume : Obligations.ReleaseScrubAndResume := by
  simp only [Obligations.ReleaseScrubAndResume, Answers, exec]
  refine ⟨fun s c nonce ha hno => ?release, fun s c nonce ha hshared => ?busy, fun s b z hup hz hst hp hheld => ?pages,
    fun s b z hup hz hp hop => ?complete, fun s c ha hj => ?resume⟩
  case release =>
    refine command_answers ha fun i e => ?_
    rw [if_neg (by exact ne_true_of_eq_false hno)]
    obtain ⟨hst, ⟨z, hz, h1, h2, h3⟩, hs, hl, hb⟩ := beginScrub_rows (s.taken i e) c.bib nonce (c.of 0x0107)
    exact ⟨hst, ⟨z, hz, h1, h2, by rw [h3]⟩, hs, hl, hb⟩
  case busy =>
    refine command_replies ha (u := s.taken) (st := .busy) (fun _ _ => if_pos hshared) fun i e o n x hr => ⟨hr, rfl⟩
  case pages =>
    refine event_answers hup ?_
    dsimp only
    rw [hz]
    dsimp only
    rw [if_neg (by rw [hst, hp, hheld]; simp)]
    have hbyte {f i : Nat} (hf : s.mem.owners.lookup f = some b) (hi : i < 2 ^ 21) := wipe_byte (s := s.zeroKeys b) hf hi
    obtain ⟨o, h, p, he, howners, hhdrs, hptes⟩ := wipe_eq (s.zeroKeys b) b
    generalize (s.zeroKeys b).wipe b = u at he howners hhdrs hptes hbyte ⊢
    have hkeys : u.keysOf b = { gen := (s.keysOf b).gen } := (congrArg (State.keysOf · b) he).trans ((setKeys_keysOf s b b _).trans (if_pos rfl))
    have hlog : u.log = s.log := (congrArg State.log he).trans rfl
    refine ⟨hkeys, ⟨_, Table.lookup_insert_self .., rfl, rfl, rfl⟩, fun q hq => ?_, fun f hf => ?_, fun f i hf hi => hbyte hf hi, fun k x hx => ?_, hlog⟩
    · have hnone := Table.lookup_keep (fun k => decide (k / 2 ^ 27 ≠ b.toNat)) p (pageKey b q)
      rw [if_neg (by rw [pageKey_div b hq]; simp), ← hptes] at hnone
      exact (congrArg (·.getD {}) hnone).trans rfl
    · replace hf : u.mem.owners.lookup f = some b := hf
      rw [howners] at hf
      exact absurd rfl (of_decide_eq_true (Table.holds_of_mem_keep (Table.mem_of_lookup hf)))
    · replace hx : u.mem.hdrs.lookup k = some x := hx
      rw [hhdrs] at hx
      exact of_decide_eq_true (Table.holds_of_mem_keep (Table.mem_of_lookup hx))
  case complete =>
    refine event_answers hup ?_
    dsimp only
    rw [hz]
    dsimp only
    rw [if_neg (by rw [hp]; decide), if_neg hop]
    generalize hr : State.replyWith _ _ _ = t
    have hr' : s.replyAs (z.hdr.of z.hdr.opcode.toNat) .ok true 0 (.cert (s.certBody b z)
      (Config.aliasSign s.boot.bootM s.boot.svn s.test.unlocked.isSome (s.certBody b z).toNat)) = t := by rw [Hdr.of_opcode]; exact hr
    obtain ⟨⟨o, n, x, rfl⟩, hans⟩ := eq_of_replyAs hr'
    generalize Config.aliasSign _ _ _ _ = sig at hans
    have hgone (i) (k) := @course_bib_ne_of_dropped (s.replying o n x) b i k
    obtain ⟨he, -⟩ := each_dropCourse_shrinks ((s.replying o n x).crs.courses.filter (fun e => e.2.bib = b)) (s.replying o n x)
    generalize State.each _ _ _ = u at he hgone ⊢
    have hbibs : u.bibs = s.bibs := (congrArg State.bibs he).trans rfl
    have hcmd : u.cmd = (s.replying o n x).cmd := (congrArg State.cmd he).trans rfl
    have hmem : u.mem = s.mem := (congrArg State.mem he).trans rfl
    have hboot : u.boot = s.boot := (congrArg State.boot he).trans rfl
    refine ⟨?_, ?_, Table.lookup_remove_self .., Table.lookup_remove_self .., ⟨sig, ?_⟩, hgone, hmem, hboot⟩
    · exact Table.read_write_self ({} : Bib) u.bibs.recs b.toNat {}
    · exact Table.read_write_self ({} : BibKeys) u.bibs.keys b.toNat {}
    · obtain ⟨rep, hnew, hrep⟩ := hans
      refine ⟨rep, ?_, hrep⟩
      rw [← hnew]
      exact newest_of_cmd hcmd z.hdr.path
  case resume =>
    refine command_replies ha (st := .ok) (u := fun i e => ((s.taken i e).resumeBib c.bib).forgetSkips c.bib) (fun i e => ?_) fun i e o n x hr => ?_
    · dsimp only
      rw [show (s.taken i e).jobOf (c.of 0x0106).bib = none from hj]
    · obtain ⟨hst, hwhy, hb⟩ := resumeBib_rows (s.taken i e) c.bib
      exact ⟨hst, hwhy, hr, hb⟩

end Machine
end Sys2Proof

/-! SUPPORT. Packets that come in: the host ring, Ethernet and the sideband (O9). -/

namespace Sys2Proof
namespace Machine

/-- The checks of Table 16.3 read the boot's stage and the bibs' records alone. -/
theorem firstFailure_of_recs {s t : State} (hboot : t.boot = s.boot) (hrecs : t.bibs.recs = s.bibs.recs) (op : Nat) (c : Hdr) :
    t.firstFailure op c = s.firstFailure op c := by
  simp only [State.firstFailure, State.bibCheck, State.bib, hboot, hrecs]

theorem ring_setRing_self (s : State) (b : BitVec 12) (r : Ring) : (s.setRing b r).ring b = r := Table.read_write_self ..

theorem ring_setRing_ne (s : State) {b x : BitVec 12} (h : x ≠ b) (r : Ring) : (s.setRing b r).ring x = s.ring x :=
  Table.read_write_ne _ _ (fun he => h (BitVec.eq_of_toNat_eq he).symm) _

theorem lt_take_h (r : Replay) (seq : Nat) : seq < (r.take seq).h := by
  show seq < if r.h ≤ seq then seq + 1 else r.h
  split_ifs <;> omega

theorem getLast?_last64 {α : Type} (l : List α) (a : α) : (last64 (l ++ [a])).getLast? = some a := by
  rw [last64, List.length_append, List.length_singleton, List.drop_append_of_le_length (by omega), List.getLast?_append]
  rfl

theorem takeSeal_of_accept {s : State} {b : BitVec 12} {k : Seal} (h : s.sealCheck b k = .accept) :
    s.takeSeal b k = ((s.setReplay b ((s.replay b).take k.seq.toNat)).count 0x0703 b.toNat 1, true) := by
  rw [State.takeSeal, h]

theorem ethAccept_of_pass {s : State} {p : Nat} {c : Hdr} (h : s.firstFailure c.opcode.toNat c = none) :
    s.ethAccept p c = ({ s with cmd.ethUsed := s.cmd.ethUsed.write 0 p (s.ethUsed p + 1) } : State).takeIn c := by
  rw [State.ethAccept, h]

/-- Settles O9. -/
theorem intakePathRows : Obligations.IntakePathRows := by
  simp only [Obligations.IntakePathRows, Answers, exec]
  refine ⟨fun s b hup hready hvf hfree hclr hp hi => ?polls, fun s b h => ?notYet,
    fun s b k h hup hask hpause hroom hw hnew hrole hver hseal hop hb hf => ?block, fun s b rep hup hr hroom => ?posts, fun s f hup => ?bar,
    fun s p h hup hready hu hrole hver hok hf => ?operator, fun s p d hup hd => ?discards, fun s p h hup hready hu hrole hver => ?badSig,
    fun s h hup hs hrole hf => ?sideband⟩
  case polls =>
    refine event_answers hup ?_
    rw [if_pos (by rw [hready, hp, decide_eq_true hvf, decide_eq_true hfree, decide_eq_true hclr, decide_eq_true hi]; rfl)]
    exact ⟨ring_setRing_self _ b _, fun x hx => ring_setRing_ne { s with cmd.polled := true } hx _, rfl⟩
  case notYet =>
    refine event_idle s (if_neg ?_)
    rcases h with h | h
    · simp only [Bool.and_eq_true, decide_eq_true_eq]
      omega
    · simp [h]
  case block =>
    refine event_answers hup ?_
    dsimp only
    have hopen : ¬(s.cmd.paused || decide (64 ≤ ((s.ring b).posted - (s.ring b).rdone).toNat) || decide (16 ≤ s.waitingOf b) || !(s.ring b).isNew b k) = true := by
      rw [hpause, hnew, decide_eq_false (by omega), decide_eq_false (by omega)]
      decide
    rw [if_neg (by rw [hask]; decide), if_neg (by exact hopen), if_neg (not_not.mpr hrole), if_neg (not_not.mpr hver),
      takeSeal_of_accept (by exact hseal)]
    dsimp only
    generalize hc : State.count _ _ _ _ = t
    obtain ⟨⟨x, l, he⟩, -⟩ := eq_of_count hc
    have hboot : t.boot = s.boot := (congrArg State.boot he).trans rfl
    have hrecs : t.bibs.recs = s.bibs.recs := (congrArg (·.bibs.recs) he).trans rfl
    have hring : t.ring b = Ring.consume { s.ring b with asked := false } k.seq.toNat :=
      (congrArg (State.ring · b) he).trans (ring_setRing_self (s.setRing b { s.ring b with asked := false }) b _)
    have hreplay : t.replay b = (s.replay b).take k.seq.toNat :=
      (congrArg (State.replay · b) he).trans (Table.read_write_self ({} : Replay) s.bibs.replay b.toNat _)
    have hintake : t.cmd.intake = s.cmd.intake := (congrArg (·.cmd.intake) he).trans rfl
    have hout : t.cmd.outbox = s.cmd.outbox := (congrArg (·.cmd.outbox) he).trans rfl
    have hmem : t.mem = s.mem := (congrArg State.mem he).trans rfl
    clear he hc
    rw [if_neg (by decide), if_neg hop, if_neg (not_not.mpr hb)]
    have hpass (r : Ring) : (t.setRing b r).firstFailure h.opcode.toNat { h with path := .host } = none :=
      (firstFailure_of_recs (s := s) (t := t.setRing b r) hboot hrecs _ _).trans hf
    rw [hpass]
    refine ⟨congrArg (fun q : List Hdr => q ++ [{ h with path := .host }]) hintake, ?_, congrArg Ring.rdone (ring_setRing_self t b _),
      ?_, hreplay ▸ lt_take_h _ _, hout, hmem, hrecs⟩
    · exact (congrArg Ring.next (ring_setRing_self t b _)).trans (congrArg Ring.next hring)
    · exact (congrArg Ring.asked (ring_setRing_self t b _)).trans (congrArg Ring.asked hring)
  case posts =>
    refine event_answers hup ?_
    rw [hr]
    dsimp only
    rw [if_pos hroom]
    generalize hc : State.count _ _ _ _ = t
    obtain ⟨⟨x, l, rfl⟩, hcounter⟩ := eq_of_count hc
    refine ⟨congrArg Ring.posted (ring_setRing_self s b _), ?_, ?_, rfl, hcounter, rfl⟩
    · exact (congrArg (fun r : Ring => r.ring.getLast?) (ring_setRing_self s b _)).trans (getLast?_last64 ..)
    · exact congrArg Replay.txSeq (Table.read_write_self ({} : Replay) s.bibs.replay b.toNat _)
  case bar =>
    refine event_answers hup ?_
    generalize hc : State.count _ _ _ _ = t
    obtain ⟨⟨x, l, rfl⟩, hcounter⟩ := eq_of_count hc
    exact ⟨hcounter, rfl⟩
  case operator =>
    refine event_answers hup ?_
    dsimp only
    rw [if_neg (by rw [hready, decide_eq_false (by omega)]; decide), if_neg (not_not.mpr hrole), if_neg (not_not.mpr hver), if_neg (by rw [hok]; decide),
      ethAccept_of_pass (by exact (firstFailure_of_recs (s := s) (t := { s with cmd.oseq := some h.oseq }) rfl rfl _ _).trans hf)]
    exact ⟨rfl, rfl, Table.read_write_self 0 s.cmd.ethUsed p.val (s.ethUsed p.val + 1), rfl⟩
  case discards =>
    refine event_answers hup ?_
    rw [if_pos (by rcases hd with h | h <;> simp [h])]
    generalize hc : State.count _ _ _ _ = t
    obtain ⟨⟨x, l, rfl⟩, hcounter⟩ := eq_of_count hc
    exact ⟨hcounter, rfl⟩
  case badSig =>
    refine event_answers hup ?_
    dsimp only
    have hno : s.operatorOk h false = false := by simp [State.operatorOk]
    rw [if_neg (by rw [hready, decide_eq_false (by omega)]; decide), if_neg (not_not.mpr hrole), if_neg (not_not.mpr hver), if_pos (by rw [hno]; rfl)]
    generalize hc : State.count _ _ _ _ = t
    obtain ⟨⟨x, l, rfl⟩, hcounter⟩ := eq_of_count hc
    exact ⟨hcounter, rfl⟩
  case sideband =>
    refine event_answers hup ?_
    dsimp only
    rw [if_neg (by rw [hs]; decide), if_neg (not_not.mpr hrole), hf]
    exact ⟨rfl, rfl⟩

end Machine
end Sys2Proof

/-! SUPPORT. Service, test and verify of the stacks, uncorrectable lines and marked dies (O28). -/

namespace Sys2Proof

theorem Table.of_mem_each {α β : Type} {f : Nat → α → β} {e : Nat × β} : ∀ {t : Table α}, e ∈ t.each f → ∃ a, e.2 = f e.1 a
  | (j, a) :: t, h => by
    rcases List.mem_cons.mp h with rfl | h
    exacts [⟨a, rfl⟩, Table.of_mem_each h]

namespace Machine

theorem stack_setStack_self (s : State) (i : Nat) (k : Stack) : (s.setStack i k).stack i = k := Table.read_write_self ..

/-! ## A corrected line -/

/-- The lines of the stack that have been corrected, with this one. -/
def Stack.linesWith (k : Stack) (die : BitVec 4) (line : Nat) : List (Nat × Nat) :=
  if k.lines.contains (die.toNat, line) then k.lines else k.lines ++ [(die.toNat, line)]

theorem mem_linesWith (k : Stack) (die : BitVec 4) (line : Nat) : (die.toNat, line) ∈ k.linesWith die line := by
  unfold Stack.linesWith
  split_ifs with h
  exacts [by simpa using h, List.mem_append_right _ (List.mem_singleton_self _)]

/-- One more line at most. -/
theorem length_linesWith_le (k : Stack) (die : BitVec 4) (line : Nat) :
    ((k.linesWith die line).filter (fun e => e.1 = die.toNat)).length ≤ (k.lines.filter (fun e => e.1 = die.toNat)).length + 1 := by
  unfold Stack.linesWith
  split_ifs
  · omega
  · rw [List.filter_append, List.length_append]
    exact Nat.add_le_add_left (List.length_filter_le ..) _

/-- Whether the corrected line is the one that marks its die: the fourth of the die, with no die marked yet (R201). -/
def Stack.marks (k : Stack) (die : BitVec 4) (line : Nat) : Bool :=
  !k.marked && decide (4 ≤ ((k.linesWith die line).filter (fun e => e.1 = die.toNat)).length)

/-- A corrected line is counted and kept; the fourth of a die marks it. -/
theorem correctLine_rows (s : State) (i : Nat) (die : BitVec 4) (line : Nat) :
    (∃ k x l, s.correctLine i die line = { s with mem.stks := k, ctr := x, log := l }) ∧
      (s.correctLine i die line).counter 0x0400 i = (s.counter 0x0400 i).plus 1 ∧
      (s.correctLine i die line).stack i = { s.stack i with
        ldie := die, lines := (s.stack i).linesWith die line, marked := (s.stack i).marked || (s.stack i).marks die line
        mdie := if (s.stack i).marks die line then die else (s.stack i).mdie } := by
  unfold State.correctLine
  dsimp only
  generalize hc : State.count _ _ _ _ = t
  obtain ⟨⟨x, l, rfl⟩, hcounter⟩ := eq_of_count hc
  by_cases hm : (s.stack i).marks die line = true
  · rw [if_pos (by exact hm)]
    refine ⟨⟨_, x, _, rfl⟩, hcounter, ?_⟩
    rw [hm, Bool.or_true, if_pos rfl]
    exact stack_setStack_self ..
  · rw [if_neg (by exact hm)]
    refine ⟨⟨_, x, l, rfl⟩, hcounter, ?_⟩
    rw [Bool.eq_false_iff.mpr hm, Bool.or_false, if_neg Bool.false_ne_true]
    exact stack_setStack_self s i _

/-! ## What is lost -/

/-- Notices change only what the paths hold. -/
theorem notifyOf_eq (s : State) (b : BitVec 12) (st : Status) (ev : Nat) (r : Result) : ∃ m, s.notifyOf b st ev r = { s with cmd := m } := by
  refine each_rel (R := fun s t => ∃ m, t = { s with cmd := m }) (fun s => ⟨s.cmd, rfl⟩) ?_ (fun t c => ?_) _ s
  · rintro _ _ _ ⟨_, rfl⟩ ⟨m, rfl⟩
    exact ⟨m, rfl⟩
  · split
    · obtain ⟨_, _, _, h⟩ := replyAs_eq t _ st false ev r
      exact ⟨_, h⟩
    · exact ⟨t.cmd, rfl⟩

theorem loseTile_of_lookup {s : State} {k : Nat} {h : TileHdr} (hh : s.mem.hdrs.lookup k = some h) :
    ∃ m, s.loseTile k = { s with mem.hdrs := s.mem.hdrs.insert k { h with state := 2 }, cmd := m } := by
  unfold State.loseTile
  rw [hh]
  obtain ⟨m, he⟩ := notifyOf_eq { s with mem.hdrs := s.mem.hdrs.insert k { h with state := 2 } } h.id.bib .dataLost 0 (.lost (h.id.tensor.setWidth 32) h.id.tile 0)
  exact ⟨m, he⟩

/-- A bib that runs or is suspended stays so, and one that is suspended stays suspended, whatever bibs are suspended. -/
theorem suspend_bib_of_ne {s : State} {b x : BitVec 12} (h : b ≠ x) (why : Status) (ev : Nat) : (s.suspend x why ev).bib b = s.bib b := by
  by_cases hr : (s.bib x).state = .running
  · obtain ⟨e, d, m, he⟩ := suspend_of_running hr why ev
    rw [he]
    exact (setBib_bib s x b _).trans (if_neg fun hn => h (BitVec.eq_of_toNat_eq hn).symm)
  · rw [State.suspend, if_neg hr]

theorem suspend_keeps_suspended {s : State} {b : BitVec 12} (h : (s.bib b).state = .suspended) (x : BitVec 12) (why : Status) (ev : Nat) :
    ((s.suspend x why ev).bib b).state = .suspended := by
  by_cases hb : b = x
  · subst hb
    rw [State.suspend, if_neg (by rw [h]; decide), h]
  · rw [suspend_bib_of_ne hb, h]

theorem each_suspend_state (why : Status) (ev : Nat) {b : BitVec 12} (l : List (BitVec 12)) (s : State)
    (h : (s.bib b).state = .suspended ∨ b ∈ l ∧ (s.bib b).state = .running) : ((s.each l (fun t x => t.suspend x why ev)).bib b).state = .suspended := by
  induction l generalizing s with
  | nil => exact h.resolve_right fun hn => List.not_mem_nil hn.1
  | cons x l ih =>
    refine ih _ ?_
    rcases h with h | ⟨hmem, hr⟩
    · exact .inl (suspend_keeps_suspended h x why ev)
    · by_cases hb : b = x
      · subst hb
        exact .inl (suspend_isSuspended hr why ev).1
      · exact .inr ⟨(List.mem_cons.mp hmem).resolve_left hb, by rw [suspend_bib_of_ne hb, hr]⟩

/-- The module stops: every running bib is suspended, no port is trained, no byte changes (R333). -/
theorem stopModule_rows (s : State) : s.stopModule.rink.failed = true ∧ (∀ e ∈ s.stopModule.sl.ports, e.2.trained = false) ∧
    (∀ b, (s.bib b).state = .running → (s.stopModule.bib b).state = .suspended) ∧ s.stopModule.mem.bytes = s.mem.bytes := by
  unfold State.stopModule
  extract_lets bibs t
  have hsus : OnlySuspends s t := each_rel .refl .trans (fun u b => suspend_onlySuspends u b .fault 0) bibs s
  refine ⟨rfl, fun e he => ?_, fun b hb => ?_, hsus.bytes⟩
  · obtain ⟨p, hp⟩ := Table.of_mem_each he
    rw [hp]
  · have hlisted : b ∈ bibs := by
      cases hr : s.bibs.recs.lookup b.toNat with
      | none =>
        rw [State.bib, Table.read, hr] at hb
        exact absurd hb (by decide)
      | some r =>
        have hrun : r.state = .running := by
          rw [State.bib, Table.read, hr] at hb
          exact hb
        exact List.mem_map.mpr ⟨(b.toNat, r), List.mem_filter.mpr ⟨Table.mem_of_lookup hr, decide_eq_true hrun⟩, by simp⟩
    exact each_suspend_state .fault 0 bibs s (.inr ⟨hlisted, hb⟩)

/-- Settles O28. -/
theorem stackRows : Obligations.StackRows := by
  simp only [Obligations.StackRows, Answers, exec]
  refine ⟨fun s k hup => ?service, fun s k last hup hrun => ?test, fun s k line die hup => ?corrected, fun s k line hup => ?verified,
    fun s k line b tensor tile h hup hnew hh => ?tile, fun s k line hup hold => ?known, fun s k line hup => ?failed,
    fun s k die line hup hm hline hthree => ?marks, fun s k die line hup hfew => ?few⟩
  case service =>
    refine event_answers hup ?_
    dsimp only
    obtain ⟨o, n, x, he⟩ := complete_cmd (s.setStack k.val { s.stack k.val with calibs := (s.stack k.val).calibs + 1, phyNew := (s.stack k.val).phyNew || s.boot.phyNew })
      (.calibrate 2 (BitVec.ofNat 12 k.val)) .ok .none
    rw [he]
    exact ⟨congrArg Stack.calibs (stack_setStack_self s k.val _), notMem_waiting_filter, rfl⟩
  case test =>
    exact (event_of_up hup _).trans (congrArg _ (if_pos (by simpa using hrun)))
  case corrected =>
    refine event_answers hup ?_
    dsimp only
    obtain ⟨⟨q, x, l, he⟩, hcounter, hstack⟩ := correctLine_rows (s.setStack k.val { s.stack k.val with verify := line + 1 }) k.val die line
    rw [stack_setStack_self] at hstack
    refine ⟨by rw [hstack], by rw [hstack], ?_, hcounter, ?_⟩
    · rw [hstack]
      exact mem_linesWith _ die line
    · rw [he]; rfl
  case verified => exact event_of_up hup _
  case tile =>
    refine event_answers hup ?_
    dsimp only
    rw [if_neg (by simpa using hnew), if_neg (by simpa using hnew)]
    generalize hc : State.count _ _ _ _ = t
    obtain ⟨⟨x, l, he⟩, hcounter⟩ := eq_of_count hc
    have hlookup : t.mem.hdrs.lookup (tileKey { bib := b, tensor := tensor, tile := tile }) = some h := by rw [he]; exact hh
    obtain ⟨m, hlost⟩ := loseTile_of_lookup hlookup
    have hstack : t.stack k.val = _ := (congrArg (State.stack · k.val) he).trans (stack_setStack_self s k.val _)
    rw [hlost]
    refine ⟨?_, hcounter, Table.lookup_insert_self .., (congrArg (·.mem.bytes) he).trans rfl⟩
    exact (congrArg Stack.poison hstack).symm ▸ List.mem_cons_self ..
  case known =>
    refine event_answers hup ?_
    dsimp only
    rw [if_pos (by simpa using hold)]
    exact ⟨rfl, rfl⟩
  case failed =>
    refine event_answers hup ?_
    dsimp only
    generalize hc : @ite State ((s.stack k.val).poison.contains line = true) _ _ _ = t
    obtain ⟨x, l, he⟩ := eq_of_countUnless hc
    have hbib (b) : t.bib b = s.bib b := (congrArg (State.bib · b) he).trans rfl
    have hbytes : t.mem.bytes = s.mem.bytes := (congrArg (·.mem.bytes) he).trans rfl
    obtain ⟨hf, hports, hbibs, hb⟩ := stopModule_rows (t.raise { arg := .repair (BitVec.ofNat 4 11) (BitVec.ofNat 12 k.val) 0 })
    exact ⟨hf, hports, fun b hrun => hbibs b (by exact (congrArg Bib.state (hbib b)).trans hrun), hb.trans hbytes⟩
  case marks =>
    refine event_answers hup ?_
    obtain ⟨⟨q, x, l, he⟩, hcounter, hstack⟩ := correctLine_rows s k.val die line
    have hmark : (s.stack k.val).marks die line = true := by
      rw [Stack.marks, hm, Stack.linesWith, if_neg (by simpa using hline), List.filter_append, List.length_append, hthree]
      simp
    rw [hmark, Bool.or_true, if_pos rfl] at hstack
    exact ⟨by rw [hstack], by rw [hstack], hcounter, by rw [he]⟩
  case few =>
    refine event_answers hup ?_
    obtain ⟨⟨q, x, l, he⟩, hcounter, hstack⟩ := correctLine_rows s k.val die line
    have hno : (s.stack k.val).marks die line = false := by
      have hle := length_linesWith_le (s.stack k.val) die line
      rw [Stack.marks, decide_eq_false (by omega), Bool.and_false]
    rw [hno, Bool.or_false, if_neg Bool.false_ne_true] at hstack
    exact ⟨by rw [hstack], by rw [hstack], by rw [he]⟩

end Machine
end Sys2Proof

/-! SUPPORT. The life of a stream: opening, issue, closing and cancelling (O33). -/

namespace Sys2Proof
namespace Machine

/-- A stream that ends with no item left is gone. -/
theorem settleStrm_of_ended {s : State} {n : Nat} {x : Strm} (hst : 5 ≤ x.state.toNat) (hi : x.items = []) : s.settleStrm n x = s.dropStrm n := by
  unfold State.settleStrm
  rw [if_neg (by omega), if_pos ⟨hst, hi⟩]

theorem strm_dropStrm_self (s : State) (n : Nat) : (s.dropStrm n).strm n = none := Table.lookup_remove_self ..

/-- A stream with no item is gone once it is cancelled. -/
theorem cancelStrm_of_empty {s : State} {n : Nat} {x : Strm} (hx : s.strm n = some x) (hi : x.items = []) : (s.cancelStrm n).strm n = none := by
  unfold State.cancelStrm
  rw [hx]
  dsimp only
  rw [settleStrm_of_ended (by exact (by decide : 5 ≤ (5 : BitVec 3).toNat)) (by rw [hi]; rfl)]
  exact strm_dropStrm_self _ n

theorem lateOver_strm (s : State) (c n : Nat) : (s.lateOver c).strm n = s.strm n := by
  obtain ⟨h, he⟩ := lateOver_eq s c
  rw [he]
  rfl

theorem lateOver_mem (s : State) (c : Nat) : (s.lateOver c).mem = s.mem := by
  obtain ⟨h, he⟩ := lateOver_eq s c
  rw [he]

theorem cancelStrm_mem (s : State) (n : Nat) : (s.cancelStrm n).mem.bytes = s.mem.bytes ∧ (s.cancelStrm n).mem.hdrs = s.mem.hdrs := by
  obtain ⟨l, m, he⟩ := cancelStrm_eq s n
  rw [he]
  exact ⟨rfl, rfl⟩

/-- A page's translation lies in a tier of the memory (R194). -/
theorem tier_of_xlate {s : State} {b : BitVec 12} {va : Nat} {w strm : Bool} {h : HomeAddr} (hx : s.xlate b va w strm = .ok h) : h.tier.toNat ≤ 3 := by
  unfold State.xlate at hx
  dsimp only at hx
  split_ifs at hx with h1
  obtain rfl := (Xlat.ok.inj hx).symm
  exact not_lt.mp fun hlt => h1 (.inr (.inr (.inr hlt)))

/-- The destination of an item lies in a tier of the memory. -/
theorem tier_of_itemDst {s : State} {k : Course} {d : Domain} {decl j : Nat} {h : HomeAddr} (hd : s.itemDst k d decl j h = true) : ¬4 < h.tier.toNat := by
  unfold State.itemDst at hd
  dsimp only at hd
  split at hd
  · have ht : h.tier = 1 := by simp only [Bool.and_eq_true, decide_eq_true_eq] at hd; exact hd.1
    rw [ht]; decide
  · have ht : h.tier = 0 := by simp only [Bool.and_eq_true, decide_eq_true_eq] at hd; exact hd.1.1.1
    rw [ht]; decide
  · have := tier_of_xlate (of_decide_eq_true hd)
    omega
  · exact absurd hd Bool.false_ne_true

theorem reserveSlot_eq (s : State) (h : HomeAddr) : ∃ x, s.reserveSlot h = { s with mem.slots := x } := by
  unfold State.reserveSlot
  split_ifs
  exacts [⟨_, rfl⟩, ⟨s.mem.slots, rfl⟩]

/-- A move starts: it is listed and its slot reserved; no byte and no header changes (R195). -/
theorem startMove_eq (s : State) (id : Nat) (mv : Move) : ∃ x, s.startMove id mv = { s with mem.slots := x, mem.moves := s.mem.moves.insert id mv } := by
  obtain ⟨x, he⟩ := reserveSlot_eq s mv.dst
  unfold State.startMove
  rw [he]
  exact ⟨x, rfl⟩

/-- The move of a stream's next item. -/
def Strm.nextMove (x : Strm) (k : Course) (n : Nat) (src dst : HomeAddr) (m : Nat) : Move :=
  { tile := tileKey (k.itemId x.decl.toNat x.pick), src := src, dst := dst, phase := .accepted, mover := m, strm := some n, item := x.pick }

/-- The next item of a stream that has a slot and a mover is issued. -/
theorem issueItem_of_ready {s : State} {n m : Nat} {x : Strm} {k : Course} {d : Domain} {dst : HomeAddr} {h : TileHdr} (hst : x.state = 2)
    (hlt : x.pick < (k.items x.decl.toNat).length) (hno : x.items.has x.pick = false) (hrun : d.running = true) (hsus : d.suspended = false)
    (hva : ∃ a, s.xlate k.bib (k.itemVa x.decl.toNat x.pick) false true = .ok a) (hh : s.mem.hdrs.lookup (tileKey (k.itemId x.decl.toNat x.pick)) = some h)
    (hfmt : h.fmt.toNat = tnFmt (k.tensor (stTensor (k.stream x.decl.toNat)))) (hdst : s.itemDst k d x.decl.toNat x.pick dst = true)
    (hslot : s.slotFree k (s.bib x.bib).args n x d.w (k.itemStn d x.decl.toNat x.pick) = true)
    (hok : s.moveOk (tileKey (k.itemId x.decl.toNat x.pick)) h dst m = true) : s.issueItem n x k d dst m =
      (s.startMove s.freshMove (x.nextMove k n h.home dst m)).setStrm n { x.advance x.pick with items := x.items.insert x.pick { src := h.home, dst := dst } } := by
  obtain ⟨a, hva⟩ := hva
  have hmove := hok
  simp only [State.moveOk, Bool.and_eq_true, decide_eq_true_eq] at hmove
  obtain ⟨⟨⟨⟨⟨hstate, -⟩, -⟩, hne⟩, -⟩, -⟩ := hmove
  unfold State.issueItem
  dsimp only
  rw [if_neg (by simp [hst, hno, hrun, hsus, hlt]), hva]
  dsimp only
  rw [hh]
  dsimp only
  rw [if_neg (by rw [hstate]; decide), if_neg (not_not.mpr hfmt), if_neg (by rw [hdst]; decide), if_neg fun he => hne he.symm, if_pos (by rw [hslot, hok]; rfl)]
  rfl

/-- Settles O33. -/
theorem streamLifeRows : Obligations.StreamLifeRows := by
  simp only [Obligations.StreamLifeRows, Answers, exec]
  refine ⟨fun s slot decl strm k d hup hk hd hrun hpc hnew hdecl hroom => ?opens, fun s strm x k d hup hx hk hd hfin h2 h4 hi => ?closes,
    fun s strm dst m x k d h j hup hx hk hd hmay hret hst hj hlt hno hrun hsus hheld hva hh hfmt hdst hslot hok => ?issues,
    fun s strm dst m x k hup hx hk htier => ?noTier, fun s strm x hup hx hi => ?cancels, fun s strm hup hx => ?none⟩
  case opens =>
    refine event_answers hup ?_
    dsimp only
    rw [hk, hd]
    dsimp only
    have hone : (s.strmsOf slot.toNat).any (fun e => decide (e.2.decl = decl) && decide (e.2.state.toNat < 6)) = false := by
      rw [List.any_eq_false]
      intro e he
      obtain ⟨hmem, hsl⟩ := List.mem_filter.mp he
      have hne := hdecl e hmem (BitVec.eq_of_toNat_eq (of_decide_eq_true hsl))
      simp [hne]
    rw [if_pos (by rw [hrun, hnew, hone, decide_eq_true hroom]; simpa using hpc)]
    exact ⟨⟨_, Table.lookup_insert_self .., rfl, rfl, rfl, rfl, rfl, rfl, rfl⟩, rfl⟩
  case closes =>
    refine event_answers hup ?_
    rw [hx]
    dsimp only
    rw [hk, hd]
    dsimp only
    rw [if_pos ⟨hfin, h2, h4⟩]
    split_ifs
    · rw [settleStrm_of_ended (x := { x with state := 6, late := [], cls := 1 }) (by decide : 5 ≤ (6 : BitVec 3).toNat) hi, lateOver_strm, lateOver_mem]
      exact ⟨strm_dropStrm_self s _, rfl, rfl⟩
    · obtain ⟨hb, hh⟩ := cancelStrm_mem s strm.toNat
      rw [lateOver_strm, lateOver_mem]
      exact ⟨cancelStrm_of_empty hx hi, hb, hh⟩
  case issues =>
    refine event_answers hup ?_
    dsimp only
    rw [hx]
    dsimp only
    rw [hk]
    dsimp only
    have hnone : x.items.find? (fun e => decide (e.2.ret ≠ 0 ∧ e.2.committed = true ∧ e.2.src = dst ∧ (s.held x.slot.toNat = true → e.2.ret = 3))) = none :=
      List.find?_eq_none.mpr fun e he => by simp [hret e he]
    have hgo : ¬(s.held x.slot.toNat && !x.owesLate) = true := by
      rcases hheld with h | h <;> simp [h]
    rw [if_neg (tier_of_itemDst hdst), if_pos hmay, hnone]
    dsimp only
    rw [hd]
    dsimp only
    subst hj
    rw [if_neg hgo, issueItem_of_ready hst hlt hno hrun hsus hva hh hfmt hdst hslot hok]
    obtain ⟨y, he⟩ := startMove_eq s s.freshMove (x.nextMove k strm.toNat h.home dst m.val)
    rw [he]
    exact ⟨⟨_, _, Table.lookup_insert_self .., rfl, rfl, rfl, rfl⟩, ⟨_, _, Table.lookup_insert_self .., Table.lookup_insert_self .., rfl, rfl, rfl⟩, rfl, rfl⟩
  case noTier =>
    refine event_answers hup ?_
    dsimp only
    rw [hx]
    dsimp only
    rw [hk]
    dsimp only
    rw [if_pos htier]
    obtain ⟨q, he⟩ := notifyOf_eq s x.bib .bounds 0 .none
    rw [State.notify, he]
  case cancels =>
    refine event_answers hup ?_
    rw [State.writeCancel, hx]
    dsimp only
    rw [lateOver_strm, lateOver_mem]
    exact ⟨cancelStrm_of_empty hx hi, (cancelStrm_mem s strm.toNat).1⟩
  case none =>
    refine event_idle s ?_
    rw [State.writeCancel, hx]

end Machine
end Sys2Proof

/-! SUPPORT. The items of a stream: reads, late items, halts, resumes and unwinds (O34). -/

namespace Sys2Proof
namespace Machine

/-- A hold that is raised moves no counter but that of holds. -/
theorem raiseHold_counter_ne (s : State) (c n : Nat) {id inst : Nat} (h : ctrKey id inst ≠ ctrKey 0x0807 c) :
    (s.raiseHold c n).counter id inst = s.counter id inst := by
  unfold State.raiseHold
  dsimp only
  split_ifs
  exacts [count_counter_ne _ h 1, rfl]

theorem ctrKey_ne {id id' : Nat} (h : id < id') {inst : Nat} : ctrKey id' inst ≠ ctrKey id inst := by
  unfold ctrKey
  omega

/-- A late item makes its stream immediate and holds the domain under cause 0 (R216). -/
theorem lateItem_rows (s : State) (n c j : Nat) (x : Strm) (e : Event) :
    let t := (((s.setStrm n { x with cls := 0, late := x.late ++ [j] }).raiseHold c 0).raise e).count 0x0905 c 1
    (∃ y, t.strm n = some y ∧ y.cls = 0 ∧ j ∈ y.late) ∧ ((t.hold c).cause).getLsbD 0 = true ∧ t.counter 0x0905 c = (s.counter 0x0905 c).plus 1
      ∧ t.mem = s.mem ∧ t.bibs = s.bibs := by
  intro t
  have hhold := raiseHold_hold_self (s.setStrm n { x with cls := 0, late := x.late ++ [j] }) c 0
  have hctr := raiseHold_counter_ne (s.setStrm n { x with cls := 0, late := x.late ++ [j] }) c 0 (ctrKey_ne (by decide : 0x0807 < 0x0905) (inst := c))
  obtain ⟨h, z, l, he⟩ := raiseHold_eq (s.setStrm n { x with cls := 0, late := x.late ++ [j] }) c 0
  generalize hu : (s.setStrm n { x with cls := 0, late := x.late ++ [j] }).raiseHold c 0 = u at hhold hctr he
  have ht : (u.raise e).count 0x0905 c 1 = t := by rw [← hu]
  obtain ⟨⟨z', l', het⟩, hcounter⟩ := eq_of_count ht
  have hstrm : t.strm n = (s.setStrm n { x with cls := 0, late := x.late ++ [j] }).strm n := by rw [het, he]; rfl
  refine ⟨⟨_, hstrm.trans (Table.lookup_insert_self ..), rfl, List.mem_append_right _ (List.mem_singleton_self _)⟩, ?_,
    hcounter.trans (congrArg (·.plus 1) hctr), ?_, ?_⟩
  · have hsame : t.hold c = u.hold c := by rw [het]; rfl
    rw [hsame, hhold, BitVec.getLsbD_or, getLsbD_causeBit_self (by decide), Bool.or_true]
  · rw [het, he]; rfl
  · rw [het, he]; rfl

/-! ## An unwound stream -/

theorem unwind_cap (x : Strm) : x.unwind.cap = true := by
  unfold Strm.unwind
  dsimp only
  split <;> rfl

theorem unwind_unwinds (x : Strm) : x.unwind.unwinds.toNat = min 255 (x.unwinds.toNat + 1) := by
  have hu : x.unwind.unwinds = if x.unwinds = 255 then 255 else x.unwinds + 1 := by
    unfold Strm.unwind
    dsimp only
    split <;> rfl
  rw [hu]
  split_ifs with h
  · rw [h]; rfl
  · have hne : x.unwinds.toNat ≠ 255 := fun hn => h (BitVec.eq_of_toNat_eq hn)
    have hlt := x.unwinds.isLt
    rw [BitVec.toNat_add]
    show (x.unwinds.toNat + 1) % 256 = _
    omega

/-- Every item that stands at its destination goes back (R221). -/
theorem unwind_items {x : Strm} {j : Nat} {i : LiftItem} (hi : x.items.lookup j = some i) (hc : i.committed = true) (hr : i.ret = 0) :
    x.unwind.items.lookup j = some { i with ret := 3 } := by
  have hmem : (j, i) ∈ x.items.filter (fun e => decide (e.2.committed = true ∧ e.2.ret = 0)) :=
    List.mem_filter.mpr ⟨Table.mem_of_lookup hi, decide_eq_true ⟨hc, hr⟩⟩
  unfold Strm.unwind
  dsimp only
  split
  next hb =>
    rw [hb] at hmem
    exact absurd hmem List.not_mem_nil
  next =>
    refine (Table.lookup_each _ j x.items).trans ?_
    rw [hi]
    exact congrArg some (if_pos ⟨hc, hr⟩)

/-- Settles O34. -/
theorem streamItemRows : Obligations.StreamItemRows := by
  simp only [Obligations.StreamItemRows, Answers, exec]
  refine ⟨fun s strm item x k i hup hx hk hi hc hdisp => ?reads, fun s strm item x k d hup hx hk hd hrun hsus h2 h4 hlt hno hlate => ?late,
    fun s strm item va x k hup hx hk hpick hlt hva hhalt hst => ?halts, fun s strm x k h hup hx hk hst hva hlost => ?resumes,
    fun s strm other x y k ky d hup hx hy hk hky hd h64 ho64 hb hpool hdue h0 => ?unwinds,
    fun s strm other x y k ky d hup hx hy hk hky hd h64 ho64 hb hpool hdue h0 hrun => ?violates⟩
  case reads =>
    refine event_answers hup ?_
    rw [hx]
    dsimp only
    rw [if_pos (by rw [hi]; exact hc)]
    unfold State.readItem
    rw [hx]
    dsimp only
    rw [hi, hk]
    dsimp only
    rw [if_neg fun h => hdisp h.1]
    refine ⟨⟨_, _, Table.lookup_insert_self .., Table.lookup_insert_self .., rfl, fun h0 h1 hl => ?_⟩, rfl⟩
    exact if_pos ⟨h0, h1, hl⟩
  case late =>
    refine event_answers hup ?_
    rw [hx]
    dsimp only
    rw [hk, hd]
    dsimp only
    rw [if_pos ⟨hrun, by rw [hsus]; rfl, h2, h4, hlt, by rw [hno]; rfl, by simpa using hlate⟩]
    split_ifs
    · exact lateItem_rows s.used strm.toNat x.slot.toNat item.toNat x _
    · exact lateItem_rows s strm.toNat x.slot.toNat item.toNat x _
  case halts =>
    refine event_answers hup ?_
    rw [hx]
    dsimp only
    rw [hk]
    dsimp only
    rw [if_pos ⟨hpick, hlt, hva, hhalt⟩]
    unfold State.haltStrm
    rw [hx]
    dsimp only
    rw [if_pos hst]
    generalize hcount : State.count _ _ _ _ = t
    obtain ⟨z, l, he⟩ := count_flight _ _ _ _
    rw [hcount] at he
    subst he
    refine ⟨⟨_, Table.lookup_insert_self .., rfl, by simp⟩, ⟨l, ?_⟩, rfl⟩
    simp [State.raise, State.setStrm]
  case resumes =>
    refine event_answers hup ?_
    rw [hx]
    dsimp only
    rw [hk]
    dsimp only
    rw [if_pos ⟨hst, by rw [hva]; simp, by
      cases hh : s.tileHdr (k.itemId x.decl.toNat x.next.toNat) with
      | none => rfl
      | some y => exact Bool.not_eq_true' _ |>.mpr (decide_eq_false (hlost y hh))⟩]
    exact ⟨⟨_, Table.lookup_insert_self .., rfl, rfl⟩, rfl⟩
  case unwinds =>
    refine event_answers hup ?_
    rw [hx, hy]
    dsimp only
    rw [hk, hky, hd]
    dsimp only
    rw [if_pos ⟨h64, ho64, hb, hpool, hdue⟩, if_neg (not_not.mpr h0), h0]
    exact ⟨⟨_, Table.lookup_insert_self .., unwind_cap x, unwind_unwinds x, fun j i hi hc hr => ⟨_, unwind_items hi hc hr, rfl⟩⟩,
      Table.lookup_insert_self .., rfl⟩
  case violates =>
    refine event_answers hup ?_
    rw [hx, hy]
    dsimp only
    rw [hk, hky, hd]
    dsimp only
    rw [if_pos ⟨h64, ho64, hb, hpool, hdue⟩, if_pos h0]
    exact violateAs_isSuspended (by exact hk) (by exact hrun) _ _ _ _ _

end Machine
end Sys2Proof

/-! SUPPORT. Which bytes a store of bytes, of an element or of a tile's patch can touch; the MX conversion in place (O35). -/

namespace Sys2Proof
namespace Machine

theorem fmtOf_fmtCode (f : Fmt) : fmtOf (fmtCode f) = some f := by cases f <;> rfl

theorem tileBytesOf_fmtCode (f : Fmt) : tileBytesOf (fmtCode f) = tileBytes f := by
  rw [tileBytesOf, fmtOf_fmtCode]

theorem leBytes_length (n v : Nat) : (leBytes n v).length = n := by
  induction n generalizing v with
  | zero => rfl
  | succ n ih => rw [leBytes, List.length_cons, ih]

/-- An element of a 256 × 256 tile ends within the tile's bytes. -/
theorem elemBit_add_le (f : Fmt) {r c : Nat} (hr : r < 256) (hc : c < 256) : elemBit f r c + elemBits f ≤ 8 * tileBytes f := by
  unfold elemBit tileBytes patchBytes
  have hr8 : r / 8 < 32 := by omega
  have hc8 : c / 8 < 32 := by omega
  have hr7 : r % 8 < 8 := by omega
  have hc7 : c % 8 < 8 := by omega
  cases f <;> simp only [hasScale, elemBits, Bool.false_eq_true, ↓reduceIte] <;> omega

theorem scaleByteOf_lt {r c : Nat} (hr : r < 256) (hc : c < 256) : scaleByteOf r c < 1024 := by
  unfold scaleByteOf
  omega

/-! ## Stores within a range -/

/-- Only bytes of `n` places from `lo` on differ. -/
def StoresIn (lo n : Nat) (s t : State) : Prop := t = { s with mem.bytes := t.mem.bytes } ∧ ∀ a, a < lo ∨ lo + n ≤ a → t.byte a = s.byte a

section
variable {lo n : Nat}

theorem StoresIn.refl (s : State) : StoresIn lo n s s := ⟨rfl, fun _ _ => rfl⟩

theorem StoresIn.trans {s t u : State} (h : StoresIn lo n s t) (h' : StoresIn lo n t u) : StoresIn lo n s u :=
  ⟨Eq.trans h'.1 (congrArg (fun x : State => { x with mem.bytes := u.mem.bytes }) h.1), fun a ha => (h'.2 a ha).trans (h.2 a ha)⟩

theorem setByte_storesIn (s : State) {k : Nat} (h : lo ≤ k) (h' : k < lo + n) (b : Byte) : StoresIn lo n s (s.setByte k b) :=
  ⟨rfl, fun a ha => (setByte_byte s k a b).trans (if_neg (by omega))⟩

theorem setBytes_storesIn (s : State) (k : Nat) (bs : List Byte) (h : lo ≤ k) (h' : k + bs.length ≤ lo + n) : StoresIn lo n s (s.setBytes k bs) := by
  induction bs generalizing s k with
  | nil => exact .refl s
  | cons b bs ih =>
    rw [List.length_cons] at h'
    exact (setByte_storesIn s h (by omega) b).trans (ih _ (k + 1) (by omega) (by omega))

/-- An element is stored within its tile. -/
theorem setElem_storesIn (s : State) (k : Nat) (f : Fmt) {r c : Nat} (hr : r < 256) (hc : c < 256) (code : Nat) :
    StoresIn k (tileBytes f) s (s.setElem k f r c code) := by
  have hle := elemBit_add_le f hr hc
  unfold State.setElem
  dsimp only
  refine setBytes_storesIn s _ _ (by omega) ?_
  rw [leBytes_length]
  omega

theorem StoresIn.mono {lo' n' : Nat} {s t : State} (h : StoresIn lo n s t) (hlo : lo' ≤ lo) (hn : lo + n ≤ lo' + n') : StoresIn lo' n' s t :=
  ⟨h.1, fun a ha => h.2 a (by omega)⟩

/-- A run of stores, each within the range while the list's entries satisfy `P`. -/
theorem each_storesIn {α : Type} {f : State → α → State} {P : α → Prop} (h : ∀ s a, P a → StoresIn lo n s (f s a)) (l : List α) (hl : ∀ a ∈ l, P a)
    (s : State) : StoresIn lo n s (s.each l f) := by
  induction l generalizing s with
  | nil => exact .refl s
  | cons a l ih => exact (h s a (hl a (List.mem_cons_self ..))).trans (ih (fun b hb => hl b (List.mem_cons_of_mem _ hb)) _)

end

theorem snd_lt_of_mem_zipIdx {α : Type} {l : List α} {e : α × Nat} (h : e ∈ l.zipIdx) : e.2 < l.length := by
  have := List.mem_zipIdx h
  omega

/-! ## MX conversion -/

theorem length_mxPatch (mx : Nat) (elem scale : Nat → Nat → Nat) (o : Nat) : (mxPatch mx elem scale o).2.1.length = 64 := by
  unfold mxPatch
  dsimp only
  split_ifs <;> simp

theorem hasScale_mxFmt (mx : Nat) : hasScale (mxFmt mx) = true := by
  unfold mxFmt
  split <;> rfl

theorem ingestPatch_storesIn (s : State) (mx home : Nat) (elem scale : Nat → Nat → Nat) (m : Nat) {pr pc : Nat} (hr : pr < 32) (hc : pc < 32) :
    StoresIn home (tileBytes (mxFmt mx)) s (s.ingestPatch mx home elem scale m pr pc).1 := by
  have hscale : 1024 ≤ tileBytes (mxFmt mx) := by
    rw [tileBytes, hasScale_mxFmt, if_pos rfl]
    omega
  have hplace := scaleByteOf_lt (r := 8 * pr) (c := 8 * pc) (by omega) (by omega)
  unfold State.ingestPatch
  extract_lets e sc o
  have hlen := length_mxPatch mx e sc o.toNat
  generalize mxPatch mx e sc o.toNat = q at hlen ⊢
  obtain ⟨p, codes, lost⟩ := q
  dsimp only at hlen ⊢
  refine (setByte_storesIn s (by omega) (by omega) _).trans (each_storesIn (P := fun e => e.2 < 64) (fun t e he => ?_) _ (fun e he => ?_) _)
  · exact setElem_storesIn t home _ (by omega) (by omega) _
  · exact hlen ▸ snd_lt_of_mem_zipIdx he

theorem ingest_storesIn (s : State) (mx home : Nat) (elem scale : Nat → Nat → Nat) : StoresIn home (tileBytes (mxFmt mx)) s (s.ingest mx home elem scale).1 := by
  have hfold (l : List Nat) (hl : ∀ i ∈ l, i < 1024) (a : State × Nat) : StoresIn home (tileBytes (mxFmt mx)) a.1
      (l.foldl (fun (a : State × Nat) i => a.1.ingestPatch mx home elem scale a.2 (i / 32) (i % 32)) a).1 := by
    induction l generalizing a with
    | nil => exact .refl _
    | cons i l ih =>
      have hi := hl i (List.mem_cons_self ..)
      exact (ingestPatch_storesIn a.1 mx home elem scale a.2 (by omega) (by omega)).trans (ih (fun j hj => hl j (List.mem_cons_of_mem _ hj)) _)
  exact hfold (List.range 1024) (fun i hi => List.mem_range.mp hi) (s, 0)

/-- What an ingested tile's header becomes: the tile was moved from the sums of one epoch to those of the next (R212). -/
theorem retile_recordsOnly (s : State) (h h' : TileHdr) (i : TileId) : RecordsOnly s (((s.tileOut h).tileIn h').setTile i h') :=
  .trans (.trans (tileOut_recordsOnly ..) (tileIn_recordsOnly ..)) (setTile_recordsOnly ..)

theorem retile_ptes (s : State) (h h' : TileHdr) (i : TileId) : (((s.tileOut h).tileIn h').setTile i h').mem.ptes = s.mem.ptes := by
  unfold State.tileOut State.tileIn
  split_ifs <;> rfl

/-- The tile and its stream once its bytes have been stored at its home (R212). -/
theorem converted_rows {s : State} {h : TileHdr} {i : TileId} {b : BitVec 12} {c n lo w : Nat} {x : Strm} (hstate : h.state = 0) (p : State × Nat)
    (hp : StoresIn lo w s p.1) :
    let h' : TileHdr := { h with terms := 0, version := h.version + 1, epoch := (s.bib b).curEpoch, poison := false }
    let u := (((((if p.2 = 0 then p.1 else p.1.count 0x0818 c p.2).count 0x0904 c (tileBytesOf h.fmt.toNat)).setStrm n
      { x with next := x.next + 1, done := x.done + 1 }).tileOut h).tileIn h').setTile i h'
    (∃ y, u.tileHdr i = some y ∧ y.terms = 0 ∧ y.version = h.version + 1 ∧ y.home = h.home ∧ y.state = 0 ∧ y.epoch = (s.bib b).curEpoch ∧ y.poison = false)
      ∧ u.counter 0x0904 c = (s.counter 0x0904 c).plus (tileBytesOf h.fmt.toNat) ∧ (∃ y, u.strm n = some y ∧ y.next = x.next + 1 ∧ y.done = x.done + 1)
      ∧ (∀ a, a < lo ∨ lo + w ≤ a → u.byte a = s.byte a) ∧ u.bibs = s.bibs ∧ u.mem.ptes = s.mem.ptes := by
  obtain ⟨he, hbytes⟩ := hp
  generalize p.1 = q at he hbytes ⊢
  have hfirst : ∃ y l, (if p.2 = 0 then q else q.count 0x0818 c p.2) = { q with ctr := y, log := l } ∧
      ({ q with ctr := y, log := l } : State).counter 0x0904 c = q.counter 0x0904 c := by
    split_ifs
    · exact ⟨q.ctr, q.log, rfl, rfl⟩
    · obtain ⟨y, l, hq⟩ := count_eq q 0x0818 c p.2
      exact ⟨y, l, hq, hq ▸ count_counter_ne q (ctrKey_ne (by decide)) _⟩
  obtain ⟨y, l, hv, hsame⟩ := hfirst
  rw [hv]
  generalize hc : State.count _ 0x0904 c _ = v
  obtain ⟨⟨y', l', hcount⟩, hcounter⟩ := eq_of_count hc
  intro h' u
  obtain ⟨hu, hub⟩ : RecordsOnly (v.setStrm n { x with next := x.next + 1, done := x.done + 1 }) u := retile_recordsOnly ..
  have hptes : u.mem.ptes = v.mem.ptes := retile_ptes ..
  have hq : q.counter 0x0904 c = s.counter 0x0904 c := by rw [he]; rfl
  refine ⟨⟨h', Table.lookup_insert_self .., rfl, rfl, rfl, hstate, rfl, rfl⟩, ?_, ?_, fun a ha => ?_, ?_, ?_⟩
  · rw [hu]
    exact hcounter.trans (congrArg (Counter.plus · (tileBytesOf h.fmt.toNat)) (hsame.trans hq))
  · rw [hu]
    exact ⟨_, Table.lookup_insert_self .., rfl, rfl⟩
  · have hb : u.byte a = q.byte a := by
      rw [State.byte, hub, hcount]; rfl
    exact hb.trans (hbytes a ha)
  · rw [hu, hcount, he]
    rfl
  · rw [hptes, hcount, he]

/-- Settles O35. -/
theorem mxConvertRow : Obligations.MxConvertRow := by
  simp only [Obligations.MxConvertRow, Answers, exec]
  rintro s strm item scales elems x k d h hup hx hk hd hdest hst rfl hlt hrun hh hstate hfmt hdir hpage
  refine event_answers hup ?_
  rw [hx]
  dsimp only
  rw [hk, hd]
  dsimp only
  rw [if_neg (by simp [hdest, hst, hlt, hrun]), hh]
  dsimp only
  rw [if_neg (by rw [hstate]; decide), if_neg (by rw [hstate]; decide), if_neg (by rw [hdir, Bool.false_and]; decide), if_neg (not_not.mpr hfmt), hdir]
  simp only [Bool.false_eq_true, if_false]
  have hrows := converted_rows (s := s) (h := h) (i := tileOf k.bib (stTensor (k.stream x.decl.toNat)) ((k.items x.decl.toNat).getD x.next.toNat 0))
    (b := k.bib) (c := x.slot.toNat) (n := strm.toNat) (x := x) (lo := homeKey h.home) (w := tileBytesOf (fmtCode (mxFmt (stMxFmt (k.stream x.decl.toNat)))))
  refine hrows hstate _ ?_
  rw [tileBytesOf_fmtCode]
  exact ingest_storesIn ..

end Machine
end Sys2Proof

/-! SUPPORT. What bytes read after a run of stores, after a copy, after an element of a W40 tile is stored; the base engines' rows (O29). -/

namespace Sys2Proof
namespace Machine

/-! ## Bytes after a copy -/

theorem Table.lookup_of_mem {α : Type} {k : Nat} {a : α} : ∀ {t : Table α}, t.rising = true → (k, a) ∈ t → t.lookup k = some a
  | (j, b) :: t, hr, h => by
    rw [Table.lookup]
    rcases List.mem_cons.mp h with heq | htail
    · rw [if_pos (congrArg Prod.fst heq).symm, (Prod.mk.inj heq).2]
    · have hlt : j < k := Table.lt_of_mem_risingFrom (t := t) hr htail
      rw [if_neg (by omega)]
      exact Table.lookup_of_mem (Table.rising_of_risingFrom hr) htail

/-- A byte after a list of stores whose entries for it agree. -/
theorem each_setByte_byte {α : Type} {place : α → Nat} {val : α → Byte} {k : Nat} {v : Byte} (l : List α) (s : State)
    (hval : ∀ e ∈ l, place e = k → val e = v) (h : s.byte k = v ∨ ∃ e ∈ l, place e = k) : (s.each l (fun u e => u.setByte (place e) (val e))).byte k = v := by
  induction l generalizing s with
  | nil => simpa [State.each] using h
  | cons e l ih =>
    refine ih _ (fun x hx => hval x (List.mem_cons_of_mem _ hx)) ?_
    rw [setByte_byte]
    by_cases he : place e = k
    · exact .inl ((if_pos he).trans (hval e (List.mem_cons_self ..) he))
    · rw [if_neg he]
      refine h.imp_right fun ⟨x, hx, hk⟩ => ?_
      exact ⟨x, (List.mem_cons.mp hx).resolve_left (fun h => he (h ▸ hk)), hk⟩

/-- A copy reads its source as it stood before, also where the two ranges overlap. -/
theorem copyBytes_byte {s : State} (hwf : s.memoryWf) (src dst n k : Nat) :
    (s.copyBytes src dst n).byte k = if dst ≤ k ∧ k < dst + n then s.byte (k - dst + src) else s.byte k := by
  have hrising : s.mem.bytes.rising = true := ((Table.canonical_iff 0 s.mem.bytes).mp hwf).1
  have hread {j : Nat} {b : Byte} (h : (j, b) ∈ s.mem.bytes) : s.byte j = b := by
    rw [State.byte, Table.read, Table.lookup_of_mem hrising h]
    rfl
  refine each_setByte_byte _ _ (fun e he hk => ?_) ?_
  · obtain ⟨hmem, hrange⟩ := List.mem_filter.mp he
    have hrange := of_decide_eq_true hrange
    rw [if_pos (by omega), ← hread hmem]
    congr 1
    omega
  · rw [zeroBytes_byte]
    by_cases hin : dst ≤ k ∧ k < dst + n
    · rw [if_pos hin, if_neg (by omega)]
      rcases hb : s.mem.bytes.lookup (k - dst + src) with _ | b
      · left
        rw [State.byte, Table.read, hb]
        rfl
      · right
        exact ⟨(k - dst + src, b), List.mem_filter.mpr ⟨Table.mem_of_lookup hb, decide_eq_true (by dsimp only; omega)⟩, by dsimp only; omega⟩
    · rw [if_neg hin, if_pos (by omega)]
      exact .inl rfl

theorem copyBytes_onlyBytes (s : State) (src dst n : Nat) : ∃ m, s.copyBytes src dst n = { s with mem.bytes := m } := by
  unfold State.copyBytes
  dsimp only
  generalize List.filter _ _ = l
  suffices ∀ t : State, (∃ m, t = { s with mem.bytes := m }) → ∃ m, t.each l (fun u e => u.setByte (e.1 - src + dst) e.2) = { s with mem.bytes := m } from
    this _ ⟨_, rfl⟩
  induction l with
  | nil => exact fun t h => h
  | cons e l ih =>
    rintro t ⟨m, rfl⟩
    exact ih _ ⟨_, rfl⟩

/-! ## Runs of bytes -/

/-- A run of bytes reads as the bytes at its places. -/
theorem bytesAt_congr {s t : State} {k : Nat} (n : Nat) (h : ∀ a, k ≤ a → a < k + n → t.byte a = s.byte a) : t.bytesAt k n = s.bytesAt k n := by
  induction n generalizing k with
  | zero => rfl
  | succ n ih => rw [State.bytesAt, State.bytesAt, h k (by omega) (by omega), ih fun a ha ha' => h a (by omega) (by omega)]

theorem bytesAt_setBytes (s : State) (k : Nat) (bs : List Byte) : (s.setBytes k bs).bytesAt k bs.length = bs := by
  induction bs generalizing s k with
  | nil => rfl
  | cons b bs ih =>
    rw [List.length_cons, State.bytesAt, State.setBytes, ih]
    have h := (setBytes_storesIn (lo := k + 1) (n := bs.length) (s.setByte k b) (k + 1) bs (by omega) (by omega)).2 k (by omega)
    rw [h, setByte_byte, if_pos rfl]

theorem bytesAt_setBytes_of_apart {s : State} {k j n : Nat} {bs : List Byte} (h : j + n ≤ k ∨ k + bs.length ≤ j) :
    (s.setBytes k bs).bytesAt j n = s.bytesAt j n :=
  bytesAt_congr n fun a ha ha' => (setBytes_storesIn (lo := k) (n := bs.length) s k bs (by omega) (by omega)).2 a (by omega)

/-- A list of stores at places that stay apart: each of them stands at the end. A step reads what it stores from a state of which `Ready` holds, which the
other places' stores keep. -/
theorem each_stores {α : Type} {f : State → α → State} {place : α → Nat} {bytes : α → List Byte} {w : Nat} {Ready : State → α → Prop} (l : List α)
    (hlen : ∀ e, (bytes e).length = w) (hapart : l.Pairwise fun d e => place d + w ≤ place e ∨ place e + w ≤ place d)
    (hf : ∀ s, ∀ e ∈ l, Ready s e → f s e = s.setBytes (place e) (bytes e))
    (hkeep : ∀ s d e, d ∈ l → e ∈ l → place d + w ≤ place e ∨ place e + w ≤ place d → Ready s e → Ready (s.setBytes (place d) (bytes d)) e)
    (s : State) (hs : ∀ e ∈ l, Ready s e) :
    (∀ e ∈ l, (s.each l f).bytesAt (place e) w = bytes e)
      ∧ ∀ j n, (∀ e ∈ l, j + n ≤ place e ∨ place e + w ≤ j) → (s.each l f).bytesAt j n = s.bytesAt j n := by
  induction l generalizing s with
  | nil => exact ⟨fun e he => absurd he (List.not_mem_nil), fun _ _ _ => rfl⟩
  | cons d l ih =>
    obtain ⟨hd, hl⟩ := List.pairwise_cons.mp hapart
    have hself : d ∈ d :: l := List.mem_cons_self ..
    have hmem {e : α} (he : e ∈ l) : e ∈ d :: l := List.mem_cons_of_mem _ he
    have hstep : s.each (d :: l) f = (s.setBytes (place d) (bytes d)).each l f := congrArg (State.each · l f) (hf s d hself (hs d hself))
    obtain ⟨hin, hout⟩ := ih hl (fun s e he => hf s e (hmem he)) (fun s d e hd he => hkeep s d e (hmem hd) (hmem he)) (s.setBytes (place d) (bytes d))
      fun e he => hkeep s d e hself (hmem he) (hd e he) (hs e (hmem he))
    rw [hstep]
    refine ⟨fun e he => ?_, fun j n hj => ?_⟩
    · rcases List.mem_cons.mp he with rfl | he
      · rw [hout _ w fun x hx => hd x hx, ← hlen e, bytesAt_setBytes]
      · exact hin e he
    · rw [hout j n fun e he => hj e (hmem he), bytesAt_setBytes_of_apart (by rw [hlen]; exact hj d hself)]

/-! ## Elements of a W40 tile -/

theorem leNat_leBytes (n v : Nat) : leNat (leBytes n v) = v % 256 ^ n := by
  induction n generalizing v with
  | zero => rw [leBytes, leNat, pow_zero, Nat.mod_one]
  | succ n ih =>
    rw [leBytes, leNat, ih, BitVec.toNat_ofNat, show 256 ^ (n + 1) = 256 * 256 ^ n from Nat.pow_succ', Nat.mod_mul]

theorem leNat_lt (l : List Byte) : leNat l < 256 ^ l.length := by
  induction l with
  | nil => exact Nat.one_pos
  | cons b l ih =>
    rw [leNat, List.length_cons, pow_succ]
    have := b.isLt
    omega

theorem bytesAt_length (s : State) (k n : Nat) : (s.bytesAt k n).length = n := by
  induction n generalizing k with
  | zero => rfl
  | succ n ih => rw [State.bytesAt, List.length_cons, ih]

theorem leNat_append (l m : List Byte) : leNat (l ++ m) = leNat l + 256 ^ l.length * leNat m := by
  induction l with
  | nil => simp [leNat]
  | cons b l ih =>
    rw [List.cons_append, leNat, leNat, ih, List.length_cons, pow_succ]
    ring

theorem bytesAt_succ (s : State) (k n : Nat) : s.bytesAt k (n + 1) = s.bytesAt k n ++ [s.byte (k + n)] := by
  induction n generalizing k with
  | zero => rfl
  | succ n ih =>
    rw [State.bytesAt, ih, State.bytesAt, List.cons_append, Nat.add_assoc, Nat.add_comm 1 n]

/-- The place of element `i` among the five-byte elements of a W40 tile, patch by patch (R75). -/
def w40Place (i : Nat) : Nat := (32 * (i / 256 / 8) + i % 256 / 8) * 64 + (8 * (i / 256 % 8) + i % 256 % 8)

theorem elemBit_w40 (i : Nat) : elemBit .w40 (i / 256) (i % 256) = 8 * (5 * w40Place i) := by
  simp only [elemBit, hasScale, Bool.false_eq_true, if_false, patchBytes, elemBits, w40Place]
  omega

theorem w40Place_inj {i j : Nat} (h : w40Place i = w40Place j) : i = j := by
  unfold w40Place at h
  omega

theorem elemAt_w40 (s : State) (k i : Nat) : s.elemAt k .w40 (i / 256) (i % 256) = leNat (s.bytesAt (k + 5 * w40Place i) 5) := by
  unfold State.elemAt
  dsimp only
  rw [elemBit_w40, Nat.mul_mod_right, Nat.mul_div_cancel_left _ (by decide), bytesAt_succ, leNat_append, bytesAt_length, bits, pow_zero, Nat.div_one]
  have h := leNat_lt (s.bytesAt (k + 5 * w40Place i) 5)
  rw [bytesAt_length] at h
  rw [show 256 ^ 5 = 2 ^ elemBits .w40 from rfl] at h ⊢
  rw [Nat.add_mul_mod_self_left, Nat.mod_eq_of_lt h]

theorem setElem_w40 (s : State) (k i : Nat) (x : BitVec 40) :
    s.setElem k .w40 (i / 256) (i % 256) x.toNat = s.setBytes (k + 5 * w40Place i) (leBytes 5 x.toNat) := by
  unfold State.setElem
  dsimp only
  rw [elemBit_w40, Nat.mul_mod_right, Nat.mul_div_cancel_left _ (by decide), show (0 + elemBits .w40 + 7) / 8 = 5 from rfl, setBits, bits, pow_zero, Nat.div_one]
  have h := leNat_lt (s.bytesAt (k + 5 * w40Place i) 5)
  rw [bytesAt_length] at h
  rw [show 256 ^ 5 = 2 ^ elemBits .w40 from rfl] at h
  rw [Nat.mod_eq_of_lt h, Nat.mul_one, Nat.sub_self, Nat.zero_add, Nat.mod_eq_of_lt (show x.toNat < 2 ^ elemBits .w40 from x.isLt), Nat.mul_one]

/-- What an element of a W40 tile reads after the tile's elements have been stored one by one. -/
theorem each_setElem_w40 (s : State) (k : Nat) (val : BitVec 40 × Nat → BitVec 40) (vals : List (BitVec 40)) {i : Nat} (hi : i < vals.length) :
    (s.each vals.zipIdx (fun t e => t.setElem k .w40 (e.2 / 256) (e.2 % 256) (val e).toNat)).elemAt k .w40 (i / 256) (i % 256)
      = (val (vals.getD i 0, i)).toNat := by
  have hpairs : vals.zipIdx.Pairwise fun d e => d.2 ≠ e.2 := by
    have h : (vals.zipIdx.map Prod.snd).Nodup := by
      rw [List.zipIdx_map_snd]
      exact List.nodup_range'
    exact List.pairwise_map.mp h
  have hmem : (vals.getD i 0, i) ∈ vals.zipIdx := by
    rw [List.mk_mem_zipIdx_iff_getElem?, List.getElem?_eq_getElem hi, List.getD_eq_getElem vals 0 hi]
  have h := (each_stores (f := fun t e => t.setElem k .w40 (e.2 / 256) (e.2 % 256) (val e).toNat) (place := fun e => k + 5 * w40Place e.2)
    (bytes := fun e => leBytes 5 (val e).toNat) (w := 5) (Ready := fun _ _ => True) vals.zipIdx (fun _ => leBytes_length ..)
    (hpairs.imp fun {d e} h => by
      have := mt w40Place_inj h
      omega)
    (fun t e _ _ => setElem_w40 ..) (fun _ _ _ _ _ _ _ => trivial) s fun _ _ => trivial).1 _ hmem
  rw [elemAt_w40, h, leNat_leBytes]
  exact Nat.mod_eq_of_lt (val (vals.getD i 0, i)).isLt

/-! ## Adds into a sum tile -/

/-- Element `e.2` of the sum after term `e.1` has been added to what state `s` holds there. -/
def State.addedElem (s : State) (home : HomeAddr) (rnd : Nat → Rnd) (e : BitVec 40 × Nat) : BitVec 40 :=
  (addW40 (rnd e.2) (BitVec.ofNat 40 (s.elemAt (homeKey home) .w40 (e.2 / 256) (e.2 % 256))) e.1).1

theorem foldl_addElem (s : State) (home : HomeAddr) (rnd : Nat → Rnd) (l : List (BitVec 40 × Nat)) (a : State × Bool) :
    (l.foldl (s.addElem home rnd) a).1
      = a.1.each l (fun t e => t.setElem (homeKey home) .w40 (e.2 / 256) (e.2 % 256) (s.addedElem home rnd e).toNat) := by
  induction l generalizing a with
  | nil => rfl
  | cons e l ih => exact ih _

/-- The adds of a whole tile store its elements and nothing beside the tile. -/
theorem foldl_addElem_rows (s : State) (home : HomeAddr) (rnd : Nat → Rnd) {vals : List (BitVec 40)} (hlen : vals.length = 65536) :
    StoresIn (homeKey home) (tileBytesOf 8) s (vals.zipIdx.foldl (s.addElem home rnd) (s, false)).1
      ∧ ∀ i, i < 65536 → (vals.zipIdx.foldl (s.addElem home rnd) (s, false)).1.elemAt (homeKey home) .w40 (i / 256) (i % 256)
          = (s.addedElem home rnd (vals.getD i 0, i)).toNat := by
  rw [foldl_addElem]
  refine ⟨each_storesIn (P := fun e => e.2 < 65536) (fun t e he => setElem_storesIn t _ .w40 (by omega) (by omega) _) _
    (fun e he => hlen ▸ snd_lt_of_mem_zipIdx he) s, fun i hi => ?_⟩
  exact each_setElem_w40 s _ _ vals (hlen ▸ hi)

theorem takeAddend_eq (s : State) (t : TileId) (src : AddSrc) : ∃ p, s.takeAddend t src = { s with arr.partials := p } := by
  cases src <;> exact ⟨_, rfl⟩

theorem length_of_addend {s : State} {t : TileId} {slot : BitVec 8} {src : AddSrc} {vals : List (BitVec 40)} {term : BitVec 32} {sr : Bool}
    {seed : BitVec 4} (h : s.addend t slot src = some (vals, term, sr, seed)) : vals.length = 65536 := by
  have hlist {l : List (BitVec 40)} {p : BitVec 32 × Bool × BitVec 4} (hl : l.length = 65536) (h : some (l, p) = some (vals, term, sr, seed)) :
      vals.length = 65536 := (congrArg (fun o => o.1.length) (Option.some.inj h)).symm.trans hl
  have hmapped (f : Nat → BitVec 40) : ((List.range 65536).map f).length = 65536 := (List.length_map f).trans List.length_range
  unfold State.addend at h
  cases src with
  | finished =>
    dsimp only at h
    split at h
    · split_ifs at h
      exact hlist (hmapped _) h
    · exact absurd h (by simp)
  | tile =>
    dsimp only at h
    split at h
    · split_ifs at h
      exact hlist (hmapped _) h
    · exact absurd h (by simp)

theorem flagStep_eq (s : State) (c : BitVec 8) (src : Nat) (bad : Bool) : ∃ l, s.flagStep c src bad = { s with upd.nonfin := l } := by
  unfold State.flagStep
  split_ifs
  · exact ⟨_, rfl⟩
  · exact ⟨s.upd.nonfin, rfl⟩

theorem retile_onlyMem (s : State) (h h' : TileHdr) (i : TileId) : ∃ m, ((s.tileOut h).tileIn h').setTile i h' = { s with mem := m } ∧ m.bytes = s.mem.bytes
      ∧ m.hdrs.lookup (tileKey i) = some h' := by
  unfold State.tileOut State.tileIn
  split_ifs <;> exact ⟨_, rfl, rfl, Table.lookup_insert_self ..⟩

theorem elemAt_congr {s t : State} (h : t.mem.bytes = s.mem.bytes) (k : Nat) (f : Fmt) (r c : Nat) : t.elemAt k f r c = s.elemAt k f r c := by
  have hb : t.bytesAt (k + elemBit f r c / 8) 6 = s.bytesAt (k + elemBit f r c / 8) 6 :=
    bytesAt_congr 6 fun a _ _ => by rw [State.byte, State.byte, h]
  unfold State.elemAt
  dsimp only
  rw [hb]

theorem checkTile_good {h : TileHdr} {t : TileId} {fmt : Nat} (htier : h.home.tier.toNat ≤ 4) (hid : h.id = t) (hres : h.reserved = false)
    (hfmt : h.fmt.toNat = fmt) (hstate : h.state = 0) (hpoison : h.poison = false) : checkTile h t fmt h.home = .good := by
  unfold checkTile
  rw [if_neg (by omega), if_neg (by simp [hid]), if_neg (by simp [hres]), if_neg (not_not.mpr hfmt), if_neg (by rw [hstate]; decide), if_neg (by simp [hpoison])]

/-- An add with the next TERM (R89, R200). -/
theorem addTile_rows {s : State} (k : Course) {t : TileId} {h : TileHdr} (slot : BitVec 8) {term : BitVec 32} {sr : Bool} (seed : BitVec 4)
    {vals : List (BitVec 40)} (hlen : vals.length = 65536) (hgood : checkTile h t 8 h.home = .good) (htier : h.home.tier.toNat ≤ 2)
    (hterm : term.toNat = h.terms.toNat + 1) : ∃ u, s.addTile k t h slot term sr seed vals = u
      ∧ (∃ x, u.tileHdr t = some x ∧ x.terms = term ∧ x.version = h.version + 1 ∧ x.home = h.home ∧ (h.nonfin = true → x.nonfin = true))
      ∧ (∀ a, a < homeKey h.home ∨ homeKey h.home + tileBytesOf 8 ≤ a → u.byte a = s.byte a)
      ∧ (sr = false → ∀ i, i < 65536 → u.elemAt (homeKey h.home) .w40 (i / 256) (i % 256)
          = (addW40 .rne (BitVec.ofNat 40 (s.elemAt (homeKey h.home) .w40 (i / 256) (i % 256))) (vals.getD i 0)).1.toNat)
      ∧ u = { s with mem := u.mem, upd.nonfin := u.upd.nonfin } := by
  unfold State.addTile
  dsimp only
  rw [hgood]
  dsimp only
  rw [if_neg (by omega), if_neg (not_not.mpr hterm)]
  obtain ⟨⟨he, hout⟩, hin⟩ := foldl_addElem_rows s h.home (fun i => if sr then .sr (rand32 (s.seed t.bib seed.toNat) (t.tensor.setWidth 32)
    (BitVec.ofNat 40 (elementIndex (k.tensor t.tensor.toNat) t.tile.toNat i)) term) else .rne) hlen
  generalize List.foldl _ _ _ = p at he hout hin ⊢
  obtain ⟨q, bad⟩ := p
  dsimp only at he hout hin ⊢
  obtain ⟨m, hm, hbytes, hhdr⟩ := retile_onlyMem q h
    { h with terms := term, version := h.version + 1, nonfin := h.nonfin || bad, epoch := (s.bib t.bib).curEpoch } t
  rw [hm]
  obtain ⟨l, hl⟩ := flagStep_eq { q with mem := m } slot (addSource h.home) bad
  rw [hl]
  refine ⟨_, rfl, ⟨_, hhdr, rfl, rfl, rfl, fun hn => by simp [hn]⟩, fun a ha => ?_, fun hsr i hi => ?_, ?_⟩
  · rw [← hout a ha, State.byte, State.byte, hbytes]
  · rw [elemAt_congr (s := q) (by exact hbytes), hin i hi, State.addedElem, hsr]
    rfl
  · rw [he]

/-- An add with another TERM is a course violation (R89). -/
theorem addTile_of_otherTerm {s : State} {k : Course} (k' : Course) {t : TileId} {h : TileHdr} {slot : BitVec 8} {term : BitVec 32} (sr : Bool) (seed : BitVec 4)
    (vals : List (BitVec 40)) (hk : s.course slot.toNat = some k) (hrun : (s.bib k.bib).state = .running) (hstate : h.state = 0) (hid : h.id = t)
    (hfmt : h.fmt = 8) (hpoison : h.poison = false) (hterm : term.toNat ≠ h.terms.toNat + 1) :
    (s.addTile k' t h slot term sr seed vals).isSuspended k.bib .fault ∧ OnlySuspends s (s.addTile k' t h slot term sr seed vals) := by
  have hviolates (st : Status) (detail : BitVec 128) :
      (s.violate slot.toNat st 0 0 detail).isSuspended k.bib .fault ∧ OnlySuspends s (s.violate slot.toNat st 0 0 detail) :=
    ⟨violateAs_isSuspended hk hrun .., violateAs_onlySuspends ..⟩
  unfold State.addTile checkTile
  dsimp only
  rw [if_neg (show ¬(h.id ≠ t ∨ h.home ≠ h.home) by simp [hid]), if_neg (show ¬h.fmt.toNat ≠ 8 by rw [hfmt]; decide),
    if_neg (show h.state ≠ 2 by rw [hstate]; decide), if_neg (show ¬h.poison = true by simp [hpoison])]
  by_cases htier : 4 < h.home.tier.toNat
  · rw [if_pos htier]
    exact hviolates ..
  rw [if_neg htier]
  by_cases hres : h.reserved = true
  · rw [if_pos hres]
    exact hviolates ..
  rw [if_neg hres]
  dsimp only
  split_ifs
  · exact hviolates ..
  · exact hviolates ..

/-! ## Lines and rows copied within a stack -/

/-- A W40 value of five bytes. -/
def State.valueAt (s : State) (k : Nat) : BitVec 40 := BitVec.ofNat 40 (leNat (s.bytesAt k 5))

theorem scatterAdd_rows (s : State) {src dst : Nat} (hapart : src + 320 ≤ dst ∨ dst + 320 ≤ src) :
    (∀ i, i < 64 → (s.lineOp .scatterAdd src dst).bytesAt (dst + 5 * i) 5
        = leBytes 5 (addW40 .rne (s.valueAt (dst + 5 * i)) (s.valueAt (src + 5 * i))).1.toNat)
      ∧ StoresIn dst 320 s (s.lineOp .scatterAdd src dst) := by
  have hlist {i : Nat} (h : i ∈ List.range 64) : i < 64 := List.mem_range.mp h
  rw [State.lineOp, if_pos rfl]
  refine ⟨fun i hi => ?_, each_storesIn (P := fun i => i < 64) (fun t i hi => setBytes_storesIn t _ _ (by omega) ?_) _ (fun _ => hlist) s⟩
  · refine (each_stores (place := fun i => dst + 5 * i) (w := 5)
      (bytes := fun i => leBytes 5 (addW40 .rne (s.valueAt (dst + 5 * i)) (s.valueAt (src + 5 * i))).1.toNat)
      (Ready := fun t i => t.bytesAt (dst + 5 * i) 5 = s.bytesAt (dst + 5 * i) 5 ∧ t.bytesAt (src + 5 * i) 5 = s.bytesAt (src + 5 * i) 5)
      (List.range 64) (fun _ => leBytes_length ..) ?_ ?_ ?_ s fun _ _ => ⟨rfl, rfl⟩).1 i (List.mem_range.mpr hi)
    · exact List.pairwise_lt_range.imp fun h => by omega
    · intro t e he ⟨hdst, hsrc⟩
      dsimp only
      rw [hdst, hsrc]
      rfl
    · intro t d e hd he hde ⟨hdst, hsrc⟩
      have := hlist hd
      have := hlist he
      rw [← hdst, ← hsrc]
      exact ⟨bytesAt_setBytes_of_apart (by rw [leBytes_length]; omega), bytesAt_setBytes_of_apart (by rw [leBytes_length]; omega)⟩
  · rw [leBytes_length]
    omega

/-! ## Candidates -/

theorem length_insertEntry (sense : Bool) (e : BitVec 40 × BitVec 40) (l : List (BitVec 40 × BitVec 40)) : (insertEntry sense e l).length = l.length + 1 := by
  induction l with
  | nil => rfl
  | cons x l ih =>
    rw [insertEntry]
    split_ifs
    · rfl
    · rw [List.length_cons, ih, List.length_cons]

theorem mem_insertEntry {sense : Bool} {e x : BitVec 40 × BitVec 40} {l : List (BitVec 40 × BitVec 40)} : x ∈ insertEntry sense e l ↔ x = e ∨ x ∈ l := by
  induction l with
  | nil => simp [insertEntry]
  | cons y l ih =>
    rw [insertEntry]
    split_ifs
    · exact List.mem_cons
    · rw [List.mem_cons, ih, List.mem_cons, or_left_comm]

theorem forgetSums_eq (s : State) (key n : Nat) : ∃ l, s.forgetSums key n = { s with arr.sums := l } := ⟨_, rfl⟩

theorem poisoned_rows {s : State} {i l id inst n : Nat} {k : Stack} (h : l ∈ k.poison) :
    l ∈ (((s.setStack i k).count id inst n).stack i).poison
      ∧ (s.setStack i k).count id inst n
        = { s with mem.stks := ((s.setStack i k).count id inst n).mem.stks, ctr := ((s.setStack i k).count id inst n).ctr
                   log := ((s.setStack i k).count id inst n).log } := by
  obtain ⟨x, y, he⟩ := count_eq (s.setStack i k) id inst n
  rw [he]
  refine ⟨?_, rfl⟩
  have hk : ({ s.setStack i k with ctr := x, log := y } : State).stack i = k := stack_setStack_self s i k
  rw [hk]
  exact h

/-- Settles O29. -/
theorem baseEngineRows : Obligations.BaseEngineRows := by
  simp only [Obligations.BaseEngineRows, Answers, exec]
  refine ⟨fun s t slot src vals term sr seed k h hup hk hadd hh hmir hstate hid hres hfmt hpoison htier hterm => ?added,
    fun s t slot src vals term sr seed k h hup hk hadd hh hmir hstate hid hfmt hpoison hterm hrun => ?otherTerm,
    fun s bib src dst a b dir hup hwf ha hb hat hbt hstack hdir hsrc hdst => ?copied,
    fun s bib src dst a b hup ha hb hat hbt hstack hsrc hdst hapart => ?summed,
    fun s stack bib cand l hup hl hbib hnan => ?inserted, fun s stack bib cand l hup hl hbib hnan hmax => ?dropped,
    fun s id h home n hup hh hstate htier => ?tileZeroed, fun s id h home n hup hh hstate htier => ?notHome,
    fun s home n hup htier hok hfit => ?zeroed, fun s home n hup hbad => ?bounds, fun s k lines bad l hup hline hbad => ?verified⟩
  case added =>
    refine event_answers hup ?_
    dsimp only
    rw [hk, hadd]
    dsimp only
    rw [hmir, hh]
    dsimp only
    rw [if_neg (by rw [hstate]; decide)]
    obtain ⟨p, hp⟩ := takeAddend_eq s t src
    rw [hp]
    obtain ⟨u, hu, hhdr, hout, hsum, he⟩ := addTile_rows (s := { s with arr.partials := p }) k slot (sr := sr) seed (length_of_addend hadd)
      (checkTile_good (by omega) hid hres (by rw [hfmt]; rfl) hstate hpoison) htier hterm
    rw [hu]
    refine ⟨hhdr, hout, hsum, ?_⟩
    rw [he]
  case otherTerm =>
    refine event_answers hup ?_
    dsimp only
    rw [hk, hadd]
    dsimp only
    rw [hmir, hh]
    dsimp only
    rw [if_neg (by rw [hstate]; decide)]
    obtain ⟨p, hp⟩ := takeAddend_eq s t src
    rw [hp]
    obtain ⟨⟨hsus, hwhy⟩, ho⟩ := addTile_of_otherTerm (s := { s with arr.partials := p }) k sr seed vals hk hrun hstate hid hfmt hpoison hterm
    exact ⟨hsus, hwhy, ho.bytes⟩
  case copied =>
    refine event_answers hup ?_
    have hbytes : lineBytes dir = 64 := if_neg hdir
    simp only [List.any_cons, List.any_nil, ha, hb, hat, hbt, hstack, hbytes, hsrc, hdst, State.each, List.foldl_cons, List.foldl_nil]
    rw [if_neg (by simp), if_pos (by simp), State.lineOp, if_neg hdir]
    obtain ⟨m, hm⟩ := copyBytes_onlyBytes s (homeKey a) (homeKey b) 64
    refine ⟨fun i hi => ?_, fun n hn => ?_, ?_⟩
    · rw [copyBytes_byte hwf, if_pos (by omega)]
      congr 1
      omega
    · rw [copyBytes_byte hwf, if_neg (by omega)]
    · rw [hm]
  case summed =>
    refine event_answers hup ?_
    have hbytes : lineBytes .scatterAdd = 320 := if_pos rfl
    simp only [List.any_cons, List.any_nil, ha, hb, hat, hbt, hstack, hbytes, hsrc, hdst, State.each, List.foldl_cons, List.foldl_nil]
    rw [if_neg (by simp), if_pos (by simp)]
    obtain ⟨hin, he, hout⟩ := scatterAdd_rows s hapart
    exact ⟨hin, hout, he⟩
  case inserted =>
    refine event_answers hup ?_
    unfold State.insertCand
    dsimp only
    rw [hl]
    dsimp only
    rw [if_neg (not_not.mpr hbib)]
    refine ⟨⟨_, Table.lookup_insert_self .., ?_⟩, rfl⟩
    rw [TopList.insert, if_neg (by simp [hnan])]
    dsimp only
    refine ⟨by rw [List.length_take, length_insertEntry], rfl, rfl, fun hroom => ?_, fun e he => mem_insertEntry.mp (List.mem_of_mem_take he)⟩
    rw [List.take_of_length_le (by rw [length_insertEntry]; exact hroom)]
    exact mem_insertEntry.mpr (.inl rfl)
  case dropped =>
    refine event_answers hup ?_
    unfold State.insertCand
    dsimp only
    rw [hl]
    dsimp only
    rw [if_neg (not_not.mpr hbib), TopList.insert, if_pos hnan, if_neg hmax]
    exact ⟨Table.lookup_insert_self .., rfl⟩
  case tileZeroed =>
    refine event_answers hup ?_
    dsimp only
    rw [hh]
    dsimp only
    rw [if_neg hstate, if_neg (not_not.mpr htier)]
    obtain ⟨m, hm, hbytes, hhdr⟩ := retile_onlyMem (s.zeroBytes (homeKey h.home) (tileBytesOf h.fmt.toNat)) h
      { h with terms := 0, version := h.version + 1, nonfin := false, poison := false, epoch := (s.bib id.bib).curEpoch } id
    rw [hm]
    refine ⟨fun a => ?_, ⟨_, hhdr, rfl, rfl, rfl⟩, rfl, rfl⟩
    have hzero := zeroBytes_byte s (homeKey h.home) (tileBytesOf h.fmt.toNat) a
    rw [State.byte, ← hbytes] at hzero
    refine Eq.trans hzero ?_
    split_ifs <;> first | rfl | omega
  case notHome =>
    refine (event_of_up hup _).trans ?_
    dsimp only
    rw [hh]
    dsimp only
    rw [if_neg hstate, if_pos htier]
  case zeroed =>
    refine event_answers hup ?_
    dsimp only
    rw [if_pos ⟨htier, hok, hfit⟩]
    refine ⟨fun a => ?_, rfl, rfl⟩
    refine Eq.trans (zeroBytes_byte s (homeKey home) n a) ?_
    split_ifs <;> first | rfl | omega
  case bounds =>
    refine (event_of_up hup _).trans ?_
    dsimp only
    rw [if_neg]
    rintro ⟨htier, hok, hfit⟩
    rcases hbad with h | h | h
    · exact h htier
    · exact absurd (h.symm.trans hok) (by decide)
    · omega
  case verified =>
    refine event_answers hup ?_
    dsimp only
    by_cases hknown : l ∈ (s.stack k.val).poison
    · split_ifs
      · exact ⟨hknown, rfl⟩
      · exact poisoned_rows (by simp [hknown])
    · have hnew : l ∈ (bad.filter (fun l => lines.contains l && !(s.stack k.val).poison.contains l)).eraseDups :=
        List.mem_eraseDups.mpr (List.mem_filter.mpr ⟨hbad, by simp [hline, hknown]⟩)
      rw [if_neg (List.ne_nil_of_mem hnew)]
      exact poisoned_rows (List.mem_append_left _ hnew)

end Machine
end Sys2Proof

/-! SUPPORT. The locker's entries (O32). -/

namespace Sys2Proof
namespace Machine

theorem setBytes_onlyBytes (s : State) (k : Nat) (bs : List Byte) : s.setBytes k bs = { s with mem.bytes := (s.setBytes k bs).mem.bytes } :=
  (setBytes_storesIn (lo := k) (n := bs.length) s k bs (by omega) (by omega)).1

/-- What an entry's read hands out: the tile's bytes at its home, or the kept value (R137, R142). -/
theorem handOut_eq (s : State) (e : LkrEntry) : ∃ x b, s.handOut e = { s with lkr.readOut := x, mem.bytes := b } := by
  unfold State.handOut
  split
  · split
    · exact ⟨s.lkr.readOut, _, setBytes_onlyBytes ..⟩
    · exact ⟨s.lkr.readOut, s.mem.bytes, rfl⟩
  · exact ⟨_, s.mem.bytes, rfl⟩

theorem handOut_of_tile {s : State} {e : LkrEntry} {h : TileHdr} (hkind : e.kind = 1)
    (hh : s.tileHdr (tileOf e.bib e.tensor.toNat e.unit.toNat) = some h) : s.handOut e = s.setBytes (homeKey h.home) e.data := by
  rw [State.handOut, if_pos hkind, hh]

theorem handOut_of_value {s : State} {e : LkrEntry} (hkind : e.kind ≠ 1) :
    s.handOut e = { s with lkr.readOut := s.lkr.readOut.insert (readKey e.slot e.tensor e.unit e.mb) e.data } := if_neg hkind

theorem mem_setBytes_bytes {s t : State} (h : t.mem.bytes = s.mem.bytes) (k : Nat) (bs : List Byte) :
    (t.setBytes k bs).mem.bytes = (s.setBytes k bs).mem.bytes := by
  induction bs generalizing s t k with
  | nil => exact h
  | cons b bs ih => exact ih (by rw [State.setByte, State.setByte, h]) (k + 1)

/-- The entries that stand for a read key. -/
def LkrEntry.standsFor (slot : BitVec 8) (die : Nat) (tensor : BitVec 32) (unit : BitVec 24) (mb : BitVec 8) (e : LkrEntry) : Bool :=
  e.slot = slot && e.die = die && e.tensor = tensor && e.unit = unit && e.mb = mb

theorem standsFor_iff {slot : BitVec 8} {die : Nat} {tensor : BitVec 32} {unit : BitVec 24} {mb : BitVec 8} {e : LkrEntry} :
    e.standsFor slot die tensor unit mb = true ↔ e.slot = slot ∧ e.die = die ∧ e.tensor = tensor ∧ e.unit = unit ∧ e.mb = mb := by
  simp [LkrEntry.standsFor, and_assoc]

/-- Settles O32. -/
theorem lockerRows : Obligations.LockerRows := by
  simp only [Obligations.LockerRows, Answers, exec]
  refine ⟨fun s slot seg die kind fmt reads tensor unit mb k d l data hup hk hd hl hrun hsus hkind hkind' hfmt hreads hdata hempty hroom => ?written,
    fun s slot die tensor unit mb e hup he htier haway => ?read, fun s slot die tensor unit mb e d hup he htier haway hd => ?lost,
    fun s slot die tensor unit mb ok k hup hnone hk hrun => ?missing⟩
  case written =>
    refine event_answers hup ?_
    dsimp only
    rw [hk, hd]
    dsimp only
    rw [hl]
    dsimp only
    have hkind0 : kind ≠ 0 := fun h => hkind (by rw [h]; rfl)
    have hreads0 : reads ≠ 0 := fun h => hreads (by rw [h]; rfl)
    have hbad : ¬(kind = 0 ∨ 5 < kind.toNat ∨ (kind = 1 ∧ (fmtOf fmt.toNat).isNone = true)) := by
      rintro (h | h | ⟨h, hn⟩)
      · exact hkind0 h
      · omega
      · have := hfmt (by rw [h]; rfl)
        rw [Option.isNone_iff_eq_none] at hn
        rw [hn] at this
        exact absurd this (by decide)
    have hhere : s.lkr.entries.filter (fun e => e.slot = slot && e.die = die.val && e.tier = 0) = [] :=
      List.filter_eq_nil_iff.mpr fun e he h => by
        simp only [Bool.and_eq_true, decide_eq_true_eq] at h
        exact (hempty e he h.1.1 h.1.2).1 h.2
    have hleaving : s.lkr.entries.filter (fun e => e.slot = slot && e.die = die.val && e.tier = 3) = [] :=
      List.filter_eq_nil_iff.mpr fun e he h => by
        simp only [Bool.and_eq_true, decide_eq_true_eq] at h
        exact (hempty e he h.1.1 h.1.2).2 h.2
    rw [if_neg (by simp [hrun, hsus]), if_neg hbad, if_neg hreads0, hdata]
    dsimp only
    rw [hhere, hleaving, if_pos (by simpa using hroom)]
    exact ⟨⟨_, rfl, rfl, rfl, rfl, rfl, rfl, rfl, rfl, rfl, rfl, rfl, rfl, rfl, rfl⟩, rfl, rfl⟩
  case read =>
    refine event_answers hup ?_
    dsimp only
    rw [he]
    dsimp only
    have hmem : e ∈ s.lkr.entries := List.mem_of_find?_eq_some he
    obtain ⟨hslot, -, htensor, hunit, hmb⟩ := (standsFor_iff (die := die.val)).mp (List.find?_some he)
    rw [if_neg (by rw [htier]; exact fun h => absurd h.1 (by decide)), if_neg (by rw [htier, haway]; simp), if_neg (by decide)]
    generalize hes : (if e.reads.toNat ≤ 1 then _ else _ : List LkrEntry) = es
    rw [if_pos htier]
    obtain ⟨x, b, hout⟩ := handOut_eq { s with lkr.entries := es } e
    refine ⟨fun hreads => ?_, fun hreads y hy => ?_, fun hkind => ?_, fun h hkind hh => ?_, ?_⟩
    · rw [hout, ← hes, if_neg (by omega)]
      exact ⟨List.mem_map.mpr ⟨e, hmem, if_pos rfl⟩, List.length_map _⟩
    · rw [hout, ← hes, if_pos hreads] at hy
      exact of_decide_eq_true (List.mem_filter.mp hy).2
    · rw [handOut_of_value hkind, ← hslot, ← htensor, ← hunit, ← hmb]
      exact ⟨Table.lookup_insert_self .., rfl⟩
    · rw [handOut_of_tile (h := h) hkind (by rw [htensor, hunit]; exact hh)]
      exact mem_setBytes_bytes (s := s) (t := { s with lkr.entries := es }) rfl _ _
    · rw [hout]
  case lost =>
    refine event_answers hup ?_
    dsimp only
    rw [he]
    dsimp only
    obtain ⟨hslot, -⟩ := (standsFor_iff (die := die.val)).mp (List.find?_some he)
    rw [if_neg (by rw [htier]; exact fun h => absurd h.1 (by decide)), if_neg (by rw [htier, haway]; simp), if_pos (by decide)]
    unfold State.loseEntry
    dsimp only
    rw [if_neg (by rw [htier]; decide)]
    obtain ⟨m, hm⟩ := notifyOf_eq { s with
      lkr.entries := s.lkr.entries.filter (fun x => x.seq ≠ e.seq)
      crs.domains := s.crs.domains.each (fun i d => if i = e.slot.toNat then { d with lost := true } else d) } e.bib .dataLost 0
      (.lost e.tensor (e.unit.setWidth 40) e.mb)
    rw [hm]
    refine ⟨fun x hx => of_decide_eq_true (List.mem_filter.mp hx).2, ?_, rfl⟩
    have hd' : s.crs.domains.lookup slot.toNat = some d := hd
    rw [State.domain]
    dsimp only
    rw [Table.lookup_each, hd', hslot]
    exact congrArg some (if_pos rfl)
  case missing =>
    refine event_answers hup ?_
    dsimp only
    rw [List.find?_eq_none.mpr fun e he h => ?_]
    · exact ⟨(violateAs_isSuspended hk hrun ..).1, (violateAs_isSuspended hk hrun ..).2, (violateAs_onlySuspends ..).bytes⟩
    · obtain ⟨hslot, hdie, htensor, hunit, hmb⟩ := standsFor_iff.mp h
      exact hnone e he hslot hdie htensor hunit hmb

end Machine
end Sys2Proof

/-! SUPPORT. What a drain's rounding observes; the drain's rows (O23). -/

namespace Sys2Proof
namespace Machine

/-! ## What a conversion observes -/

/-- Only the converters' observations, the checks' accumulators and samples, the non-finite flags and the counters differ (R84, R100, R105, R110). -/
def Observes (s t : State) : Prop :=
  t = { s with
    arr.products := t.arr.products, arr.patches := t.arr.patches, lkr.shadows := t.lkr.shadows, crs.scales := t.crs.scales
    crs.samples := t.crs.samples, mem.hdrs := t.mem.hdrs, upd.nonfin := t.upd.nonfin, ctr := t.ctr, log := t.log }

theorem Observes.refl (s : State) : Observes s s := rfl

theorem Observes.trans {s t u : State} (h : Observes s t) (h' : Observes t u) : Observes s u :=
  Eq.trans h' (congrArg (fun x : State => { x with
    arr.products := u.arr.products, arr.patches := u.arr.patches, lkr.shadows := u.lkr.shadows, crs.scales := u.crs.scales
    crs.samples := u.crs.samples, mem.hdrs := u.mem.hdrs, upd.nonfin := u.upd.nonfin, ctr := u.ctr, log := u.log }) h)

theorem observe_observes (s : State) (slot group : Nat) (v : Val) (marked : Bool) : Observes s (s.observe slot group v marked) := by
  unfold State.observe
  split <;> rfl

theorem check_observes (s : State) (slot group : Nat) (product : Bool) (step ordinal : Nat) (term : BitVec 32) (a : PatchAcc) :
    Observes s (s.check slot group product step ordinal term a) := by
  unfold State.check
  split
  · split <;> rfl
  · rfl

theorem shadow_observes (s : State) (ck : Nat) (u : UseCfg) (token lane : Nat) (v : Val) : Observes s (s.shadow ck u token lane v) := by
  unfold State.shadow
  split <;> rfl

theorem converts_observes (s : State) (ck : Nat) (u : UseCfg) (token lane : Nat) (v : Val) (code : Nat) (marked : Bool) :
    Observes s (s.converts ck u token lane v code marked) := by
  have hshadow := Observes.trans (observe_observes s u.slot.toNat u.group v marked) (shadow_observes _ ck u token lane v)
  unfold State.converts
  dsimp only
  generalize State.shadow _ ck u token lane v = t at hshadow ⊢
  split_ifs
  · exact .refl s
  · exact observe_observes ..
  · exact .trans hshadow rfl
  · exact .trans hshadow (.trans (t := { t with arr.patches := _ }) rfl (check_observes ..))

theorem flagTile_observes (s : State) (u : UseCfg) (marked : Bool) : Observes s (s.flagTile u marked) := by
  unfold State.flagTile
  split
  · split <;> rfl
  · rfl

theorem flagStep_observes (s : State) (c : BitVec 8) (src : Nat) (bad : Bool) : Observes s (s.flagStep c src bad) := by
  unfold State.flagStep
  split <;> rfl

theorem count_observes (s : State) (id inst n : Nat) : Observes s (s.count id inst n) := by
  obtain ⟨x, l, h⟩ := count_eq s id inst n
  rw [h]
  rfl

/-- A mark counted where there is one. -/
theorem countIf_observes (s : State) (b : Bool) (id inst n : Nat) : Observes s (if b = true then s.count id inst n else s) := by
  split
  · exact count_observes ..
  · exact .refl s

theorem convert_observes (s : State) (ck : Nat) (u : UseCfg) (token lane : Nat) (v : Val) : Observes s (s.convert ck u token lane v).1 :=
  .trans (.trans (.trans (converts_observes ..) (countIf_observes ..)) (flagTile_observes ..)) (flagStep_observes ..)

theorem productEnter_observes (s : State) (ck : Nat) (u : UseCfg) (token lane : Nat) (d : Val) (marked : Bool) :
    Observes s (s.productEnter ck u token lane d marked) := by
  unfold State.productEnter
  split
  · dsimp only
    split <;> rfl
  · rfl

/-! ## A beat rounded at the drain -/

/-- The format that a use's drain rounds to. -/
def UseCfg.drainFmt (u : UseCfg) : Fmt := if u.acc = 0 ∧ u.x.post = [] then u.outFmt else .w40

theorem roundSum_rows (s : State) (ck : Nat) (u : UseCfg) (base token lane : Nat) (l : Lane) :
    Observes s (s.roundSum ck u base token lane l).1
      ∧ (s.roundSum ck u base token lane l).2
        = { token := base + token, code := (drainEncode u.drainFmt u.pOut.toNat (u.drainValue l)).1, fmt := u.drainFmt } := by
  unfold State.roundSum UseCfg.drainFmt
  dsimp only
  by_cases hd : u.direct = true
  · have hplain : u.acc = 0 ∧ u.x.post = [] := by simpa [UseCfg.direct] using hd
    rw [if_pos hd, if_pos hd, if_pos hplain]
    exact ⟨.trans (productEnter_observes ..) (convert_observes ..), rfl⟩
  · have hplain : ¬(u.acc = 0 ∧ u.x.post = []) := by simpa [UseCfg.direct] using hd
    rw [if_neg hd, if_neg hd, if_neg hplain]
    exact ⟨.trans (.trans (productEnter_observes ..) (countIf_observes ..)) (flagTile_observes ..), rfl⟩

/-- What the drain's lane keeps of one beat after another: the state and the results so far. -/
def drainBeat (ck : Nat) (u : UseCfg) (token lane : Nat) (a : State × List DrainOut) (e : Lane × Nat) : State × List DrainOut :=
  let (t, o) := a.1.roundSum ck u (256 * u.ord) (u.tokenOf token + e.2) lane e.1
  (t, a.2 ++ [o])

theorem foldl_drainBeat (ck : Nat) (u : UseCfg) (token lane : Nat) (l : List (Lane × Nat)) (a : State × List DrainOut) :
    Observes a.1 (l.foldl (drainBeat ck u token lane) a).1
      ∧ (l.foldl (drainBeat ck u token lane) a).2 = a.2 ++ l.map (fun e =>
          { token := 256 * u.ord + (u.tokenOf token + e.2), code := (drainEncode u.drainFmt u.pOut.toNat (u.drainValue e.1)).1, fmt := u.drainFmt }) := by
  induction l generalizing a with
  | nil => exact ⟨.refl _, (List.append_nil _).symm⟩
  | cons e l ih =>
    obtain ⟨ho, hr⟩ := roundSum_rows a.1 ck u (256 * u.ord) (u.tokenOf token + e.2) lane e.1
    obtain ⟨ho', hr'⟩ := ih (drainBeat ck u token lane a e)
    refine ⟨.trans ho ho', ?_⟩
    have hbeat : (drainBeat ck u token lane a e).2 = a.2 ++ [_] := congrArg (fun o => a.2 ++ [o]) hr
    rw [List.foldl_cons, hr', hbeat, List.append_assoc]
    rfl

/-! ## Stores of elements -/

theorem setElem_onlyBytes (s : State) (k : Nat) (f : Fmt) (r c code : Nat) : ∃ m, s.setElem k f r c code = { s with mem.bytes := m } :=
  ⟨_, setBytes_onlyBytes ..⟩

theorem setElem_bytes_congr {s t : State} (h : t.mem.bytes = s.mem.bytes) (k : Nat) (f : Fmt) (r c code : Nat) :
    (t.setElem k f r c code).mem.bytes = (s.setElem k f r c code).mem.bytes := by
  have hold (n : Nat) : t.bytesAt (k + elemBit f r c / 8) n = s.bytesAt (k + elemBit f r c / 8) n :=
    bytesAt_congr n fun a _ _ => by rw [State.byte, State.byte, h]
  unfold State.setElem
  dsimp only
  rw [hold]
  exact mem_setBytes_bytes h _ _

/-- An element and its patch's scale byte, as a drain writes them (R75, R83). -/
theorem writeElem_rows {s s' : State} {u : UseCfg} {h : TileHdr} (hh : s.tileHdr u.out = some h) (hstate : h.state ≠ 1) (hsame : s.mem.bytes = s'.mem.bytes)
    (token lane code : Nat) : ∃ m, s.writeElem u token lane code = some { s with mem.bytes := m } ∧
      let w := s'.setElem (homeKey h.home) u.outFmt token (u.outCol lane) code
      m = (if hasScale u.outFmt = true then w.setByte (homeKey h.home + scaleByteOf token (u.outCol lane)) u.pOut else w).mem.bytes := by
  unfold State.writeElem
  rw [hh]
  dsimp only
  rw [if_neg hstate]
  have hbytes := setElem_bytes_congr hsame (homeKey h.home) u.outFmt token (u.outCol lane) code
  obtain ⟨m, hm⟩ := setElem_onlyBytes s (homeKey h.home) u.outFmt token (u.outCol lane) code
  rw [hm] at hbytes ⊢
  split_ifs
  · refine ⟨_, rfl, ?_⟩
    rw [State.setByte, ← hbytes]
  · exact ⟨m, rfl, hbytes⟩

/-! ## Uses -/

theorem usesOf_setUse (s : State) (ck : Nat) (u : UseCfg) : (s.setUse ck u).usesOf ck = (s.usesOf ck).map (fun v => if v.ord = u.ord then u else v) :=
  Table.read_write_self ..

theorem setUse_eq (s : State) (ck : Nat) (u : UseCfg) : ∃ l, s.setUse ck u = { s with arr.uses := l } := ⟨_, rfl⟩

theorem mem_of_useFor {s : State} {ck token : Nat} {u : UseCfg} (h : s.useFor ck token = some u) : u ∈ s.usesOf ck := List.mem_of_find?_eq_some h

theorem flagTile_eq (s : State) (u : UseCfg) (marked : Bool) : ∃ h, s.flagTile u marked = { s with mem.hdrs := h } := by
  unfold State.flagTile
  split
  · split
    · exact ⟨_, rfl⟩
    · exact ⟨s.mem.hdrs, rfl⟩
  · exact ⟨s.mem.hdrs, rfl⟩

theorem stopCarve_eq (s : State) (p q : Nat) : ∃ r u, s.stopCarve p q = { s with rink := r, arr.uses := u } := ⟨_, _, rfl⟩

theorem OnlySuspends.arr {s t : State} (h : OnlySuspends s t) : t.arr = s.arr := by
  obtain ⟨_, _, _, _, _, _, rfl⟩ := h
  rfl

/-- A violation of a use stops its carve and suspends its bib (R69, R175). -/
theorem violateUse_rows {s : State} {ck : Nat} {u : UseCfg} {k : Course} (hk : s.course u.slot.toNat = some k) (hrun : (s.bib k.bib).state = .running)
    (st : Status) (detail : BitVec 128) : ∃ t, s.violateUse ck u st detail = t ∧ t.isSuspended k.bib .fault ∧ t.arr.sums = s.arr.sums
      ∧ t.arr.red = s.arr.red ∧ t.mem.bytes = s.mem.bytes := by
  obtain ⟨r, x, hstop⟩ := stopCarve_eq s (ck / 4) (ck % 4)
  unfold State.violateUse State.violateAt
  rw [hstop]
  have ho := violateAs_onlySuspends { s with rink := r, arr.uses := x } u.slot.toNat .fault st u.seg u.use detail
  refine ⟨_, rfl, violateAs_isSuspended (s := { s with rink := r, arr.uses := x }) hk hrun .., ?_, ?_, ho.bytes⟩
  · exact ho.arr.symm ▸ rfl
  · exact ho.arr.symm ▸ rfl

/-- A term of a long sum that does not finish it (R89). -/
theorem addSum_of_notLast {s : State} {ck token lane : Nat} {u : UseCfg} (x : BitVec 40)
    (hterm : u.term.toNat = (s.arr.sums.read {} (u.sumKey ck lane token)).terms + 1) (hlast : u.x.last = .no) :
    ∃ h, s.addSum ck u token lane x = some { s with
      mem.hdrs := h
      arr.sums := s.arr.sums.insert (u.sumKey ck lane token)
        { val := (addW40 (u.rnd (s.useSeed u) (s.element u token lane) u.term) (s.arr.sums.read {} (u.sumKey ck lane token)).val x).1
          terms := (s.arr.sums.read {} (u.sumKey ck lane token)).terms + 1 } } := by
  unfold State.addSum
  dsimp only
  rw [if_neg (not_not.mpr hterm), hlast]
  dsimp only
  obtain ⟨h, hf⟩ := flagTile_eq s u
    (addW40 (u.rnd (s.useSeed u) (s.element u token lane) u.term) (s.arr.sums.read {} (u.sumKey ck lane token)).val x).2
  rw [hf]
  exact ⟨h, rfl⟩

/-! ## Row reductions -/

theorem take_sum_rows (r : RedTile) (last : Bool) (groups : List (List (BitVec 40))) :
    (r.take false last groups).terms = r.terms + 1 ∧ (r.take false last groups).whole = last
      ∧ ∀ i, i < groups.length → (r.take false last groups).vals.getD i 0
          = if r.terms = 0 then treeSum (groups.getD i []) else (addW40 .rne (r.vals.getD i 0) (treeSum (groups.getD i []))).1 := by
  refine ⟨rfl, rfl, fun i hi => ?_⟩
  unfold RedTile.take
  dsimp only
  rw [List.getD_eq_getElem _ _ (by simpa using hi), List.getD_eq_getElem _ _ hi]
  simp only [List.getElem_map, List.getElem_zipIdx, Bool.false_eq_true, if_false, decide_eq_true_eq, Nat.zero_add]

/-- A long-sum lane after its result has been taken. -/
def State.laneTaken (s : State) (key : Nat) : State := { s with arr.lanes := s.arr.lanes.insert key { s.arr.lanes.read {} key with result := none } }

/-- Settles O23. -/
theorem drainRows : Obligations.DrainRows := by
  simp only [Obligations.DrainRows, Answers, exec]
  refine ⟨fun s stn q lane u x hup hx hu hout => ?rounded, fun s stn q lane u o rest h hup ho hu hacc hturn hres hplain hpost hroute hmir hh hstate => ?written,
    fun s stn q lane u o rest hup ho hu hacc hturn hres hlong => ?kept, fun s stn q lane u o hup ho hu hacc hroute hterm hlast => ?added,
    fun s stn q lane u o k hup ho hu hacc hroute hterm hk hrun => ?wrongTerm,
    fun s stn q id term last u hup hu hsum hacc hold hterm => ?reduced, fun s stn q id term last u k hup hu hacc hold hterm hk hrun => ?wrongRow⟩
  case rounded =>
    refine event_answers hup ?_
    dsimp only
    rw [hx]
    dsimp only
    rw [hu]
    dsimp only
    rw [if_neg (by simp [hout])]
    obtain ⟨ho, hr⟩ := foldl_drainBeat (s.carveAt stn.val q.val) u x.token lane.toNat x.lanes.zipIdx (s, [])
    rw [List.nil_append] at hr
    change Observes _ (List.foldl (drainBeat (s.carveAt stn.val q.val) u x.token lane.toNat) (s, []) _).1 at ho
    generalize hp : List.foldl _ _ _ = p
    have hp' : List.foldl (drainBeat (s.carveAt stn.val q.val) u x.token lane.toNat) (s, []) x.lanes.zipIdx = p := hp
    rw [hp'] at ho hr
    rw [ho, hr]
    exact ⟨Table.lookup_remove_self .., Table.lookup_insert_self .., rfl, rfl, rfl⟩
  case written =>
    refine event_answers hup ?_
    dsimp only
    rw [ho]
    dsimp only
    rw [hu]
    dsimp only
    rw [if_neg (by simp [hacc, hturn, hres])]
    unfold State.takeResult State.writeResult
    dsimp only
    rw [if_neg (by rw [hplain]; decide), if_pos (by simp [UseCfg.direct, hplain, hpost]), if_neg (by rw [hroute]; decide)]
    generalize ht : State.setUse _ _ _ = t
    have hmir' : t.mirrorOf u.out.bib u.tensor = none := by rw [← ht]; exact hmir
    have hh' : t.tileHdr u.out = some h := by rw [← ht]; exact hh
    have hsame : t.mem.bytes = s.mem.bytes := by rw [← ht]; rfl
    obtain ⟨m, hm, hbytes⟩ := writeElem_rows hh' hstate hsame (o.token % 256) lane.toNat o.code
    rw [hmir']
    dsimp only
    rw [if_pos hroute, hm]
    refine ⟨hbytes, ?_, ?_, ?_, ?_⟩
    · rw [← ht]
      exact congrArg PostLane.next (Table.read_insert_self ..)
    · rw [← ht]
      exact Table.read_write_self ..
    · refine ⟨{ u with accepted := u.accepted + 1 }, ?_, rfl, rfl⟩
      have huses := usesOf_setUse s (s.carveAt stn.val q.val) { u with accepted := u.accepted + 1 }
      have hmem : { u with accepted := u.accepted + 1 } ∈ (s.setUse (s.carveAt stn.val q.val) { u with accepted := u.accepted + 1 }).usesOf
          (s.carveAt stn.val q.val) := huses ▸ List.mem_map.mpr ⟨u, mem_of_useFor hu, if_pos rfl⟩
      rw [← ht]
      exact hmem
    · rw [← ht]
      rfl
  case kept =>
    refine event_answers hup ?_
    dsimp only
    rw [ho]
    dsimp only
    rw [hu]
    dsimp only
    rw [if_neg (by simp [hacc, hturn, hres])]
    unfold State.takeResult
    dsimp only
    rw [if_pos hlong, Option.getD_some]
    refine ⟨?_, ?_, rfl⟩
    · dsimp only
      rw [Table.read_insert_self]
    · dsimp only
      rw [Table.read_insert_self]
      exact congrArg PostLane.next (Table.read_insert_self ..)
  case added =>
    refine event_answers hup ?_
    dsimp only
    rw [ho]
    dsimp only
    rw [hu]
    dsimp only
    rw [if_neg (by simp [hacc]), if_neg hroute]
    obtain ⟨h, hadd⟩ := addSum_of_notLast (ck := s.carveAt stn.val q.val) (u := u)
      (s := s.laneTaken (laneKey (s.carveAt stn.val q.val) lane.toNat)) (BitVec.ofNat 40 o.code) hterm hlast
    unfold State.laneTaken at hadd
    rw [hadd]
    refine ⟨Table.lookup_insert_self .., ?_, rfl, rfl⟩
    rw [Option.getD_some, Table.read_insert_self]
  case wrongTerm =>
    refine event_answers hup ?_
    dsimp only
    rw [ho]
    dsimp only
    rw [hu]
    dsimp only
    rw [if_neg (by simp [hacc]), if_neg hroute]
    unfold State.addSum
    dsimp only
    rw [if_pos (by exact hterm), Option.getD_some]
    obtain ⟨t, ht, ⟨hsus, hwhy⟩, hsums, -, hbytes⟩ := violateUse_rows (ck := s.carveAt stn.val q.val) (u := u)
      (s := s.laneTaken (laneKey (s.carveAt stn.val q.val) lane.toNat)) hk hrun .fault (u.term.setWidth 128)
    unfold State.laneTaken at ht
    rw [ht]
    exact ⟨hsus, hwhy, hsums, hbytes⟩
  case reduced =>
    refine event_answers hup ?_
    dsimp only
    rw [hu]
    dsimp only
    rw [if_neg (by simp [hacc, hold]), if_neg (not_not.mpr hterm), hsum]
    obtain ⟨hterms, hlast, hvals⟩ := take_sum_rows (s.arr.red.read {} (u.redKey id)) last ((List.range 256).map (fun t =>
      laneGroup (s.arr.rows.read [] ((u.key (s.carveAt stn.val q.val) * 256 + id.toNat) * 2 + false.toNat)) t (u.laneCount (s.carveW (s.carveAt stn.val q.val)))))
    refine ⟨⟨_, Table.lookup_insert_self .., hterms.trans hterm.symm, hlast, fun i hi => ?_⟩, rfl⟩
    rw [hvals i (by simpa using hi), List.getD_eq_getElem _ _ (by simpa using hi), List.getElem_map, List.getElem_range]
  case wrongRow =>
    refine event_answers hup ?_
    dsimp only
    rw [hu]
    dsimp only
    rw [if_neg (by simp [hacc, hold]), if_pos hterm]
    obtain ⟨t, ht, ⟨hsus, hwhy⟩, -, hred, hbytes⟩ := violateUse_rows (ck := s.carveAt stn.val q.val) hk hrun .fault (term.setWidth 128)
    rw [ht]
    exact ⟨hsus, hwhy, hred, hbytes⟩

end Machine
end Sys2Proof

/-! SUPPORT. What writing a patch can touch; gate control messages and the chunks of collectives (O42). -/

namespace Sys2Proof
namespace Machine

theorem exch_setExch_self (s : State) (n : Nat) (ep : BitVec 8) (v : Verdict) : (s.setExch n ep v).exch n ep = v := Table.read_write_self ..

/-! ## A patch written -/

theorem each_onlyBytes {α : Type} {f : State → α → State} (h : ∀ s a, ∃ m, f s a = { s with mem.bytes := m }) (l : List α) (s : State) :
    ∃ m, s.each l f = { s with mem.bytes := m } := by
  refine each_rel (R := fun s t => ∃ m, t = { s with mem.bytes := m }) (fun s => ⟨s.mem.bytes, rfl⟩) ?_ h l s
  rintro _ _ _ ⟨_, rfl⟩ ⟨m, rfl⟩
  exact ⟨m, rfl⟩

theorem writePatch_onlyBytes (s : State) (home : HomeAddr) (f : Fmt) (p : Nat) (codes : List Nat) (scale : BitVec 8) :
    ∃ m, s.writePatch home f p codes scale = { s with mem.bytes := m } := by
  obtain ⟨m, hm⟩ := each_onlyBytes (f := fun t (e : Nat × Nat) => t.setElem (homeKey home) f (patchElem p e.2 / 256) (patchElem p e.2 % 256) e.1)
    (fun t e => setElem_onlyBytes ..) codes.zipIdx s
  unfold State.writePatch
  dsimp only
  rw [hm]
  split_ifs <;> exact ⟨_, rfl⟩

/-! ## Chunks -/

/-- A chunk's sums with what they overflowed, element by element (R288). -/
def reduced (op : Nat) (vals own : List (BitVec 40)) : List (BitVec 40 × Bool) := (vals.zip own).map (fun e => chunkElem op .rne e.1 e.2)

theorem reduced_zipIdx (op : Nat) (vals own : List (BitVec 40)) :
    (vals.zip own).zipIdx.map (fun e => chunkElem op .rne e.1.1 e.1.2) = reduced op vals own := by
  have h : (fun e : (BitVec 40 × BitVec 40) × Nat => chunkElem op .rne e.1.1 e.1.2) = (fun e => chunkElem op .rne e.1 e.2) ∘ Prod.fst := rfl
  rw [reduced, h, ← List.map_map, List.zipIdx_map_fst]

theorem reduced_fst (op : Nat) (vals own : List (BitVec 40)) :
    (reduced op vals own).map (·.1) = (vals.zip own).map (fun e => (chunkElem op .rne e.1 e.2).1) := List.map_map

/-- A chunk of a known patch, over a trained port, for a domain that is not held, is taken (R288). -/
theorem chunk_taken {s : State} {port slot b p binds patches : Nat} (hb : b < binds) (hp : p < patches) (htrained : (s.port port).trained = true)
    (hheld : s.held slot = false) : ¬(binds ≤ b ∨ patches ≤ p ∨ (!(s.port port).trained) = true ∨ s.held slot = true) := by
  rw [htrained, hheld]
  simp [hb, hp]

theorem emit_rows (s : State) (c b p : Nat) : ∃ e, (if (s.upd.emitted.read [] c).contains (b, p) = true then s else s.emit c b p) = { s with upd.emitted := e }
    ∧ (b, p) ∈ e.read [] c := by
  split_ifs with h
  · exact ⟨s.upd.emitted, rfl, List.contains_iff_mem.mp h⟩
  · exact ⟨_, rfl, by rw [Table.read_insert_self]; exact List.mem_cons_self ..⟩

/-- Settles O42. -/
theorem collectiveRows : Obligations.CollectiveRows := by
  simp only [Obligations.CollectiveRows, Answers, exec]
  refine ⟨fun s port jtag g ep v hup hnone => event_idle s ?noJob, fun s port jtag g ep v e n hup he hg hverdict hgot => ?first,
    fun s port jtag g ep v e n hup he hg hgot => ?second,
    fun s port slot b p op vals own term seed onward k j jb hup hk hj hb hp htrained hheld hterm => ?reduced,
    fun s port slot b p codes scale onward k j jb h hup hk hj hb hp htrained hheld hh hstate => ?gathered,
    fun s port slot b p op vals own term sr seed last onward hup hterm => event_idle s ?otherTerm,
    fun s port slot b p ch onward hup hheld => event_idle s ?held,
    fun s port slot b p ch onward k hup hk hj => event_idle s ?noCourseJob⟩
  case noJob =>
    dsimp only
    rw [hnone]
  case first =>
    refine event_answers hup ?_
    dsimp only
    rw [he]
    dsimp only
    rw [hg]
    dsimp only
    rw [if_neg (by omega), if_pos hverdict]
    exact ⟨by rw [exch_setExch_self], rfl⟩
  case second =>
    refine event_answers hup ?_
    dsimp only
    rw [he]
    dsimp only
    rw [hg]
    dsimp only
    rw [if_pos (by omega)]
    exact ⟨by rw [exch_setExch_self], rfl⟩
  case reduced =>
    refine event_answers hup ?_
    dsimp only
    rw [hk]
    dsimp only
    rw [hj]
    dsimp only
    rw [if_neg (chunk_taken hb hp htrained hheld), if_neg (by simp [hterm]), if_pos rfl]
    simp only [Bool.false_eq_true, if_false, reduced_zipIdx]
    obtain ⟨l, hl⟩ := flagStep_eq s slot (16 + port.val) ((reduced op.toNat vals own).any (·.2))
    rw [hl, reduced_fst]
    split
    · split
      · exact ⟨Table.lookup_insert_self .., rfl, rfl⟩
      · exact ⟨Table.lookup_insert_self .., rfl, rfl⟩
    · exact ⟨Table.lookup_insert_self .., rfl, rfl⟩
  case gathered =>
    refine event_answers hup ?_
    dsimp only
    rw [hk]
    dsimp only
    rw [hj]
    dsimp only
    rw [if_neg (chunk_taken hb hp htrained hheld), hh]
    dsimp only
    rw [if_neg hstate]
    obtain ⟨m, hm⟩ := writePatch_onlyBytes s h.home (k.workFmt (k.binds.getD b.toNat 0)) p.toNat (codes.map (·.toNat)) scale
    rw [hm]
    obtain ⟨e, he, hemitted⟩ := emit_rows { s with mem.bytes := m } slot.toNat b.toNat p.toNat
    rw [he]
    exact ⟨rfl, hemitted, rfl, rfl⟩
  case otherTerm =>
    dsimp only
    split
    · rfl
    · split
      · rfl
      · split
        · rfl
        · exact if_pos (by simp [hterm])
  case held =>
    dsimp only
    split
    · rfl
    · split
      · rfl
      · rw [if_pos (.inr (.inr (.inr hheld)))]
  case noCourseJob =>
    dsimp only
    rw [hk]
    dsimp only
    rw [hj]

end Machine
end Sys2Proof

/-! SUPPORT. The slots that a move reserves and releases; the moves' rows (O31). -/

namespace Sys2Proof
namespace Machine

/-! ## Slots and tile counts of a move -/

theorem reserveSlot_held {s : State} {h : HomeAddr} (hs : slotHome h = true) :
    ((s.reserveSlot h).slotsOf (slotKey h)).held = (s.slotsOf (slotKey h)).held + 1 := by
  rw [State.reserveSlot, if_pos hs]
  exact congrArg SlotCount.held (Table.read_write_self ({} : SlotCount) s.mem.slots (slotKey h)
    { s.slotsOf (slotKey h) with reserved := (s.slotsOf (slotKey h)).reserved + 1, held := (s.slotsOf (slotKey h)).held + 1 })

theorem releaseSlot_eq (s : State) (h : HomeAddr) : ∃ x, s.releaseSlot h = { s with mem.slots := x } := by
  unfold State.releaseSlot
  dsimp only
  split_ifs
  exacts [⟨_, rfl⟩, ⟨s.mem.slots, rfl⟩]

theorem releaseSlot_held {s : State} {h : HomeAddr} (hs : slotHome h = true) (hheld : 0 < (s.slotsOf (slotKey h)).held) :
    ((s.releaseSlot h).slotsOf (slotKey h)).held = (s.slotsOf (slotKey h)).held - 1 := by
  rw [State.releaseSlot, if_pos ⟨hs, hheld⟩]
  exact congrArg SlotCount.held (Table.read_write_self ({} : SlotCount) s.mem.slots (slotKey h)
    { s.slotsOf (slotKey h) with released := (s.slotsOf (slotKey h)).released + 1, held := (s.slotsOf (slotKey h)).held - 1 })

/-- A tile counted out of one epoch's items and into another's. -/
theorem recount_eq (s : State) (h h' : TileHdr) : ∃ x, (s.tileOut h).tileIn h' = { s with mem.items := x } := by
  unfold State.tileOut State.tileIn
  split_ifs <;> exact ⟨_, rfl⟩

/-- The committed item of a stream (R196, R214). -/
theorem commitItem_rows {s : State} {n : Nat} {x : Strm} {mv : Move} (hx : s.strm n = some x) (hret : mv.ret = 0) (bytes : Nat) :
    (∃ y, (s.commitItem n mv bytes).strm n = some y ∧ y.done = x.done + 1
      ∧ ∃ i, y.items.lookup mv.item = some i ∧ i.committed = true ∧ i.src = mv.src ∧ i.dst = mv.dst)
      ∧ (s.commitItem n mv bytes).mem = s.mem := by
  unfold State.commitItem
  rw [hx]
  dsimp only
  rw [if_neg (not_not.mpr hret)]
  generalize hc : State.count _ _ _ _ = t
  obtain ⟨⟨y, l, he⟩, -⟩ := eq_of_count hc
  have hmem : t.mem = s.mem := by rw [he]; rfl
  have hstrm : t.strm n = some { x with
      held := BitVec.ofNat 18 (slotsHeld (x.items.insert mv.item
        { src := mv.src, dst := mv.dst, committed := true, reads := 0, ret := if mv.cancelled = true then 2 else 0 }))
      items := x.items.insert mv.item { src := mv.src, dst := mv.dst, committed := true, reads := 0, ret := if mv.cancelled = true then 2 else 0 }
      done := x.done + 1, late := x.late.filter (fun j => j ≠ mv.item), cls := if x.late.filter (fun j => j ≠ mv.item) = [] then 1 else x.cls } := by
    rw [he]
    exact Table.lookup_insert_self s.lift.strm n _
  split_ifs
  · exact ⟨⟨_, (lateOver_strm t x.slot.toNat n).trans hstrm, rfl, _, Table.lookup_insert_self .., rfl, rfl, rfl⟩, (lateOver_mem ..).trans hmem⟩
  · exact ⟨⟨_, hstrm, rfl, _, Table.lookup_insert_self .., rfl, rfl, rfl⟩, hmem⟩

/-- What the failure of a move leaves (R197): its slot and its entry are released and the header stands. -/
theorem discardMove_rows {s : State} {id : Nat} {mv : Move} {h : TileHdr} (hh : s.mem.hdrs.lookup mv.tile = some h) (hstate : h.state = 1) :
    ∃ x b y z, s.discardMove id mv = { s with mem.slots := x, mem.ended := b, mem.hdrs := y, mem.moves := z } ∧ y.lookup mv.tile = some { h with state := 0 } := by
  obtain ⟨x, hx⟩ := releaseSlot_eq s mv.dst
  unfold State.discardMove
  dsimp only
  rw [hx]
  split_ifs
  all_goals
    dsimp only [State.countEnded]
    rw [hh]
    dsimp only
    rw [if_pos hstate]
    exact ⟨_, _, _, _, rfl, Table.lookup_insert_self ..⟩

/-- Settles O31. -/
theorem moveRows : Obligations.MoveRows := by
  simp only [Obligations.MoveRows, Answers, exec]
  refine ⟨fun s id tile dst m h hup hh hok hid hmove hscratch => ?requested, fun s id tile dst m hup hok => ?unbacked,
    fun s id tile dst m h c seg k hup hh hok hid hmove hscratch hk hrun => ?overScratch, fun s id mv h hup hm hh hphase hstate => ?header,
    fun s id mv h hup hwf hm hh hphase => ?data, fun s id mv h hup hm hh hphase hstrm => ?commit,
    fun s id mv n x hup hm hh hphase hstrm hx hret => ?item, fun s id mv hup hm hphase hstrm => ?release,
    fun s id mv h hup hm hh hphase hstate hre => ?failure⟩
  case requested =>
    refine event_answers hup ?_
    rw [if_neg (by simp [hok]), hh]
    dsimp only
    rw [if_pos (by simp [hid, hmove]), hscratch]
    dsimp only
    have hheld : slotHome dst = true → _ := reserveSlot_held (s := s)
    obtain ⟨x, he⟩ := reserveSlot_eq s dst
    unfold State.startMove
    dsimp only
    rw [he] at hheld ⊢
    exact ⟨⟨_, Table.lookup_insert_self .., rfl, rfl, rfl, rfl⟩, hh, hheld, rfl, rfl⟩
  case unbacked =>
    refine event_answers hup ?_
    rw [if_pos (by simp [hok])]
    obtain ⟨m, hm⟩ := notifyOf_eq s tile.bib .bounds 0 .none
    rw [State.notify, hm]
  case overScratch =>
    refine event_answers hup ?_
    rw [if_neg (by simp [hok]), hh]
    dsimp only
    rw [if_pos (by simp [hid, hmove]), hscratch]
    obtain ⟨hsus, hwhy⟩ := violateAs_isSuspended hk hrun .fault .quota seg 0 (tile.tile.setWidth 128)
    obtain ⟨_, _, _, _, _, _, he⟩ := violateAs_onlySuspends s c .fault .quota seg 0 (tile.tile.setWidth 128)
    exact ⟨hsus, hwhy, (congrArg (fun x : State => x.mem.moves) he).trans rfl⟩
  case header =>
    refine event_answers hup ?_
    dsimp only
    rw [hm]
    dsimp only
    rw [hh]
    dsimp only
    rw [if_pos ⟨hphase, hstate⟩]
    exact ⟨Table.lookup_insert_self .., Table.lookup_insert_self .., rfl, rfl⟩
  case data =>
    refine event_answers hup ?_
    dsimp only
    rw [hm]
    dsimp only
    rw [hh]
    dsimp only
    rw [if_pos hphase]
    have hbyte (k : Nat) := copyBytes_byte hwf (homeKey mv.src) (homeKey mv.dst) (tileBytesOf h.fmt.toNat) k
    obtain ⟨b, hb⟩ := copyBytes_onlyBytes s (homeKey mv.src) (homeKey mv.dst) (tileBytesOf h.fmt.toNat)
    rw [hb] at hbyte ⊢
    refine ⟨fun i hi => ?_, fun a ha => (hbyte a).trans (if_neg (by omega)), rfl, ⟨_, Table.lookup_insert_self .., rfl, rfl⟩, rfl⟩
    refine (hbyte _).trans ((if_pos (by omega)).trans ?_)
    congr 1
    omega
  case commit =>
    refine event_answers hup ?_
    dsimp only
    rw [hm]
    dsimp only
    rw [hh]
    dsimp only
    rw [if_pos hphase, hstrm]
    obtain ⟨x, hx⟩ := recount_eq s h { h with home := mv.dst, state := 0, epoch := mv.epoch }
    rw [hx]
    exact ⟨Table.lookup_insert_self .., Table.lookup_insert_self .., rfl, rfl⟩
  case item =>
    obtain ⟨h, hh⟩ := Option.isSome_iff_exists.mp hh
    refine event_answers hup ?_
    dsimp only
    rw [hm]
    dsimp only
    rw [hh]
    dsimp only
    rw [if_pos hphase, hstrm]
    dsimp only
    obtain ⟨y, hy⟩ := recount_eq s h { h with home := mv.dst, state := 0, epoch := mv.epoch }
    rw [hy]
    generalize ht : State.mk .. = t
    obtain ⟨hitem, hmem⟩ := commitItem_rows (s := t) (n := n) (x := x) (mv := mv) (by rw [← ht]; exact hx) hret (tileBytesOf h.fmt.toNat)
    refine ⟨hitem, ?_⟩
    rw [hmem, ← ht]
    rfl
  case release =>
    refine event_answers hup ?_
    dsimp only
    rw [hm]
    dsimp only
    rw [if_pos hphase, hstrm]
    dsimp only
    have hheld : slotHome mv.src = true → 0 < (s.slotsOf (slotKey mv.src)).held → _ := releaseSlot_held (s := s)
    obtain ⟨x, hx⟩ := releaseSlot_eq s mv.src
    rw [hx] at hheld ⊢
    exact ⟨Table.lookup_remove_self .., rfl, rfl, hheld, rfl⟩
  case failure =>
    refine event_answers hup ?_
    dsimp only
    rw [hm]
    dsimp only
    rw [if_neg (by rw [hphase]; decide), if_neg (by decide), hre, if_neg (by decide)]
    obtain ⟨x, b, y, z, hd, hhdr⟩ := discardMove_rows (id := id) hh hstate
    rw [hd]
    generalize hc : State.count _ _ _ _ = t
    obtain ⟨⟨v, l, he⟩, hcount⟩ := eq_of_count hc
    obtain ⟨w, hw⟩ := startMove_eq t id { mv with phase := .accepted, reissued := true }
    rw [hw, he]
    refine ⟨hhdr, Table.lookup_insert_self .., ?_, rfl⟩
    rw [he] at hcount
    exact hcount

end Machine
end Sys2Proof

/-! SUPPORT. What the installation of a course changes; the course commands' rows (O14). -/

namespace Sys2Proof
namespace Machine

/-- Patches change a course's segments and uses alone (R174). -/
theorem patched_eq (s : State) (k : Course) (n : Nat) : ∃ x y, s.patched k n = { k with segs := x, uses := y } := by
  have hfold (x y z : Nat) (l : List Nat) (k : Course) :
      ∃ a b, l.foldl (fun k r => k.patchOne n (s.jobM k.bib) x y z r) k = { k with segs := a, uses := b } := by
    induction l generalizing k with
    | nil => exact ⟨k.segs, k.uses, rfl⟩
    | cons r l ih =>
      have hone : ∃ a b, k.patchOne n (s.jobM k.bib) x y z r = { k with segs := a, uses := b } := by
        unfold Course.patchOne
        split
        · dsimp only
          split_ifs
          exacts [⟨_, k.uses, rfl⟩, ⟨k.segs, _, rfl⟩]
        · exact ⟨k.segs, k.uses, rfl⟩
      obtain ⟨a, b, h⟩ := hone
      obtain ⟨a', b', h'⟩ := ih { k with segs := a, uses := b }
      rw [List.foldl_cons, h]
      exact ⟨a', b', h'⟩
  exact hfold ..

/-! ## Installation -/

/-- Only what a course's installation reserves and opens differs: its gates, its part of the locker, its scale records, its lists, its tiles' headers and the
slots of its streams. -/
def Reserves (s t : State) : Prop :=
  t = { s with
    crs.gates := t.crs.gates, crs.scales := t.crs.scales, lkr := t.lkr, mem.lists := t.mem.lists, mem.hdrs := t.mem.hdrs, mem.items := t.mem.items
    lift.reserved := t.lift.reserved }

theorem Reserves.refl (s : State) : Reserves s s := rfl

theorem Reserves.trans {s t u : State} (h : Reserves s t) (h' : Reserves t u) : Reserves s u :=
  Eq.trans h' (congrArg (fun x : State => { x with
    crs.gates := u.crs.gates, crs.scales := u.crs.scales, lkr := u.lkr, mem.lists := u.mem.lists, mem.hdrs := u.mem.hdrs, mem.items := u.mem.items
    lift.reserved := u.lift.reserved }) h)

theorem each_reserves {α : Type} {f : State → α → State} (h : ∀ s a, Reserves s (f s a)) (l : List α) (s : State) : Reserves s (s.each l f) :=
  each_rel (R := Reserves) .refl .trans h l s

theorem armGates_reserves (s : State) (k : Course) : Reserves s (s.armGates k) := by
  refine each_reserves (fun t e => ?_) _ s
  rfl

theorem takeLocker_reserves (s : State) (k : Course) : Reserves s (s.takeLocker k) := by
  refine each_reserves (fun t d => ?_) _ s
  rfl

theorem addHeaders_reserves (s : State) (k : Course) : Reserves s (s.addHeaders k) := by
  refine each_reserves (fun t e => ?_) _ s
  split_ifs
  · exact .refl t
  · split
    · unfold State.tileIn
      split_ifs <;> rfl
    · exact .refl t

/-- The course that an installation makes resident. -/
def State.resident (s : State) (k0 : Course) : Course :=
  s.patched { k0 with gateMap := s.freeGates (chGates k0.hdr), hdrBase := k0.bases } (chSDecl k0.hdr)

theorem install_reserves (s : State) (c : Nat) (k0 : Course) (scales : List Nat) :
    Reserves ((s.clearCounters (fun id inst => domainCounter id && decide (inst = c))).setCourse c (s.resident k0)) (s.install c k0 scales) := by
  refine .trans (armGates_reserves _ (s.resident k0)) (.trans (takeLocker_reserves _ (s.resident k0)) ?_)
  refine .trans (each_reserves (f := fun t (e : Nat × Nat) => t.setScale c e.2 (loadScale e.1)) (fun _ _ => rfl) scales.zipIdx _) ?_
  refine .trans (each_reserves (f := fun t (e : Nat × Nat) => { t with mem.lists := t.mem.lists.insert ((s.resident k0).bib.toNat * 2 ^ 24 + e.2) (loadList e.1) })
    (fun _ _ => rfl) (s.resident k0).lists.zipIdx _) ?_
  exact .trans (addHeaders_reserves _ (s.resident k0)) rfl

/-- A domain's counters are at zero once they have been cleared (R361). -/
theorem counter_clearDomain (s : State) {id c : Nat} (h : domainCounter id = true) (hc : c < 65536) :
    (s.clearCounters (fun id inst => domainCounter id && decide (inst = c))).counter id c = {} := by
  unfold State.clearCounters State.counter Table.read
  dsimp only
  rw [Table.lookup_keep (fun k => !(domainCounter (k / 65536) && decide (k % 65536 = c))), ctrKey_div hc, ctrKey_mod hc, h]
  simp

theorem course_setCourse_self (s : State) (c : Nat) (k : Course) : (s.setCourse c k).course c = some k := Table.lookup_insert_self ..

theorem course_setCourse_ne (s : State) {c i : Nat} (h : i ≠ c) (k : Course) : (s.setCourse c k).course i = s.course i := Table.lookup_insert_ne _ h.symm k

/-- What stands after a load: the course in its slot beside the others, its counters at zero, no byte and no page changed (R173). -/
theorem loaded_rows (s : State) {c : Nat} (hc : c < 65536) (k0 : Course) (scales : List Nat) (b : BitVec 12) :
    let t := s.chargeHeaders (s.install c k0 scales) b
    t.course c = some (s.resident k0) ∧ (∀ i, i ≠ c → t.course i = s.course i) ∧ t.counter 0x080A c = {} ∧ t.log = s.log ∧ t.mem.bytes = s.mem.bytes
      ∧ t.mem.ptes = s.mem.ptes ∧ t.rink = s.rink := by
  have h := install_reserves s c k0 scales
  unfold State.chargeHeaders
  generalize s.install c k0 scales = u at h ⊢
  have hcourses : u.crs.courses = ((s.clearCounters (fun id inst => domainCounter id && decide (inst = c))).setCourse c (s.resident k0)).crs.courses :=
    (congrArg (fun x : State => x.crs.courses) h).trans rfl
  have hctr : u.ctr = (s.clearCounters (fun id inst => domainCounter id && decide (inst = c))).ctr := (congrArg State.ctr h).trans rfl
  refine ⟨?_, fun i hi => ?_, ?_, (congrArg State.log h).trans rfl, (congrArg (fun x : State => x.mem.bytes) h).trans rfl,
    (congrArg (fun x : State => x.mem.ptes) h).trans rfl, (congrArg State.rink h).trans rfl⟩
  · exact (congrArg (Table.lookup · c) hcourses).trans (course_setCourse_self ..)
  · exact (congrArg (Table.lookup · i) hcourses).trans (course_setCourse_ne _ hi _)
  · have hread := congrArg (fun x : Table Counter => x.read {} (ctrKey 0x080A c)) hctr
    exact hread.trans (counter_clearDomain s (id := 0x080A) (by decide) hc)

/-- The stages of a load that differ from the declared ones are counted (R172). -/
theorem countLoadStages_rows {s : State} {c : Nat} {k : Course} (ds : List Nat) (hzero : s.counter 0x080A c = {}) :
    let t := s.countLoadStages c k ds
    t.course c = some { k with dist := ds } ∧ (∀ i, i ≠ c → t.course i = s.course i) ∧ t.counter 0x080A c = ({} : Counter).plus (stageDiff ds k.stages)
      ∧ (stageDiff ds k.stages = 0 → t.log = s.log) ∧ t = { s with crs.courses := t.crs.courses, ctr := t.ctr, log := t.log } := by
  unfold State.countLoadStages
  dsimp only
  have hself := course_setCourse_self s c { k with dist := ds }
  have hne (i : Nat) (hi : i ≠ c) := course_setCourse_ne s hi { k with dist := ds }
  by_cases hn : stageDiff ds k.stages = 0
  · rw [if_pos hn, hn, plus_zero]
    exact ⟨hself, hne, hzero, fun _ => rfl, rfl⟩
  · rw [if_neg hn]
    generalize hcnt : State.count _ _ _ _ = t
    obtain ⟨⟨x, l, he⟩, hcounter⟩ := eq_of_count hcnt
    have hz : (s.setCourse c { k with dist := ds }).counter 0x080A c = {} := hzero
    rw [hz] at hcounter
    rw [he] at hcounter ⊢
    exact ⟨hself, hne, hcounter, fun h => absurd h hn, rfl⟩

@[simp] theorem Hdr.of_bib (c : Hdr) (op : Nat) : (c.of op).bib = c.bib := rfl

@[simp] theorem Hdr.of_slot (c : Hdr) (op : Nat) : (c.of op).slot = c.slot := rfl

/-- What an accepted command does, from the state that its intake leaves. -/
theorem command_started {s : State} {op : Nat} {c : Hdr} (ha : s.accepts op c) {k : State → Hdr → State} {P : State → Prop} {u : State}
    (hk : k (s.started op c) (c.of op) = u) (h : P u) : ∃ t, s.command op c k = .next t ∧ P t := ⟨u, (command_of_accepts ha k).trans (congrArg Host.Outcome.next hk), h⟩

/-- A course's image in T2 and an empty slot: LOAD goes on to the image's checks (R173). -/
theorem loadable {u : State} {b : BitVec 12} {va n slot : Nat} (hslot : u.course slot = none) (hroom : u.crs.courses.length < 256)
    (htier : ∀ p ∈ pagesOf va n, (u.pte b p).tier = 2) :
    (pagesOf va n).all (fun p => (u.pte b p).tier = 2) = true ∧ ¬((u.course slot).isSome = true ∨ 256 ≤ u.crs.courses.length) := by
  refine ⟨by simpa using htier, ?_⟩
  rw [hslot]
  simpa using hroom

/-- An image whose checks pass (R172, R173). -/
theorem load_of_good {s : State} {c : Hdr} {va : BitVec 48} {len : BitVec 32} {ok : Bool} {u : State} {f : List Byte} {k : Course} {scales : List Nat}
    (hu : s.started 0x0201 c = u) (hf : u.vaRead c.bib va.toNat len.toNat = f) (hk : fileCourse f c.bib (u.jobM c.bib) = k)
    (hs : sectionRecs f (fileSections f) 0x08 = scales) {P : State → Prop}
    (ha : s.accepts 0x0201 c) (hva : u.vaFault c.bib va.toNat len.toNat false = none)
    (htier : ∀ p ∈ pagesOf va.toNat len.toNat, (u.pte c.bib p).tier = 2) (hslot : u.course c.slot.toNat = none) (hroom : u.crs.courses.length < 256)
    (hfault : u.loadFault f len.toNat k ok = none)
    (hquota : ((u.chargeHeaders (u.install c.slot.toNat k scales) c.bib).bib c.bib).t2Used
      ≤ ((u.chargeHeaders (u.install c.slot.toNat k scales) c.bib).bib c.bib).args.t2Quota.toNat)
    (h : P (((u.chargeHeaders (u.install c.slot.toNat k scales) c.bib).countLoadStages c.slot.toNat (u.resident k) (u.loadDistances k)).replyWith
      (c.of 0x0201) (.distances (u.loadDistances k)))) : ∃ t, execLoad c va len ok s = .next t ∧ P t := by
  obtain ⟨hall, hfull⟩ := loadable hslot hroom htier
  have hcourse := (loaded_rows u (c := c.slot.toNat) (lt_trans c.slot.isLt (by decide)) k scales c.bib).1
  refine command_started ha ?_ h
  simp only [hu, hva, hall, hf, hk, hs, hfault, hcourse, if_neg hfull, if_neg (Nat.not_lt.mpr hquota), Bool.not_true, Bool.false_eq_true,
    if_false]

/-- An image that fails a check takes nothing (R173). -/
theorem load_of_fault {s : State} {c : Hdr} {va : BitVec 48} {len : BitVec 32} {ok : Bool} {u : State} {f : List Byte} {k : Course} {st : Status}
    (hu : s.started 0x0201 c = u) (hf : u.vaRead c.bib va.toNat len.toNat = f) (hk : fileCourse f c.bib (u.jobM c.bib) = k)
    (ha : s.accepts 0x0201 c) (hva : u.vaFault c.bib va.toNat len.toNat false = none)
    (htier : ∀ p ∈ pagesOf va.toNat len.toNat, (u.pte c.bib p).tier = 2) (hslot : u.course c.slot.toNat = none) (hroom : u.crs.courses.length < 256)
    (hfault : u.loadFault f len.toNat k ok = some st) : ∃ t, execLoad c va len ok s = .next t ∧ t.replied 0x0201 c st ∧ t = { s with cmd := t.cmd } := by
  obtain ⟨hall, hfull⟩ := loadable hslot hroom htier
  obtain ⟨o, n, x, he, hr⟩ := replyAs_answered_eq u 0x0201 c st true 0 .none
  refine command_started ha (u := u.reply (c.of 0x0201) st) ?_ ?_
  · simp only [hu, hva, hall, hf, hk, hfault, if_neg hfull, Bool.not_true, Bool.false_eq_true, if_false]
  · rw [State.reply, he]
    refine ⟨hr, ?_⟩
    rw [← hu, started_frame s 0x0201 c]

/-- What an accepted load answers and leaves (R172, R173). -/
theorem loadAnswer_rows {s u t : State} {c : Hdr} {k : Course} (ds : List Nat) (hbase : u = { s with cmd := u.cmd })
    (hothers : ∀ i, i ≠ c.slot.toNat → t.course i = u.course i)
    (hzero : t.counter 0x080A c.slot.toNat = {}) (hlog : t.log = u.log) (hbytes : t.mem.bytes = u.mem.bytes) (hptes : t.mem.ptes = u.mem.ptes)
    (hrink : t.rink = u.rink) :
    let v := (t.countLoadStages c.slot.toNat (u.resident k) ds).replyWith (c.of 0x0201) (.distances ds)
    (∃ x, v.course c.slot.toNat = some x ∧ x.bib = k.bib ∧ x.digest = k.digest ∧ x.gateMap = u.freeGates (chGates k.hdr))
        ∧ (∀ i, i ≠ c.slot.toNat → v.course i = s.course i) ∧ v.answered 0x0201 c .ok true (.distances ds)
        ∧ v.counter 0x080A c.slot.toNat = ({} : Counter).plus (stageDiff ds k.stages) ∧ (stageDiff ds k.stages = 0 → v.log = s.log)
        ∧ v.mem.bytes = s.mem.bytes ∧ v.mem.ptes = s.mem.ptes ∧ v.rink = s.rink := by
  obtain ⟨a, b, hres⟩ := patched_eq u { k with gateMap := u.freeGates (chGates k.hdr), hdrBase := k.bases } (chSDecl k.hdr)
  have hr : u.resident k = { k with gateMap := u.freeGates (chGates k.hdr), hdrBase := k.bases, segs := a, uses := b } := hres
  obtain ⟨hself, hne, hcounter, hcountlog, he⟩ := countLoadStages_rows (k := u.resident k) ds hzero
  generalize t.countLoadStages c.slot.toNat (u.resident k) ds = w at *
  obtain ⟨o, n, x, hreply, hans⟩ := replyAs_answered_eq w 0x0201 c .ok true 0 (.distances ds)
  intro v
  have hv : v = { w with cmd := { w.cmd with outbox := o, sent := n, kept := x } } := hreply
  rw [hv]
  refine ⟨⟨_, hself, ?_, ?_, ?_⟩, fun i hi => ?_, hans, ?_, fun hd => ?_, ?_, ?_, ?_⟩
  · rw [hr]
  · rw [hr]
  · rw [hr]
  · exact (hne i hi).trans ((hothers i hi).trans ((congrArg (fun x : State => x.course i) hbase).trans rfl))
  · rw [hr] at hcounter
    exact hcounter
  · rw [hr] at hcountlog
    exact (hcountlog hd).trans (hlog.trans ((congrArg State.log hbase).trans rfl))
  · exact (congrArg (fun x : State => x.mem.bytes) he).trans (hbytes.trans ((congrArg (fun x : State => x.mem.bytes) hbase).trans rfl))
  · exact (congrArg (fun x : State => x.mem.ptes) he).trans (hptes.trans ((congrArg (fun x : State => x.mem.ptes) hbase).trans rfl))
  · exact (congrArg (fun x : State => x.rink) he).trans (hrink.trans ((congrArg (fun x : State => x.rink) hbase).trans rfl))

/-- Settles O14. -/
theorem courseCommandRows : Obligations.CourseCommandRows := by
  simp only [Obligations.CourseCommandRows, Answers, exec]
  refine ⟨fun s c va len ok ha hva htier hslot hroom hfault hquota => ?loaded, fun s c va len ok st ha hva htier hslot hroom hfault => ?refused,
    fun s c k table ha hk hb hlen => ?freeze, fun s c k prog ks ha hk hb hp hks => ?consts, fun s c k lim ha hk hb => ?limit⟩
  case loaded =>
    refine load_of_good rfl rfl rfl rfl ha hva htier hslot hroom hfault hquota ?_
    obtain ⟨-, hothers, hzero, hlog, hbytes, hptes, hrink⟩ := loaded_rows (s.started 0x0201 c) (c := c.slot.toNat) (lt_trans c.slot.isLt (by decide)) _ _ c.bib
    exact loadAnswer_rows _ (started_frame s 0x0201 c) hothers hzero hlog hbytes hptes hrink
  case refused =>
    exact load_of_fault rfl rfl rfl ha hva htier hslot hroom hfault
  case freeze =>
    refine command_replies ha (u := fun i e => { s.taken i e with upd.freezeNext := s.upd.freezeNext.insert c.slot.toNat table }) (st := .ok)
      (fun i e => ?_) fun i e o n x hr => ⟨Table.lookup_insert_self .., rfl, hr, rfl⟩
    rw [onCourse_of_own (s := s.taken i e) (c := c.of 0x0205) hk hb, if_neg (not_not.mpr hlen)]
  case consts =>
    refine command_replies ha (u := fun i e => { s.taken i e with upd.constsNext := s.upd.constsNext ++ [(c.slot, prog.toNat, ks.map BitVec.toNat)] }) (st := .ok)
      (fun i e => ?_) fun i e o n x hr => ⟨rfl, hr, rfl⟩
    rw [onCourse_of_own (s := s.taken i e) (c := c.of 0x0206) hk hb, if_neg (by omega)]
  case limit =>
    refine command_replies ha (u := fun i e => (s.taken i e).setHold c.slot.toNat { s.hold c.slot.toNat with limit := if lim = 0 then 1 else lim }) (st := .ok)
      (fun i e => onCourse_of_own (s := s.taken i e) (c := c.of 0x0207) hk hb _) fun i e o n x hr => ⟨?_, hr, rfl⟩
    exact hold_setHold_self s c.slot.toNat { s.hold c.slot.toNat with limit := if lim = 0 then 1 else lim }

end Machine
end Sys2Proof

/-! SUPPORT. What the lodge's statistics leave, dead dies; the lodge's units (O45). -/

namespace Sys2Proof
namespace Machine

theorem each_invariant {α : Type} {P : State → Prop} {f : State → α → State} (h : ∀ s a, P s → P (f s a)) (l : List α) {s : State} (hs : P s) :
    P (s.each l f) := by
  induction l generalizing s with
  | nil => exact hs
  | cons a l ih => exact ih (h s a hs)

theorem grp_setGrp_self (s : State) (g : Nat) (x : Grp) : (s.setGrp g x).grp g = x := Table.read_write_self ..

/-! ## The lodge's statistics -/

/-- From `s` to `t` only the lodge's statistics and the log differ: its map, tags, groups, ladder, pages and dead dies stand, and no event is lost. -/
structure Tallies (s t : State) : Prop where
  only : t = { s with lodge := t.lodge, log := t.log }
  map : t.lodge.map = s.lodge.map
  tags : t.lodge.tags = s.lodge.tags
  grps : t.lodge.grps = s.lodge.grps
  ladder : t.lodge.ladder = s.lodge.ladder
  seq : t.lodge.seq = s.lodge.seq
  lost : t.lodge.stat.lost = s.lodge.stat.lost
  lostCh : t.lodge.stat.lostCh = s.lodge.stat.lostCh
  dead : ∀ c, (t.lodgeCh c).dead = (s.lodgeCh c).dead
  flight : ∀ e ∈ s.log.flight, e ∈ t.log.flight

theorem Tallies.trans {s t u : State} (h : Tallies s t) (h' : Tallies t u) : Tallies s u where
  only := Eq.trans h'.only (congrArg (fun x : State => { x with lodge := u.lodge, log := u.log }) h.only)
  map := h'.map.trans h.map
  tags := h'.tags.trans h.tags
  grps := h'.grps.trans h.grps
  ladder := h'.ladder.trans h.ladder
  seq := h'.seq.trans h.seq
  lost := h'.lost.trans h.lost
  lostCh := h'.lostCh.trans h.lostCh
  dead c := (h'.dead c).trans (h.dead c)
  flight e he := h'.flight e (h.flight e he)

theorem Tallies.refl (s : State) : Tallies s s := ⟨rfl, rfl, rfl, rfl, rfl, rfl, rfl, rfl, fun _ => rfl, fun _ he => he⟩

theorem Tallies.grp {s t : State} (h : Tallies s t) (g : Nat) : t.grp g = s.grp g := congrArg (fun x : Table Grp => x.read ({} : Grp) g) h.grps

theorem Tallies.dieDead {s t : State} (h : Tallies s t) (c d : Nat) : t.dieDead c d = s.dieDead c d := congrArg (BitVec.getLsbD · d) (h.dead c)

theorem makeReadOnly_tallies (s : State) : Tallies s s.makeReadOnly := by
  unfold State.makeReadOnly
  split
  · exact .refl s
  · exact ⟨rfl, rfl, rfl, rfl, rfl, rfl, rfl, rfl, fun _ => rfl, fun _ he => List.mem_append_left _ he⟩

theorem lodgeStat_tallies (s : State) : Tallies s s.lodgeStat := by
  unfold State.lodgeStat
  extract_lets pct dies wear left st stat' ch t lodge t1
  have ht : Tallies s t := by
    refine each_invariant (fun u c hu => .trans hu ⟨rfl, rfl, rfl, rfl, rfl, rfl, rfl, rfl, fun i => ?_, fun _ he => he⟩) _ (.refl s)
    have hread := Table.read_write ({} : LodgeCh) u.lodge.chs c i (ch c)
    rw [State.lodgeCh]
    dsimp only
    rw [hread]
    split_ifs with hc
    · exact hc ▸ (hu.dead c).symm
    · rfl
  have ht1 : Tallies s t1 := ht.trans ⟨rfl, rfl, rfl, rfl, rfl, rfl, ht.lost.symm, ht.lostCh.symm, fun _ => rfl, fun _ he => he⟩
  split_ifs
  exacts [ht1.trans (makeReadOnly_tallies t1), ht1]

/-! ## Dead dies -/

theorem getLsbD_bit16 {die : Nat} (hdie : die < 16) (d : Nat) : (BitVec.ofNat 16 (2 ^ die)).getLsbD d = decide (d = die) := by
  rw [BitVec.getLsbD_ofNat, Nat.testBit_two_pow]
  by_cases h : d = die <;> simp [h, hdie, Ne.symm]

/-- A die marked dead while no unit stands on it (R235). -/
theorem killDie_of_empty {s : State} (hmap : s.lodge.map = []) (hro : s.lodgeReadOnly = false) (ch die : Nat) :
    ∃ b, s.killDie ch die = { s with
      lodge.chs := s.lodge.chs.write {} ch { s.lodgeCh ch with dead := (s.lodgeCh ch).dead ||| BitVec.ofNat 16 (2 ^ die) }
      lodge.toBuild := b, lodge.stat := { s.lodge.stat with state := 2 } } := by
  have hothers : (List.range 16).filter (fun c => c ≠ ch && s.dieDead c die
      && s.lodge.map.any (fun _ p => decide (p.ch.toNat = c ∧ p.die.toNat = die))) = [] :=
    List.filter_eq_nil_iff.mpr fun c _ => by rw [hmap]; simp [Table.any]
  unfold State.killDie
  dsimp only
  rw [hothers, if_pos rfl, State.each, List.foldl_nil]
  split_ifs with h
  · exact absurd (hro.symm.trans h) (by decide)
  · exact ⟨_, rfl⟩

theorem dieDead_killDie {s : State} (hmap : s.lodge.map = []) (hro : s.lodgeReadOnly = false) (ch : Nat) {die : Nat} (hdie : die < 16) (d : Nat) :
    (s.killDie ch die).dieDead ch d = (s.dieDead ch d || decide (d = die)) := by
  obtain ⟨b, he⟩ := killDie_of_empty hmap hro ch die
  have hch : (s.killDie ch die).lodgeCh ch = { s.lodgeCh ch with dead := (s.lodgeCh ch).dead ||| BitVec.ofNat 16 (2 ^ die) } := by
    rw [he]
    exact Table.read_write_self ..
  rw [State.dieDead, hch]
  dsimp only
  rw [BitVec.getLsbD_or, getLsbD_bit16 hdie, State.dieDead]

/-- From `s` to `t` only the lodge's channels and statistics differ, nothing is mapped and the lodge still takes writes. -/
structure KillsDies (s t : State) : Prop where
  only : t = { s with lodge := t.lodge }
  map : t.lodge.map = []
  open_ : t.lodgeReadOnly = false
  lost : t.lodge.stat.lost = s.lodge.stat.lost

/-- Every die of a list is dead after them, and those that were stay so. -/
theorem each_killDie_rows {s : State} (hmap : s.lodge.map = []) (hro : s.lodgeReadOnly = false) (ch : Nat) (l : List Nat) (hl : ∀ d ∈ l, d < 16) :
    KillsDies s (s.each l (fun t d => t.killDie ch d))
      ∧ ∀ d, (s.each l (fun t d => t.killDie ch d)).dieDead ch d = (s.dieDead ch d || decide (d ∈ l)) := by
  induction l generalizing s with
  | nil => exact ⟨⟨rfl, hmap, hro, rfl⟩, fun d => by simp [State.each]⟩
  | cons a l ih =>
    have ha := hl a (List.mem_cons_self ..)
    have hdead := dieDead_killDie hmap hro ch ha
    obtain ⟨b, he⟩ := killDie_of_empty hmap hro ch a
    obtain ⟨hk, hdies⟩ := ih (s := s.killDie ch a) (by rw [he]; exact hmap) (by rw [he]; rfl) fun d hd => hl d (List.mem_cons_of_mem _ hd)
    refine ⟨⟨Eq.trans hk.only ?_, hk.map, hk.open_, hk.lost.trans ?_⟩, fun d => (hdies d).trans ?_⟩
    · exact (congrArg (fun x : State => { x with lodge := (State.each (s.killDie ch a) l (fun t d => t.killDie ch d)).lodge }) he).trans rfl
    · rw [he]
    · rw [hdead d, Bool.or_assoc]
      congr 1
      simp [Bool.decide_or]

/-! ## A unit's read -/

/-- The group of a unit after one more read of it, short of its limit (R233, Table 11.6). -/
def Grp.afterRead (g : Grp) : Grp := { g with reads := g.reads + 1, sample := g.sample || decide (g.reads + 1 = 60000) }

/-- The state after one more read of a group. -/
def State.countRead (s : State) (g : Nat) : State :=
  let s0 := s.setGrp g { s.grp g with reads := (s.grp g).reads + 1 }
  let n := (s0.grp g).reads
  if 100000 ≤ n then s0.refreshDue g else if n = 60000 then s0.setGrp g { s0.grp g with sample := true } else s0

theorem countRead_eq (s : State) (g : Nat) : ∃ x, s.countRead g = { s with lodge.grps := x } := by
  unfold State.countRead
  dsimp only
  split_ifs <;> exact ⟨_, rfl⟩

theorem countRead_grp {s : State} {g : Nat} (h : (s.grp g).reads + 1 < 100000) : (s.countRead g).grp g = (s.grp g).afterRead := by
  unfold State.countRead Grp.afterRead
  dsimp only
  rw [grp_setGrp_self, if_neg (by dsimp only; omega)]
  dsimp only
  by_cases hn : (s.grp g).reads + 1 = 60000
  · rw [if_pos hn, grp_setGrp_self, hn]
    simp
  · rw [if_neg hn, grp_setGrp_self, decide_eq_false hn, Bool.or_false]

theorem countRead_grp_of_limit {s : State} {g : Nat} (h : 99999 ≤ (s.grp g).reads) :
    ((s.countRead g).grp g).refresh = true ∧ ((s.countRead g).grp g).reads = (s.grp g).reads + 1 := by
  unfold State.countRead State.refreshDue
  dsimp only
  rw [grp_setGrp_self, if_pos (by dsimp only; omega), grp_setGrp_self]
  exact ⟨rfl, rfl⟩

/-- A read that is not yet decoded climbs the ladder (R234, Table 11.5). -/
theorem ladder_rows (s : State) (p : LodgePlace) (next : Nat) (id n : Nat) :
    let t := State.count { s.countRead (grpOf p) with lodge.ladder := (s.countRead (grpOf p)).lodge.ladder.insert (placeKey p) next } id 0 n
    t.lodge.ladder.lookup (placeKey p) = some next ∧ t.grp (grpOf p) = (s.countRead (grpOf p)).grp (grpOf p) ∧ t.lodge.map = s.lodge.map
      ∧ t = { s with lodge := t.lodge, ctr := t.ctr, log := t.log } := by
  obtain ⟨x, hx⟩ := countRead_eq s (grpOf p)
  intro t
  obtain ⟨c, l, he⟩ : ∃ c l, t = { s.countRead (grpOf p) with
    lodge.ladder := (s.countRead (grpOf p)).lodge.ladder.insert (placeKey p) next, ctr := c, log := l } := count_eq _ id 0 n
  rw [he]
  refine ⟨Table.lookup_insert_self .., rfl, ?_, ?_⟩
  · rw [hx]
  · rw [hx]

/-- A read that has been decoded ends, whatever page operation waited for it (R234). -/
theorem decoded_rows {s : State} {p : LodgePlace} (hreads : (s.grp (grpOf p)).reads + 1 < 100000) (pages : Table PageOp) :
    let t := State.lodgeStat { s.countRead (grpOf p) with lodge.ladder := (s.countRead (grpOf p)).lodge.ladder.remove (placeKey p), lodge.pages := pages }
    t.lodge.ladder = s.lodge.ladder.remove (placeKey p) ∧ (t.grp (grpOf p)).state = (s.grp (grpOf p)).state ∧ t.lodge.map = s.lodge.map
      ∧ t = { s with lodge := t.lodge, log := t.log } := by
  intro t
  obtain ⟨x, hx⟩ := countRead_eq s (grpOf p)
  have h : Tallies { s.countRead (grpOf p) with lodge.ladder := (s.countRead (grpOf p)).lodge.ladder.remove (placeKey p), lodge.pages := pages } t :=
    lodgeStat_tallies _
  have hgrp : t.grp (grpOf p) = (s.grp (grpOf p)).afterRead := (h.grp _).trans (countRead_grp hreads)
  refine ⟨h.ladder.trans ?_, ?_, h.map.trans ?_, h.only.trans ?_⟩
  · rw [hx]
  · rw [hgrp]
    rfl
  · rw [hx]
  · rw [hx]

theorem readDone_of_decoded {s : State} {p : LodgePlace} (hup : s.up = true) (htag : s.lodge.tags.has (placeKey p) = true)
    (hladder : s.lodge.ladder.read 1 (placeKey p) < 3) (hreads : (s.grp (grpOf p)).reads + 1 < 100000) :
    ∃ t, execLodgeUnitReadDone p true s = .next t ∧ t.lodge.ladder = s.lodge.ladder.remove (placeKey p) ∧ (t.grp (grpOf p)).state = (s.grp (grpOf p)).state
      ∧ t.lodge.map = s.lodge.map ∧ t = { s with lodge := t.lodge, log := t.log } := by
  refine event_answers hup ?_
  rw [if_neg (by simp [htag])]
  dsimp only
  rw [if_pos rfl, if_neg (show ¬s.lodge.ladder.read 1 (placeKey p) = 3 by omega), if_neg (show ¬s.lodge.ladder.read 1 (placeKey p) = 4 by omega)]
  have hrows := decoded_rows (s := s) (p := p) hreads
  generalize hfold : s.countRead (grpOf p) = u at hrows
  have hsame : @ite State (100000 ≤ _) _ _ _ = u := hfold
  rw [hsame]
  split
  · exact hrows _
  · exact hrows _

/-! ## A stripe -/

/-- A unit of data of a logical unit that has none yet is mapped where it stands (R230). -/
theorem reach_of_new {s : State} {u : LodgePlace × UnitTag × Option LodgePlace} (hcls : u.2.1.cls = 2) (hold : u.2.2 = none) (hprot : u.2.1.prot = false)
    (hlun : u.2.1.lun.toNat < lodgeUnits) (hnew : s.lodge.map.lookup u.2.1.lun.toNat = none) :
    s.reach u = { s with
      lodge.tags := s.lodge.tags.insert (placeKey u.1) u.2.1, lodge.seq := if s.lodge.seq.toNat < u.2.1.seq.toNat then u.2.1.seq else s.lodge.seq
      lodge.map := s.lodge.map.insert u.2.1.lun.toNat u.1 } := by
  unfold State.reach
  dsimp only
  have hdata : (!(decide (u.2.1.cls = 1) || decide (u.2.1.cls = 2) || decide (u.2.1.cls = 7)) || decide (lodgeUnits ≤ u.2.1.lun.toNat)) = false := by
    rw [hcls, decide_eq_false (p := lodgeUnits ≤ _) (by omega)]
    rfl
  rw [hdata, if_neg Bool.false_ne_true, hold]
  dsimp only
  rw [hnew, hprot]
  rfl

theorem seq_le_reached (a b : BitVec 64) : a.toNat ≤ (if a.toNat < b.toNat then b else a).toNat := by
  split_ifs with h
  · exact h.le
  · exact le_rfl

theorem retire_rows {s : State} {g : Nat} (h : (s.grp g).state ≠ .retired) :
    ((s.retire g).grp g).state = .retired ∧ (s.retire g).counter 0x0604 0 = (s.counter 0x0604 0).plus 1
      ∧ ∃ x c l, s.retire g = { s with lodge.grps := x, ctr := c, log := l } := by
  rw [State.retire, if_neg h]
  generalize hc : State.count _ _ _ _ = t
  obtain ⟨⟨c, l, he⟩, hcount⟩ := eq_of_count hc
  refine ⟨?_, hcount, _, c, l, he⟩
  rw [he]
  exact congrArg Grp.state (grp_setGrp_self s g { s.grp g with state := .retired })

theorem stripeUnit_iff {s : State} {blk : BitVec 11} {wl : BitVec 9} {die : BitVec 4} {u : LodgePlace × UnitTag × Option LodgePlace}
    (h : s.stripeUnit blk wl die u = true) : u.1.blk = blk ∧ u.1.wl = wl ∧ u.1.die = die ∧ s.onDead u.1 = false ∧ s.lodge.tags.has (placeKey u.1) = false
      ∧ (s.lodge.stat.lost = true ∨ (u.2.1.cls = 3 ↔ u.1.ch.toNat = parityCh blk.toNat wl.toNat die.toNat)) := by
  simp only [State.stripeUnit, Bool.and_eq_true, Bool.or_eq_true, Bool.not_eq_true', decide_eq_true_eq, eq_iff_iff] at h
  tauto

/-- Settles O45. -/
theorem lodgeUnitRows : Obligations.LodgeUnitRows := by
  simp only [Obligations.LodgeUnitRows, Answers, exec]
  refine ⟨fun s p hup hno ok => event_idle s ?unread, fun s p hup htag hladder hreads => ?climbs, fun s p hup htag hreads hladder => ?limit,
    fun s p hup htag hladder hreads => ?decoded,
    fun s blk wl die u hup hro hu hcls hold hprot hlun hnew => ?programmed, fun s blk wl die c units hup hro hall hstate => ?failed,
    fun s blk wl die f units hup hro => event_idle s ?readOnly, fun s blk wl die f units u hup hu hbad => event_idle s ?foreign,
    fun s ch die blk hup hbusy hbad hretired => ?erased, fun s ch die blk ok hup hbusy => event_idle s ?busy, fun s ch die low high hup hwear => ?wear,
    fun s ch die blk worst age hup hworst hdue => ?scan, fun s ch die hup hdead => event_idle s ?dead, fun s ch die hup hdead hmap hro => ?dieDead,
    fun s ch hup hlost hmap hro => ?channel⟩
  case unread => rw [if_pos (by simp [hno])]
  case climbs =>
    refine event_answers hup ?_
    rw [if_neg (by simp [htag])]
    dsimp only
    rw [if_neg (by decide), if_neg (by omega)]
    have h := ladder_rows s p (if s.onDead p = true then 4 else s.lodge.ladder.read 1 (placeKey p) + 1)
      (if (if s.onDead p = true then 4 else s.lodge.ladder.read 1 (placeKey p) + 1) = 2 then 0x0600
        else if (if s.onDead p = true then 4 else s.lodge.ladder.read 1 (placeKey p) + 1) = 3 then 0x0601 else 0x0602) 1
    rw [countRead_grp hreads] at h
    exact h
  case limit =>
    refine event_answers hup ?_
    rw [if_neg (by simp [htag])]
    dsimp only
    rw [if_neg (by decide), if_neg (by omega)]
    obtain ⟨-, hgrp, -, -⟩ := ladder_rows s p (if s.onDead p = true then 4 else s.lodge.ladder.read 1 (placeKey p) + 1)
      (if (if s.onDead p = true then 4 else s.lodge.ladder.read 1 (placeKey p) + 1) = 2 then 0x0600
        else if (if s.onDead p = true then 4 else s.lodge.ladder.read 1 (placeKey p) + 1) = 3 then 0x0601 else 0x0602) 1
    have h := countRead_grp_of_limit (g := grpOf p) hreads
    rw [← hgrp] at h
    exact h
  case decoded => exact readDone_of_decoded hup htag hladder hreads
  case programmed =>
    refine event_answers hup ?_
    dsimp only
    rw [if_neg (by simp [hro, hu])]
    simp only [State.each, List.foldl_cons, List.foldl_nil, reach_of_new hcls hold hprot hlun hnew]
    generalize ht : State.lodgeStat _ = t
    have h := ht ▸ lodgeStat_tallies _
    refine ⟨h.map, h.tags, ?_, ?_, h.only⟩
    · rw [h.grp]
      exact congrArg Grp.written (grp_setGrp_self ..)
    · rw [h.seq]
      exact seq_le_reached ..
  case failed =>
    refine event_answers hup ?_
    have hunits : units.all (s.stripeUnit blk wl die) = true := List.all_eq_true.mpr hall
    dsimp only
    rw [if_neg (by simp [hro, hunits])]
    obtain ⟨hgrp, hcount, x, c', l, he⟩ := retire_rows hstate
    have h := lodgeStat_tallies (s.retire (grpKey c.toNat die.toNat blk.toNat))
    generalize State.lodgeStat _ = t at h ⊢
    refine ⟨by rw [h.grp, hgrp], h.map.trans ?_, h.tags.trans ?_, ?_, h.only.trans ?_⟩
    · rw [he]
    · rw [he]
    · rw [← hcount]
      exact (congrArg (fun x : State => x.counter 0x0604 0) h.only).trans rfl
    · have hctr : t.ctr = c' := (congrArg State.ctr h.only).trans ((congrArg State.ctr he).trans rfl)
      rw [he, hctr]
  case readOnly =>
    dsimp only
    rw [if_pos (by simp [hro])]
  case foreign =>
    dsimp only
    refine if_pos ?_
    have hnot : units.all (s.stripeUnit blk wl die) = false := List.all_eq_false.mpr ⟨u, hu, fun hs => ?_⟩
    · rw [hnot]
      simp
    · obtain ⟨hblk, hwl, hdie, hdead, htag, hpar⟩ := stripeUnit_iff hs
      rcases hbad with h | h | h | h | h | ⟨h, h'⟩
      · exact h hblk
      · exact h hwl
      · exact h hdie
      · exact absurd (hdead.symm.trans h) (by decide)
      · exact absurd (htag.symm.trans h) (by decide)
      · rcases hpar with hp | hp
        · exact absurd (h.symm.trans hp) (by decide)
        · tauto
  case erased =>
    refine event_answers hup ?_
    dsimp only
    rw [if_neg (by simp [hbusy, hbad, hretired]), if_pos rfl]
    generalize ht : State.lodgeStat _ = t
    have h := ht ▸ lodgeStat_tallies _
    have hgrp := (h.grp (grpKey ch.toNat die.toNat blk.toNat)).trans (grp_setGrp_self ..)
    rw [hgrp]
    exact ⟨rfl, rfl, rfl, h.map, h.only⟩
  case busy =>
    dsimp only
    rw [if_pos (by simp [hbusy])]
  case wear =>
    refine event_answers hup ?_
    dsimp only
    rw [if_pos hwear]
    exact ⟨grp_setGrp_self .., rfl⟩
  case scan =>
    refine event_answers hup ?_
    dsimp only
    rw [if_neg (by simp; omega), if_pos hdue]
    refine ⟨(grp_setGrp_self ..).trans ?_, rfl⟩
    rw [grp_setGrp_self]
  case dead => rw [if_pos hdead]
  case dieDead =>
    refine event_answers hup ?_
    rw [if_neg (by simp [hdead])]
    have hdies := dieDead_killDie hmap hro ch.toNat die.isLt
    obtain ⟨b, he⟩ := killDie_of_empty hmap hro ch.toNat die.toNat
    generalize ht : State.lodgeStat _ = t
    have h := ht ▸ lodgeStat_tallies _
    refine ⟨?_, fun d hd => ?_, ⟨_, h.flight _ (List.mem_append_right _ (List.mem_singleton_self _)), rfl⟩, h.only.trans ?_⟩
    · refine (h.dieDead _ _).trans ((hdies die.toNat).trans ?_)
      simp
    · refine (h.dieDead _ _).trans ((hdies d).trans ?_)
      simp [hd]
    · rw [he]
      rfl
  case channel =>
    refine event_answers hup ?_
    dsimp only
    rw [if_neg (by simp [hlost]), hlost, if_neg (by decide)]
    obtain ⟨hk, hdies⟩ := each_killDie_rows hmap hro ch.toNat ((List.range 16).filter (fun d => !s.dieDead ch.toNat d))
      (fun d hd => List.mem_range.mp (List.mem_filter.mp hd).1)
    generalize State.each s _ _ = u at hk hdies ⊢
    generalize ht : State.lodgeStat _ = t
    have h := ht ▸ lodgeStat_tallies _
    refine ⟨h.lost, h.lostCh, fun d hd => (h.dieDead _ _).trans ((hdies d).trans ?_),
      ⟨_, h.flight _ (List.mem_append_right _ (List.mem_singleton_self _)), rfl⟩, h.only.trans ?_⟩
    · cases hdead : s.dieDead ch.toNat d <;> simp [hdead, hd]
    · rw [hk.only]
      rfl

end Machine
end Sys2Proof

/-! SUPPORT. Samples collected, scale records at a step's end, verdict exchanges; the verdicts' rows (O36). -/

namespace Sys2Proof
namespace Machine

/-! ## Samples and scale records -/

/-- Only the sweeps' samples and windows and what they count differ (R110). -/
def Samples (s t : State) : Prop :=
  t = { s with crs.samples := t.crs.samples, crs.sweeps := t.crs.sweeps, crs.diverged := t.crs.diverged, ctr := t.ctr, log := t.log }

theorem Samples.refl (s : State) : Samples s s := rfl

theorem Samples.trans {s t u : State} (h : Samples s t) (h' : Samples t u) : Samples s u :=
  Eq.trans h' (congrArg (fun x : State => { x with
    crs.samples := u.crs.samples, crs.sweeps := u.crs.sweeps, crs.diverged := u.crs.diverged, ctr := u.ctr, log := u.log }) h)

theorem count_samples (s : State) (id inst n : Nat) : Samples s (s.count id inst n) := by
  obtain ⟨x, l, h⟩ := count_eq s id inst n
  rw [h]
  rfl

theorem sample_samples (s : State) (x : SweepSample) : Samples s (s.sample x) := by
  have hcount : Samples s (if x.exceeded = true then (s.count 0x0814 x.slot.toNat 1).count (if x.high = true then 0x0815 else 0x0816) x.slot.toNat 1
      else s.count 0x0814 x.slot.toNat 1) := by
    split
    · exact .trans (count_samples ..) (count_samples ..)
    · exact count_samples ..
  unfold State.sample
  dsimp only
  generalize (if x.exceeded = true then _ else _ : State) = u at hcount ⊢
  split_ifs <;> exact .trans hcount rfl

theorem collect_samples (s : State) (slot step : Nat) : Samples s (s.collect slot step) := by
  refine .trans (t := { s with crs.samples := _ }) rfl (each_rel (R := Samples) .refl .trans (fun t x => ?_) _ _)
  exact sample_samples t x

/-- Only scale records and what their updates count differ (R102). -/
def Rescales (s t : State) : Prop :=
  t = { s with crs.scales := t.crs.scales, crs.writes := t.crs.writes, crs.diverged := t.crs.diverged, ctr := t.ctr, log := t.log }
    ∧ ∀ id inst, id < 0x0B00 → inst < 65536 → t.counter id inst = s.counter id inst

theorem Rescales.refl (s : State) : Rescales s s := ⟨rfl, fun _ _ _ _ => rfl⟩

theorem Rescales.trans {s t u : State} (h : Rescales s t) (h' : Rescales t u) : Rescales s u :=
  ⟨Eq.trans h'.1 (congrArg (fun x : State => { x with
    crs.scales := u.crs.scales, crs.writes := u.crs.writes, crs.diverged := u.crs.diverged, ctr := u.ctr, log := u.log }) h.1),
    fun id inst hid hinst => (h'.2 id inst hid hinst).trans (h.2 id inst hid hinst)⟩

theorem count_rescales (s : State) (inst n : Nat) : Rescales s (s.count 0x0B00 inst n) := by
  obtain ⟨x, l, he⟩ := count_eq s 0x0B00 inst n
  refine ⟨by rw [he], fun id' inst' hid hinst => count_counter_ne s (fun h => ?_) n⟩
  unfold ctrKey at h
  omega

theorem endScales_rescales (s : State) (slot : Nat) (clean : Nat → Bool) : Rescales s (s.endScales slot clean) := by
  refine .trans (each_rel (R := Rescales) .refl .trans (fun t g => ?_) (s.groupsIn slot) s) ⟨rfl, fun _ _ _ _ => rfl⟩
  split
  · dsimp only
    split_ifs
    · exact .trans ⟨rfl, fun _ _ _ _ => rfl⟩ (count_rescales ..)
    · exact ⟨rfl, fun _ _ _ _ => rfl⟩
  · exact .refl t

/-! ## Exchanges -/

/-- An exchange goes on by sending rounds: what it has taken in stands (R106). -/
theorem advanceExch_rows (s : State) (j : Option Job) (gate l : Nat) (epoch : BitVec 8) :
    ∃ x y n r, s.advanceExch j gate l epoch = { s with crs.verdicts := x, sl := y }
      ∧ (s.advanceExch j gate l epoch).exch gate epoch = { s.exch gate epoch with sent := n, ready := r } := by
  unfold State.advanceExch
  dsimp only
  split_ifs
  · exact ⟨s.crs.verdicts, s.sl, _, _, rfl, rfl⟩
  · cases j with
    | none => exact ⟨_, s.sl, _, _, rfl, exch_setExch_self ..⟩
    | some j =>
      dsimp only
      generalize List.map _ _ = rounds
      obtain ⟨y, hy⟩ : ∃ y, s.each rounds (fun t r => t.sendRound j l epoch (s.exch gate epoch).overflow r) = { s with sl := y } := by
        have htrans {a b c : State} (h : ∃ y, b = { a with sl := y }) (h' : ∃ y, c = { b with sl := y }) : ∃ y, c = { a with sl := y } := by
          obtain ⟨_, rfl⟩ := h
          obtain ⟨y, rfl⟩ := h'
          exact ⟨y, rfl⟩
        refine each_rel (R := fun s t => ∃ y, t = { s with sl := y }) (fun s => ⟨s.sl, rfl⟩) htrans (fun t r => ?_) rounds s
        exact each_rel (R := fun s t => ∃ y, t = { s with sl := y }) (fun s => ⟨s.sl, rfl⟩) htrans (fun t p => ⟨_, rfl⟩) _ t
      rw [hy]
      exact ⟨_, y, _, _, rfl, exch_setExch_self ..⟩

theorem takeNorm_eq (s : State) (c : Nat) (b : Bool) : ∃ x y, (if b = true then s.takeNorm c else s) = { s with upd.norm := x, upd.sums := y } := by
  split
  · exact ⟨_, _, rfl⟩
  · exact ⟨s.upd.norm, s.upd.sums, rfl⟩

theorem updSlot_setUpdSlot_self (s : State) (c : Nat) (u : UpdSlot) : (s.setUpdSlot c u).updSlot c = u := Table.read_write_self ..

/-- The step's end at its verdict gate (R105): the slot has no phase, the gate's epoch is the next. -/
theorem closeStep_rows (s : State) (c n : Nat) :
    (∃ x v g, s.closeStep c n = { s with upd := x, crs.verdicts := v, crs.gates := g }) ∧ (s.closeStep c n).updSlot c = { s.updSlot c with phase := 0 }
      ∧ (s.closeStep c n).gate n = (s.gate n).complete :=
  ⟨⟨_, _, _, rfl⟩, updSlot_setUpdSlot_self .., gate_setGate_self ..⟩

/-- The epoch of a gate after its verdict is the next. -/
theorem complete_epoch (g : Gate) : g.complete.epoch = g.epoch + 1 := rfl

/-- What a skipped attempt leaves (R107): its slot without a phase, one skip counted. -/
theorem skipped_rows (s : State) (c n : Nat) (e : Event) : ∃ t, ((((s.endScales c (fun _ => false)).closeStep c n).raise e).count 0x0817 c 1) = t
    ∧ t.updSlot c = { s.updSlot c with phase := 0 } ∧ (c < 65536 → t.counter 0x0817 c = (s.counter 0x0817 c).plus 1) ∧ t.bibs = s.bibs
    ∧ t.mem.bytes = s.mem.bytes := by
  obtain ⟨he, hctr⟩ := endScales_rescales s c (fun _ => false)
  generalize s.endScales c (fun _ => false) = u at he hctr ⊢
  obtain ⟨⟨x, v, g, hclose⟩, hupd, -⟩ := closeStep_rows u c n
  have hslot : (u.closeStep c n).updSlot c = { s.updSlot c with phase := 0 } := by
    rw [hupd, he]
    rfl
  have hcounter : c < 65536 → ((u.closeStep c n).raise e).counter 0x0817 c = s.counter 0x0817 c := fun hc => by
    rw [hclose]
    exact hctr 0x0817 c (by decide) hc
  obtain ⟨y, l, hcount⟩ := count_eq ((u.closeStep c n).raise e) 0x0817 c 1
  refine ⟨_, rfl, ?_, fun hc => ?_, ?_, ?_⟩
  · rw [hcount]
    exact hslot
  · rw [count_counter, hcounter hc]
  · rw [hcount, hclose, he]
    rfl
  · rw [hcount, hclose, he]
    rfl

/-- Whether a step's attempt can end: nothing of it lost, and its verdict exchanged. -/
theorem attempt_ends {s : State} {c n : Nat} {k : Course} {d : Domain} (hrun : d.running = true) (hsus : d.suspended = false) (hlost : d.lost = false)
    (htok : d.tokens ≠ 0) (hready : s.verdictReady c k n = true) :
    (!d.running || d.suspended || d.lost || decide (d.tokens = 0) || !s.verdictReady c k n) = false := by
  rw [hrun, hsus, hlost, hready, decide_eq_false htok]
  rfl

/-- A verdict is an overflow when one has come, a unit has reported one or a group is flagged (R105). -/
theorem overflow_iff (b : Bool) (flagged : List Nat) (nonfin : List (BitVec 8 × Nat)) (slot : BitVec 8) :
    (b || decide (flagged.length + ((nonfin.filter (fun x => x.1 = slot)).eraseDups).length ≠ 0)) = true
      ↔ b = true ∨ (∃ src, (slot, src) ∈ nonfin) ∨ flagged ≠ [] := by
  have hany : ((nonfin.filter (fun x => x.1 = slot)).eraseDups).length ≠ 0 ↔ ∃ src, (slot, src) ∈ nonfin := by
    rw [Ne, List.length_eq_zero_iff, List.eq_nil_iff_forall_not_mem]
    simp only [List.mem_eraseDups, List.mem_filter, decide_eq_true_eq, not_forall, not_not]
    constructor
    · rintro ⟨⟨a, src⟩, hmem, rfl⟩
      exact ⟨src, hmem⟩
    · rintro ⟨src, hmem⟩
      exact ⟨(slot, src), hmem, rfl⟩
  have hsum (m n : Nat) : m + n ≠ 0 ↔ n ≠ 0 ∨ 0 < m := by omega
  rw [Bool.or_eq_true, decide_eq_true_eq, ← hany, ← List.length_pos_iff, hsum]

/-- Settles O36. -/
theorem verdictRows : Obligations.VerdictRows := by
  simp only [Obligations.VerdictRows, Answers, exec]
  refine ⟨fun s slot k d n l hup hk hd hg hrun hsus hlost htok hform hstate hmap hlanes => ?formed,
    fun s slot plus ov k n l j jb hup hk hg hj hin => ?round,
    fun s slot k d n l hup hk hd hg hrun hsus hlost htok hready hov hj => ?commit,
    fun s slot k d n l hup hk hd hg hrun hsus hlost htok hready hov hskips => ?skip,
    fun s slot k d n l hup hk hd hg hrun hsus hlost htok hready hov hskips hbib => ?eighth,
    fun s slot d hup hd hlost => ⟨event_idle s ?lostCommit, event_idle s ?lostSkip⟩,
    fun s slot k d hup hk hd hkind hb => ?boundary, fun s slot k d hup hk hd hb => event_idle s ?noBoundary⟩
  case formed =>
    refine event_answers hup ?_
    dsimp only
    rw [hk, hd, hg]
    dsimp only
    rw [if_neg (by simp [hrun, hsus, hlost, htok, hform, hstate, hmap, hlanes])]
    have hs := collect_samples s slot.toNat (d.tokenNo - d.tokens)
    generalize s.collect slot.toNat (d.tokenNo - d.tokens) = u at hs ⊢
    have hupd : u.upd = s.upd := (congrArg State.upd hs).trans rfl
    obtain ⟨a, b, hnorm⟩ := takeNorm_eq u slot.toNat (u.updSlot slot.toNat).clipEn
    rw [hnorm]
    generalize hw : @ite State ((s.gate n).count ≠ _) _ _ _ = w
    have hslot : w.updSlot slot.toNat = { s.updSlot slot.toNat with clipArmed := false, phase := 2, updated := 0 } := by
      have hu : u.updSlot slot.toNat = s.updSlot slot.toNat := congrArg (fun x : Upd => x.slots.read ({} : UpdSlot) slot.toNat) hupd
      rw [← hu, ← hw]
      split_ifs <;> exact updSlot_setUpdSlot_self u slot.toNat { u.updSlot slot.toNat with clipArmed := false, phase := 2, updated := 0 }
    have hmem : w.mem = s.mem := by
      refine Eq.trans ?_ ((congrArg State.mem hs).trans rfl)
      rw [← hw]
      split_ifs <;> rfl
    have hbibs : w.bibs = s.bibs := by
      refine Eq.trans ?_ ((congrArg State.bibs hs).trans rfl)
      rw [← hw]
      split_ifs <;> rfl
    generalize ht : State.advanceExch _ _ _ _ _ = t
    obtain ⟨x, y, m, r, he, hexch⟩ := advanceExch_rows _ _ n l (s.gate n).epoch
    rw [ht] at he hexch
    rw [hexch, exch_setExch_self, hupd]
    have htslot : t.updSlot slot.toNat = w.updSlot slot.toNat := by rw [he]; rfl
    refine ⟨rfl, ?_, rfl, by rw [htslot, hslot], by rw [htslot, hslot], by rw [he]; exact hmem, by rw [he]; exact hbibs⟩
    exact overflow_iff _ _ _ _
  case round =>
    refine event_answers hup ?_
    dsimp only
    rw [hk, hg]
    dsimp only
    rw [hj]
    dsimp only
    rw [if_pos (List.contains_iff_mem.mpr hin)]
    generalize ht : State.advanceExch _ _ _ _ _ = t
    obtain ⟨x, y, m, r, he, hexch⟩ := advanceExch_rows _ (some jb) n l (s.gate n).epoch
    rw [ht] at he hexch
    rw [hexch, exch_setExch_self]
    exact ⟨rfl, rfl, by rw [he]; rfl⟩
  case commit =>
    refine event_answers hup ?_
    dsimp only
    rw [hk, hd, hg]
    dsimp only
    rw [if_neg (by rw [attempt_ends hrun hsus hlost htok hready, hov]; decide)]
    obtain ⟨he, -⟩ := endScales_rescales (s.setUpdSlot slot.toNat { s.updSlot slot.toNat with
      curState := !(s.updSlot slot.toNat).curState, curWc := !(s.updSlot slot.toNat).curWc, step := (s.updSlot slot.toNat).step + 1 }) slot.toNat (fun _ => true)
    generalize State.endScales _ _ _ = u at he ⊢
    obtain ⟨⟨x, v, g, hclose⟩, hupd, hgate⟩ := closeStep_rows u slot.toNat n
    generalize u.closeStep slot.toNat n = t at hclose hupd hgate ⊢
    have hjob : (t.setDomain slot.toNat { d with tokens := d.tokens - 1, stepsDone := d.stepsDone + 1, skips := 0, inputSeq := d.inputSeq + 1 }).jobOf k.bib
        = none := by
      rw [hclose, he]
      exact hj
    rw [hjob]
    refine ⟨?_, Table.lookup_insert_self .., ?_, ?_, ?_⟩
    · refine Eq.trans hupd ?_
      rw [he]
      exact congrArg (fun x : UpdSlot => { x with phase := 0 }) (updSlot_setUpdSlot_self ..)
    · refine (congrArg Gate.epoch hgate).trans ?_
      rw [complete_epoch, he]
      rfl
    · rw [hclose, he]
      rfl
    · rw [hclose, he]
      rfl
  case skip =>
    refine event_answers hup ?_
    dsimp only
    rw [hk, hd, hg]
    dsimp only
    rw [if_neg (by rw [attempt_ends hrun hsus hlost htok hready, hov]; decide), if_neg (by omega)]
    obtain ⟨t, ht, hslot, hcount, hbibs, hbytes⟩ := skipped_rows s slot.toNat n _
    rw [ht]
    refine ⟨hslot, ⟨_, Table.lookup_insert_self .., rfl, rfl, rfl⟩, hcount (lt_trans slot.isLt (by decide)), hbibs, hbytes⟩
  case eighth =>
    refine event_answers hup ?_
    dsimp only
    rw [hk, hd, hg]
    dsimp only
    rw [if_neg (by rw [attempt_ends hrun hsus hlost htok hready, hov]; decide), if_pos (by omega)]
    obtain ⟨t, ht, hslot, hcount, hbibs, hbytes⟩ := skipped_rows s slot.toNat n _
    rw [ht]
    refine (suspend_isSuspended (b := k.bib) ?_ .fault 0x0003).1
    exact (congrArg (fun x : Bibs => (x.recs.read ({} : Bib) k.bib.toNat).state) hbibs).trans hbib
  case lostCommit =>
    dsimp only
    rw [hd]
    split
    · exact if_pos (by simp_all)
    · rfl
  case lostSkip =>
    dsimp only
    rw [hd]
    split
    · exact if_pos (by simp_all)
    · rfl
  case boundary =>
    refine event_answers hup ?_
    dsimp only
    rw [hk, hd]
    dsimp only
    rw [if_neg (by simp [hkind, hb])]
    have hs := collect_samples s slot.toNat d.stepNo
    generalize s.collect slot.toNat d.stepNo = u at hs ⊢
    obtain ⟨he, -⟩ := endScales_rescales (u.setDomain slot.toNat { d with boundary := d.boundary - 1, ords := [] }) slot.toNat
      (fun g => !(u.flaggedIn slot.toNat).contains g)
    generalize State.endScales _ _ _ = t at he ⊢
    rw [he]
    refine ⟨Table.lookup_insert_self .., ?_, ?_⟩
    · rw [hs]
      rfl
    · rw [hs]
      rfl
  case noBoundary =>
    dsimp only
    rw [hk, hd]
    dsimp only
    rw [if_pos (by simp [hb])]

end Machine
end Sys2Proof

/-! SUPPORT. Keys and their rotations (O11). -/

namespace Sys2Proof
namespace Machine

theorem keysOf_setKeys_self (s : State) (b : BitVec 12) (k : BibKeys) : (s.setKeys b k).keysOf b = k := Table.read_write_self ..

theorem bib_setBib_self (s : State) (b : BitVec 12) (r : Bib) : (s.setBib b r).bib b = r := Table.read_write_self ..

theorem replay_setReplay_self (s : State) (b : BitVec 12) (r : Replay) : (s.setReplay b r).replay b = r := Table.read_write_self ..

/-! ## Rotations -/

/-- A bib's keys with the next generation in the slot of the epoch to come (R308). -/
def BibKeys.rotated (k : BibKeys) (ke : BitVec 256) (epoch : Bool) : BibKeys :=
  { (if epoch then { k with data0 := some (Config.dataKey ke (k.gen + 1)) } else { k with data1 := some (Config.dataKey ke (k.gen + 1)) }) with
    gen := k.gen + 1, due := false }

theorem rotated_gen (k : BibKeys) (ke : BitVec 256) (epoch : Bool) : (k.rotated ke epoch).gen = k.gen + 1 := rfl

theorem rotated_data (k : BibKeys) (ke : BitVec 256) (epoch : Bool) :
    (if epoch = true then (k.rotated ke epoch).data0 else (k.rotated ke epoch).data1) = some (Config.dataKey ke (k.gen + 1)) := by
  cases epoch <;> rfl

theorem startRotation_eq {s : State} {b : BitVec 12} {ke : BitVec 256} (hke : (s.keysOf b).ke = some ke) :
    s.startRotation b = ((s.setKeys b ((s.keysOf b).rotated ke (s.bib b).curEpoch)).setBib b
      { s.bib b with curEpoch := !(s.bib b).curEpoch, rotating := true }).raise { bib := b, arg := .keyRotate false 0 ((s.keysOf b).gen + 1) 0 } := by
  unfold State.startRotation BibKeys.rotated
  dsimp only
  rw [hke]

theorem startRotation_rows {s : State} {b : BitVec 12} {ke : BitVec 256} (hke : (s.keysOf b).ke = some ke) :
    let t := s.startRotation b
    t.bib b = { s.bib b with curEpoch := !(s.bib b).curEpoch, rotating := true } ∧ t.keysOf b = (s.keysOf b).rotated ke (s.bib b).curEpoch
      ∧ t.log.flight = s.log.flight ++ [{ bib := b, arg := .keyRotate false 0 ((s.keysOf b).gen + 1) 0 }] ∧ t = { s with bibs := t.bibs, log := t.log } := by
  rw [startRotation_eq hke]
  exact ⟨bib_setBib_self .., keysOf_setKeys_self .., rfl, rfl⟩

/-! ## Keys formed -/

/-- A command's wrapped keys all name a bib's own job (R302). -/
theorem links_ok {s : State} {b : BitVec 12} {w : WrappedKey} {j : Nat} (hver : w.wver = 1) (hrsv : w.rsv = 0) (hb : w.bib = b) (hj : s.keyJob b w = some j) :
    [w].all (fun w => w.wver = 1 && w.rsv = 0) = true ∧ [w].all (fun w => w.bib = b && (s.keyJob b w).isSome) = true := by
  simp [hver, hrsv, hb, hj]

/-- A bib's keys once KEYS has formed K_E (R302). -/
def State.formKeys (s : State) (b : BitVec 12) (ke : BitVec 256) : State :=
  s.setKeys b { s.keysOf b with
    dk := none, ke := some ke, data0 := some (Config.dataKey ke 0), data1 := none, gen := 0, host := some (Config.hostKey ke b)
    kw := some (Config.wrapKey ke b) }

/-- A link key unwrapped into its job's epoch, and the bib's replay record opened. -/
def State.takeLink (s : State) (b : BitVec 12) (j : Nat) (w : WrappedKey) (kw : BitVec 256) : State :=
  State.setReplay { s with bibs.linkKeys := s.bibs.linkKeys.insert (2 * j + w.epoch.toNat) (Config.unwrap kw w.nonce w.ct) } b
    { s.replay b with h := 0, seen := [] }

/-- Settles O11. -/
theorem keyRows : Obligations.KeyRows := by
  simp only [Obligations.KeyRows, Answers, exec]
  refine ⟨fun s c ct w dk j ha hdk hver hrsv hb htag hj => ?installed, fun s c ct w dk j ha hdk hver hrsv hb htag hj => ?badTag,
    fun s c ke ha hrot hke => ?rotated, fun s b ke hup hstate hrot hke => ?timer, fun s b k h hup hrot hstate hold => ?tile,
    fun s b p u hup hrot hstate hold hro => ?unit, fun s b hup hrot hstate hdue hitems => ?retired, fun s job jb k hup hjob hrot hlive hk => ?link⟩
  case installed =>
    obtain ⟨hvers, hjobs⟩ := links_ok hver hrsv hb hj
    refine command_replies ha (u := fun i e => ((s.taken i e).formKeys c.bib (Config.decap dk ct)).takeLink c.bib j w (Config.wrapKey (Config.decap dk ct) c.bib))
      (st := .ok) (fun i e => ?_) fun i e o n x hr => ⟨⟨_, keysOf_setKeys_self (s.taken i e) .., Table.lookup_insert_self ..⟩, ?_, hr, rfl⟩
    · have hdk' : ((s.taken i e).keysOf (c.of 0x0102).bib).dk = some dk := hdk
      dsimp only
      rw [hdk']
      dsimp only
      rw [if_neg (by rw [hvers]; decide), if_neg (by rw [show [w].all (fun v => v.bib = c.bib && ((s.taken i e).keyJob c.bib v).isSome) = true from hjobs]; decide),
        if_neg (by simp [htag]), State.each, List.foldl_cons, List.foldl_nil]
      have hj' (x : BibKeys) : ((s.taken i e).setKeys c.bib x).keyJob (c.of 0x0102).bib w = some j := hj
      rw [hj']
      rfl
    · exact congrArg Replay.h (replay_setReplay_self _ c.bib { s.replay c.bib with h := 0, seen := [] })
  case badTag =>
    obtain ⟨hvers, hjobs⟩ := links_ok hver hrsv hb hj
    refine command_replies ha (u := fun i e => (s.taken i e).setKeys c.bib { s.keysOf c.bib with ek := none, dk := none }) (st := .auth) (fun i e => ?_)
      fun i e o n x hr => ⟨keysOf_setKeys_self (s.taken i e) .., rfl, hr, rfl⟩
    have hdk' : ((s.taken i e).keysOf (c.of 0x0102).bib).dk = some dk := hdk
    dsimp only
    rw [hdk']
    dsimp only
    rw [if_neg (by rw [hvers]; decide), if_neg (by rw [show [w].all (fun v => v.bib = c.bib && ((s.taken i e).keyJob c.bib v).isSome) = true from hjobs]; decide), if_pos (by simp [htag])]
    rfl
  case rotated =>
    refine command_replies ha (u := fun i e => (s.taken i e).startRotation c.bib) (st := .ok) (fun i e => ?_) fun i e o n x hr => ?_
    · refine if_neg ?_
      rw [show (s.taken i e).bib (c.of 0x0105).bib = s.bib c.bib from rfl, show (s.taken i e).keysOf (c.of 0x0105).bib = s.keysOf c.bib from rfl, hrot, hke]
      simp
    · obtain ⟨hbib, hkeys, -, he⟩ := startRotation_rows (s := s.taken i e) (b := c.bib) hke
      generalize State.startRotation _ _ = t at hbib hkeys he hr ⊢
      refine ⟨hbib, ?_, ?_, hr, ?_⟩
      · exact (congrArg BibKeys.gen hkeys).trans rfl
      · have hk : (t.replying o n x).keysOf c.bib = (s.keysOf c.bib).rotated ke (s.bib c.bib).curEpoch := hkeys
        rw [hk, rotated_data]
      · rw [State.replying, he]
  case timer =>
    refine event_answers hup ?_
    rw [if_neg (by rcases hstate with h | h | h <;> rw [h] <;> decide), if_neg (by simp [hrot])]
    obtain ⟨hbib, -, hlog, he⟩ := startRotation_rows hke
    exact ⟨hbib, hlog, he⟩
  case tile =>
    refine event_answers hup ?_
    dsimp only
    rw [if_neg (by simp [hrot, hstate]), if_neg (by decide), show s.oldTile b ((3 : Fin 9) : Nat) = some (k, h) from hold]
    dsimp only
    obtain ⟨x, hx⟩ := recount_eq s h { h with epoch := (s.bib b).curEpoch }
    rw [hx]
    exact ⟨Table.lookup_insert_self .., rfl, rfl⟩
  case unit =>
    refine event_answers hup ?_
    dsimp only
    rw [if_neg (by simp [hrot, hstate]), if_pos (by decide), hold]
    dsimp only
    rw [if_neg (by simp [hro])]
    exact ⟨Table.lookup_insert_self .., rfl, rfl, rfl⟩
  case retired =>
    refine event_answers hup ?_
    have hempty : (List.range 9).all (fun i => s.items b (!(s.bib b).curEpoch) i = 0) = true := by
      rw [List.all_eq_true]
      exact fun i hi => decide_eq_true (hitems i (List.mem_range.mp hi))
    dsimp only
    rw [if_pos (by rw [hempty]; simp [hrot, hstate]), if_neg (by simp [hdue])]
    refine ⟨bib_setBib_self .., ?_, rfl, rfl⟩
    cases hcur : (s.bib b).curEpoch
    · exact congrArg BibKeys.data1 (keysOf_setKeys_self s b { s.keysOf b with data1 := none })
    · exact congrArg BibKeys.data0 (keysOf_setKeys_self s b { s.keysOf b with data0 := none })
  case link =>
    refine event_answers hup ?_
    dsimp only
    rw [hjob]
    dsimp only
    rw [hk]
    dsimp only
    rw [if_neg (by simp [hrot, hlive])]
    refine ⟨Table.lookup_insert_self .., ?_, Table.lookup_insert_self .., rfl⟩
    rw [Table.lookup_insert_ne _ (by cases jb.kepoch <;> simp), hk]

end Machine
end Sys2Proof

/-! SUPPORT. What the start and the finish of a segment and a step's end change in a run; the sequencer's rows (O17). -/

namespace Sys2Proof
namespace Machine

/-! ## The next segment -/

/-- The token does not stop at a segment that is skipped (R165). -/
theorem sgRepeat_of_notSkipped {k : Course} {i : Nat} (h : k.notSkipped i < k.segs.length) : sgRepeat (k.seg (k.notSkipped i)) ≠ 0 := by
  unfold Course.notSkipped at h ⊢
  rcases hf : (List.range k.segs.length).find? (fun j => decide (i ≤ j) && decide (sgRepeat (k.seg j) ≠ 0)) with _ | j
  · rw [hf, Option.getD_none] at h
    exact absurd h (lt_irrefl _)
  · have hj := List.find?_some hf
    simp only [Bool.and_eq_true, decide_eq_true_eq] at hj
    exact hj.2

theorem sgRepeat_of_next {k : Course} {d : Domain} {i : Nat} (h : d.next k = some i) : sgRepeat (k.seg i) ≠ 0 := by
  unfold Domain.next at h
  dsimp only at h
  split_ifs at h with h1 h2
  · exact Option.some.inj h ▸ sgRepeat_of_notSkipped h1
  · exact Option.some.inj h ▸ sgRepeat_of_notSkipped h2.1

theorem enterLoops_eq (d : Domain) (k : Course) (a i : Nat) : ∃ l, d.enterLoops k a i = { d with loops := l } := by
  unfold Domain.enterLoops
  generalize List.range _ = js
  induction js generalizing d with
  | nil => exact ⟨d.loops, rfl⟩
  | cons j js ih =>
    rw [List.foldl_cons]
    dsimp only
    split_ifs
    · obtain ⟨l, h⟩ := ih { d with loops := d.loops.insert j (sgLoopN (k.seg j)) }
      exact ⟨l, h⟩
    · exact ih d

theorem advance_eq (d : Domain) (k : Course) (i : Nat) : ∃ p l, d.advance k i = { d with pc := p, loops := l } := by
  unfold Domain.advance
  split
  · split_ifs <;> exact ⟨_, _, rfl⟩
  · exact ⟨_, d.loops, rfl⟩

theorem boundary_of_none {s : State} {c : Nat} {d : Domain} (hd : s.domain c = some d) (h : s.leaving d = []) : s.boundary c = s := by
  unfold State.boundary
  rw [hd]
  dsimp only
  rw [if_neg fun hc => hc.2.1 h]

/-! ## A run's stations change -/

/-- From `s` to `t` a run's stations may change, with what they hold, its course's patches and its streams; what the run has ended and has left to do stands. -/
def Reruns (c : Nat) (s t : State) : Prop :=
  (∃ r a x l u y g, t = { s with rink := r, arr := a, crs := x, lift := l, upd := u, ctr := y, log := g })
    ∧ (t.domain c).map (fun d => (d.ends, d.tokens, d.stepsDone)) = (s.domain c).map (fun d => (d.ends, d.tokens, d.stepsDone))

section
variable {c : Nat}

theorem Reruns.refl (s : State) : Reruns c s s := ⟨⟨s.rink, s.arr, s.crs, s.lift, s.upd, s.ctr, s.log, rfl⟩, rfl⟩

theorem Reruns.trans {s t u : State} (h : Reruns c s t) (h' : Reruns c t u) : Reruns c s u :=
  ⟨by
    obtain ⟨_, _, _, _, _, _, _, rfl⟩ := h.1
    obtain ⟨r, a, x, l, u, y, g, rfl⟩ := h'.1
    exact ⟨r, a, x, l, u, y, g, rfl⟩, h'.2.trans h.2⟩

theorem restage_reruns (s : State) (i : Nat) : Reruns c s (s.restage i) := by
  unfold State.restage
  split
  · refine each_rel (R := Reruns c) .refl .trans (fun t e => ?_) _ s
    split_ifs
    · exact ⟨⟨t.rink, t.arr, t.crs, _, t.upd, t.ctr, t.log, rfl⟩, rfl⟩
    · exact .refl t
  · exact .refl s

theorem countStages_reruns (s : State) (i : Nat) : Reruns c s (s.countStages i) := by
  obtain ⟨k, x, l, h⟩ := countStages_eq s i
  rw [h]
  exact ⟨⟨s.rink, s.arr, _, s.lift, s.upd, x, l, rfl⟩, rfl⟩

theorem setRun_reruns (s : State) (run : List Nat) : Reruns c s (s.setRun c run) := by
  unfold State.setRun
  rcases hd : s.domain c with _ | d
  · exact .refl s
  rcases hk : s.course c with _ | k
  · exact .refl s
  dsimp only
  obtain ⟨r, hr⟩ := bindRun_eq d.bib d.w d.quarter (run.filter (fun p => !d.run.contains p)) (s.giveUp d.bib (d.run.filter (fun p => !run.contains p)) d.quarter d.w)
  rw [hr]
  refine .trans ?_ (.trans (restage_reruns ..) (countStages_reruns ..))
  refine ⟨⟨_, _, _, s.lift, s.upd, s.ctr, s.log, rfl⟩, ?_⟩
  rw [hd]
  exact Eq.trans (congrArg (Option.map _) (Table.lookup_insert_self s.crs.domains c { d with run := run, s := run.length })) rfl

theorem boundary_reruns (s : State) : Reruns c s (s.boundary c) := by
  unfold State.boundary
  split
  · dsimp only
    split_ifs
    · exact setRun_reruns ..
    · exact .refl s
  · exact .refl s

theorem joins_reruns (n : Nat) (s : State) : Reruns c s (s.joins c n) := by
  induction n generalizing s with
  | zero => exact .refl s
  | succ n ih =>
    unfold State.joins
    split
    · split_ifs
      · exact .refl s
      · split
        · exact .trans (setRun_reruns ..) (ih _)
        · exact .refl s
    · exact .refl s

theorem collect_reruns (s : State) (i step : Nat) : Reruns c s (s.collect i step) := by
  have h := collect_samples s i step
  generalize s.collect i step = t at h ⊢
  have hd : t.domain c = s.domain c := (congrArg (fun x : State => x.domain c) h).trans rfl
  exact ⟨⟨s.rink, s.arr, _, s.lift, s.upd, _, _, h⟩, by rw [hd]⟩

/-- A course whose constants have been set, with the orders that set them gone (R186). -/
theorem takeOrders_reruns (s : State) (i : Nat) : Reruns c s (s.takeOrders i) := by
  unfold State.takeOrders
  rcases s.upd.freezeNext.lookup i with _ | l
  all_goals
    dsimp only
    split
    · split_ifs
      · exact ⟨⟨s.rink, s.arr, s.crs, s.lift, _, s.ctr, s.log, rfl⟩, rfl⟩
      · exact ⟨⟨s.rink, s.arr, _, s.lift, _, s.ctr, s.log, rfl⟩, rfl⟩
    · exact ⟨⟨s.rink, s.arr, s.crs, s.lift, _, s.ctr, s.log, rfl⟩, rfl⟩

theorem Reruns.keeps {s t : State} (h : Reruns c s t) : t.lkr = s.lkr ∧ t.bibs = s.bibs ∧ t.mem = s.mem := by
  obtain ⟨_, _, _, _, _, _, _, rfl⟩ := h.1
  exact ⟨rfl, rfl, rfl⟩

theorem Reruns.domain {s t : State} (h : Reruns c s t) {d : Domain} (hd : s.domain c = some d) :
    ∃ x, t.domain c = some x ∧ x.ends = d.ends ∧ x.tokens = d.tokens ∧ x.stepsDone = d.stepsDone := by
  have hmap := h.2
  rw [hd] at hmap
  obtain ⟨x, hx, heq⟩ := Option.map_eq_some_iff.mp hmap
  simp only [Prod.mk.injEq] at heq
  exact ⟨x, hx, heq⟩

end

/-! ## A run that violates -/

/-- The suspension of one running slot (R293). -/
def State.suspendSlot (why : Status) (ev : Nat) (t : State) (c : Nat) : State :=
  match t.domain c with
  | some d => (t.setDomain c { d with suspended := true }).replyAs d.runHdr why false ev .none
  | none => t

theorem suspendSlot_eq {t : State} {c : Nat} {d : Domain} (hd : t.domain c = some d) (why : Status) (ev : Nat) :
    ∃ m, t.suspendSlot why ev c = { t.setDomain c { d with suspended := true } with cmd := m } := by
  obtain ⟨o, n, k, he⟩ := replyAs_eq (t.setDomain c { d with suspended := true }) d.runHdr why false ev .none
  unfold State.suspendSlot
  rw [hd]
  exact ⟨_, he⟩

theorem suspendSlot_domain_ne (t : State) {a c : Nat} (h : a ≠ c) (why : Status) (ev : Nat) : (t.suspendSlot why ev a).domain c = t.domain c := by
  rcases hd : t.domain a with _ | d
  · rw [State.suspendSlot, hd]
  · obtain ⟨m, he⟩ := suspendSlot_eq hd why ev
    rw [he]
    exact Table.lookup_insert_ne _ h _

/-- Suspension marks the bib's running domains and leaves the rest of what they hold, but the work areas (R293). -/
theorem suspend_domain {s : State} {b : BitVec 12} {c : Nat} {d : Domain} (hrun : (s.bib b).state = .running) (hd : s.domain c = some d)
    (hdrun : d.running = true) (hb : d.bib = b) (why : Status) (ev : Nat) :
    ∃ x, (s.suspend b why ev).domain c = some x ∧ x.suspended = true ∧ x.ord = d.ord ∧ x.passes = d.passes := by
  have hmem : c ∈ s.runningOf b := by
    refine List.mem_map.mpr ⟨(c, d), List.mem_filter.mpr ⟨Table.mem_of_lookup hd, by simp [hdrun, hb]⟩, rfl⟩
  rw [State.suspend, if_pos hrun]
  have hfold (l : List Nat) (t : State) (ht : ∃ x, t.domain c = some x ∧ (c ∈ l ∨ x.suspended = true) ∧ x.ord = d.ord ∧ x.passes = d.passes) :
      ∃ x, (t.each l (State.suspendSlot why ev)).domain c = some x ∧ x.suspended = true ∧ x.ord = d.ord ∧ x.passes = d.passes := by
    induction l generalizing t with
    | nil =>
      obtain ⟨x, hx, hs, hrest⟩ := ht
      exact ⟨x, hx, hs.resolve_left List.not_mem_nil, hrest⟩
    | cons a l ih =>
      refine ih _ ?_
      obtain ⟨x, hx, hs, hord, hpasses⟩ := ht
      by_cases hac : a = c
      · obtain ⟨m, he⟩ := suspendSlot_eq (hac ▸ hx) why ev
        rw [he, ← hac]
        exact ⟨_, Table.lookup_insert_self .., .inr rfl, hord, hpasses⟩
      · rw [suspendSlot_domain_ne t hac]
        exact ⟨x, hx, hs.imp_left fun h => (List.mem_cons.mp h).resolve_left (Ne.symm hac), hord, hpasses⟩
  refine hfold _ _ ⟨{ d with live := d.live.each (fun _ l => { l with work := [] }) }, ?_, .inl hmem, rfl, rfl⟩
  have hlookup := Table.lookup_each (fun _ (e : Domain) => if e.bib = b then { e with live := e.live.each (fun _ l => { l with work := [] }) } else e) c
    s.crs.domains
  refine hlookup.trans ?_
  rw [show s.crs.domains.lookup c = some d from hd]
  exact congrArg some (if_pos hb)

theorem stopCarve_fault (s : State) (p : Nat) {q : Nat} (hq : q < 4) : (((s.stopCarve p q).stn p).fault).getLsbD q = true := by
  have hstn : (s.stopCarve p q).stn p = (s.stn p).faulty [q] := stn_setStn_self ..
  rw [hstn]
  have hbit : (maskOf 4 [q]).getLsbD q = true := by
    interval_cases q <;> rfl
  rw [Stn.faulty, BitVec.getLsbD_or, hbit, Bool.or_true]

/-- A violation at a run's first carve (R165, R175). -/
theorem violateRun_rows {s : State} {c : Nat} {k : Course} {d : Domain} (hk : s.course c = some k) (hd : s.domain c = some d) (hdrun : d.running = true)
    (hb : d.bib = k.bib) (hrun : (s.bib k.bib).state = .running) (st : Status) (seg : Nat) :
    ∃ t, s.violateRun c d st seg = t ∧ t.isSuspended k.bib .fault ∧ (d.quarter < 4 → ((t.stn (d.run.headD 0)).fault).getLsbD d.quarter = true)
      ∧ (∃ x, t.domain c = some x ∧ x.suspended = true ∧ x.ord = d.ord ∧ x.passes = d.passes) ∧ t.log.flight.length = s.log.flight.length + 1
      ∧ t.mem.bytes = s.mem.bytes := by
  have hfault : d.quarter < 4 → (((s.stopCarve ((4 * d.run.headD 0 + d.quarter) / 4) ((4 * d.run.headD 0 + d.quarter) % 4)).stn (d.run.headD 0)).fault).getLsbD
      d.quarter = true := fun hq => by
    rw [show (4 * d.run.headD 0 + d.quarter) / 4 = d.run.headD 0 by omega, show (4 * d.run.headD 0 + d.quarter) % 4 = d.quarter by omega]
    exact stopCarve_fault s _ hq
  obtain ⟨r, a, hstop⟩ := stopCarve_eq s ((4 * d.run.headD 0 + d.quarter) / 4) ((4 * d.run.headD 0 + d.quarter) % 4)
  unfold State.violateRun State.violateAt
  rw [hstop] at hfault ⊢
  have hsus := violateAs_isSuspended (s := { s with rink := r, arr.uses := a }) hk hrun .fault st seg 0 0
  have ho := violateAs_onlySuspends { s with rink := r, arr.uses := a } c .fault st seg 0 0
  refine ⟨_, rfl, hsus, fun hq => ?_, ?_, ?_, ho.bytes⟩
  · obtain ⟨_, _, _, _, _, _, he⟩ := ho
    exact (congrArg (fun x : State => ((x.stn (d.run.headD 0)).fault).getLsbD d.quarter) he).trans (hfault hq)
  · unfold State.violate State.violateAs
    rw [show ({ s with rink := r, arr.uses := a } : State).course c = some k from hk]
    exact suspend_domain (s := (({ s with rink := r, arr.uses := a } : State).poison c).raise _) hrun hd hdrun hb _ _
  · unfold State.violate State.violateAs
    rw [show ({ s with rink := r, arr.uses := a } : State).course c = some k from hk]
    obtain ⟨_, _, _, he⟩ := suspend_of_running (s := (({ s with rink := r, arr.uses := a } : State).poison c).raise
      { bib := k.bib, slot := BitVec.ofNat 8 c, src := 0, srcInst := 0
        arg := .courseViolation (BitVec.ofNat 8 (statusCode st)) (BitVec.ofNat 64 (chCourseId k.hdr)) (BitVec.ofNat 20 seg) (BitVec.ofNat 24 0) 0 })
      hrun .fault 0x000F
    exact (congrArg (fun x : State => x.log.flight.length) he).trans (List.length_append ..)

/-- The run that may go on (R141). -/
theorem mayRun_iff {s : State} {c : Nat} {d : Domain} (hd : s.domain c = some d) (h : s.mayRun c = true) :
    d.running = true ∧ d.suspended = false ∧ (s.bib d.bib).state = .running ∧ s.held c = false := by
  unfold State.mayRun at h
  rw [hd] at h
  simpa [and_assoc] using h

/-- What lets a segment start, but for its stations and its work area (R141, R165). -/
theorem segment_unblocked {s : State} {c i : Nat} {k : Course} {d : Domain} (hfence : sgFence (k.seg i) = false ∨ d.live = [])
    (hlive : d.live.has i = false) (ha : s.gateOpen k (sgWaitA (k.seg i)) (d.passes.read 0 i) = true)
    (hb : s.gateOpen k (sgWaitB (k.seg i)) (d.passes.read 0 i) = true) (hfree : d.stationsFree k i = true)
    (hstrm : s.streamsOpen c (k.seg i) = true) (hstop : s.changeStops d = false) (hstay : ∀ r ∈ segOffsets (k.seg i), d.run.getD r 0 ∉ s.leaving d) :
    ((sgFence (k.seg i) && d.live ≠ []) || d.live.has i || !s.gateOpen k (sgWaitA (k.seg i)) (d.passes.read 0 i)
      || !s.gateOpen k (sgWaitB (k.seg i)) (d.passes.read 0 i) || !d.stationsFree k i || !s.streamsOpen c (k.seg i) || s.changeStops d
      || (segOffsets (k.seg i)).any (fun r => (s.leaving d).contains (d.run.getD r 0))) = false := by
  have hany : (segOffsets (k.seg i)).any (fun r => (s.leaving d).contains (d.run.getD r 0)) = false :=
    List.any_eq_false.mpr fun r hr h => hstay r hr (List.contains_iff_mem.mp h)
  rw [hlive, ha, hb, hfree, hstrm, hstop, hany]
  rcases hfence with h | h <;> simp [h]

theorem issueSignal_rows (s : State) (k : Course) (l pass : Nat) :
    ∃ x, s.issueSignal k l pass = { s with crs.signals := x } ∧ (∀ e ∈ s.crs.signals, e ∈ x)
      ∧ ∀ n, k.gateNo l = some n → (n, BitVec.ofNat 8 pass) ∈ x := by
  unfold State.issueSignal
  split
  next n hn =>
    refine ⟨_, rfl, fun e he => List.mem_append_left _ he, fun m hm => ?_⟩
    rw [Option.some.inj (hm.symm.trans hn)]
    exact List.mem_append_right _ (List.mem_singleton_self _)
  next hn => exact ⟨_, rfl, fun e he => he, fun m hm => absurd (hn.symm.trans hm) (by simp)⟩

theorem clearWriter_rows (s : State) (c seg : Nat) : ∃ h, s.clearWriter c seg = { s with mem.hdrs := h }
    ∧ ∀ e ∈ h, e.2.wslot.toNat = c → e.2.wseg.toNat = seg → e.2.wact = false := by
  refine ⟨_, rfl, fun e he hslot hseg => ?_⟩
  obtain ⟨h, hh⟩ := Table.of_mem_each he
  rw [hh] at hslot hseg ⊢
  split_ifs at hslot hseg ⊢ with hc
  · rfl
  · cases hw : h.wact
    · rfl
    · exact absurd (by simp [hw, hslot, hseg]) hc

/-- The entries of a step that has ended are gone (R141). -/
theorem freeOrphans_rows (s : State) (c step : Nat) :
    (∃ l x g, s.freeOrphans c step = { s with lkr := l, ctr := x, log := g })
      ∧ ∀ e, e ∈ (s.freeOrphans c step).lkr.entries ↔ e ∈ s.lkr.entries ∧ (e.slot.toNat ≠ c ∨ step < e.step) := by
  unfold State.freeOrphans
  dsimp only
  split_ifs
  · exact ⟨⟨_, s.ctr, s.log, rfl⟩, fun e => by simp⟩
  · generalize hc : State.count _ _ _ _ = t
    obtain ⟨⟨x, g, he⟩, -⟩ := eq_of_count hc
    rw [he]
    exact ⟨⟨_, x, g, rfl⟩, fun e => by simp⟩

theorem takeSeeds_rows (s : State) (b : BitVec 12) :
    (∃ x y, s.takeSeeds b = { s with bibs.seeds := x, bibs.seedsNext := y })
      ∧ ∀ l, s.bibs.seedsNext.lookup b.toNat = some l → (s.takeSeeds b).bibs.seeds.lookup b.toNat = some l := by
  unfold State.takeSeeds
  split
  next l hl =>
    refine ⟨⟨_, _, rfl⟩, fun m hm => ?_⟩
    rw [← Option.some.inj (hl.symm.trans hm)]
    exact Table.lookup_insert_self ..
  next hl => exact ⟨⟨s.bibs.seeds, s.bibs.seedsNext, rfl⟩, fun m hm => absurd (hl.symm.trans hm) (by simp)⟩

/-- Settles O17. -/
theorem sequencerRows : Obligations.SequencerRows := by
  simp only [Obligations.SequencerRows, Answers, exec]
  refine ⟨fun s slot seg work k d hup hk hd hmay hnext hpatch hfits hwork hfence hlive ha hb hfree hstrm hstop hstay => ?started,
    fun s slot seg work k d hup hk hd hmay hbib hnext hpatch hbad hfence hlive ha hb hfree hstrm hstop hstay => ?violated,
    fun s slot seg k d l hup hk hd hl hrun hsus hdone => ?finished, fun s slot k d o rest hup hk hd hends hrun hsus hheld hlast => ?ended,
    fun s slot hup hheld => event_idle s ?held⟩
  case started =>
    refine event_answers hup ?_
    dsimp only
    rw [hk, hd]
    dsimp only
    rw [if_neg (by simp [hmay, hnext])]
    have hsame : (if sgPatchPoint (k.seg seg.toNat) = true then s.boundary slot.toNat else s) = s := by
      rcases hpatch with h | h
      · rw [if_neg (by simp [h])]
      · rw [boundary_of_none hd h, ite_self]
    rw [hsame, hk, hd]
    dsimp only
    rw [if_neg (sgRepeat_of_next hnext), if_neg (by rw [segment_unblocked hfence hlive ha hb hfree hstrm hstop hstay]; decide), if_neg (by omega),
      if_neg (by simp [hwork])]
    obtain ⟨l1, h1⟩ := enterLoops_eq d k (if seg.toNat = k.notSkipped 0 ∧ k.segs.length ≤ k.notSkipped d.pc ∨ d.ord = 0 then 0 else d.pc) seg.toNat
    rw [h1]
    refine ⟨⟨_, Table.lookup_insert_self .., ?_⟩, rfl⟩
    generalize hx : Domain.advance _ _ _ = x
    obtain ⟨p, l2, he⟩ := advance_eq _ k seg.toNat
    rw [hx] at he
    rw [he]
    exact ⟨⟨_, Table.lookup_insert_self .., rfl, rfl, rfl, rfl, rfl, rfl⟩, rfl, Table.read_insert_self .., rfl, rfl⟩
  case violated =>
    refine event_answers hup ?_
    dsimp only
    rw [hk, hd]
    dsimp only
    rw [if_neg (by simp [hmay, hnext])]
    have hsame : (if sgPatchPoint (k.seg seg.toNat) = true then s.boundary slot.toNat else s) = s := by
      rcases hpatch with h | h
      · rw [if_neg (by simp [h])]
      · rw [boundary_of_none hd h, ite_self]
    obtain ⟨hrun, -, hrunning, -⟩ := mayRun_iff hd hmay
    obtain ⟨t, ht, ⟨hsus, hwhy⟩, hrest⟩ := violateRun_rows hk hd hrun hbib (hbib ▸ hrunning) .quota seg.toNat
    rw [hsame, hk, hd]
    dsimp only
    rw [if_neg (sgRepeat_of_next hnext), if_neg (by rw [segment_unblocked hfence hlive ha hb hfree hstrm hstop hstay]; decide)]
    by_cases hs : d.s < sgFirst (k.seg seg.toNat) + sgS (k.seg seg.toNat)
    · rw [if_pos hs, ht]
      exact ⟨hsus, hwhy, hrest⟩
    · rw [if_neg hs, if_pos (by simp [hbad.resolve_left hs]), ht]
      exact ⟨hsus, hwhy, hrest⟩
  case finished =>
    refine event_answers hup ?_
    dsimp only
    rw [hk, hd]
    dsimp only
    rw [hl]
    dsimp only
    rw [if_pos ⟨hrun, by simp [hsus], hdone⟩]
    generalize hd1 : ({ d with
      live := d.live.remove seg.toNat, finishes := d.finishes.insert seg.toNat (d.finishes.read 0 seg.toNat + 1)
      ends := if sgStepEnd (k.seg seg.toNat) = true then d.ends ++ [l.ord] else d.ends } : Domain) = d1
    obtain ⟨h, hh, hclear⟩ := clearWriter_rows (s.setDomain slot.toNat d1) slot.toNat seg.toNat
    rw [hh]
    obtain ⟨x, hx, -, hsigA⟩ := issueSignal_rows { s.setDomain slot.toNat d1 with mem.hdrs := h } k (sgSigA (k.seg seg.toNat)) (d.passes.read 0 seg.toNat - 1)
    rw [hx]
    obtain ⟨y, hy, hkeep, hsigB⟩ := issueSignal_rows { s.setDomain slot.toNat d1 with mem.hdrs := h, crs.signals := x } k (sgSigB (k.seg seg.toNat))
      (d.passes.read 0 seg.toNat - 1)
    rw [hy]
    exact ⟨Table.lookup_insert_self .., fun n hn => hkeep _ (hsigA n hn), hsigB, fun e he hslot hseg => hclear e he (by rw [hslot]) (by rw [hseg]), rfl⟩
  case ended =>
    refine event_answers hup ?_
    dsimp only
    rw [hk, hd]
    dsimp only
    rw [hends]
    dsimp only
    rw [if_pos ⟨hrun, by simp [hsus], by simp [hheld], by simpa using hlast⟩]
    generalize hd1 : (if chKind k.hdr = 0 then _ else _ : Domain) = d1
    have hfields : d1.ends = rest ∧ d1.tokens = (if chKind k.hdr = 0 then d.tokens + 1 else d.tokens)
        ∧ d1.stepsDone = (if chKind k.hdr = 0 then d.stepsDone else d.stepsDone + 1) := by
      rw [← hd1]
      split_ifs <;> exact ⟨rfl, rfl, rfl⟩
    obtain ⟨⟨l, x, g, hfreed⟩, hentries⟩ := freeOrphans_rows (s.setDomain slot.toNat d1) slot.toNat d.tokenNo
    generalize State.freeOrphans _ _ _ = a at hfreed hentries ⊢
    have hcollect : Reruns slot.toNat a _ := collect_reruns a slot.toNat d.tokenNo
    generalize State.collect _ _ _ = b at hcollect ⊢
    obtain ⟨⟨y, z, hseeds⟩, htaken⟩ := takeSeeds_rows b k.bib
    generalize State.takeSeeds _ _ = e at hseeds htaken ⊢
    have hafter : Reruns slot.toNat e _ := .trans (takeOrders_reruns e slot.toNat) (.trans (boundary_reruns _) (joins_reruns 96 _))
    generalize State.joins _ _ _ = t at hafter ⊢
    obtain ⟨hlkrb, hbibsb, hmemb⟩ := hcollect.keeps
    obtain ⟨hlkrt, hbibst, hmemt⟩ := hafter.keeps
    have hda : a.domain slot.toNat = some d1 := by
      rw [hfreed]
      exact Table.lookup_insert_self ..
    obtain ⟨d2, hd2, hends2, htok2, hdone2⟩ := hcollect.domain hda
    obtain ⟨d3, hd3, hends3, htok3, hdone3⟩ := hafter.domain (d := d2) (by rw [hseeds]; exact hd2)
    refine ⟨⟨d3, hd3, hends3.trans (hends2.trans hfields.1), htok3.trans (htok2.trans hfields.2.1), hdone3.trans (hdone2.trans hfields.2.2)⟩,
      fun n => ?_, fun m hm => ?_, ?_, ?_⟩
    · rw [hlkrt, hseeds]
      dsimp only
      have hslot : n.slot.toNat ≠ slot.toNat ↔ n.slot ≠ slot := not_congr BitVec.toNat_inj
      rw [hlkrb, hentries, hslot]
      rfl
    · rw [hbibst]
      refine htaken m ?_
      rw [hbibsb, hfreed]
      exact hm
    · rw [hmemt, hseeds]
      dsimp only
      rw [hmemb, hfreed]
      rfl
    · rw [hbibst, hseeds]
      dsimp only
      rw [hbibsb, hfreed]
      rfl
  case held =>
    dsimp only
    split
    · split
      · exact if_neg (by simp [hheld])
      · rfl
    · rfl

end Machine
end Sys2Proof

/-! SUPPORT. What a use's start finds and begins, what its end leaves (O18). -/

namespace Sys2Proof
namespace Machine

theorem firstStop_of_good {l : List Access} (h : ∀ a ∈ l, ∃ x, a = .good x) : firstStop l = none := by
  induction l with
  | nil => rfl
  | cons a l ih =>
    obtain ⟨x, rfl⟩ := h _ (List.mem_cons_self ..)
    exact ih fun b hb => h b (List.mem_cons_of_mem _ hb)

theorem firstHdr_toList (o : Option TileHdr) : firstHdr (o.toList.map Access.good) = o := by cases o <;> rfl

/-! ## A use begun -/

/-- What a plane streams carries one scale, the plane's own (R154). -/
theorem headOf_plane_oneScale (s : State) {l : LapTile} {d : Nat} {sc : BitVec 8} {tr : Bool} (hsrc : l.src = .plane d sc tr) (hfmt : l.fmt ≠ .bf16) :
    LapTile.oneScale { l with head := s.headOf l } sc = true := by
  have helem (t i : Nat) (e : Nat × BitVec 8) (h : s.streamElem l t i = some e) : e.2 = sc := by
    unfold State.streamElem at h
    rw [hsrc] at h
    dsimp only at h
    obtain ⟨_, -, rfl⟩ := Option.map_eq_some_iff.mp h
    rfl
  have hfound (tp kp : Nat) : (((List.range 64).findSome? (fun e => s.streamElem l (8 * tp + e / 8) (l.col + 8 * kp + e % 8))).map (·.2)).elim true
      (fun b => decide (b = sc)) = true := by
    rcases hf : (List.range 64).findSome? (fun e => s.streamElem l (8 * tp + e / 8) (l.col + 8 * kp + e % 8)) with _ | e
    · rfl
    · obtain ⟨a, -, ha⟩ := List.exists_of_findSome?_eq_some hf
      exact decide_eq_true (helem _ _ e ha)
  unfold LapTile.oneScale State.headOf
  dsimp only
  rw [if_neg hfmt]
  simp only [List.all_map, List.all_eq_true, Function.comp_apply]
  exact fun tp _ kp _ => hfound tp kp

/-- From `s` to `t` a use stands on carve `ck` behind the others, as record `u` describes but for the tile that it laps. -/
structure Begun (s t : State) (ck : Nat) (u : UseCfg) : Prop where
  only : t = { s with arr := t.arr }
  length : (t.usesOf ck).length = (s.usesOf ck).length + 1
  mem : ∃ l r, { u with lap := l, ref := r } ∈ t.usesOf ck
  uses : (t.feeder ck).uses = u.ord + 1

theorem usesOf_setUses (s : State) (ck : Nat) (l : List UseCfg) : (s.setUses ck l).usesOf ck = l := Table.read_write_self ..

theorem feeder_setFeeder_self (s : State) (ck : Nat) (f : Feeder) : (s.setFeeder ck f).feeder ck = f := Table.read_write_self ..

/-- Whether a lapping tile can be taken by a use at once: what is gathered has the use's format, and in a distance mode one scale (R154, R80). -/
def LapTile.fits (l : LapTile) (u : UseCfg) : Prop :=
  ∀ d sc tr, l.src = .plane d sc tr → l.fmt = u.opFmt ∧ (u.mode ≠ 0 → l.fmt = .int8 ∧ sc = u.pc)

theorem acceptLap_of_fits {t : State} {l : LapTile} {u : UseCfg} {d : Nat} {sc : BitVec 8} {tr : Bool} (hsrc : l.src = .plane d sc tr) (hfit : l.fits u)
    (ck : Nat) : t.acceptLap ck u { l with head := t.headOf l }
      = t.setUse ck { u with lap := some { l with head := t.headOf l }, ref := t.productRef ck u { l with head := t.headOf l } } := by
  obtain ⟨hfmt, hscale⟩ := hfit d sc tr hsrc
  refine if_neg ?_
  rintro (h | ⟨hmode, h⟩)
  · exact h hfmt
  · obtain ⟨hint, hsc⟩ := hscale hmode
    have hone := headOf_plane_oneScale t hsrc (by rw [hint]; decide)
    rw [hsc] at hone
    simp [hone] at h

theorem beginUse_begun (s : State) (ck : Nat) (u : UseCfg) {lap : Option LapTile} (hlap : ∀ l, lap = some l → l.fits u) :
    Begun s (s.beginUse ck u lap) ck u := by
  have hplain : Begun s ((s.setFeeder ck { s.feeder ck with uses := u.ord + 1, gens := u.gen }).setUses ck (s.usesOf ck ++ [u])) ck u := by
    refine ⟨rfl, ?_, ⟨u.lap, u.ref, ?_⟩, ?_⟩
    · rw [usesOf_setUses, List.length_append, List.length_singleton]
    · rw [usesOf_setUses]
      exact List.mem_append_right _ (List.mem_singleton_self _)
    · exact congrArg Feeder.uses (feeder_setFeeder_self s ck { s.feeder ck with uses := u.ord + 1, gens := u.gen })
  unfold State.beginUse
  dsimp only
  generalize State.setUses _ _ _ = t at hplain ⊢
  obtain ⟨honly, hlen, ⟨l', r', hmem⟩, hcount⟩ := hplain
  rcases lap with _ | l
  · exact ⟨honly, hlen, ⟨l', r', hmem⟩, hcount⟩
  dsimp only
  split
  next d sc tr hsrc =>
    rw [acceptLap_of_fits hsrc (hlap l rfl)]
    have huses := usesOf_setUse t ck { u with lap := some { l with head := t.headOf l }, ref := t.productRef ck u { l with head := t.headOf l } }
    refine ⟨?_, ?_, ⟨_, _, by rw [huses]; exact List.mem_map.mpr ⟨_, hmem, if_pos rfl⟩⟩, hcount⟩
    · exact Eq.trans (congrArg (fun x : State => x.setUse ck { u with lap := some { l with head := t.headOf l }
                                                                      ref := t.productRef ck u { l with head := t.headOf l } }) honly) rfl
    · rw [huses, List.length_map, hlen]
  next => exact ⟨by rw [honly], hlen, ⟨l', r', hmem⟩, hcount⟩

theorem conflicts_eq (s : State) (c : Nat) (k : Course) (seg use : Nat) (l : List ((Nat × Nat) × Bool)) :
    ∃ x g, s.conflicts c k seg use l = { s with ctr := x, log := g } := by
  unfold State.conflicts
  dsimp only
  split_ifs
  · exact ⟨s.ctr, s.log, rfl⟩
  · exact count_eq ..

/-- What may differ when a use has claimed its output tile (R80). -/
def Claims (s t : State) : Prop := t = { s with ctr := t.ctr, log := t.log, mem.hdrs := t.mem.hdrs, lkr.shadows := t.lkr.shadows }

theorem Claims.refl (s : State) : Claims s s := rfl

theorem Claims.trans {s t u : State} (h : Claims s t) (h' : Claims t u) : Claims s u :=
  Eq.trans h' (congrArg (fun x : State => { x with ctr := u.ctr, log := u.log, mem.hdrs := u.mem.hdrs, lkr.shadows := u.lkr.shadows }) h)

theorem conflicts_claims (s : State) (c : Nat) (k : Course) (seg use : Nat) (l : List ((Nat × Nat) × Bool)) : Claims s (s.conflicts c k seg use l) := by
  obtain ⟨x, g, h⟩ := conflicts_eq s c k seg use l
  rw [h]
  rfl

theorem claimOut_claims (s : State) (u : UseCfg) (h : TileHdr) : Claims s (s.claimOut u h) := rfl

/-- What a use's start leaves once its output has been claimed (R80, R167). -/
theorem begun_rows {s s2 : State} {c ck seg : Nat} {d1 : Domain} {u : UseCfg} {lap : Option LapTile} {l1 : LiveSeg} {Q : UseCfg → Prop}
    (hclaims : Claims (s.setDomain c d1) s2) (hlap : ∀ l, lap = some l → l.fits u) (hQ : ∀ l r, Q { u with lap := l, ref := r })
    (hord : u.ord = (s.feeder ck).uses) (hlive : d1.live.lookup seg = some l1) :
    let t := s2.beginUse ck u lap
    (t.usesOf ck).length = (s.usesOf ck).length + 1 ∧ (∃ v ∈ t.usesOf ck, Q v) ∧ (t.feeder ck).uses = (s.feeder ck).uses + 1
      ∧ (∃ y, t.domain c = some y ∧ y.live.lookup seg = some l1) ∧ t.mem.bytes = s.mem.bytes ∧ t.bibs = s.bibs := by
  obtain ⟨honly, hlen, ⟨l, r, hmem⟩, huses⟩ := beginUse_begun s2 ck u hlap
  intro t
  have harr : s2.arr = s.arr := (congrArg State.arr hclaims).trans rfl
  have hus : s2.usesOf ck = s.usesOf ck := by rw [State.usesOf, State.usesOf, harr]
  refine ⟨by rw [hlen, hus], ⟨_, hmem, hQ l r⟩, by rw [huses, hord], ⟨d1, ?_, hlive⟩, ?_, ?_⟩
  · have hdom : t.domain c = s2.domain c := (congrArg (fun x : State => x.domain c) honly).trans rfl
    exact hdom.trans ((congrArg (fun x : State => x.domain c) hclaims).trans (Table.lookup_insert_self s.crs.domains c d1))
  · exact ((congrArg (fun x : State => x.mem.bytes) honly).trans rfl).trans ((congrArg (fun x : State => x.mem.bytes) hclaims).trans rfl)
  · exact ((congrArg (fun x : State => x.bibs) honly).trans rfl).trans ((congrArg (fun x : State => x.bibs) hclaims).trans rfl)

/-! ## A use ended -/

theorem productCheck_observes (s : State) (ck : Nat) (u : UseCfg) : Observes s (s.productCheck ck u) := by
  unfold State.productCheck
  split
  · split_ifs
    · exact check_observes ..
    · exact .refl s
  · exact .refl s

theorem dropUse_usesOf (s : State) (ck : Nat) (u : UseCfg) : (s.dropUse ck u).usesOf ck = (s.usesOf ck).filter (fun v => v.ord ≠ u.ord) :=
  usesOf_setUses s ck _

theorem commitOut_onlyMem (s : State) (u : UseCfg) : ∃ m, s.commitOut u = { s with mem := m } ∧ m.bytes = s.mem.bytes := by
  unfold State.commitOut
  dsimp only
  split
  next h _ =>
    split_ifs
    · obtain ⟨m, hm, hbytes, -⟩ := retile_onlyMem s h { h with
        terms := 0, wslot := BitVec.ofNat 8 u.slot.toNat, wseg := BitVec.ofNat 20 u.seg, wact := true, nonfin := false
        version := h.version + 1, epoch := (s.bib h.id.bib).curEpoch } u.out
      unfold State.writeTile
      rw [hm]
      split
      · exact ⟨_, rfl, hbytes⟩
      · exact ⟨_, rfl, hbytes⟩
    · exact ⟨_, rfl, rfl⟩
  next => exact ⟨_, rfl, rfl⟩

/-- Settles O18. -/
theorem useRows : Obligations.UseRows := by
  simp only [Obligations.UseRows, Answers, exec]
  refine ⟨fun s slot seg use off pass x k d l fo fs fu hs ho hu hup hk hd hl hmay hoff hnext hgate hstn hfo hfs hfu hst hop hnop hout hnout hpost hplane hmode
    hroute hscale hseed hacc hroom => ?started, fun s slot off k d u rest l hup hk hd huses hslot hl hdone => ?finished⟩
  case started =>
    refine event_answers hup ?_
    dsimp only
    rw [hk, hd]
    dsimp only
    rw [hl]
    dsimp only
    rw [if_neg (by rw [hmay, hnext, hgate]; simpa using hoff), if_neg (by omega), hfo, hfs, hfu]
    dsimp only
    rw [hst]
    generalize 4 * d.run.getD (sgFirst (k.seg seg.toNat) + off.toNat) 0 + d.quarter = ck at *
    have hinj : (decide (usVisits (k.use use.toNat) ≠ 0) && !usGathers (k.use use.toNat)) = true
        ↔ usVisits (k.use use.toNat) ≠ 0 ∧ usGathers (k.use use.toNat) = false := by simp
    have hopA : (if (decide (usVisits (k.use use.toNat) ≠ 0) && !usGathers (k.use use.toNat)) = true then
        [s.access ck slot.toNat k seg.toNat use.toNat (s.resolve slot.toNat k (usOpTensor (k.use use.toNat)))
          (tileRef (usOpBase (k.use use.toNat)) (usOpDs (k.use use.toNat)) (usOpDi (k.use use.toNat)) off.toNat pass.toNat) (usOpFmt (k.use use.toNat)) true]
        else []) = ho.toList.map Access.good := by
      split_ifs with h
      · obtain ⟨y, rfl, hy⟩ := hop (hinj.mp h)
        rw [hy]
        rfl
      · rw [hnop (mt hinj.mpr h)]
        rfl
    have houtA : (if usRoute (k.use use.toNat) = 0 ∧ (s.mirrorOf k.bib (BitVec.ofNat 24 (usOutTensor (k.use use.toNat)))).isNone = true then
        [s.access ck slot.toNat k seg.toNat use.toNat (usOutTensor (k.use use.toNat))
          (tileRef (usOutBase (k.use use.toNat)) (usOutDs (k.use use.toNat)) (usOutDi (k.use use.toNat)) off.toNat pass.toNat) (usOutFmt (k.use use.toNat)) false]
        else []) = hu.toList.map Access.good := by
      split_ifs with h
      · obtain ⟨y, rfl, hy⟩ := hout (h.imp_right Option.isNone_iff_eq_none.mp)
        rw [hy]
        rfl
      · rw [hnout (mt (And.imp_right Option.isNone_iff_eq_none.mpr) h)]
        rfl
    have hgood : firstStop (Access.good hs :: ho.toList.map Access.good ++ hu.toList.map Access.good
        ++ (x.post.flatMap (fun f => puTiles (postExpr f))).map (fun e =>
          s.access ck slot.toNat k seg.toNat use.toNat e.1.toNat (e.2.toNat : Int) (tnFmt (k.tensor e.1.toNat)) true)) = none := by
      refine firstStop_of_good fun a ha => ?_
      simp only [List.mem_append, List.mem_cons, List.mem_map, List.mem_flatMap] at ha
      rcases ha with ((rfl | ⟨y, -, rfl⟩) | ⟨y, -, rfl⟩) | ⟨e, ⟨f, hf, he⟩, rfl⟩
      · exact ⟨hs, rfl⟩
      · exact ⟨y, rfl⟩
      · exact ⟨y, rfl⟩
      · exact hpost f hf e he
    have hplaneOk : (if usGathers (k.use use.toNat) = true then s.planeFault k.bib (k.convs.getD (usConv (k.use use.toNat)) 0)
        (d.run.getD (sgFirst (k.seg seg.toNat) + off.toNat) 0 / 26) else none) = none := by
      split_ifs with h
      · exact (hplane h).1
      · rfl
    rw [hopA, houtA, hgood, hplaneOk]
    simp only [firstHdr_toList]
    rw [show firstHdr [Access.good hs] = some hs from rfl]
    dsimp only
    have hpair : ¬(usMode (k.use use.toNat) = 0 ∧ (!pairing fo fs) = true) := by
      rintro ⟨h0, h⟩
      rcases hmode with ⟨-, hp⟩ | ⟨h1, -⟩
      · rw [hp] at h
        exact absurd h (by decide)
      · exact h1 h0
    have hdist : ¬(usMode (k.use use.toNat) ≠ 0 ∧ (!(decide (fo = Fmt.int8) && decide (fs = Fmt.int8) && decide (usOrient (k.use use.toNat) = 0)
        && (decide (fu = Fmt.fp32) || decide (fu = Fmt.w40)) && s.oneScale hs.home (s.byte (homeKey hs.home))
        && (ho.elim true fun h => s.oneScale h.home (s.byte (homeKey hs.home)))
        && (!usGathers (k.use use.toNat) || decide (s.planeScale k.bib (cvPlane (k.convs.getD (usConv (k.use use.toNat)) 0)) = s.byte (homeKey hs.home)))))
        = true) := by
      rintro ⟨hm, h⟩
      rcases hmode with ⟨h0, -⟩ | ⟨-, hfo8, hfs8, horient, hout8, hone, hsame⟩
      · exact hm h0
      · have helim : (ho.elim true fun h => s.oneScale h.home (s.byte (homeKey hs.home))) = true := by
          rcases ho with _ | y
          · rfl
          · exact hone y (.inr rfl)
        have hgath : (!usGathers (k.use use.toNat) || decide (s.planeScale k.bib (cvPlane (k.convs.getD (usConv (k.use use.toNat)) 0))
            = s.byte (homeKey hs.home))) = true := by
          cases hg : usGathers (k.use use.toNat)
          · rfl
          · exact decide_eq_true (hsame hg)
        rw [helim, hgath, hone hs (.inl rfl), decide_eq_true hfo8, decide_eq_true hfs8, decide_eq_true horient] at h
        rcases hout8 with rfl | rfl <;> exact absurd h (by decide)
    have hgathered : ¬(usGathers (k.use use.toNat) = true ∧ (!planeFmt fo) = true) := by
      rintro ⟨hg, h⟩
      rw [(hplane hg).2] at h
      exact absurd h (by decide)
    have hrouted : ¬(usRoute (k.use use.toNat) = 1 ∧ (!(planeFmt fu || decide (fu = Fmt.w40))) = true) := by
      rintro ⟨hr, h⟩
      rcases hroute hr with h' | h' <;> simp [h'] at h
    have hscaled : ¬(hasScale fu = true ∧ (s.scaleRec slot.toNat (usGroup (k.use use.toNat))).isNone = true) := by
      rintro ⟨hf, h⟩
      obtain ⟨y, hy, -⟩ := hscale hf
      rw [hy] at h
      exact absurd h (by simp)
    have hscaleFmt : ¬(hasScale fu = true ∧ (s.scaleRec slot.toNat (usGroup (k.use use.toNat))).any
        (fun x => decide (x.fmt.toNat ≠ usOutFmt (k.use use.toNat))) = true) := by
      rintro ⟨hf, h⟩
      obtain ⟨y, hy, hfmt⟩ := hscale hf
      rw [hy] at h
      simp [hfmt] at h
    have hdrops : ¬(usSeed (k.use use.toNat) = 15 ∧ (x.post.any fun f => puDrops (postExpr f)) = true) := by
      rintro ⟨hs15, h⟩
      obtain ⟨f, hf, hdrop⟩ := List.any_eq_true.mp h
      rw [hseed hs15 f hf] at hdrop
      exact absurd hdrop (by decide)
    have hfree : ¬(usAcc (k.use use.toNat) ≠ 2 ∧ hu.any (fun h => h.wact && (decide (h.wslot ≠ slot) || decide (h.wseg ≠ seg))) = true) := by
      rintro ⟨ha, h⟩
      rcases hu with _ | y
      · exact absurd h (by simp)
      · simp only [Option.any_some, Bool.and_eq_true, Bool.or_eq_true, decide_eq_true_eq] at h
        obtain ⟨hslot, hseg⟩ := hacc ha y rfl h.1
        exact h.2.elim (· hslot) (· hseg)
    have hqueue : ¬((decide (usVisits (k.use use.toNat) ≠ 0) && !usGathers (k.use use.toNat)) = true ∧ (!s.queueRoom ck (tileBytes fo)) = true) := by
      rintro ⟨hi, h⟩
      rw [hroom (hinj.mp hi)] at h
      exact absurd h (by decide)
    rw [if_neg hpair, if_neg hdist, if_neg hgathered, if_neg hrouted, if_neg hscaled, if_neg hscaleFmt, if_neg hdrops, if_neg hfree, if_neg hqueue]
    refine begun_rows (s := s) (c := slot.toNat) (l1 := { l with begun := l.begun.insert off.toNat (l.begun.read 0 off.toNat + 1) })
      (d1 := { d with live := d.live.insert seg.toNat { l with begun := l.begun.insert off.toNat (l.begun.read 0 off.toNat + 1) } }) ?claims ?lap ?fields rfl (Table.lookup_insert_self ..)
    case claims =>
      rcases hu with _ | h
      · exact conflicts_claims ..
      · dsimp only
        split
        · exact conflicts_claims ..
        · exact .trans (conflicts_claims ..) (claimOut_claims ..)
    case lap =>
      intro lt hlt dn sc tr hsrc
      split at hlt
      · cases hlt
      obtain rfl := Option.some.inj hlt
      dsimp only at hsrc
      split_ifs at hsrc with hg
      obtain ⟨-, rfl, -⟩ := LapSrc.plane.inj hsrc
      refine ⟨rfl, fun hm => ?_⟩
      rcases hmode with ⟨h0, -⟩ | ⟨-, hfo8, -, -, -, -, hsame⟩
      · exact absurd (congrArg (BitVec.ofNat 4) h0) hm
      · exact ⟨hfo8, hsame hg⟩
    case fields =>
      exact fun lt rf => ⟨rfl, rfl, rfl, rfl, rfl, rfl, rfl, rfl, rfl, rfl, rfl, rfl, rfl, rfl, rfl, fun y hy => by rw [hy]; rfl⟩
  case finished =>
    refine event_answers hup ?_
    dsimp only
    rw [hk, hd]
    dsimp only
    rw [huses]
    dsimp only
    rw [hl]
    dsimp only
    rw [if_neg (by rw [hdone, hslot]; simp)]
    generalize 4 * d.run.getD off.toNat 0 + d.quarter = ck at *
    generalize hst : u.off - sgFirst (k.seg u.seg) = st
    generalize hl1 : ({ l with done := l.done.insert st (l.done.read 0 st + 1) } : LiveSeg) = l1
    generalize hd1 : ({ d with usePass := d.usePass.insert (u.use * 128 + st) (d.usePass.read 0 (u.use * 128 + st) + 1), unwinds := 0
                               live := d.live.insert u.seg l1 } : Domain) = d1
    have hcheck := productCheck_observes (s.setDomain slot.toNat d1) ck u
    generalize State.productCheck _ ck u = t1 at hcheck ⊢
    have huses1 : t1.usesOf ck = u :: rest := ((congrArg (fun x : State => x.usesOf ck) hcheck).trans rfl).trans huses
    have hdrop := dropUse_usesOf t1 ck u
    rw [huses1, List.filter_cons_of_neg (by simp)] at hdrop
    obtain ⟨m, hm, hbytes⟩ := commitOut_onlyMem (t1.dropUse ck u) u
    rw [hm]
    obtain ⟨x, hx, -, hsig⟩ := issueSignal_rows { t1.dropUse ck u with mem := m } k (usSig (k.use u.use))
      (d.usePass.read 0 (u.use * 128 + st))
    rw [hx]
    refine ⟨hdrop, ?_, hsig, ?_, ?_, ?_⟩
    · exact ((congrArg (fun x : State => x.domain slot.toNat) hcheck).trans rfl).trans (Table.lookup_insert_self s.crs.domains slot.toNat d1)
    · exact hbytes.trans ((congrArg (fun x : State => x.mem.bytes) hcheck).trans rfl)
    · exact (congrArg (fun x : State => x.bibs) hcheck).trans rfl
    · exact (congrArg (fun x : State => x.rink) hcheck).trans rfl

end Machine
end Sys2Proof

/-! SUPPORT. Faults in carves, their containment and the clear of their quarters (O25). -/

namespace Sys2Proof
namespace Machine

theorem OnlySuspends.rink {s t : State} (h : OnlySuspends s t) : t.rink = s.rink := by
  obtain ⟨_, _, _, _, _, _, rfl⟩ := h
  rfl

/-! ## Quarter masks -/

theorem getLsbD_maskOf {w i : Nat} (hi : i < w) (l : List Nat) : (maskOf w l).getLsbD i = decide (i ∈ l) := by
  induction l with
  | nil => simp [maskOf]
  | cons a l ih =>
    rw [maskOf, BitVec.getLsbD_or, ih, BitVec.getLsbD_ofNat, decide_eq_true hi, Bool.true_and, Nat.testBit_two_pow]
    simp only [List.mem_cons, Bool.decide_or, eq_comm]

theorem faulty_getLsbD (r : Stn) (l : List Nat) {i : Nat} (hi : i < 4) : (r.faulty l).fault.getLsbD i = (r.fault.getLsbD i || decide (i ∈ l)) := by
  rw [Stn.faulty, BitVec.getLsbD_or, getLsbD_maskOf hi]

/-! ## The quarters of a carve -/

theorem carveWidth_cases (code : Nat) : carveWidth code = 4 ∨ carveWidth code = 2 ∨ carveWidth code = 1 := by
  unfold carveWidth
  split_ifs <;> simp

theorem mem_carveQuarters_self (s : State) (p q : Nat) : q ∈ s.carveQuarters p q := by
  have hw : 0 < carveWidth (s.stn p).width.toNat := by
    rcases carveWidth_cases (s.stn p).width.toNat with h | h | h <;> omega
  exact List.mem_map.mpr ⟨q % _, List.mem_range.mpr (Nat.mod_lt q hw), Nat.div_add_mod' q _⟩

theorem lt_four_of_mem_carveQuarters {s : State} {p q i : Nat} (hq : q < 4) (h : i ∈ s.carveQuarters p q) : i < 4 := by
  obtain ⟨j, hj, rfl⟩ := List.mem_map.mp h
  have hlt := List.mem_range.mp hj
  unfold groupOf
  rcases carveWidth_cases (s.stn p).width.toNat with h | h | h <;> rw [h] at hlt ⊢ <;> omega

/-- A stopped carve drains and has no use (R69). -/
theorem stopCarve_stops (s : State) (p q : Nat) {i : Nat} (hi : i ∈ s.carveQuarters p q) :
    4 * p + i ∈ (s.stopCarve p q).rink.draining ∧ (s.stopCarve p q).arr.uses.lookup (4 * p + i) = none := by
  have hmem : 4 * p + i ∈ (s.carveQuarters p q).map (fun j => 4 * p + j) := List.mem_map.mpr ⟨i, hi, rfl⟩
  constructor
  · by_cases h : 4 * p + i ∈ s.rink.draining
    · exact List.mem_append_left _ h
    · exact List.mem_append_right _ (List.mem_filter.mpr ⟨hmem, by simpa using h⟩)
  · exact (Table.lookup_keep _ s.arr.uses (4 * p + i)).trans (if_neg (by simpa using hmem))

theorem stopCarve_stn (s : State) (p q : Nat) : (s.stopCarve p q).stn p = (s.stn p).faulty [q] := stn_setStn_self ..

theorem toClear_eq (s : State) (p : Nat) (qs : List Nat) : ∃ x, s.toClear p qs = { s with rink := x } := ⟨_, rfl⟩

theorem toClear_stn (s : State) (p : Nat) (qs : List Nat) :
    (s.toClear p qs).stn p = { s.stn p with clearing := (s.stn p).clearing ||| maskOf 4 qs } := stn_setStn_self ..

theorem toClear_clearing (s : State) (p : Nat) {qs : List Nat} {q : Nat} (hq : q ∈ qs) : 4 * p + q ∈ (s.toClear p qs).rink.clearing := by
  have hmem : 4 * p + q ∈ qs.map (fun j => 4 * p + j) := List.mem_map.mpr ⟨q, hq, rfl⟩
  by_cases h : 4 * p + q ∈ s.rink.clearing
  · exact List.mem_append_left _ h
  · exact List.mem_append_right _ (List.mem_filter.mpr ⟨hmem, by simpa using h⟩)

theorem toClear_draining (s : State) (p : Nat) {qs : List Nat} {q : Nat} (hq : q ∈ qs) : 4 * p + q ∉ (s.toClear p qs).rink.draining := by
  have hmem : 4 * p + q ∈ qs.map (fun j => 4 * p + j) := List.mem_map.mpr ⟨q, hq, rfl⟩
  intro h
  have := (List.mem_filter.mp h).2
  simp only [List.contains_eq_mem, hmem, decide_true, Bool.not_true, Bool.false_eq_true] at this

/-! ## Containment -/

/-- In `t` every fault bit of station `p` that `s` had is set, and no byte has changed. -/
def KeepsFaults (p : Nat) (s t : State) : Prop :=
  (∀ i < 4, (s.stn p).fault.getLsbD i = true → (t.stn p).fault.getLsbD i = true) ∧ t.mem.bytes = s.mem.bytes

theorem KeepsFaults.trans {p : Nat} {s t u : State} (h : KeepsFaults p s t) (h' : KeepsFaults p t u) : KeepsFaults p s u :=
  ⟨fun i hi hs => h'.1 i hi (h.1 i hi hs), h'.2.trans h.2⟩

/-- A quarter's containment marks it faulty (C1). -/
theorem contain_marks (s : State) (p : Nat) {q : Nat} (hq : q < 4) (kind : FaultKind) :
    KeepsFaults p s (s.contain p q kind) ∧ ((s.contain p q kind).stn p).fault.getLsbD q = true := by
  have hfault (t : State) (hstn : (t.stn p).fault = ((s.stn p).faulty [q]).fault) (hb : t.mem.bytes = s.mem.bytes) :
      KeepsFaults p s t ∧ (t.stn p).fault.getLsbD q = true := by
    refine ⟨⟨fun i hi h => ?_, hb⟩, ?_⟩
    · rw [hstn, faulty_getLsbD _ _ hi, h, Bool.true_or]
    · rw [hstn, faulty_getLsbD _ _ hq]
      simp
  have hstopped {u t : State} (hu : u.rink = (s.stopCarve p q).rink) (hub : u.mem.bytes = s.mem.bytes) (h : OnlySuspends u t) :
      KeepsFaults p s t ∧ (t.stn p).fault.getLsbD q = true := by
    refine hfault t ?_ (h.bytes.trans hub)
    rw [← stopCarve_stn, State.stn, h.rink, hu, ← State.stn]
  unfold State.contain
  dsimp only
  split_ifs with hb h
  · exact hfault _ (congrArg Stn.fault (stn_setStn_self ..)) rfl
  · have hstn := congrArg Stn.fault (toClear_stn (s.setStn p ((s.stn p).faulty [q])) p [q])
    dsimp only at hstn
    rw [stn_setStn_self] at hstn
    exact hfault _ hstn rfl
  · split
    · split
      · refine hstopped ?_ ?_ (violateAs_onlySuspends ..)
        · rw [show (4 * p + q) / 4 = p by omega, show (4 * p + q) % 4 = q by omega]
        · rfl
      · exact hstopped rfl rfl (suspend_onlySuspends ..)
    · exact hstopped rfl rfl (suspend_onlySuspends ..)

/-- A fault in a shared part marks all four quarters (R63). -/
theorem contain_all (s : State) (p : Nat) (kind : FaultKind) :
    (∀ i < 4, ((s.each [0, 1, 2, 3] (fun t i => t.contain p i kind)).stn p).fault.getLsbD i = true)
      ∧ (s.each [0, 1, 2, 3] (fun t i => t.contain p i kind)).mem.bytes = s.mem.bytes := by
  simp only [State.each, List.foldl_cons, List.foldl_nil]
  obtain ⟨k0, h0⟩ := contain_marks s p (q := 0) (by decide) kind
  generalize s.contain p 0 kind = s0 at *
  obtain ⟨k1, h1⟩ := contain_marks s0 p (q := 1) (by decide) kind
  generalize s0.contain p 1 kind = s1 at *
  obtain ⟨k2, h2⟩ := contain_marks s1 p (q := 2) (by decide) kind
  generalize s1.contain p 2 kind = s2 at *
  obtain ⟨k3, h3⟩ := contain_marks s2 p (q := 3) (by decide) kind
  generalize s2.contain p 3 kind = s3 at *
  refine ⟨fun i hi => ?_, ((k0.trans k1).trans (k2.trans k3)).2⟩
  interval_cases i
  · exact (k1.trans (k2.trans k3)).1 0 (by decide) h0
  · exact (k2.trans k3).1 1 (by decide) h1
  · exact k3.1 2 (by decide) h2
  · exact h3

/-- A residue fault suspends the bib of a bound quarter and stops its carve (C1 to C3). -/
theorem contain_bound {s : State} {p q : Nat} {b : BitVec 12} (hbib : (s.stn p).bibOf q = b) (hb : b ≠ 0) (hrun : (s.bib b).state = .running) :
    (s.contain p q .residue).isSuspended b .fault ∧ (s.contain p q .residue).rink = (s.stopCarve p q).rink
      ∧ (s.contain p q .residue).arr = (s.stopCarve p q).arr ∧ (s.contain p q .residue).ctr = s.ctr := by
  have hsusp (u : State) (h : u.bibs = s.bibs) (hr : u.rink = (s.stopCarve p q).rink) (ha : u.arr = (s.stopCarve p q).arr) (hc : u.ctr = s.ctr) :
      (u.suspend b .fault 0).isSuspended b .fault ∧ (u.suspend b .fault 0).rink = (s.stopCarve p q).rink
        ∧ (u.suspend b .fault 0).arr = (s.stopCarve p q).arr ∧ (u.suspend b .fault 0).ctr = s.ctr := by
    have hrun' : (u.bib b).state = .running := by rw [State.bib, h]; exact hrun
    obtain ⟨e, d, m, he⟩ := suspend_of_running hrun' .fault 0
    refine ⟨suspend_isSuspended hrun' .fault 0, ?_, ?_, ?_⟩
    · rw [he]; exact hr
    · rw [he]; exact ha
    · rw [he]; exact hc
  unfold State.contain
  dsimp only
  rw [hbib, if_neg hb]
  split
  · exact hsusp _ rfl rfl rfl rfl
  · exact hsusp _ rfl rfl rfl rfl

/-! ## The clear -/

theorem loseBank_rows (s : State) (p q : Nat) : ∃ h m, s.loseBank p q = { s with mem.hdrs := h, cmd := m } := by
  refine each_rel (R := fun s t : State => ∃ h m, t = { s with mem.hdrs := h, cmd := m }) (fun s => ⟨_, _, rfl⟩) ?_ (fun s k => ?_) _ s
  · rintro a b c ⟨_, _, rfl⟩ ⟨_, _, rfl⟩
    exact ⟨_, _, rfl⟩
  · cases hl : s.mem.hdrs.lookup k with
    | none => exact ⟨s.mem.hdrs, s.cmd, by rw [State.loseTile, hl]⟩
    | some h =>
      obtain ⟨m, hm⟩ := loseTile_of_lookup hl
      exact ⟨_, m, hm⟩

theorem cellKey_div {row col : Nat} (p : Nat) (hr : row < 260) (hc : col < 260) : cellKey p row col / 67600 = p := by
  unfold cellKey
  omega

theorem cellKey_mod {row col : Nat} (p : Nat) (hc : col < 260) : cellKey p row col % 260 = col := by
  unfold cellKey
  omega

theorem bind_withdraw (r : Stn) (q : Nat) (b : BitVec 12) : (r.bind q b).withdraw = r.withdraw := by
  unfold Stn.bind
  split <;> rfl

theorem bibOf_withdrawn (r : Stn) (q : Nat) (w d : Bool) : ({ r with withdraw := w, wdDone := d } : Stn).bibOf q = r.bibOf q := by
  unfold Stn.bibOf
  split <;> rfl

/-- Settles O25. -/
theorem carveFaultRows : Obligations.CarveFaultRows := by
  simp only [Obligations.CarveFaultRows, Answers, exec]
  refine ⟨fun s stn q b hup hbib hb hrun => ?residue, fun s stn q hup hbib hchk => ?unbound, fun s stn q hup => ?shared, fun s stn q hup hdr => ?drained,
    fun s stn q hup hclr hleave => ?cleared, fun s stn q hup hchk => ?passed, fun s stn q hup hchk => ?failed⟩
  case residue =>
    refine event_answers hup ?_
    dsimp only
    obtain ⟨x, g, hcount⟩ := count_eq s 0x0304 (4 * stn.val + q.val) 1
    have hcounter := count_counter s 0x0304 (4 * stn.val + q.val) 1
    rw [hcount] at hcounter ⊢
    obtain ⟨⟨hstate, hwhy⟩, hrink, harr, hctr⟩ := contain_bound (s := { s with ctr := x, log := g }) hbib hb hrun
    obtain ⟨⟨-, hbytes⟩, hbit⟩ := contain_marks { s with ctr := x, log := g } stn.val q.isLt .residue
    refine ⟨hstate, hwhy, hbit, fun i hi => ?_, ?_, hbytes⟩
    · rw [hrink, harr]
      exact stopCarve_stops { s with ctr := x, log := g } stn.val q.val hi
    · rw [State.counter, hctr]
      exact hcounter
  case unbound =>
    refine event_answers hup ?_
    dsimp only
    refine ⟨(contain_marks s stn.val q.isLt .sram).2, ?_⟩
    unfold State.contain
    dsimp only
    rw [if_pos hbib]
    split_ifs with h
    · rcases Bool.or_eq_true_iff.mp h with h | h
      · exact ⟨by simpa using h, rfl⟩
      · exact absurd (by simpa using h) hchk
    · exact ⟨toClear_clearing _ _ (List.mem_singleton_self _), rfl⟩
  case shared =>
    refine event_answers hup ?_
    dsimp only
    obtain ⟨hbits, hbytes⟩ := contain_all s stn.val .shared
    generalize State.each _ _ _ = t at hbits hbytes ⊢
    have hstn : (t.writeWithdraw stn.val true).stn stn.val = _ := stn_setStn_self ..
    rw [hstn]
    exact ⟨rfl, hbits, hbytes⟩
  case drained =>
    refine event_answers hup ?_
    dsimp only
    generalize hqs : (s.carveQuarters stn.val q.val).filter (fun i => s.rink.draining.contains (4 * stn.val + i)) = qs
    have hq : q.val ∈ qs := by
      rw [← hqs]
      exact List.mem_filter.mpr ⟨mem_carveQuarters_self .., by simpa using hdr⟩
    rw [if_neg (List.ne_nil_of_mem hq)]
    refine ⟨toClear_draining s stn.val hq, toClear_clearing s stn.val hq, ?_, fun row col hr hc hcq => ?_, ?_, rfl⟩
    · refine (congrArg (fun r : Stn => r.clearing.getLsbD q.val) (toClear_stn s stn.val qs)).trans ?_
      dsimp only
      rw [BitVec.getLsbD_or, getLsbD_maskOf q.isLt, decide_eq_true hq, Bool.or_true]
    · unfold State.cell Table.read
      dsimp only
      rw [Table.lookup_each]
      rw [cellKey_div stn.val hr hc, cellKey_mod stn.val hc, hcq]
      have hcond : stn.val = stn.val ∧ qs.contains q.val = true := ⟨rfl, by simpa using hq⟩
      cases (s.toClear stn.val qs).arr.cells.lookup (cellKey stn.val row col) with
      | none => exact ⟨rfl, rfl⟩
      | some c =>
        rw [Option.map_some, if_pos hcond]
        exact ⟨rfl, rfl⟩
    · unfold Table.read
      dsimp only
      rw [Table.lookup_keep, if_neg]
      · rfl
      · simpa using hq
  case cleared =>
    refine event_answers hup ?_
    dsimp only
    rw [if_pos (by rw [hleave]; simpa using hclr)]
    obtain ⟨h, m, hlose⟩ := loseBank_rows s stn.val q.val
    rw [hlose]
    refine ⟨fun a => ?_, ?_, List.mem_append_right _ (List.mem_singleton_self _), ?_,
      fun row col hr hc hcq => ?_, rfl⟩
    · refine (zeroBytes_byte s (bankKey stn.val q.val) 0x140000 a).trans ?_
      by_cases h : bankKey stn.val q.val ≤ a ∧ a < bankKey stn.val q.val + 0x140000
      · rw [if_pos h, if_neg (by omega)]
      · rw [if_neg h, if_pos (by omega)]
    · exact fun hm => absurd rfl (of_decide_eq_true (List.mem_filter.mp hm).2)
    · refine (congrArg (fun r : Stn => r.clearing.getLsbD q.val) (stn_setStn_self ..)).trans ?_
      dsimp only
      rw [BitVec.getLsbD_and, BitVec.getLsbD_not, getLsbD_maskOf q.isLt]
      simp
    · unfold State.cell Table.read
      dsimp only
      rw [Table.lookup_keep, cellKey_div stn.val hr hc, cellKey_mod stn.val hc, hcq, if_neg (by simp)]
      rfl
  case passed =>
    refine event_answers hup ?_
    dsimp only
    rw [if_pos (by simpa using hchk)]
    have hstn : (s.setStn stn.val ((s.stn stn.val).bind q.val 0)).stn stn.val = _ := stn_setStn_self ..
    refine ⟨?_, ?_, ?_, fun p hp => stn_setStn_ne s hp _, rfl⟩
    · exact (congrArg (Stn.bibOf · q.val) hstn).trans (bibOf_bind_self ..)
    · exact fun hm => absurd rfl (of_decide_eq_true (List.mem_filter.mp hm).2)
    · exact (congrArg Stn.withdraw hstn).trans (bind_withdraw ..)
  case failed =>
    refine event_answers hup ?_
    dsimp only
    rw [if_pos (by simpa using hchk), if_neg Bool.false_ne_true]
    generalize hu : ({ s.setStn stn.val ((s.stn stn.val).bind q.val 0) with
      rink.checking := (s.setStn stn.val ((s.stn stn.val).bind q.val 0)).rink.checking.filter (fun i => i ≠ 4 * stn.val + q.val) } : State) = u
    have hstn : (u.writeWithdraw stn.val true).stn stn.val = _ := stn_setStn_self ..
    have hbound : u.stn stn.val = (s.stn stn.val).bind q.val 0 := by
      rw [← hu]
      exact stn_setStn_self ..
    rw [hstn]
    refine ⟨?_, rfl, ?_⟩
    · rw [bibOf_withdrawn, hbound, bibOf_bind_self]
    · rw [← hu]
      rfl

end Machine
end Sys2Proof

/-! SUPPORT. What enters the array: elements at taps, weights, anchors (O21). -/

namespace Sys2Proof
namespace Machine

theorem cell_setCell_self (s : State) (p row col : Nat) (c : Cell) : (s.setCell p row col c).cell p row col = c := Table.read_write_self ..

theorem cell_setCell_ne (s : State) {p row col p' row' col' : Nat} (h : cellKey p row col ≠ cellKey p' row' col') (c : Cell) :
    (s.setCell p row col c).cell p' row' col' = s.cell p' row' col' := Table.read_write_ne _ _ h _

theorem feeder_setFeeder_ne (s : State) {k n : Nat} (h : k ≠ n) (f : Feeder) : (s.setFeeder k f).feeder n = s.feeder n := Table.read_write_ne _ _ h _

theorem cell_setFeeder (s : State) (k : Nat) (f : Feeder) (p row col : Nat) : (s.setFeeder k f).cell p row col = s.cell p row col := rfl

/-! ## An element enters a tap -/

/-- The load-complete tokens that a swap has used up (R51). -/
theorem useLoads_rows (s : State) (ck : Nat) : ∀ w, (∃ f, s.useLoads ck w = { s with arr.feeders := f })
    ∧ ∀ i < w, ((s.useLoads ck w).feeder (ck + i)).loadDone = false
  | 0 => ⟨⟨_, rfl⟩, fun i hi => absurd hi (Nat.not_lt_zero i)⟩
  | w + 1 => by
    obtain ⟨⟨f, hf⟩, hdone⟩ := useLoads_rows s ck w
    have hstep : s.useLoads ck (w + 1)
        = (s.useLoads ck w).setFeeder (ck + w) { (s.useLoads ck w).feeder (ck + w) with loadRows := 0, loadDone := false } := by
      simp only [State.useLoads, State.each, List.range_succ, List.foldl_append, List.foldl_cons, List.foldl_nil]
    rw [hstep]
    generalize s.useLoads ck w = t at hf hdone
    refine ⟨?_, fun i hi => ?_⟩
    · subst hf
      exact ⟨_, rfl⟩
    · by_cases hw : i = w
      · rw [hw, feeder_setFeeder_self]
      · rw [feeder_setFeeder_ne _ (by omega)]
        exact hdone i (by omega)

/-- The physical row of a carve's tap, of a use in either orientation (R45). -/
def UseCfg.tapRow (u : UseCfg) (tap : Nat) : Nat := if u.trans then 0 else tap

/-- The physical column of a carve's tap. -/
def UseCfg.tapCol (u : UseCfg) (ck tap : Nat) : Nat := if u.trans then 65 * (ck % 4) + tap else 65 * (ck % 4)

/-- Whether a use's element of a token carries the swap marker (R51). -/
def UseCfg.marks (u : UseCfg) (token : Nat) : Bool := u.swap && decide (token % 256 = 0)

/-- What an element leaves that enters a tap. -/
structure Entered (s t : State) (ck : Nat) (u : UseCfg) (tap token : Nat) (e : BitVec 16 × BitVec 8 × Bool) : Prop where
  only : t = { s with arr.cells := t.arr.cells, arr.feeders := t.arr.feeders }
  cell : t.cell (ck / 4) (u.tapRow tap) (u.tapCol ck tap) = { s.cell (ck / 4) (u.tapRow tap) (u.tapCol ck tap) with
    op := some { code := e.1, scale := e.2.1, token := token, void := e.2.2, swap := u.marks token } }
  released : u.marks token = false → (t.feeder ck).released.read 0 tap = u.after token
  loads : u.marks token = true → (s.feeder ck).entered + 1 = u.taps (s.carveW ck) → ∀ i < s.carveW ck, (t.feeder (ck + i)).loadDone = false

theorem enter_entered {s : State} {ck tap token : Nat} {u : UseCfg} (hskew : tap = 0 ∨ token < (s.feeder ck).released.read 0 (tap - 1))
    (hfree : (s.cell (ck / 4) (u.tapRow tap) (u.tapCol ck tap)).op = none) (hload : u.marks token = true → s.loaded ck (s.carveW ck) u.gen = true)
    (hmay : s.mayEnter ck u token = true) (e : BitVec 16 × BitVec 8 × Bool) :
    ∃ t, s.enter ck u tap token e.1 e.2.1 e.2.2 = some t ∧ Entered s t ck u tap token e := by
  have hplace : (if u.trans = true then ((0, 65 * (ck % 4) + tap) : Nat × Nat) else (tap, 65 * (ck % 4))) = (u.tapRow tap, u.tapCol ck tap) := by
    unfold UseCfg.tapRow UseCfg.tapCol
    split <;> rfl
  unfold State.enter
  dsimp only
  rw [hplace]
  dsimp only
  change ∃ t, (if _ ∧ _ ∧ (!u.marks token || _) = true ∧ _ then _ else _) = some t ∧ _
  rw [if_pos ⟨hskew, by rw [hfree]; rfl, by cases hm : u.marks token <;> simp [hload, hm], hmay⟩]
  refine ⟨_, rfl, ?_⟩
  change Entered s (if u.marks token = true ∧ (if u.marks token = true then (s.feeder ck).entered + 1 else (s.feeder ck).entered) = _ then _ else _) ck u tap token e
  generalize hn : (if u.marks token = true then (s.feeder ck).entered + 1 else (s.feeder ck).entered) = n
  generalize ht : State.setFeeder (s.setCell _ _ _ _) ck _ = t
  have hcell : t.cell (ck / 4) (u.tapRow tap) (u.tapCol ck tap) = { s.cell (ck / 4) (u.tapRow tap) (u.tapCol ck tap) with
      op := some { code := e.1, scale := e.2.1, token := token, void := e.2.2, swap := u.marks token } } := by
    rw [← ht]
    exact cell_setCell_self ..
  have honly : t = { s with arr.cells := t.arr.cells, arr.feeders := t.arr.feeders } := by
    rw [← ht]
    rfl
  split_ifs with hlast
  · obtain ⟨⟨f, hf⟩, hdone⟩ := useLoads_rows t ck (s.carveW ck)
    refine ⟨?_, ?_, fun h => absurd (hlast.1.symm.trans h) (by decide), fun _ _ i hi => ?_⟩
    · rw [hf]
      exact (congrArg (fun x : State => ({ x with arr.feeders := f } : State).setFeeder ck { ({ x with arr.feeders := f } : State).feeder ck with entered := 0 })
        honly).trans rfl
    · rw [hf]
      exact hcell
    · by_cases h0 : i = 0
      · rw [h0, Nat.add_zero, feeder_setFeeder_self]
        exact hdone 0 (h0 ▸ hi)
      · rw [feeder_setFeeder_ne _ (by omega)]
        exact hdone i hi
  · refine ⟨honly, hcell, fun _ => ?_, fun hm hall => absurd ⟨hm, ?_⟩ hlast⟩
    · rw [← ht, feeder_setFeeder_self]
      exact Table.read_insert_self ..
    · rw [← hn, if_pos hm, hall]

/-- Without its load-complete tokens no marker enters (R51). -/
theorem enter_of_unloaded {s : State} {ck tap token : Nat} {u : UseCfg} (hmark : u.marks token = true) (hload : s.loaded ck (s.carveW ck) u.gen = false)
    (code : BitVec 16) (scale : BitVec 8) (void : Bool) : s.enter ck u tap token code scale void = none := by
  unfold State.enter
  dsimp only
  refine if_neg ?_
  rintro ⟨-, -, h, -⟩
  change (!u.marks token || s.loaded ck (s.carveW ck) u.gen) = true at h
  rw [hmark, hload] at h
  exact absurd h (by decide)

/-- The feeder's release of the next element of a tap (R46, R51). -/
theorem release_entered {s : State} {p q tap token : Nat} {u : UseCfg} {l : LapTile} (hnext : s.nextToken (s.carveAt p q) tap = some (u, token))
    (hrun : s.mayRun u.slot.toNat = true) (hlap : u.lap = some l)
    (hready : s.tapIndex (s.carveAt p q) u tap = none ∨ (l.src ≠ .stream ∧ s.lapReady l = true)) (hmay : s.mayEnter (s.carveAt p q) u token = true)
    (hskew : tap = 0 ∨ token < (s.feeder (s.carveAt p q)).released.read 0 (tap - 1))
    (hfree : (s.cell (s.carveAt p q / 4) (u.tapRow tap) (u.tapCol (s.carveAt p q) tap)).op = none)
    (hload : u.marks token = true → s.loaded (s.carveAt p q) (s.carveW (s.carveAt p q)) u.gen = true) :
    Entered s (s.release p q tap (u.marks token)) (s.carveAt p q) u tap token
      (match s.tapIndex (s.carveAt p q) u tap with
        | some i => s.lapElem u l token i
        | none => (0, 0, true)) := by
  unfold State.release
  dsimp only
  generalize s.carveAt p q = ck at *
  rw [hnext]
  dsimp only
  rw [hrun, if_neg (by simp [UseCfg.marks]), hlap]
  rcases htap : s.tapIndex ck u tap with _ | i
  · obtain ⟨t, he, hent⟩ := enter_entered hskew hfree hload hmay (0, 0, true)
    dsimp only at he ⊢
    rw [he]
    exact hent
  · obtain ⟨hsrc, hlr⟩ := hready.resolve_left (by rw [htap]; exact Option.some_ne_none i)
    obtain ⟨t, he, hent⟩ := enter_entered hskew hfree hload hmay (s.lapElem u l token i)
    dsimp only
    rw [if_neg (by simp [hsrc, hlr]), he]
    exact hent

/-! ## Weights -/

theorem cellKey_inj_col {p row a b : Nat} (h : cellKey p row a = cellKey p row b) : a = b := Nat.add_left_cancel h

/-- Columns of one row, each written by what it held. -/
theorem each_setCell_row (f : Nat → Cell → Cell) (s : State) (p row base : Nat) : ∀ n,
    (∃ c, s.each (List.range n) (fun t i => t.setCell p row (base + i) (f i (t.cell p row (base + i)))) = { s with arr.cells := c })
      ∧ ∀ i, (s.each (List.range n) (fun t i => t.setCell p row (base + i) (f i (t.cell p row (base + i))))).cell p row (base + i)
        = if i < n then f i (s.cell p row (base + i)) else s.cell p row (base + i)
  | 0 => ⟨⟨_, rfl⟩, fun _ => rfl⟩
  | n + 1 => by
    obtain ⟨⟨c, hc⟩, hcells⟩ := each_setCell_row f s p row base n
    have hstep : s.each (List.range (n + 1)) (fun t i => t.setCell p row (base + i) (f i (t.cell p row (base + i))))
        = (s.each (List.range n) (fun t i => t.setCell p row (base + i) (f i (t.cell p row (base + i))))).setCell p row (base + n)
          (f n ((s.each (List.range n) (fun t i => t.setCell p row (base + i) (f i (t.cell p row (base + i))))).cell p row (base + n))) := by
      simp only [State.each, List.range_succ, List.foldl_append, List.foldl_cons, List.foldl_nil]
    rw [hstep]
    generalize s.each (List.range n) _ = t at hc hcells
    refine ⟨?_, fun i => ?_⟩
    · subst hc
      exact ⟨_, rfl⟩
    · by_cases hi : i = n
      · rw [hi, cell_setCell_self, hcells n, if_neg (Nat.lt_irrefl n), if_pos (Nat.lt_succ_self n)]
      · rw [cell_setCell_ne _ fun h => hi (Nat.add_left_cancel (cellKey_inj_col h)).symm, hcells i]
        exact if_congr (by omega) rfl rfl

/-- A cell's back registers as a load writes them (R50). -/
def Cell.loaded (gen : Nat) (e : BitVec 16 × BitVec 8) (c : Cell) : Cell := { c with backW := e.1, backS := e.2, backG := gen }

/-- What a row position of a use's load writes at each column: the stationary tile's, or zero at a pad. -/
def State.loadWord (s : State) (u : UseCfg) (h : TileHdr) (p q ck row : Nat) (i : Nat) : BitVec 16 × BitVec 8 :=
  match s.logicalRow p row, s.logicalCol p (65 * q + i) with
  | some r, some n => s.stationary u h r (64 * (q - ck % 4) + n)
  | _, _ => (0, 0)

/-! ## Anchors -/

theorem anchorsOf_scaled (s : State) {ck : Nat} {u : UseCfg} (h : u.twoCols = false) (l : LapTile) (tp : Nat) {np : Nat}
    (hnp : np < u.laneCount (s.carveW ck) / 8) :
    (s.anchorsOf ck u l tp).getD np 0 = (scaleMax (s.scalePairs ck (s.carveW ck) u l tp np)).getD 0 + pairT u.opFmt u.stFmt := by
  unfold State.anchorsOf
  dsimp only
  rw [if_neg (by rw [h]; decide)]
  simp [List.getD_eq_getElem?_getD, List.getElem?_map, List.getElem?_range hnp]

theorem anchorsOf_paired (s : State) {ck : Nat} {u : UseCfg} (h : u.twoCols = true) (l : LapTile) (tp : Nat) {i j : Nat} (hi : i < 8) (hj : j < 256)
    (hlane : j < u.laneCount (s.carveW ck)) :
    (s.anchorsOf ck u l tp).getD (256 * i + j) 0 = (pairMax (s.expPairs ck (s.carveW ck) u l (8 * tp + i) j)).getD 0 + pairT u.opFmt u.stFmt := by
  unfold State.anchorsOf
  dsimp only
  rw [if_pos h]
  have hlt : 256 * i + j < 2048 := by omega
  have hdiv : (256 * i + j) / 256 = i := by omega
  have hmod : (256 * i + j) % 256 = j := by omega
  simp [List.getD_eq_getElem?_getD, List.getElem?_map, List.getElem?_range hlt, hdiv, hmod, hlane]

/-- Settles O21. -/
theorem releasesLoadsAndAnchors : Obligations.ReleasesLoadsAndAnchors := by
  simp only [Obligations.ReleasesLoadsAndAnchors, Answers, exec]
  refine ⟨fun s stn q tap u token l hup hnext hrun hplain hlap hready hmay hskew hfree => ?plain,
    fun s stn q tap u token l hup hnext hrun hswap hfirst hlap hready hmay hskew hfree hload => ?marked,
    fun s stn q tap u token hup hnext hswap hfirst hload => ?waits, fun s stn q u h hup huse hh hdone hrow hstate htier hback => ?load,
    fun s stn q hup hrows => ?complete, fun s stn q tp u l hup huse hlap hin => ?anchor⟩
  case plain =>
    refine event_answers hup ?_
    have hmark : u.marks token = false := by
      cases hs : u.swap
      · simp [UseCfg.marks, hs]
      · simp [UseCfg.marks, hplain hs]
    have hent := release_entered hnext hrun hlap hready hmay hskew hfree (fun h => absurd (hmark.symm.trans h) (by decide))
    obtain ⟨honly, hcell, hrel, -⟩ := hent
    rw [hmark] at hcell hrel honly
    exact ⟨hcell, hrel rfl, honly⟩
  case marked =>
    refine event_answers hup ?_
    have hmark : u.marks token = true := by simp [UseCfg.marks, hswap, hfirst]
    have hent := release_entered hnext hrun hlap hready hmay hskew hfree (fun _ => hload)
    obtain ⟨honly, hcell, -, hloads⟩ := hent
    rw [hmark] at hcell hloads honly
    exact ⟨congrArg Cell.op hcell, hloads rfl, honly⟩
  case waits =>
    refine event_idle s ?_
    have hmark : u.marks token = true := by simp [UseCfg.marks, hswap, hfirst]
    unfold State.release
    dsimp only
    generalize s.carveAt stn.val q.val = ck at *
    rw [hnext]
    dsimp only
    split_ifs
    · rfl
    · split
      · rw [enter_of_unloaded hmark hload]
        rfl
      · split
        · rfl
        · rw [enter_of_unloaded hmark hload]
          rfl
      · rfl
  case load =>
    refine event_answers hup ?_
    dsimp only
    rw [huse]
    dsimp only
    rw [hh]
    dsimp only
    generalize hgen : (if (s.feeder (4 * stn.val + q.val)).loadRows = 0 then (s.feeder (4 * stn.val + q.val)).loads + 1
      else (s.feeder (4 * stn.val + q.val)).loads) = gen at *
    generalize (s.feeder (4 * stn.val + q.val)).loadRows = row at *
    generalize s.carveAt stn.val q.val = ck at *
    have hfresh : ((List.range 65).any fun i => decide ((s.cell stn.val row (65 * q.val + i)).frontG < (s.cell stn.val row (65 * q.val + i)).backG
        ∧ (s.cell stn.val row (65 * q.val + i)).backG ≠ gen)) = false := by
      refine List.any_eq_false.mpr fun i hi => ?_
      rw [decide_eq_true_eq]
      rintro ⟨hlt, hne⟩
      exact (hback i (List.mem_range.mp hi)).elim (fun h => absurd hlt (Nat.not_lt.mpr h)) hne
    rw [if_neg (by rw [hfresh, hdone, hstate]; simp; omega)]
    generalize ht : State.each _ (List.range 65) _ = t
    obtain ⟨⟨x, hx⟩, hcells⟩ : (∃ c, t = { s with arr.cells := c }) ∧ ∀ i, t.cell stn.val row (65 * q.val + i)
        = if i < 65 then Cell.loaded gen (s.loadWord u h stn.val q.val ck row i) (s.cell stn.val row (65 * q.val + i))
          else s.cell stn.val row (65 * q.val + i) := by
      rw [← ht]
      exact each_setCell_row (fun i => Cell.loaded gen (s.loadWord u h stn.val q.val ck row i)) s stn.val row (65 * q.val) 65
    refine ⟨?_, ?_, fun i hi => ?_, ?_⟩
    · rw [feeder_setFeeder_self]
    · rw [feeder_setFeeder_self]
    · have hcell := (hcells i).trans (if_pos hi)
      rw [cell_setFeeder, hcell]
      exact ⟨rfl, rfl⟩
    · rw [hx]
      rfl
  case complete =>
    refine (event_of_up hup _).trans (congrArg _ ?_)
    exact if_pos hrows
  case anchor =>
    refine event_answers hup ?_
    dsimp only
    rw [huse]
    dsimp only
    rw [hlap]
    dsimp only
    rw [if_pos hin]
    have hmode : u.mode = 0 := by
      have := List.find?_some huse
      simp only [Bool.and_eq_true, decide_eq_true_eq] at this
      exact this.1
    refine ⟨⟨_, Table.lookup_insert_self .., fun hne np hnp => ?_, fun heq i j hi hj hlane => ?_⟩, rfl⟩
    · exact anchorsOf_scaled s (by simp [UseCfg.twoCols, hne]) l tp.toNat hnp
    · exact anchorsOf_paired s (by simp [UseCfg.twoCols, hmode, heq]) l tp.toNat hi hj hlane

end Machine
end Sys2Proof

/-! SUPPORT. Tiles that lap from station to station, enter the Rink and leave it (O24). -/

namespace Sys2Proof
namespace Machine

/-- A use takes a tile of its format, in matrix mode or of one scale (R80, R148). -/
theorem acceptLap_rows {s : State} {ck : Nat} {u : UseCfg} {l : LapTile} (hu : u ∈ s.usesOf ck) (hfmt : l.fmt = u.opFmt)
    (hmode : u.mode = 0 ∨ l.oneScale u.pc = true) :
    s.acceptLap ck u l = { s with arr.uses := (s.acceptLap ck u l).arr.uses }
      ∧ ∃ v ∈ (s.acceptLap ck u l).usesOf ck, v.ord = u.ord ∧ v.lap = some l := by
  have hset : s.acceptLap ck u l = s.setUse ck { u with lap := some l, ref := s.productRef ck u l } := by
    refine if_neg ?_
    rintro (h | ⟨hm, h⟩)
    · exact h hfmt
    · rw [hmode.resolve_left hm] at h
      exact absurd h (by decide)
  rw [hset]
  refine ⟨rfl, { u with lap := some l, ref := s.productRef ck u l }, ?_, rfl, rfl⟩
  rw [usesOf_setUse]
  exact List.mem_map.mpr ⟨u, hu, if_pos rfl⟩

theorem mem_of_hopTaker {s : State} {dst tap : Nat} {e : Nat × Operand × LapTile} {u : UseCfg} (h : s.hopTaker dst e = some (u, tap)) :
    u ∈ s.usesOf dst := by
  obtain ⟨v, hv, hx⟩ := List.exists_of_findSome?_eq_some h
  split_ifs at hx
  split at hx
  · split_ifs at hx
    obtain ⟨rfl, -⟩ := Prod.mk.inj (Option.some.inj hx)
    exact hv
  · cases hx

theorem mem_of_injectTaker {s : State} {ck : Nat} {l : LapTile} {u : UseCfg} (h : s.injectTaker ck l = some u) : u ∈ s.usesOf ck :=
  List.mem_of_find?_eq_some h

/-- A tile taken from a die's inject queue laps through the use that takes it, and has left the queue (R75). -/
theorem acceptLap_injected {s : State} {ck : Nat} {u : UseCfg} {l : LapTile} (die : Nat) (e : LapTile × Nat) (hu : u ∈ s.usesOf ck)
    (hfmt : l.fmt = u.opFmt) (hmode : u.mode = 0 ∨ l.oneScale u.pc = true) :
    let t := ({ s with arr.inject := s.arr.inject.write [] die ((s.arr.inject.read [] die).erase e) } : State).acceptLap ck u l
    (∃ v ∈ t.usesOf ck, v.ord = u.ord ∧ v.lap = some l) ∧ t.arr.inject.read [] die = (s.arr.inject.read [] die).erase e
      ∧ t = { s with arr.uses := t.arr.uses, arr.inject := t.arr.inject } := by
  generalize hs1 : ({ s with arr.inject := s.arr.inject.write [] die ((s.arr.inject.read [] die).erase e) } : State) = s1
  have hmem : u ∈ s1.usesOf ck := by
    rw [← hs1]
    exact hu
  obtain ⟨honly, huse⟩ := acceptLap_rows hmem hfmt hmode
  intro t
  refine ⟨huse, ?_, ?_⟩
  · refine ((congrArg (fun x : State => x.arr.inject.read [] die) honly).trans rfl).trans ?_
    rw [← hs1]
    exact Table.read_write_self [] ..
  · rw [show t = _ from honly, ← hs1]

/-- The oldest element of a hop buffer goes first (R53). -/
theorem hop_oldest {s t : State} {stn next q : Nat} {e : Nat × Operand × LapTile} {rest : List (Nat × Operand × LapTile)}
    (hhops : s.arr.hops.read [] (4 * stn + q) = e :: rest) (hrun : s.mayRun e.2.2.slot.toNat = true)
    (hnext : s.nextStation e.2.2.slot.toNat stn = some next) (h : s.hop (4 * stn + q) (4 * next + q) e = some t) :
    (((s.arr.hops.read [] (4 * stn + q)).filter (fun e => s.mayRun e.2.2.slot.toNat && s.nextStation e.2.2.slot.toNat stn = some next)).findSome?
      (fun e => s.hop (4 * stn + q) (4 * next + q) e)).getD s = t := by
  rw [hhops, List.filter_cons_of_pos (by simp [hrun, hnext]), List.findSome?_cons, h]
  rfl

/-- Settles O24. -/
theorem lapRows : Obligations.LapRows := by
  simp only [Obligations.LapRows, Answers, exec]
  refine ⟨fun s stn next q e rest u tap hup hhops hrun hnext htaker hlap hfmt hmode => ?laps,
    fun s stn next q e rest u tap l hup hhops hrun hnext htaker hlap hskew hfree hload hmay => ?enters,
    fun s die stn q e u head hup hfind htaker hrun hready hhead hfmt hmode => ?injected,
    fun s stn q key es e hup hfind hhd hvisits hsummed => ?retired,
    fun s stn q key es e d p hup hfind hhd hvisits hsummed hd hp hroom => ?again⟩
  case laps =>
    refine event_answers hup ?_
    have hhop : s.hop (4 * stn.val + q.val) (4 * next.val + q.val) e
        = some (s.acceptLap (4 * next.val + q.val) u { e.2.2 with visits := e.2.2.visits - 1, src := .stream }) := by
      unfold State.hop
      rw [htaker]
      exact if_pos (by rw [hlap]; rfl)
    rw [hop_oldest hhops hrun hnext hhop]
    obtain ⟨honly, huse⟩ := acceptLap_rows (l := { e.2.2 with visits := e.2.2.visits - 1, src := .stream }) (mem_of_hopTaker htaker) hfmt (.inl hmode)
    exact ⟨huse, (congrArg (fun x : State => x.arr.hops) honly).trans rfl, honly.trans (by rw [honly])⟩
  case enters =>
    refine event_answers hup ?_
    obtain ⟨t, ht, hent⟩ := enter_entered (s := s) (ck := 4 * next.val + q.val) (tap := tap) (token := 256 * u.ord + e.2.1.token) (u := u) hskew hfree
      (fun h => hload (Bool.and_eq_true_iff.mp h).1 (of_decide_eq_true (Bool.and_eq_true_iff.mp h).2)) hmay (e.2.1.code, e.2.1.scale, e.2.1.void)
    obtain ⟨honly, hcell, -, -⟩ := hent
    have hhop : s.hop (4 * stn.val + q.val) (4 * next.val + q.val) e
        = some { t with arr.hops := t.arr.hops.write [] (4 * stn.val + q.val) ((t.arr.hops.read [] (4 * stn.val + q.val)).erase e) } := by
      unfold State.hop
      rw [htaker]
      dsimp only at ht ⊢
      rw [if_neg (by rw [hlap]; exact Bool.false_ne_true), ht]
      rfl
    rw [hop_oldest hhops hrun hnext hhop]
    have hkept : t.arr.hops.read [] (4 * stn.val + q.val) = e :: rest :=
      ((congrArg (fun x : State => x.arr.hops.read [] (4 * stn.val + q.val)) honly).trans rfl).trans hhops
    refine ⟨?_, congrArg Cell.op hcell, ?_⟩
    · refine (Table.read_write_self [] ..).trans ?_
      rw [hkept, List.erase_cons_head]
    · rw [honly]
  case injected =>
    refine event_answers hup ?_
    dsimp only
    rw [hfind]
    dsimp only
    rw [htaker]
    dsimp only
    rw [if_neg (by rw [hrun, hready]; decide)]
    subst hhead
    exact acceptLap_injected die.val e (mem_of_injectTaker htaker) hfmt hmode
  case retired =>
    refine (event_of_up hup _).trans (congrArg _ ?_)
    dsimp only
    rw [hfind]
    dsimp only
    rw [hhd]
    dsimp only
    rw [if_neg (by simpa using hsummed), if_pos hvisits]
  case again =>
    refine event_answers hup ?_
    dsimp only
    rw [hfind]
    dsimp only
    rw [hhd]
    dsimp only
    rw [if_neg (by simpa using hsummed), if_neg (by exact Nat.not_le.mpr hvisits), hd]
    dsimp only [Option.bind]
    rw [hp]
    dsimp only [Option.map]
    rw [if_pos hroom]
    refine ⟨⟨{ e.2.2 with visits := e.2.2.visits - 1, src := .carried (es.map (fun x => (x.1, x.2.1))) }, ?_, rfl, rfl⟩, rfl, rfl⟩
    refine (Table.read_insert_self ..).symm ▸ ?_
    exact List.mem_append_right _ (List.mem_singleton_self _)

end Machine
end Sys2Proof

/-! SUPPORT. A cell fires: where its operand and its sum go (O22). -/

namespace Sys2Proof
namespace Machine

/-- A cell's operand goes on to the next cell, or from the last leaves the array (R45, R53). -/
def State.passOperand (s : State) (p ck : Nat) (u : UseCfg) (tap : Nat) (o : Operand) (edge : Bool) (dst : Nat × Nat) : State :=
  if edge then s.leaveArray ck u tap o else s.setCell p dst.1 dst.2 { s.cell p dst.1 dst.2 with op := some o }

/-- A cell's sum goes on to the next cell, or from the last into its drain lane (R45, R43). -/
def State.passSum (s : State) (p ck : Nat) (lane : Option Nat) (y : PSum) (edge : Bool) (dst : Nat × Nat) : State :=
  if edge then
    (match lane with
    | some l => { s with arr.drainIn := s.arr.drainIn.insert (laneKey ck l) y }
    | none => s)
  else s.setCell p dst.1 dst.2 { s.cell p dst.1 dst.2 with sum := some y }

/-- What leaves the array stands in the hop buffer or the retire queue, behind what stood there. -/
theorem leaveArray_rows (s : State) (ck : Nat) (u : UseCfg) (tap : Nat) (o : Operand) :
    (∃ h r, s.leaveArray ck u tap o = { s with arr.hops := h, arr.retire := r }) ∧
    ∀ l i, u.lap = some l → s.tapIndex ck u tap = some i →
      let e := (i, { o with token := o.token % 256, swap := false }, l)
      if s.lapsOn ck u then (s.leaveArray ck u tap o).arr.hops.read [] ck = s.arr.hops.read [] ck ++ [e]
      else (s.leaveArray ck u tap o).arr.retire.read [] (u.key ck) = s.arr.retire.read [] (u.key ck) ++ [e] := by
  unfold State.leaveArray
  constructor
  · split
    · split_ifs
      · exact ⟨_, s.arr.retire, rfl⟩
      · exact ⟨s.arr.hops, _, rfl⟩
    · exact ⟨s.arr.hops, s.arr.retire, rfl⟩
  · intro l i hl hi
    rw [hl, hi]
    dsimp only
    split_ifs with hlaps
    · exact Table.read_insert_self ..
    · exact Table.read_insert_self ..

/-- What the operand's way leaves. -/
structure OperandPassed (s t : State) (p ck : Nat) (u : UseCfg) (tap : Nat) (o : Operand) (edge : Bool) (dst : Nat × Nat) : Prop where
  only : t = { s with arr := t.arr }
  drains : t.arr.drainIn = s.arr.drainIn
  cells : ∀ row col, cellKey p dst.1 dst.2 ≠ cellKey p row col → t.cell p row col = s.cell p row col
  next : edge = false → (t.cell p dst.1 dst.2).op = some o
  left : edge = true → ∀ l i, u.lap = some l → s.tapIndex ck u tap = some i →
    let e := (i, { o with token := o.token % 256, swap := false }, l)
    if s.lapsOn ck u then t.arr.hops.read [] ck = s.arr.hops.read [] ck ++ [e] else t.arr.retire.read [] (u.key ck) = s.arr.retire.read [] (u.key ck) ++ [e]

theorem passOperand_passed (s : State) (p ck : Nat) (u : UseCfg) (tap : Nat) (o : Operand) (edge : Bool) (dst : Nat × Nat) :
    OperandPassed s (s.passOperand p ck u tap o edge dst) p ck u tap o edge dst := by
  unfold State.passOperand
  cases edge with
  | true =>
    obtain ⟨⟨h, r, he⟩, hleft⟩ := leaveArray_rows s ck u tap o
    rw [if_pos rfl]
    refine ⟨?_, ?_, fun row col _ => ?_, fun h => absurd h (by decide), fun _ => hleft⟩
    · rw [he]
    · rw [he]
    · rw [he]
      rfl
  | false =>
    rw [if_neg Bool.false_ne_true]
    refine ⟨rfl, rfl, fun row col hne => cell_setCell_ne _ hne _, fun _ => ?_, fun h => absurd h (by decide)⟩
    rw [cell_setCell_self]

/-- What the sum's way leaves. -/
structure SumPassed (s t : State) (p ck : Nat) (lane : Option Nat) (y : PSum) (edge : Bool) (dst : Nat × Nat) : Prop where
  only : t = { s with arr := t.arr }
  hops : t.arr.hops = s.arr.hops
  retire : t.arr.retire = s.arr.retire
  cells : ∀ row col, cellKey p dst.1 dst.2 ≠ cellKey p row col → t.cell p row col = s.cell p row col
  next : edge = false → (t.cell p dst.1 dst.2).sum = some y
  drained : edge = true → ∀ l, lane = some l → t.arr.drainIn.lookup (laneKey ck l) = some y

theorem passSum_passed (s : State) (p ck : Nat) (lane : Option Nat) (y : PSum) (edge : Bool) (dst : Nat × Nat) :
    SumPassed s (s.passSum p ck lane y edge dst) p ck lane y edge dst := by
  unfold State.passSum
  cases edge with
  | true =>
    rw [if_pos rfl]
    cases lane with
    | none => exact ⟨rfl, rfl, rfl, fun _ _ _ => rfl, fun h => absurd h (by decide), fun _ l hl => absurd hl (by simp)⟩
    | some l =>
      refine ⟨rfl, rfl, rfl, fun _ _ _ => rfl, fun h => absurd h (by decide), fun _ l' hl => ?_⟩
      obtain rfl := Option.some.inj hl
      exact Table.lookup_insert_self ..
  | false =>
    rw [if_neg Bool.false_ne_true]
    refine ⟨rfl, rfl, rfl, fun row col hne => cell_setCell_ne _ hne _, fun _ => ?_, fun h => absurd h (by decide)⟩
    rw [cell_setCell_self]

/-- A cell that has fired, with its registers `c1`, its operand and its sum passed on. -/
def State.fired (s : State) (p ck : Nat) (u : UseCfg) (o : Operand) (y : PSum) (c1 : Cell) (row col tap : Nat) (lane : Option Nat) (opEdge sumEdge : Bool)
    (opAt sumAt : Nat × Nat) : State :=
  ((s.setCell p row col { c1 with op := none, sum := none }).passOperand p ck u tap o opEdge opAt).passSum p ck lane y sumEdge sumAt

theorem fired_rows (s : State) {p ck : Nat} {u : UseCfg} {o : Operand} {y : PSum} {c1 : Cell} {row col tap : Nat} {lane : Option Nat}
    {opEdge sumEdge : Bool} {opAt sumAt : Nat × Nat} (hop : cellKey p opAt.1 opAt.2 ≠ cellKey p row col)
    (hsum : cellKey p sumAt.1 sumAt.2 ≠ cellKey p row col) (hapart : cellKey p opAt.1 opAt.2 ≠ cellKey p sumAt.1 sumAt.2) :
    let t := s.fired p ck u o y c1 row col tap lane opEdge sumEdge opAt sumAt
    t.cell p row col = { c1 with op := none, sum := none } ∧ (opEdge = false → (t.cell p opAt.1 opAt.2).op = some o)
      ∧ (opEdge = true → ∀ l i, u.lap = some l → s.tapIndex ck u tap = some i →
        let e := (i, { o with token := o.token % 256, swap := false }, l)
        if s.lapsOn ck u then t.arr.hops.read [] ck = s.arr.hops.read [] ck ++ [e] else t.arr.retire.read [] (u.key ck) = s.arr.retire.read [] (u.key ck) ++ [e])
      ∧ (sumEdge = false → (t.cell p sumAt.1 sumAt.2).sum = some y) ∧ (sumEdge = true → ∀ l, lane = some l → t.arr.drainIn.lookup (laneKey ck l) = some y)
      ∧ t = { s with arr := t.arr } := by
  intro t
  have h1 := passOperand_passed (s.setCell p row col { c1 with op := none, sum := none }) p ck u tap o opEdge opAt
  have h2 := passSum_passed ((s.setCell p row col { c1 with op := none, sum := none }).passOperand p ck u tap o opEdge opAt) p ck lane y sumEdge sumAt
  refine ⟨?_, fun he => ?_, fun he l i hl hi => ?_, h2.next, h2.drained, ?_⟩
  · exact (h2.cells row col hsum).trans ((h1.cells row col hop).trans (cell_setCell_self ..))
  · exact (congrArg Cell.op (h2.cells opAt.1 opAt.2 hapart.symm)).trans (h1.next he)
  · have hleft := h1.left he l i hl hi
    dsimp only
    rw [show t.arr.hops = _ from h2.hops, show t.arr.retire = _ from h2.retire]
    exact hleft
  · exact h2.only.trans (congrArg (fun x : State => { x with arr := t.arr }) (h1.only.trans rfl))

/-- A cell adds nothing: its element is void, it is a pad or the second of a pair, or its row lies beyond those in use (R77, R153). -/
def UseCfg.idles (u : UseCfg) (o : Operand) (lr lc : Option Nat) : Bool :=
  o.void || lc.isNone || lr.elim true (fun r => decide (u.kUse ≤ r)) || (u.twoCols && lc.elim true (fun n => decide (n % 2 = 1)))

theorem idles_iff (u : UseCfg) (o : Operand) (lr lc : Option Nat) : u.idles o lr lc = true ↔
    o.void = true ∨ lc = none ∨ (∀ r, lr = some r → u.kUse ≤ r) ∨ (u.opFmt = .bf16 ∧ u.mode = 0 ∧ ∀ n, lc = some n → n % 2 = 1) := by
  unfold UseCfg.idles UseCfg.twoCols
  cases lr <;> cases lc <;> simp
  tauto

/-- A cell's registers once a marker has exchanged front and back (R51). -/
def Cell.swapped (c : Cell) (o : Operand) : Cell :=
  if o.swap then { c with frontW := c.backW, backW := c.frontW, frontS := c.backS, backS := c.frontS, frontG := c.backG, backG := c.frontG } else c

/-- The lanes of the sum that a cell passes on, and the floor truncations that it made. -/
def UseCfg.stepped (u : UseCfg) (o : Operand) (c : Cell) (lr lc : Option Nat) (lanes : List Lane) : List Lane × Nat :=
  if u.idles o lr lc then (lanes, 0) else cellStep u o c lanes

theorem cellFire_eq {s : State} {stn : Fin 104} {row col : Fin 260} {ck : Nat} {u : UseCfg} {o : Operand} {x : PSum} {c : Cell} {lr lc : Option Nat}
    {opEdge sumEdge : Bool} {opAt sumAt : Nat × Nat} (hup : s.up = true) (hck : s.carveAt stn.val (col.val / 65) = ck)
    (hc : s.cell stn.val row.val col.val = c) (hlr : s.logicalRow stn.val row.val = lr)
    (hlc : (s.logicalCol stn.val col.val).map (fun n => 64 * (col.val / 65 - ck % 4) + n) = lc) (hop : c.op = some o) (huse : s.useFor ck o.token = some u)
    (hsum : s.sumAt ck u (if u.trans then decide (col.val = 65 * (ck % 4)) else decide (row.val = 0)) (if u.trans then lr else lc) o c = some x)
    (hopE : (if u.trans then decide (row.val = 259) else decide (col.val = 65 * (ck % 4) + 65 * s.carveW ck - 1)) = opEdge)
    (hsumE : (if u.trans then decide (col.val = 65 * (ck % 4) + 65 * s.carveW ck - 1) else decide (row.val = 259)) = sumEdge)
    (hopAt : (if u.trans then (row.val + 1, col.val) else (row.val, col.val + 1)) = opAt)
    (hsumAt : (if u.trans then (row.val, col.val + 1) else (row.val + 1, col.val)) = sumAt)
    (hopFree : (if opEdge then s.edgeFree ck u else (s.cell stn.val opAt.1 opAt.2).op.isNone) = true)
    (hsumFree : (if sumEdge then (u.laneOf lr lc).elim true (fun l => !s.arr.drainIn.has (laneKey ck l))
      else (s.cell stn.val sumAt.1 sumAt.2).sum.isNone) = true) :
    ∃ n, let r := u.stepped o (c.swapped o) lr lc x.lanes
      let f := s.fired stn.val ck u o { x with lanes := r.1 } (c.swapped o) row.val col.val (if u.trans then col.val - 65 * (ck % 4) else row.val)
        (u.laneOf lr lc) opEdge sumEdge opAt sumAt
      execCellFire stn row col s = .next (if r.2 = 0 then f else f.count 0x0302 n r.2) := by
  refine ⟨4 * stn.val + (if u.trans then ck % 4 + s.carveW ck - 1 else col.val / 65), ?_⟩
  intro r f
  refine (event_of_up hup _).trans (congrArg Host.Outcome.next ?_)
  obtain ⟨frontW, backW, frontS, backS, frontG, backG, op, sum⟩ := c
  obtain rfl : op = some o := hop
  dsimp only
  rw [hck, hc]
  dsimp only [Option.bind]
  rw [huse]
  dsimp only
  rw [hlr, hlc, hsum]
  dsimp only
  rw [hopE, hsumE, hopAt, hsumAt]
  obtain ⟨opR, opC⟩ := opAt
  obtain ⟨suR, suC⟩ := sumAt
  dsimp only at hopFree hsumFree ⊢
  rw [hopFree, hsumFree]
  exact (if_pos rfl).trans rfl

/-- Settles O22. -/
theorem cellsFire : Obligations.CellsFire := by
  intro s stn row col u o x hup p ck w c lr lc first last c1 idle opEdge sumEdge opAt sumAt tap hop huse hsum hopFree hopNext hsumFree hsumNext
  have hne1 : cellKey stn.val (row.val + 1) col.val ≠ cellKey stn.val row.val col.val := by unfold cellKey; omega
  have hne2 : cellKey stn.val row.val (col.val + 1) ≠ cellKey stn.val row.val col.val := by unfold cellKey; omega
  have hne3 : cellKey stn.val (row.val + 1) col.val ≠ cellKey stn.val row.val (col.val + 1) := by unfold cellKey; omega
  have hat : cellKey p opAt.1 opAt.2 ≠ cellKey p row col ∧ cellKey p sumAt.1 sumAt.2 ≠ cellKey p row col
      ∧ cellKey p opAt.1 opAt.2 ≠ cellKey p sumAt.1 sumAt.2 := by
    simp only [opAt, sumAt]
    split
    · exact ⟨hne1, hne2, hne3⟩
    · exact ⟨hne2, hne1, hne3.symm⟩
  obtain ⟨hopCell, hsumCell, hapart⟩ := hat
  have hopE : (if u.trans then decide (row.val = 259) else decide (col.val = last)) = decide opEdge := by
    simp only [opEdge]
    split <;> rfl
  have hsumE : (if u.trans then decide (col.val = last) else decide (row.val = 259)) = decide sumEdge := by
    simp only [sumEdge]
    split <;> rfl
  have hopOk : (if decide opEdge then s.edgeFree ck u else (s.cell p opAt.1 opAt.2).op.isNone) = true := by
    by_cases h : opEdge
    · rw [decide_eq_true h, if_pos rfl, hopFree h]
    · rw [decide_eq_false h, if_neg Bool.false_ne_true, hopNext h]
      rfl
  have hsumOk : (if decide sumEdge then (u.laneOf lr lc).elim true (fun l => !s.arr.drainIn.has (laneKey ck l))
      else (s.cell p sumAt.1 sumAt.2).sum.isNone) = true := by
    by_cases h : sumEdge
    · rw [decide_eq_true h, if_pos rfl]
      cases hl : u.laneOf lr lc with
      | none => rfl
      | some l => exact congrArg not (hsumFree h l hl)
    · rw [decide_eq_false h, if_neg Bool.false_ne_true, hsumNext h]
      rfl
  obtain ⟨n, hexec⟩ := cellFire_eq hup (ck := ck) (c := c) (lr := lr) (lc := lc) rfl rfl rfl rfl hop huse hsum hopE hsumE (opAt := opAt) (sumAt := sumAt)
    rfl rfl hopOk hsumOk
  have hidle : u.idles o lr lc = true ↔ idle := idles_iff u o lr lc
  have hlanes : (idle → (u.stepped o c1 lr lc x.lanes).1 = x.lanes) ∧ (¬idle → (u.stepped o c1 lr lc x.lanes).1 = (cellStep u o c1 x.lanes).1) := by
    refine ⟨fun h => ?_, fun h => ?_⟩
    · rw [UseCfg.stepped, if_pos (hidle.mpr h)]
    · rw [UseCfg.stepped, if_neg (mt hidle.mp h)]
  obtain ⟨hcell, hnext, hleft, hsumTo, hdrain, honly⟩ := fired_rows s (ck := ck) (u := u) (o := o)
    (y := { x with lanes := (u.stepped o c1 lr lc x.lanes).1 }) (c1 := c1) (tap := tap) (lane := u.laneOf lr lc) (opEdge := decide opEdge)
    (sumEdge := decide sumEdge) hopCell hsumCell hapart
  change execCellFire stn row col s = .next (if (u.stepped o c1 lr lc x.lanes).2 = 0 then s.fired p ck u o { x with
    lanes := (u.stepped o c1 lr lc x.lanes).1 } c1 row col tap (u.laneOf lr lc) (decide opEdge) (decide sumEdge) opAt sumAt
    else State.count (s.fired p ck u o { x with lanes := (u.stepped o c1 lr lc x.lanes).1 } c1 row col tap (u.laneOf lr lc) (decide opEdge) (decide sumEdge)
      opAt sumAt) 0x0302 n (u.stepped o c1 lr lc x.lanes).2) at hexec
  generalize (u.stepped o c1 lr lc x.lanes).1 = lanes at *
  generalize (u.stepped o c1 lr lc x.lanes).2 = lost at *
  generalize State.fired _ _ _ _ _ _ _ _ _ _ _ _ _ _ _ = f at *
  obtain ⟨y, g, ht⟩ : ∃ y g, (if lost = 0 then f else f.count 0x0302 n lost) = { f with ctr := y, log := g } := by
    split_ifs
    · exact ⟨f.ctr, f.log, rfl⟩
    · exact count_eq ..
  rw [ht] at hexec
  exact ⟨_, hexec, hcell, fun h => hnext (decide_eq_false h), fun h => hleft (decide_eq_true h),
    ⟨{ x with lanes := lanes }, rfl, hlanes.1, hlanes.2, fun h => hsumTo (decide_eq_false h), fun h => hdrain (decide_eq_true h)⟩,
    by rw [honly]⟩

end Machine
end Sys2Proof

/-! SUPPORT. Every command row runs the packet checks of Table 16.3 before its effect (O8). -/

namespace Sys2Proof
namespace Machine

/-- A row that carries a packet is a command row: the packet's checks, then its effect. -/
theorem exec_of_packet {i : Instr} {c : Hdr} {op : Nat} (hp : i.packet = some c) (ho : i.opcode = some op) (s : State) :
    ∃ k, exec i s = s.command op c k := by
  cases i
  case hello | identity | quote | events | counters | replies | opkey | admitBib | keys | quota | seeds | keyrot | resume | release | map | load | unload
    | run | cancel | freeze | consts | limit | jobConfig | jobEnd | secure | swap | regrow | put | get | object | sysmap | join | drain | rink | vcore
    | withdraw | selftest | calibrate | reset | fwStage | fwActivate | fwSlot | svnAdvance =>
    cases hp
    cases ho
    simp only [exec]
    exact ⟨_, rfl⟩
  all_goals cases hp

/-- A packet that fails a check gets the failing check's status, and nothing else happens (R336, R340). -/
theorem command_refused {s : State} {op : Nat} {c : Hdr} {st : Status} (hserves : s.serves op c.path = true) (hpath : pathTakes c.path c.role = true)
    (hfail : s.firstFailure op c = some st) (k : State → Hdr → State) :
    ∃ t, s.command op c k = .next t ∧ t.replied op c st ∧ t = { s with cmd := t.cmd } := by
  have hfail' : (s.leaveIntake { c with opcode := BitVec.ofNat 16 op }).firstFailure op { c with opcode := BitVec.ofNat 16 op } = some st := by
    rw [firstFailure_leaveIntake]
    exact hfail
  refine ⟨(s.leaveIntake { c with opcode := BitVec.ofNat 16 op }).reply { c with opcode := BitVec.ofNat 16 op } st, ?_, reply_replied .., ?_⟩
  · simp [State.command, hserves, hpath, hfail']
  · obtain ⟨i, e, hleave⟩ := leaveIntake_eq s { c with opcode := BitVec.ofNat 16 op }
    obtain ⟨o, n, x, hreply⟩ := replyAs_eq (s.leaveIntake { c with opcode := BitVec.ofNat 16 op }) { c with opcode := BitVec.ofNat 16 op } st true 0 .none
    unfold State.reply
    rw [hreply, hleave]

/-- A packet whose role its path does not take is counted and gets no reply (Table 16.1). -/
theorem command_misrouted {s : State} {op : Nat} {c : Hdr} (hserves : s.serves op c.path = true) (hpath : pathTakes c.path c.role = false)
    (k : State → Hdr → State) :
    ∃ t, s.command op c k = .next t ∧ t.counter 0x0705 0 = (s.counter 0x0705 0).plus 1 ∧ t.cmd.sent = s.cmd.sent ∧ t.cmd.outbox = s.cmd.outbox
      ∧ t = { s with cmd := t.cmd, ctr := t.ctr, log := t.log } := by
  have hcounter := count_counter (s.leaveIntake { c with opcode := BitVec.ofNat 16 op }) 0x0705 0 1
  have hrow : s.command op c k = .next ((s.leaveIntake { c with opcode := BitVec.ofNat 16 op }).count 0x0705 0 1) := by
    simp [State.command, hserves, hpath]
  obtain ⟨x, l, hcount⟩ := count_eq (s.leaveIntake { c with opcode := BitVec.ofNat 16 op }) 0x0705 0 1
  obtain ⟨i, e, hleave⟩ := leaveIntake_eq s { c with opcode := BitVec.ofNat 16 op }
  rw [hcount, hleave] at hrow hcounter
  exact ⟨_, hrow, hcounter, rfl, rfl, rfl⟩

/-- A packet that no unit serves now changes nothing (R354, R355). -/
theorem command_unserved {s : State} {op : Nat} {c : Hdr} (hserves : s.serves op c.path = false) (k : State → Hdr → State) :
    s.command op c k = .next s := by
  simp [State.command, hserves]

/-- Settles O8. -/
theorem packetChecks : Obligations.PacketChecks := by
  simp only [Obligations.PacketChecks, Answers]
  refine ⟨fun i s c op st hp ho hserves hpath hfail => ?_, fun i s c op hp ho hserves hpath => ?_, fun i s c op hp ho hserves => ?_⟩
  · obtain ⟨k, hk⟩ := exec_of_packet hp ho s
    rw [hk]
    exact command_refused hserves hpath hfail k
  · obtain ⟨k, hk⟩ := exec_of_packet hp ho s
    rw [hk]
    exact command_misrouted hserves hpath k
  · obtain ⟨k, hk⟩ := exec_of_packet hp ho s
    rw [hk]
    exact command_unserved hserves k

end Machine
end Sys2Proof
